-- ==== Sys2Proof/Word.lean ====
section
/-! DEFINITION. The word types of the model and their plainest arithmetic: bytes, register words,
tick stamps and period numbers. Everything a test could show wrong stands under Machine/. -/

namespace Sys2Proof

/-- One byte of a message, a memory or a buffer. -/
abbrev Byte := BitVec 8

/-- One 32-bit word of a noun (02, before R69: nouns are arrays of 32-bit words). -/
abbrev Word := BitVec 32

/-- A value of the 64-bit timebase, in ticks of 1/120 microsecond (01 R14). -/
abbrev Stamp := BitVec 64

/-- A 48-bit period number (01 R17). -/
abbrev Period := BitVec 48

/-- A mailbox channel, MBX0 to MBX3 (02 Table MB-1). -/
abbrev Channel := Fin 4

/-- Ticks in a number of milliseconds: the timebase runs at 120 MHz (00 Table SC-3). -/
def ticksMs (ms : Nat) : Nat := 120000 * ms

/-- Ticks in a number of microseconds. -/
def ticksUs (us : Nat) : Nat := 120 * us

/-- Ticks in a number of seconds. -/
def ticksS (s : Nat) : Nat := 120000000 * s

end Sys2Proof
end

