-- ==== Sys2Proof/Syntax.lean ====
section
/-! DEFINITION. The commands of the block: one constructor of Instr per row of spec/opcode_table.json,
in the table's order, with the operands the row's happening has. -/

namespace Sys2Proof

/-- One mailbox request as it reaches a channel, after the magic, framing version and verb code, which
the row fixes (02 Tables MB-2 and MB-9). `length` is the header's payload_length; `payload` the bytes
that arrived. Under framing v1 there is no tag, epoch or replay, and those operands are not looked at. -/
structure Req where
  ch : Channel
  tag : BitVec 16
  flags : BitVec 8
  noun : BitVec 16
  index : BitVec 16
  length : BitVec 16
  epoch : BitVec 32
  payload : List Byte
  deriving DecidableEq, Repr

/-- The DMA agents, in the fabric priority order of 01 R13; the CSP slave readers and the TWT1 mirror
copy use the assembler's holding (07 Table PM-2). -/
inductive Agent where
  | drill | assembler | slaveReader | mirrorCopy | yoke | usb | storage | steward
  | thr (n : Fin 4)
  deriving DecidableEq, Repr

/-- What an element access is for (07 R236). -/
inductive Access where
  | read | write | fetch
  deriving DecidableEq, Repr

/-- What the access met beyond the plot map and the bank: nothing, an external-memory time-out
(05 R180) or an uncorrectable word (07 R228). -/
inductive ExtCause where
  | none | timeout | ecc
  deriving DecidableEq, Repr

/-- A disturbance inside a hardened kernel: the word produced for one element comes out with some bits
flipped (08 R271, the fault its residue check looks for). `step` counts hardened operations of POLYEVAL. -/
structure Upset where
  step : Nat
  element : Nat
  mask : BitVec 64
  deriving DecidableEq, Repr

/-- A period marker on the yoke line (10 Table YK-2). -/
structure Marker where
  commitPoint : Bool
  hop : Byte
  flags : Byte
  period : Period
  crcOk : Bool
  deriving DecidableEq, Repr

/-- The header of a yoke command frame and the outcome of its CRC-32 (10 R338). -/
structure Frame where
  dest : Byte
  seq : BitVec 16
  crcOk : Bool
  deriving DecidableEq, Repr

/-- The GRANT payload (10 Table YK-3): seven slots of start in ns and bytes. -/
structure GrantPlan where
  applyPeriod : Period
  periodTicks : BitVec 32
  balkNs : BitVec 16
  slots : List (BitVec 32 × BitVec 16)
  deriving DecidableEq, Repr

/-- A segment as the lead receives it (10 Table YK-4). -/
structure Segment where
  position : Fin 7
  flags : Byte
  ackSeq : BitVec 16
  answer : Byte
  replyOffset : BitVec 16
  layoutId : BitVec 32
  need : BitVec 32
  events : BitVec 64
  body : List Byte
  fragment : List Byte
  crcOk : Bool
  deriving DecidableEq, Repr

/-- What a member hears in its listen window (10 R382). -/
inductive Heard where
  | nothing | preamble | rediscovery
  deriving DecidableEq, Repr

/-- The levels at the strap balls at a release (12 R452; SERVICE and TEST_EN are read live, 15 R532). -/
structure Straps where
  legacy : Bool
  ykLead : Bool
  twa : BitVec 3
  gang : Bool
  service : Bool
  testEn : Bool
  deriving DecidableEq, Repr

/-- The reference sources of 12 Table CK-1. -/
inductive Source where
  | crystal | refin | yoke
  deriving DecidableEq, Repr

/-- The test modes of USB 2.0 (09 Table US-1). -/
inductive TestMode where
  | testJ | testK | se0Nak | packet | forceEnable
  deriving DecidableEq, Repr

/-- A standard control request to the function (09 Table US-1), by its effect on the device state;
`vendorOrClass` is any other. -/
inductive UsbRequest where
  | setAddress (a : BitVec 7)
  | setConfiguration (n : Byte)
  | setRemoteWake (on : Bool)
  | setTestMode (t : TestMode)
  | getDeviceDescriptor
  | getSerialString
  /-- GET_DESCRIPTOR with any other type: configuration, device qualifier, other speed configuration, BOS and the rest. -/
  | getDescriptor (type : Byte)
  | vendorOrClass
  deriving DecidableEq, Repr

/-- A request to the hub other than port power or TT clearing, or a read of its status endpoint (09 R299, R322). -/
inductive HubRequest where
  | portReset | portEnable | portDisable | portSuspend | portResume
  | testMode (t : TestMode)
  | clearOverCurrentChange | clearConnectionChange | clearSuspendChange | clearResetChange | clearHubOverCurrentChange
  | getPortStatus | getHubStatus | getHubDescriptor | getDeviceDescriptor | getConfiguration
  /-- An IN token on the hub's status endpoint. -/
  | statusChange
  | getTtState | stopTt
  deriving DecidableEq, Repr

/-- What an OCI input does: it rises, it has been high for 8 ms without a break, or it falls (09 R321). -/
inductive OciEvent where
  | rises | held | falls
  deriving DecidableEq, Repr

/-- An OCI input of a port and what it does. -/
structure OciChange where
  port : Fin 4
  event : OciEvent
  deriving DecidableEq, Repr

/-- What a two-wire write carries behind its pointer: bytes, and the byte that comes last where PEC is enabled (06 R208, R215). -/
structure TwtData where
  bytes : List Byte
  pec : Byte
  deriving DecidableEq, Repr

/-- The bulk endpoints that a hard plot fault can end (09 R327). -/
inductive BulkEp where
  | ep1 | ep2 | ep6
  deriving DecidableEq, Repr

/-- The key under which Almanac records are merged (13 R474). -/
structure MergeKey where
  type : Byte
  source : BitVec 16
  index : BitVec 16
  code : BitVec 16
  deriving DecidableEq, Repr

/-- Whether the first and the second read-back of a written Almanac slot match (13 R476). -/
structure ReadBack where
  first : Bool
  second : Bool
  deriving DecidableEq, Repr

/-- The commands, one per row of the table. -/
inductive Instr where
  -- mailbox verbs
  | badFrame (ch : Channel) (magic version : Byte)
  | describe (r : Req)
  | get (r : Req)
  | stage (r : Req)
  | commit (r : Req) (checkTicks : Nat) (saveOk : Bool)
  | discard (r : Req)
  | start (r : Req)
  | stop (r : Req)
  | carveAllocate (r : Req)
  | carveRelease (r : Req)
  | carveQuery (r : Req)
  | snap (r : Req) (reused : Bool)
  | events (r : Req)
  | almanacRead (r : Req)
  | almanacMark (r : Req)
  | almanacClearFirst (r : Req)
  | thrLoadInlineChunk (r : Req)
  | thrLoadFromStore (r : Req)
  | thrUnload (r : Req)
  | thrAllocate (r : Req)
  | thrSubmit (r : Req)
  | thrCancel (r : Req)
  | thrStatus (r : Req)
  | thrReturn (r : Req)
  | yokeCtlForward (r : Req)
  | yokeCtlStatus (r : Req)
  | yokeCtlRelease (r : Req)
  | yokeCtlRerange (r : Req)
  | yokeCtlLeave (r : Req)
  | fallow (r : Req)
  | wakeCancel (r : Req)
  | wakeHold (r : Req)
  | harrowArm (r : Req)
  | harrowSet (r : Req)
  | harrowDisarmSlots (r : Req)
  | harrowDisarmAll (r : Req)
  | harrowSeal (r : Req)
  | updateStageBegin (r : Req)
  | updateStageChunk (r : Req)
  | updateStageFinish (r : Req)
  | updateStageAbandon (r : Req)
  | updateSwap (r : Req)
  | resetUnit (r : Req)
  | detach (r : Req)
  | powerQuery (r : Req)
  | powerSetBanks (r : Req)
  -- two-wire targets and EP2
  | twtRequestWrite (target : Fin 2) (data : List Byte) (pec : Byte)
  | twtReplyRead (target : Fin 2) (clocked : Nat) (pecClocked : Bool)
  | twtRegisterRead (target : Fin 2) (pointer : Option Byte) (count : Nat)
  | twtRegisterWrite (target : Fin 2) (pointer : Byte) (data : TwtData)
  | virtualTargetRead (address : BitVec 7) (pointer : Option Byte) (count : Nat)
  | twtBusTimeout (target : Fin 2)
  | ep2ReplyRead
  | shadowTimeout
  -- the period and the drill
  | captureLine
  | syncInEdge (t : Stamp)
  | recoveryFrameEnd (port : Fin 8)
  | entryLaunch (furrow : Fin 9) (entry : Fin 32)
  | entryComplete (furrow : Fin 9) (entry : Fin 32) (sdi : List Bool) (t : Stamp)
  | deadlineAbort (furrow : Fin 9) (entry : Fin 32) (clocked : Nat) (wireDone : Bool)
  | startBitTimeout (port : Fin 8) (entry : Fin 32)
  | assemblyStart
  | assemblyComplete
  | txPrefetchComplete (port : Fin 8) (entry : Fin 32)
  | drillHardFault (assembler : Bool)
  -- CSP slave role and the storage port
  | slaveTransactionStart (port : Fin 8)
  | slaveTransactionEnd (port : Fin 8) (units : Nat) (starved : Bool)
  | norWindowWrite (agent : Agent) (sel : Fin 2) (offset : BitVec 28) (data : List Byte)
  | norGatherEnd (sel : Fin 2)
  | norStatusPoll (sel : Fin 2) (status : Byte)
  | norProgramDone (sel : Fin 2)
  | programTimeout (sel : Fin 2)
  | externalAccessTimeout (agent : Agent) (sel : Fin 2) (vaddr : BitVec 32) (index : Nat) (dir : Access)
  -- SENT and edge inputs
  | sentFrameEnd (c : Fin 24) (pulses : List Nat) (nextPulse : Nat) (syncEnd t : Stamp)
  | sentAbsentTimeout (c : Fin 24)
  | edgeSeen (k : Fin 32) (level : Bool) (t : Stamp)
  | edgeAccept (k : Fin 32)
  -- memory and faults
  | plotFault (agent : Agent) (dir : Access) (vaddr : BitVec 32) (index : Nat) (ext : ExtCause)
  | faultResolve
  | bankWakeComplete (b : Fin 64)
  | bankWakeTimeout (b : Fin 64)
  | bankIdleGate (b : Fin 64)
  | eccScrub (found : List (BitVec 22 × Bool))
  -- Thresher kernels and scheduling
  | emul (c : Fin 4) (upset : Option Upset)
  | eadd (c : Fin 4) (upset : Option Upset)
  | esub (c : Fin 4)
  | emac (c : Fin 4)
  | ntt (c : Fin 4)
  | intt (c : Fin 4)
  | automorph (c : Fin 4)
  | baseconv (c : Fin 4)
  | rescale (c : Fin 4)
  | decomp (c : Fin 4)
  | polyeval (c : Fin 4) (upset : Option Upset)
  | feature (c : Fin 4)
  | rerand (c : Fin 4)
  | handoff (c : Fin 4)
  | zero (c : Fin 4)
  | drop (c : Fin 4)
  | endIteration (c : Fin 4)
  | preemptionPoint
  | timeSliceExpiry
  | laneIdleGate
  | handoffTimeout (c : Fin 4)
  | thrLoadOwnerTimeout (c : Fin 4) (id : Fin 64)
  -- yoke link
  | markerSend
  | markerReceived (m : Marker) (t : Stamp)
  | mbx (f : Frame) (fragment : List Byte)
  | joinAccept (f : Frame) (serial : BitVec 64) (g : GrantPlan)
  | range (f : Frame) (tTaNs : BitVec 32)
  | setDelay (f : Frame) (d : BitVec 32)
  | trim (f : Frame) (correction : BitVec 16)
  | grant (f : Frame) (g : GrantPlan)
  | quarantine (f : Frame)
  | release (f : Frame)
  | replyResend (f : Frame) (offset : BitVec 16)
  | replyDone (f : Frame)
  | fallowPropose (f : Frame) (id : Byte) (deep : Bool) (sleepMs : BitVec 32)
  | fallowCommit (f : Frame) (id : Byte) (pc : Period)
  | fallowAbort (f : Frame) (id : Byte)
  | segmentSend
  | segmentReceived (position : Fin 7) (start : Option Int) (g : Segment)
  | joinRequestSend
  | joinRequestReceived (position : Fin 7) (serial : BitVec 64) (crcOk : Bool)
  | trimRunEnd
  | memberLost (position : Fin 7)
  | releaseRetryTimer
  | orphanTimeout
  | acceptLapse
  | commitMarkerMissing
  | wakeBurstDetected
  | listenWindow (heard : Heard)
  -- power, backup and hot plug
  | wakeSource (bit : Fin 11)
  | sleepTimerExpiry
  | fallowResume (crcOk : Bool)
  | vinUvloRise (vin10mv : BitVec 16) (vbakMv : BitVec 16) (pins : Straps)
  | vinLowWarning (vin10mv : BitVec 16)
  | vinUndervoltage (vin10mv : BitVec 16)
  | vinHighWarning (vin10mv : BitVec 16)
  | vinOvervoltage (vin10mv : BitVec 16)
  | vinOvervoltageRecover (vin10mv : BitVec 16)
  | vsysOverload
  | vsysCollapse
  | bankSupplyLost (b : Fin 4)
  | bankSupplyRestored (b : Fin 4) (is1v8 : Bool)
  | thermalWarning
  | thermalShutdown
  | thermalRestart
  | vbakMeasure (vbakMv vresMv : BitVec 16)
  | alarmInput (k : Fin 4) (rtc : BitVec 64)
  | backupRecordWrite
  | alarmHoldoffEnd
  | backupWriteAbort
  | prsntSettled
  | emergencyDetach
  | detachRelease
  | detachCycle
  -- reset, boot and clocks
  | resetNAssert
  | resetRelease (pins : Straps)
  | watchdogPrewarning
  | watchdogExpiry
  | bootImageVerify
  | furtherPartFail (part : Fin 16)
  | noReferenceAtBoot
  | mailboxesReady
  | autostartStart
  | almanacScanDone
  | almanacRecordCommit (ring zone : ReadBack)
  | mergeWindowClose (key : MergeKey)
  | recordDrop
  | ep6TransferEnd
  | intNCoalesceExpiry
  | referenceLost
  | holdoverExpiry
  | sourceQualified (src : Source)
  | sourceSwitchComplete
  | relockComplete
  | switchBack
  | pllUnlock
  | aonCalibrationRun (ticks : Nat)
  | timebaseRealign (cycles : Nat)
  -- USB, hub and event reports
  | usbPullupEnable
  | usbBusReset
  | vbusLost
  | usbSuspend
  | usbResume
  | remoteWake
  | ep3Report
  | ep3ReportAck
  | streamCopyComplete (ep : Fin 2)
  | isoInToken (ep : Fin 2)
  | setInterface (ep : Fin 2) (alt : Fin 4)
  | usbControlRequest (q : UsbRequest)
  | setPortPower (port : Fin 5)
  | clearPortPower (port : Fin 5)
  | clearTtBuffer
  | resetTt
  | hubOverCurrent (oci : OciChange)
  | hubConnectChange (port : Fin 4) (connected : Bool) (speed : Fin 3)
  | bulkTransferFault (ep : BulkEp)
  -- unit resets, update and Harrow timers
  | unitResetComplete (noun : BitVec 16)
  | stagingTimeout
  | trialClear
  | consentExpiry (ch : Channel)
  | harrowWindowClose (slot : Fin 4)
  | noSuchVerb (verb : Byte) (r : Req)
  | vbusDetected
  | backupStateLost
  | rtcAlarm
  | prsntChange (high : Bool)
  | testEnChange (high : Bool)
  | wakeHoldExpiry
  | csp8IdleGate
  | dnRxIdle
  | dnRxForward (position : Fin 7) (atNs : Int) (bytes : List Byte)
  | ep6Read
  | hubClassRequest (port : Fin 4) (q : HubRequest)
  | usbFailure
  | yokePhyFailure
  | thresherControlError
  | harrowDelayExpiry (slot : Fin 4)
  | updateStageCompletion (flashOk : Bool)
  deriving DecidableEq, Repr

end Sys2Proof
end

