-- ==== Sys2Proof/Config.lean ====
section
/-! DEFINITION. What an implementation fixes and the spec leaves open: constants without a body, so that no
statement can rest on a value of them. -/

namespace Sys2Proof.Config

/-- Whether an Ed25519 signature over the first 128 bytes of an image header verifies under the boot ROM's
public key (00 R2, 12 R455). The spec does not give the key, so the outcome is free. -/
opaque signatureOk : List Byte → List Byte → Bool

/-- A byte of a NOR device after bits that were not erased have been programmed: "as the NOR device defines
it" (05 R177). Applied to the model's count of free values. -/
opaque norByte : Nat → Byte

/-- The back-off r of a first join request, from 0 to 15, "derived from its serial number and its timebase"
(10 R361); only its value modulo 16 is used. -/
opaque backoff : Nat → Nat → Nat

/-- A byte of the 2 KiB context state at save_addr: what it holds is stated, not how it is laid out (08 R287). Applied
to the model's count of free values. -/
opaque saveByte : Nat → Byte

/-- A byte of POLYEVAL's scratch object afterwards (08 R272 gives it room for five polynomials and no layout). -/
opaque scratchByte : Nat → Byte

/-- The value that stands for an inverse modulo a composite limb where none exists (08 R267: well defined, but not
stated). -/
opaque noInverse : Nat → Nat → Nat

/-- A byte of an Almanac slot whose write failed twice (13 R476: its contents are not stated). Applied to the model's
count of free values. -/
opaque slotByte : Nat → Byte

/-- Levels of ALM0 to ALM3 in the low four bits as a backup write starts (11 Table PW-8): pins that no command reports while
they do not alarm. Applied to the model's count of free values. -/
opaque alarmLevels : Nat → Byte

/-- Whether every further part of an image matches its hash (12 R455, R457; 14 R514): the spec says that the boot part holds
the hashes and not where, nor where a part begins, so the outcome is free for each image. -/
opaque partsOk : List Byte → Bool

/-- A byte of the junction temperature that a POWER record carries (13 Table AL-3): the spec gives no register for it and
no unit. Applied to the model's count of free values. -/
opaque junctionByte : Nat → Byte

/-- A byte of the descriptors of the function and the hub that the spec does not give (09 R299, R300: the vendor ID, the number of the
serial string, the classes of the interfaces and what else Tables US-1 and US-2 leave out). -/
opaque descriptorByte : Nat → Byte

/-- Whether the host answers the high-speed handshake of a bus reset (09 R299, R325: the row does not say). Applied to the model's
count of free values. -/
opaque highSpeedHost : Nat → Bool

/-- How many units of a slave transaction that underran could be supplied (05 R171: the row says that one could not, and not
which). Applied to the model's count of free values. -/
opaque unitsSupplied : Nat → Nat

/-- The CRC that a damaged frame arrived with, by what else it carries: a row says only that it does not hold (10 R335, R339). -/
opaque damagedCrc : List Byte → Nat

/-- The plot of B00 to B03 in which the steward holds the leaf table of a holding's root entry (07 R235: one plot of those banks, and
not which). -/
opaque leafPlot : Nat → Nat → Nat

/-- Whether a word of SRAM, by its address, belongs to the steward's copy of the Syntax table (03 R114; the spec does not say where
the copy lies). -/
opaque tableWord : Nat → Bool

/-- The program position that a context takes up from a saved state whose bytes are not those that were saved (08 R287: how they are
laid out is not stated). -/
opaque restoredPc : List Byte → Nat

end Sys2Proof.Config
end

