-- ==== Sys2Proof/Machine/Bits.lean ====
section
/-! DEFINITION. Byte order, bit fields, cyclic checks and the two sorted tables (bytes by address,
words by key) on which registers and memories are built. -/

namespace Sys2Proof.Machine

/-- The bit field [lo + w - 1 : lo] of a number. -/
def bits (x lo w : Nat) : Nat := (x >>> lo) % 2 ^ w

/-- One bit of a number as a Bool. -/
def bitAt (x i : Nat) : Bool := x.testBit i

/-- A number placed at bit lo of a word, cut to w bits. -/
def place (v lo w : Nat) : Nat := (v % 2 ^ w) <<< lo

/-- 1 for true and 0 for false, as a status bit reads. -/
def b2n (b : Bool) : Nat := if b then 1 else 0

/-- n bytes of a number, least significant first (00 R8). -/
def leBytes : Nat → Nat → List Byte
  | 0, _ => []
  | n + 1, v => BitVec.ofNat 8 v :: leBytes n (v / 256)

/-- The number that bytes stored least significant first stand for (00 R8). -/
def ofLe : List Byte → Nat
  | [] => 0
  | b :: bs => b.toNat + 256 * ofLe bs

/-- n bytes of a list from an offset; bytes beyond the end read 0. -/
def slice (bs : List Byte) (off n : Nat) : List Byte :=
  let t := (bs.drop off).take n
  t ++ List.replicate (n - t.length) 0

/-- The little-endian field of n bytes at an offset of a message. -/
def leAt (bs : List Byte) (off n : Nat) : Nat := ofLe (slice bs off n)

/-- ASCII text, zero-padded or cut to n bytes (03 Table SX-5). -/
def ascii (n : Nat) (t : String) : List Byte :=
  slice (t.toList.map fun c => BitVec.ofNat 8 c.toNat) 0 n

/-- One bit of the reflected CRC-32 register (03 R101). -/
def crc32Bit (c : Nat) : Nat := if c % 2 = 1 then (c / 2) ^^^ 0xEDB88320 else c / 2

/-- One byte into the CRC-32 register. -/
def crc32Byte (c : Nat) (b : Byte) : Nat :=
  (List.range 8).foldl (fun c _ => crc32Bit c) (c ^^^ b.toNat)

/-- The CRC-32 of 03 R101: polynomial 0x04C11DB7 reflected, initial value and final XOR 0xFFFFFFFF. -/
def crc32 (bs : List Byte) : Nat := (bs.foldl crc32Byte 0xFFFFFFFF) ^^^ 0xFFFFFFFF

/-- A CRC of `w` bits over a list of bits, most significant first, not reflected. -/
def crcBits (w poly init : Nat) (xs : List Bool) : Nat :=
  xs.foldl (fun c b =>
    let top := bitAt c (w - 1) != b
    let c' := (c <<< 1) % 2 ^ w
    if top then c' ^^^ poly else c') init

/-- The low n bits of a number as a list, most significant first. -/
def msbList (n x : Nat) : List Bool := (List.range n).map fun i => bitAt x (n - 1 - i)

/-- A number from its bits, most significant first. -/
def ofMsb (xs : List Bool) : Nat := xs.foldl (fun a b => 2 * a + b2n b) 0

/-- A number from its bits, least significant first. -/
def ofLsb (xs : List Bool) : Nat := ofMsb xs.reverse

/-- CRC-6 of 05 Table CS-2: polynomial x^6 + x + 1, initial value 0, result inverted. -/
def crc6 (xs : List Bool) : Nat := (crcBits 6 0b000011 0 xs) ^^^ 0x3F

/-- CRC-8 of 05 Table CS-2: polynomial x^8 + x^5 + x^3 + x^2 + x + 1, initial value 0xFF. -/
def crc8 (xs : List Bool) : Nat := crcBits 8 0b00101111 0xFF xs

/-- CRC-8 of the period marker, polynomial 0x07, initial value 0 (10 Table YK-2). -/
def crc8Marker (bs : List Byte) : Nat :=
  crcBits 8 0x07 0 (bs.flatMap fun b => msbList 8 b.toNat)

/-- The number of ones in the low n bits. -/
def popcount (n x : Nat) : Nat := ((List.range n).filter fun i => bitAt x i).length

/-- Two's complement reading of a field of w bits. -/
def signedOf (w x : Nat) : Int := if bitAt x (w - 1) then (x : Int) - 2 ^ w else x

/-- The w low bits of an integer in two's complement. -/
def ofSigned (w : Nat) (x : Int) : Nat := (x % 2 ^ w).toNat

/-- Ceiling division. -/
def ceilDiv (a b : Nat) : Nat := (a + b - 1) / b

/-- The saturating value of a counter of w bits (04, 05: saturating). -/
def satAdd (w c n : Nat) : Nat := min (2 ^ w - 1) (c + n)

/-! ### A table of words by key, in canonical form -/

/-- A sparse table: keys strictly rising, no entry equal to its default. -/
abbrev Tab := List (Nat × Nat)

/-- The value under a key, the default where no entry is listed. -/
def Tab.get (d : Nat → Nat) : Tab → Nat → Nat
  | [], k => d k
  | (a, v) :: t, k => if k = a then v else if k < a then d k else Tab.get d t k

/-- The table with a value under a key; the default value removes the entry. -/
def Tab.set (d : Nat → Nat) : Tab → Nat → Nat → Tab
  | [], k, v => if v = d k then [] else [(k, v)]
  | (a, w) :: t, k, v =>
    if k < a then (if v = d k then (a, w) :: t else (k, v) :: (a, w) :: t)
    else if k = a then (if v = d k then t else (k, v) :: t)
    else (a, w) :: Tab.set d t k v

/-- Canonical form of a table, above a lower bound for its keys. -/
def Tab.wfFrom (d : Nat → Nat) : Nat → Tab → Bool
  | _, [] => true
  | lo, (a, v) :: t => decide (lo ≤ a) && (v != d a) && Tab.wfFrom d (a + 1) t

/-- Canonical form of a table. -/
def Tab.wf (d : Nat → Nat) (t : Tab) : Bool := Tab.wfFrom d 0 t

/-! ### Lists used as numbered things -/

/-- Item i of a list, or a stand-in beyond its end. -/
def nth {α : Type} (d : α) (l : List α) (i : Nat) : α := l.getD i d

/-- The list with item i changed. -/
def updAt {α : Type} (l : List α) (i : Nat) (f : α → α) : List α := l.modify i f

/-- The last n items of a list (a history that drops its oldest entry). -/
def lastN {α : Type} (n : Nat) (l : List α) : List α := l.drop (l.length - n)

/-- The first number below n that satisfies a test. -/
def findBelow (n : Nat) (p : Nat → Bool) : Option Nat := (List.range n).find? p

end Sys2Proof.Machine
end

