-- ==== Sys2Proof/Machine/Fields.lean ====
section
/-! DEFINITION. The noun catalogue and the field tables of every noun of firmware 3.2 (02 R84, R85 to
R90; 04 R122, R144; 05 R167, R181; 06 R198, R205, R219; 07 R239; 08 R296, R297; 09 R332, R333; 10 R388;
11 R429; 13 R483; 14 R503), with the ranges and value-alone restrictions of 03 R105. -/

namespace Sys2Proof.Machine

/-- The access codes of 00 Table SC-4, in the numbering of 03 Table SX-6. -/
inductive Acc where
  | ro | rw | rws | w1c | wo | rc | fix
  deriving DecidableEq, Repr

/-- The code of an access in a FIELD record (03 Table SX-6). -/
def Acc.code : Acc → Nat
  | .ro => 0 | .rw => 1 | .rws => 2 | .w1c => 3 | .wo => 4 | .rc => 5 | .fix => 6

/-- The kinds of a FIELD record (03 Table SX-6). -/
inductive FieldKind where
  | uns | sgn | enum | bmap
  deriving DecidableEq, Repr

def FieldKind.code : FieldKind → Nat
  | .uns => 0 | .sgn => 1 | .enum => 2 | .bmap => 3

/-- A restriction of a field's values by the value alone, beyond its minimum and maximum (03 R105). -/
inductive Restr where
  | any
  | multiple (n : Nat)
  | zeroOr (lo : Nat)
  | among (vs : List Nat)
  | zeroOrMultiple (lo n : Nat)
  deriving DecidableEq, Repr

/-- Whether a value satisfies a restriction. -/
def Restr.ok : Restr → Nat → Bool
  | .any, _ => true
  | .multiple n, v => v % n == 0
  | .zeroOr lo, v => v == 0 || lo ≤ v
  | .among vs, v => vs.contains v
  | .zeroOrMultiple lo n, v => v == 0 || (lo ≤ v && v % n == 0)

/-- One field of a noun: its place, access, reset value and defined values. `most` 0 stands for the
greatest value of the width. `flags` and `pair` are those of the FIELD record. -/
structure RegField where
  name : String
  word : Nat
  lo : Nat
  width : Nat
  acc : Acc
  reset : Nat := 0
  kind : FieldKind := .uns
  least : Nat := 0
  most : Nat := 0
  restr : Restr := .any
  flags : Nat := 0
  pair : Nat := 0
  deriving DecidableEq, Repr

/-- The greatest defined value of a field. -/
def RegField.top (f : RegField) : Nat := if f.most = 0 then 2 ^ f.width - 1 else f.most

/-- Whether a value of a field is defined (03 R105). A signed field of width w admits all its codes. -/
def RegField.okValue (f : RegField) (v : Nat) : Bool :=
  match f.kind with
  | .bmap | .sgn => true
  | _ => f.least ≤ v && v ≤ f.top && f.restr.ok v

/-- A numbered field at another word and bit: instance k of a family of like fields. -/
def RegField.shift (f : RegField) (word : Nat) : RegField := { f with word := f.word + word }

/-! ### Noun numbers (02 Table MB-10) -/

def nSYS := 0x0001
def nCLOCK := 0x0002
def nPERIOD := 0x0003
def nCSP (k : Nat) := 0x0010 + k
def nSENT (k : Nat) := 0x0020 + k
def nEDGE (k : Nat) := 0x0040 + k
def nTWT (k : Nat) := 0x0048 + k
def nUSB := 0x0050
def nHUBPORT (k : Nat) := 0x0050 + k
def nYOKE := 0x0060
def nFURROW (k : Nat) := 0x0100 + k
def nSHEAF := 0x0200
def nTHRESHER := 0x0300
def nTHRCTX (k : Nat) := 0x0301 + k
def nALMANAC := 0x0400
def nHARROW := 0x0500
def nPOWER := 0x0600
def nEVENTS := 0x0700
def nPLOTMAP := 0x0800

/-! ### Shorthands for the tables below -/

def fRo (n : String) (word lo w : Nat) (kind : FieldKind := .uns) (flags : Nat := 0) (reset : Nat := 0) : RegField :=
  { name := n, word, lo, width := w, acc := .ro, kind, flags, reset }
/-- A read-only field of which the noun table names the values (03 R105; log 92). -/
def fRoIn (n : String) (word lo w least most : Nat) (kind : FieldKind := .uns) (reset : Nat := 0) : RegField :=
  { name := n, word, lo, width := w, acc := .ro, kind, reset, least, most }
def fRc (n : String) (word lo w : Nat) : RegField := { name := n, word, lo, width := w, acc := .rc }
def fFix (n : String) (word lo w : Nat) (v : Nat) : RegField :=
  { name := n, word, lo, width := w, acc := .fix, reset := v, least := v, most := v }
def fFlag (n : String) (word lo : Nat) (reset : Nat := 0) (flags : Nat := 0) : RegField :=
  { name := n, word, lo, width := 1, acc := .rws, reset, kind := .enum, flags }
def fNum (n : String) (word lo w reset lo' hi : Nat) (restr : Restr := .any) (pair : Nat := 0)
    (kind : FieldKind := .uns) (flags : Nat := 0) : RegField :=
  { name := n, word, lo, width := w, acc := .rws, reset, least := lo', most := hi, restr, pair, kind, flags }
def fBmp (n : String) (word lo w : Nat) (reset : Nat := 0) : RegField :=
  { name := n, word, lo, width := w, acc := .rws, reset, kind := .bmap }
def fHrw (n : String) (word lo w reset lo' hi : Nat) (kind : FieldKind := .uns) : RegField :=
  { name := n, word, lo, width := w, acc := .rw, reset, least := lo', most := hi, kind }

/-- 02 Table MB-11. The noun tables have no column for a field's kind: which field is unsigned, an enumeration or a bitmap is the
model's choice here and in the tables below (DESIGN CHOICE, log 92). -/
def fieldsSYS : List RegField := [
  fFix "device_code" 0 0 16 0x6440, fFix "silicon_rev" 0 16 16 1,
  { name := "fw_patch", word := 1, lo := 0, width := 8, acc := .fix },
  fFix "fw_minor" 1 8 8 2, fFix "fw_major" 1 16 8 3,
  fRoIn "service_level" 2 0 2 1 3 .enum, fRo "legacy" 2 2 1 .enum 2, fRo "rom_service" 2 3 1 .enum,
  fRo "service_strap" 2 4 1 .enum 2, fRo "test_en" 2 5 1 .enum 2, fRo "yk_lead" 2 6 1 .enum 2,
  fRo "harrow_sealed" 2 7 1 .enum, fRo "framing" 2 8 1 .enum, fRoIn "reset_cause" 3 0 8 1 5 .enum,
  fRoIn "boot_count" 4 0 32 1 0 .uns 1, fRoIn "applied_epoch" 5 0 32 1 0 .uns 1, fRo "shadow_open" 6 0 1 .enum,
  fRo "shadow_owner" 6 1 2, fRo "commit_pending" 6 3 1 .enum, fRo "layout_id" 7 0 32,
  fRo "timebase" 8 0 64, fRo "period_number" 10 0 48, fRc "bad_frames" 12 0 16, fRc "flow_stalls" 12 16 16,
  fFlag "autostart_run" 13 0 0 4, fNum "compat" 14 0 2 1 1 2 .any 0 .enum 8]

/-- 02 Table MB-12. -/
def fieldsCLOCK : List RegField := [
  fNum "root_source" 0 0 2 0 0 2 .any 0 .enum 1, fFlag "refout_enable" 0 2, fFlag "auto_failover" 0 3 1,
  fRo "active_source" 1 0 2 .enum, fRo "pll_locked" 1 2 1 .enum, fRo "xtal_ok" 1 3 1 .enum,
  fRo "refin_ok" 1 4 1 .enum, fRo "yoke_ref_ok" 1 5 1 .enum,
  fRc "ref_loss_count" 2 0 16, fRc "pll_unlock_count" 2 16 16, fRo "aon_offset" 3 0 16 .sgn]

/-- 02 Table MB-13. -/
def fieldsPERIOD : List RegField := [
  fNum "slices" 0 0 13 8 2 4096, fNum "capture_source" 0 16 2 0 0 2 .any 0 .enum,
  fNum "headland" 1 0 15 480 240 30000, fRoIn "period_ticks" 2 0 32 3750 7680000 .uns 15000, fRoIn "drill_state" 3 0 2 0 2 .enum,
  fRo "chain_held" 3 2 1 .enum, fRo "sync_lost" 3 3 1 .enum, fRc "deadline_misses" 4 0 32,
  fRc "early_syncs" 5 0 16, fRc "headland_overruns" 5 16 16, fRc "extra_syncs" 6 0 16]

/-- 02 Table MB-14. -/
def fieldsEVENTS : List RegField := [
  { name := "pending", word := 0, lo := 0, width := 64, acc := .w1c, kind := .bmap },
  fBmp "ep3_enable" 2 0 64 0xFFFFFFFFFFFFFFFE, fBmp "int_n_enable" 4 0 64, fBmp "fault_n_enable" 6 0 64,
  fBmp "yoke_forward" 8 0 64 0xFFFFFFFFFFFFFFFF, fNum "coalesce_us" 10 0 14 0 0 10000,
  fRc "lost_notifications" 11 0 32]

/-- one drill entry, 04 Table DR-2. -/
def fieldsEntry : List RegField := [
  fNum "offset" 0 0 23 0 0 0, fNum "type" 0 24 3 0 0 4 .any 0 .enum, fNum "select" 0 28 2 0 0 3,
  fFlag "coherent" 0 30, fFlag "latch_guard" 0 31, fNum "deadline" 1 0 23 0 0 0, fNum "every" 1 24 8 1 1 255,
  fNum "phase" 2 0 8 0 0 254, fNum "target" 2 8 5 0 0 23, fRo "last_end" 3 0 23, fRoIn "last_outcome" 3 23 3 0 5 .enum]

/-- 04 Table DR-2. -/
def fieldsFURROW : List RegField := [fNum "entry_count" 0 0 6 0 0 32, fRo "worst_case_end" 1 0 23,
  fRo "min_slack" 2 0 23, fRc "aborts" 3 0 32]
  ++ (List.range 32).flatMap fun k => fieldsEntry.map (RegField.shift · (8 + 4 * k))

/-- 04 Table DR-6. -/
def fieldsSHEAF : List RegField := [
  fRo "publish_index" 0 0 3, fRo "any_published" 0 3 1 .enum, fNum "ring_base" 1 0 32 0 0 0 (.multiple 4096) 0 .uns 1,
  fNum "buffer_stride" 2 0 32 4096 4096 65536 (.multiple 4096) 0 .uns 1, fRo "body_size" 3 0 32,
  fRo "field_count" 4 0 16, fRoIn "header_size" 4 16 8 32 64 .uns 64, fRoIn "header_version" 4 24 8 1 2 .uns 2,
  fRo "layout_id" 5 0 32, fRo "last_published_period" 6 0 48, fRo "assembly_ticks" 8 0 16,
  fRc "published" 9 0 32, fRc "unpublished" 10 0 32]

/-- one CSP profile, 05 Table CS-3. -/
def fieldsProfile : List RegField := [
  fNum "mode" 0 0 3 0 0 3 .any 0 .enum, fNum "spi_mode" 0 3 2 0 0 3 .any 0 .enum, fFlag "msb_first" 0 5 1,
  { name := "select_map", word := 0, lo := 6, width := 4, acc := .rws, kind := .bmap, pair := 1 },
  fNum "sck_div" 0 10 13 32 8 6400 (.multiple 2), fNum "t_delay" 0 23 7 0 0 96,
  fNum "frame_bits" 1 0 13 32 1 4096 .any 1, fNum "unit_bits" 1 13 6 32 4 32 .any 1,
  fNum "unit_count" 1 19 7 1 1 64 .any 1, fNum "check" 1 26 2 0 0 3 .any 2 .enum,
  fNum "absent_periods" 1 28 4 0 0 15, fNum "t_lead" 2 0 8 12 0 255 (.zeroOr 4),
  fNum "t_lag" 2 8 8 12 0 255 (.zeroOr 4), fNum "tx_source" 2 16 2 0 0 2 .any 0 .enum,
  fNum "tx_word" 3 0 32 0 0 0, fNum "tx_addr" 4 0 32 0 0 0 (.multiple 4),
  fNum "t_mono" 5 0 12 0 0 4095 (.zeroOr 24), fNum "t_wait" 5 12 12 0 0 4095, fFlag "start_bit" 5 24,
  fNum "value_lsb" 6 0 5 0 0 31 .any 2, fNum "value_width" 6 5 6 32 1 32 .any 2,
  fNum "value_signed" 6 11 1 0 0 1 .any 2 .enum, fNum "aux_lsb" 6 12 5 0 0 31 .any 2,
  fNum "aux_width" 6 17 4 0 0 8 .any 2, fNum "unit" 6 22 4 0 0 5 .any 0 .enum,
  fNum "scale" 6 26 6 0 0 0 .any 0 .sgn]

/-- CSP0 to CSP7, 05 Table CS-3. -/
def fieldsCSP : List RegField := [
  fFlag "enable" 0 0 0 1, fFlag "role" 0 1 0 1, fFlag "sdo_idle" 0 2, fRo "port_state" 1 0 2 .enum,
  fRo "select_level" 1 2 4 .bmap, fRo "chain_held" 1 6 1 .enum, fRo "slave_underrun" 1 7 1 .enum,
  fRc "transfers" 2 0 32, fRc "check_errors" 3 0 16, fRc "underruns" 3 16 16]
  ++ (List.range 4).flatMap (fun s => [fNum "sel_bits" (4 + s) 0 13 0 0 0 .any 1, fFlag "sel_active_high" (4 + s) 13])
  ++ (List.range 4).flatMap (fun p => fieldsProfile.map (RegField.shift · (8 + 8 * p)))
  ++ [fNum "slave_offset" 40 0 17 0 0 0, fNum "slave_length" 41 0 17 0 0 0]

/-- 05 Table CS-6. -/
def fieldsCSP8 : List RegField := [
  fNum "poll_us" 0 0 7 8 1 64, fFlag "rst_on_fault" 0 7 1, fNum "timeout_us" 0 8 10 100 10 1000,
  fRo "busy" 1 0 2 .bmap, fRo "fenced" 1 2 1 .enum, fRc "page_programs" 2 0 32,
  fRc "access_timeouts" 3 0 16, fRc "program_timeouts" 3 16 16]
  ++ (List.range 2).flatMap fun s => [
  fNum "device_kind" (4 + 4 * s) 0 2 (1 - s) 0 2 .any 0 .enum, fNum "format" (4 + 4 * s) 2 3 0 0 7 .any 0 .enum,
  fFlag "window_enable" (4 + 4 * s) 5 (1 - s), fNum "sck_div" (4 + 4 * s) 8 8 16 2 255,
  fNum "dummy_cycles" (4 + 4 * s) 16 5 8 0 31, fFlag "dqs_sdr" (4 + 4 * s) 21,
  fNum "sample_delay" (4 + 4 * s) 22 5 0 0 31, fNum "read_cmd" (5 + 4 * s) 0 8 3 0 255,
  fNum "program_cmd" (5 + 4 * s) 8 8 2 0 255, fNum "status_cmd" (5 + 4 * s) 16 8 5 0 255,
  fNum "busy_bit" (5 + 4 * s) 24 3 0 0 7, fFlag "busy_polarity" (5 + 4 * s) 27 1, fFlag "addr4" (5 + 4 * s) 28,
  fNum "wren_cmd" (6 + 4 * s) 0 8 6 0 255, fNum "page_log2" (6 + 4 * s) 8 4 8 8 10,
  fNum "program_timeout_ms" (6 + 4 * s) 12 8 10 1 255, fNum "max_assert_ticks" (7 + 4 * s) 0 16 0 0 65535,
  fNum "size_mib" (7 + 4 * s) 16 9 16 1 256]

/-- 06 Table SE-4. -/
def fieldsSENT : List RegField := [
  fFlag "enable" 0 0, fFlag "mode" 0 1, fFlag "crc_legacy" 0 2, fNum "data_nibbles" 0 3 3 6 1 6 .any 1,
  fNum "fc1_nibbles" 0 6 3 3 1 6 .any 1, fNum "pause_mode" 0 9 2 0 0 2 .any 1 .enum,
  fNum "serial_mode" 0 11 2 0 0 2 .any 0 .enum, fNum "tick" 1 0 10 30 30 900,
  fNum "frame_len" 1 10 11 0 0 2047 .any 1, fNum "absent_ms" 1 21 8 0 0 255,
  fNum "trig_width" 2 0 16 0 0 12000 (.zeroOr 120), fNum "resp_max" 2 16 16 0 0 12000,
  fNum "fc1_unit" 3 0 4 0 0 5 .any 0 .enum, fNum "fc1_scale" 3 4 6 0 0 0 .any 0 .sgn,
  fNum "fc2_unit" 3 10 4 0 0 5 .any 0 .enum, fNum "fc2_scale" 3 14 6 0 0 0 .any 0 .sgn,
  fFlag "fc1_signed" 3 20, fFlag "fc2_signed" 3 21, fRo "channel_state" 4 0 2 .enum, fRo "absent" 4 2 1 .enum,
  fRo "cal_count" 4 16 16, fRc "frames" 5 0 32, fRc "crc_errors" 6 0 16, fRc "timing_errors" 6 16 16,
  fRc "serial_errors" 7 0 16, fRc "suppressed" 7 16 16]

/-- 06 Table SE-5. -/
def fieldsEDGE : List RegField := [
  fBmp "enable" 0 0 8, fBmp "invert" 0 8 8, fBmp "stamp_fields" 0 16 8, fBmp "event_enable" 0 24 8,
  fRo "bank_state" 1 0 2 .enum, fRo "level" 1 8 8 .bmap, fRc "glitches" 2 0 32, fRc "edges" 3 0 32]
  ++ (List.range 8).flatMap fun k => [fNum "debounce_us" (4 + k) 0 14 0 0 10000,
    fNum "edge_select" (4 + k) 14 2 0 0 2 .any 0 .enum]

/-- 06 Table SE-10. -/
def fieldsTWT0 : List RegField := [
  fFix "enable" 0 0 1 1, fFlag "pec_enable" 0 1, fNum "speed" 0 2 2 1 0 2 .any 0 .enum,
  fRo "address" 0 4 7 .uns 2, fRo "addr_mask" 0 11 7 .bmap, fRc "transactions" 1 0 32,
  fRc "pec_errors" 2 0 16, fRc "address_nacks" 2 16 16, fRc "data_nacks" 3 0 16, fRc "bus_timeouts" 3 16 16]

/-- 06 Table SE-10. -/
def fieldsTWT1 : List RegField := [
  fFlag "enable" 0 0, fFlag "pec_enable" 0 1, fNum "speed" 0 2 2 1 0 2 .any 0 .enum,
  fNum "address" 0 4 7 0x50 0 127, fBmp "addr_mask" 0 11 7, fRc "transactions" 1 0 32,
  fRc "pec_errors" 2 0 16, fRc "address_nacks" 2 16 16, fRc "data_nacks" 3 0 16, fRc "bus_timeouts" 3 16 16]
  ++ (List.range 63).flatMap fun k => [fNum "vt_offset" (4 + k) 0 17 0 0 0, fNum "vt_length" (4 + k) 17 7 0 0 64]

/-- 09 Table US-6. -/
def fieldsUSB : List RegField := [
  fFlag "enable" 0 0 1, fFlag "suspend_policy" 0 1, fRoIn "usb_state" 1 0 3 0 6 .enum, fRoIn "speed" 1 3 2 0 2 .enum,
  fRo "ep4_alt" 1 5 2, fRoIn "ep5_alt" 1 7 2 0 2, fRo "remote_wake_enabled" 1 9 1 .enum,
  fRo "vbus_present" 1 10 1 .enum 2, fRo "ep4_too_small" 1 11 1 .enum, fRo "ep5_too_small" 1 12 1 .enum,
  fBmp "wake_mask" 2 0 64]
  ++ (List.range 2).flatMap (fun s => [fFlag "stream_enable" (4 + 4 * s) 0 (1 - s), fFlag "stack" (4 + 4 * s) 1,
    fNum "every" (4 + 4 * s) 2 8 (1 + 7 * s) 1 255, fNum "chunks" (4 + 4 * s) 10 3 1 1 4,
    fNum "offset" (5 + 4 * s) 0 17 0 0 0, fNum "length" (6 + 4 * s) 0 17 0 0 0, fRc "deliveries" (7 + 4 * s) 0 32])
  ++ [fRc "ep4_silent" 12 0 16, fRc "ep5_silent" 12 16 16, fRc "ep4_skipped" 13 0 16, fRc "ep5_skipped" 13 16 16,
    fRc "bus_resets" 14 0 16, fRc "suspends" 14 16 16, fRc "bulk_abandoned" 15 0 16]

/-- 09 Table US-7. -/
def fieldsHUBPORT : List RegField := [
  fFlag "allow_power" 0 0 1, fRoIn "port_state" 1 0 3 0 6 .enum, fRoIn "port_speed" 1 3 2 0 2 .enum,
  fRo "oci_level" 1 5 1 .enum 2, fRo "ppe_level" 1 6 1 .enum, fRc "over_currents" 2 0 16, fRc "connect_changes" 2 16 16]

/-- 10 Table YK-10. -/
def fieldsYOKE : List RegField := [
  fFlag "enable" 0 0 1, fFlag "join_enable" 0 1 1, fNum "balk" 0 2 8 64 32 255, fBmp "plan_mask" 0 16 7,
  fNum "seg_area" 1 0 32 0x00200000 0 0 (.multiple 4096), fRo "role" 2 0 1 .enum 2, fRoIn "link_state" 2 4 4 0 8 .enum,
  fRo "position" 2 8 8, fRo "members_joined" 2 16 3, fRo "own_deadline" 3 0 32, fRo "delay_q" 4 0 32,
  fRo "need" 5 0 32, fRc "edge_hits" 6 0 16, fRc "rejects" 6 16 16, fRc "crc_errors" 7 0 16,
  fRc "retransmissions" 7 16 16, fRc "members_lost" 8 0 16, fRc "quarantines" 8 16 16]
  ++ (List.range 7).flatMap fun k => [fNum "expected_layout" (12 + 4 * k) 0 32 0 0 0,
    fNum "slot_bytes" (13 + 4 * k) 0 13 0 0 8096 (.multiple 8), fRoIn "member_state" (14 + 4 * k) 0 4 0 8 .enum,
    fRo "delay_ns" (14 + 4 * k) 16 16, fRo "last_offset" (15 + 4 * k) 0 16 .sgn]

/-- 08 Table TH-11. -/
def fieldsTHRESHER : List RegField := [
  fFlag "enable" 0 0, fRo "engine_state" 1 0 2 .enum, fRo "running_context" 1 2 3 .uns 0 7,
  fRoIn "twiddle_free" 1 8 8 0 128 .uns 128, fRc "jobs_completed" 2 0 32, fRc "preemptions" 3 0 32,
  fRc "integrity_faults" 4 0 16, fRc "hard_faults" 4 16 16]
  ++ (List.range 32).flatMap fun l => [fNum "q" (16 + 8 * l) 0 64 0 0 0 .any (l + 1),
    fNum "q_prime" (18 + 8 * l) 0 64 0 0 0 .any (l + 1), fNum "mu" (20 + 8 * l) 0 64 0 0 0 .any (l + 1),
    fNum "valid" (22 + 8 * l) 0 1 0 0 1 .any (l + 1) .enum, fNum "mode" (22 + 8 * l) 1 1 0 0 1 .any (l + 1) .enum,
    fNum "check" (23 + 8 * l) 0 32 0 0 0 .any (l + 1)]

/-- 08 Table TH-12. -/
def fieldsTHRCTX : List RegField := [
  fNum "priority" 0 0 2 0 0 3, fNum "save_addr" 1 0 32 0 0 0 (.multiple 4096),
  fNum "sheaf_vaddr" 2 0 32 0 0 0 (.multiple 4096), fFlag "sheaf_mapped" 3 0,
  fNum "handoff_timeout_ms" 3 16 16 1000 1 60000, fRo "job_state" 4 0 3 .enum, fRo "instruction" 4 8 8,
  fRo "job_number" 5 0 32, fRo "samples_done" 6 0 32, fRo "samples_skipped" 7 0 32, fRo "overruns" 8 0 32,
  fRo "pool_remaining" 9 0 16, fRo "objects_loaded" 9 16 8, fRc "preempted" 10 0 32, fRc "integrity_faults" 11 0 32]

/-- 13 Table AL-5. -/
def fieldsALMANAC : List RegField := [
  fNum "ep6_content" 0 0 2 0 0 2 .any 0 .enum, fFlag "record_info" 0 2 1, fRo "next_sequence" 1 0 32,
  fRoIn "ring_next" 2 0 12 0 3583, fRoIn "first_used" 2 12 9 0 256, fRo "first_full" 2 21 1 .enum, fRo "scan_done" 2 22 1 .enum,
  fRo "clear_sequence" 3 0 32, fRo "backup_reported" 4 0 32, fRc "records_written" 5 0 32,
  fRc "records_dropped" 6 0 16, fRc "write_failures" 6 16 16, fRo "bad_slots" 7 0 16, fRc "stream_lost" 7 16 16,
  fRc "first_overflow" 8 0 16, fRc "ring_wraps" 8 16 16]

/-- 14 Table HW-5. -/
def fieldsHARROW : List RegField := [
  fRo "test_en" 0 0 1 .enum 2, fRo "sealed" 0 1 1 .enum 2, fRo "active_slots" 0 2 4 .bmap, fRo "arm_open" 1 0 1 .enum,
  fRo "arm_channel" 1 1 2, fRo "arm_id" 1 16 16, fRc "injections" 2 0 32, fRc "episodes" 3 0 32]
  ++ (List.range 4).flatMap fun e => [
  fHrw "target" (8 + 12 * e) 0 4 0 0 5 .enum, fHrw "class" (8 + 12 * e) 4 4 0 0 4 .enum,
  fHrw "prob_log2" (8 + 12 * e) 8 4 0 0 15, fHrw "bit_index" (8 + 12 * e) 16 12 0 0 4095,
  fHrw "target_mask" (9 + 12 * e) 0 32 0 0 0 .bmap, fHrw "unit_mask" (10 + 12 * e) 0 64 0 0 0 .bmap,
  fHrw "delay_k" (12 + 12 * e) 0 8 1 1 255, fHrw "count_limit" (12 + 12 * e) 8 16 0 0 0,
  fHrw "start_period" (13 + 12 * e) 0 48 0 0 0, fHrw "period_count" (14 + 12 * e) 16 16 0 0 0,
  fHrw "seed" (15 + 12 * e) 0 32 0 0 0, fRo "state" (16 + 12 * e) 0 2 .enum, fRoIn "end_reason" (16 + 12 * e) 2 4 0 7 .enum,
  fRo "consented" (16 + 12 * e) 6 1 .enum, fRo "started_by" (16 + 12 * e) 7 2, fRc "slot_injections" (17 + 12 * e) 0 32,
  fRo "last_period" (18 + 12 * e) 0 48]

/-- 11 Table PW-11. -/
def fieldsPOWER : List RegField := [
  fRoIn "power_state" 0 0 2 0 1 .enum, fFlag "doze_enable" 0 2 1, fFlag "prsnt_action" 0 3 1, fRo "prsnt_level" 0 4 1 .enum 2,
  fNum "detach_hold_s" 0 8 8 30 0 255, fRo "vin_10mv" 1 0 16, fRo "vsys_mv" 1 16 16, fRo "vbak_mv" 2 0 16,
  fRo "vres_mv" 2 16 16, fRo "vddio_ok" 3 0 4 .bmap, fRo "vddio_1v8" 3 4 4 .bmap, fRo "vin_low" 3 8 1 .enum,
  fRo "vin_high" 3 9 1 .enum, fRo "vsys_overload" 3 10 1 .enum, fRo "rtc_valid" 3 11 1 .enum,
  fRo "cell_low" 3 12 1 .enum, fRoIn "resumed_from" 3 13 2 0 2 .enum, fRo "last_wake_source" 3 15 5 .uns 0 0x1F,
  fRo "domain_on" 4 0 64 .bmap, fRo "domain_on" 6 0 64 .bmap, fRo "domain_on" 8 0 26 .bmap,
  fBmp "wake_mask" 9 0 11 0x07F, fBmp "fallow_retain" 10 0 64, fRo "rtc" 12 0 64, fNum "rtc_load" 14 0 64 0 0 0,
  fNum "rtc_alarm" 16 0 64 0 0 0, fBmp "alm_enable" 18 0 4, fBmp "alm_active_high" 18 4 4,
  fRc "backup_alarms" 19 0 16, fRc "backup_write_aborts" 19 16 16, fRc "fallow_entries" 20 0 16,
  fRc "detaches" 20 16 16, fRc "vin_warnings" 21 0 16, fRc "vsys_overloads" 21 16 16]

/-- 07 Table PM-5. -/
def fieldsPLOTMAP : List RegField := [
  fFlag "pin_sheaf_path" 0 0 1, fFlag "auto_gate" 0 1 1, fNum "bank_idle_ms" 0 8 8 10 1 255,
  fNum "scrub_interval_s" 0 16 8 60 0 255, fNum "pool_base_bank" 0 24 6 60 0 60 (.zeroOrMultiple 4 4),
  fNum "capture_base" 1 0 32 0x00100000 0 0 (.multiple 4096), fBmp "bank_pin" 2 0 64, fRo "bank_on" 4 0 64 .bmap,
  fRo "bank_retained" 6 0 64 .bmap, fRo "bank_failed" 8 0 64 .bmap, fRc "soft_resolved" 10 0 16,
  fRc "unresolved" 10 16 16, fRc "hard_faults" 11 0 16, fRc "content_lost" 11 16 16, fRc "ecc_corrected" 12 0 16,
  fRc "ecc_uncorrectable" 12 16 16, fRoIn "last_holding" 13 0 4 0 9, fRoIn "last_kind" 13 4 3 0 5 .enum,
  fRo "last_resolved" 13 7 1 .enum, fRoIn "last_attempts" 13 8 2 0 3, fRo "last_content_lost" 13 10 1 .enum,
  fRo "last_vaddr" 14 0 32, fRo "last_time" 15 0 64, fRoIn "free_granules" 17 0 10 0 496 .uns 496,
  fRoIn "largest_run" 17 16 10 0 496 .uns 496]
  ++ (List.range 6).flatMap (fun e => [fRoIn "first_granule" (18 + e) 0 10 0 511, fRoIn "granule_count" (18 + e) 16 10 0 496])
  ++ (List.range 64).flatMap fun r => [
  fNum "holding" (32 + 3 * r) 0 4 0 0 9 (.among [1, 2, 4, 6, 7, 8, 9]), fFlag "read" (32 + 3 * r) 4,
  fFlag "write" (32 + 3 * r) 5, fNum "virt_plot" (32 + 3 * r) 8 18 0 0 0,
  fNum "phys_frame" (33 + 3 * r) 0 18 0 0 0, fNum "plot_count" (34 + 3 * r) 0 19 0 0 262144]

/-- The nouns of firmware 3.2 in ascending noun ID, each with its name, its number of words and its field
table (02 Table MB-10; 69 nouns, as the directory of 03 Table SX-12 counts them). -/
structure Noun where
  id : Nat
  name : String
  words : Nat
  fields : List RegField
  deriving Repr

def nouns : List Noun :=
  [⟨nSYS, "SYS", 15, fieldsSYS⟩, ⟨nCLOCK, "CLOCK", 4, fieldsCLOCK⟩, ⟨nPERIOD, "PERIOD", 7, fieldsPERIOD⟩]
  ++ (List.range 8).map (fun k => ⟨nCSP k, "CSP" ++ toString k, 42, fieldsCSP⟩)
  ++ [⟨nCSP 8, "CSP8", 12, fieldsCSP8⟩]
  ++ (List.range 24).map (fun k => ⟨nSENT k, "SENT" ++ toString k, 8, fieldsSENT⟩)
  ++ (List.range 4).map (fun k => ⟨nEDGE k, "EDGE" ++ toString k, 12, fieldsEDGE⟩)
  ++ [⟨nTWT 0, "TWT0", 4, fieldsTWT0⟩, ⟨nTWT 1, "TWT1", 67, fieldsTWT1⟩, ⟨nUSB, "USB", 16, fieldsUSB⟩]
  ++ (List.range 4).map (fun k => ⟨nHUBPORT (k + 1), "HUBPORT" ++ toString (k + 1), 3, fieldsHUBPORT⟩)
  ++ [⟨nYOKE, "YOKE", 40, fieldsYOKE⟩]
  ++ (List.range 9).map (fun k => ⟨nFURROW k, "FURROW" ++ toString k, 136, fieldsFURROW⟩)
  ++ [⟨nFURROW 24, "FURROW24", 136, fieldsFURROW⟩, ⟨nSHEAF, "SHEAF", 11, fieldsSHEAF⟩,
    ⟨nTHRESHER, "THRESHER", 272, fieldsTHRESHER⟩]
  ++ (List.range 4).map (fun k => ⟨nTHRCTX k, "THRCTX" ++ toString k, 12, fieldsTHRCTX⟩)
  ++ [⟨nALMANAC, "ALMANAC", 9, fieldsALMANAC⟩, ⟨nHARROW, "HARROW", 56, fieldsHARROW⟩,
    ⟨nPOWER, "POWER", 22, fieldsPOWER⟩, ⟨nEVENTS, "EVENTS", 12, fieldsEVENTS⟩, ⟨nPLOTMAP, "PLOTMAP", 224, fieldsPLOTMAP⟩]

/-- Bits [3:0] of the first word of bank_pin and of fallow_retain are reserved (07 Table PM-5, 11 Table
PW-11). -/
def reservedBits (noun word : Nat) : Nat :=
  if (noun == nPLOTMAP && word == 2) || (noun == nPOWER && word == 10) then 0xF else 0

/-- Whether a noun is absent in legacy mode (01 Table AR-8, 02 Table MB-10). -/
def absentInLegacy (n : Nat) : Bool := n == nYOKE || (nTHRESHER ≤ n && n ≤ nTHRCTX 3)

/-- The noun of an ID, if the mode has it (02 R84). -/
def findNoun (legacy : Bool) (id : Nat) : Option Noun :=
  if legacy && absentInLegacy id then none else nouns.find? (·.id == id)

/-- The part of a field that lies in one word: (low bit in the word, width, low bit in the field). -/
def RegField.part (f : RegField) (word : Nat) : Option (Nat × Nat × Nat) :=
  if word < f.word then none
  else
    let j := word - f.word
    if j = 0 then some (f.lo, min f.width (32 - f.lo), 0)
    else
      let done := (32 - f.lo) + 32 * (j - 1)
      if done < f.width then some (0, min 32 (f.width - done), done) else none

/-- The fields of a noun that have bits in one word. -/
def wordFields (n : Noun) (word : Nat) : List (RegField × Nat × Nat × Nat) :=
  n.fields.filterMap fun f => (f.part word).map fun p => (f, p)

/-- The mask of one part of a word. -/
def maskOf (lo w : Nat) : Nat := (2 ^ w - 1) <<< lo

/-- The bits of a word that belong to fields of given access codes. -/
def accMask (n : Noun) (word : Nat) (as : List Acc) : Nat :=
  (wordFields n word).foldl (fun m (f, lo, w, _) => if as.contains f.acc then m ||| maskOf lo w else m) 0

/-- The reset value of the configuration bits (RWS and RW) of one word. -/
def resetWordOf (n : Noun) (word : Nat) : Nat :=
  (wordFields n word).foldl (fun m (f, lo, w, from') =>
    if f.acc == .rws || f.acc == .rw then m ||| place (f.reset >>> from') lo w else m) 0

/-- The reset values of the configuration words of a noun (the Reset columns of the field tables, joined into
words; a test compares them with resetWordOf). -/
def nounReset (n w : Nat) : Nat :=
  if n == nSYS then (if w == 14 then 1 else 0)
  else if n == nCLOCK then (if w == 0 then 8 else 0)
  else if n == nPERIOD then (if w == 0 then 8 else if w == 1 then 480 else 0)
  else if nCSP 0 ≤ n && n ≤ nCSP 7 then
    (if 8 ≤ w && w < 40 then
      (match (w - 8) % 8 with | 0 => 32800 | 1 => 786464 | 2 => 3084 | 6 => 1024 | _ => 0) else 0)
  else if n == nCSP 8 then
    (match w with
      | 0 => 25736 | 4 => 528417 | 8 => 528384 | 5 | 9 => 134545923 | 6 | 10 => 43014 | 7 | 11 => 1048576 | _ => 0)
  else if nSENT 0 ≤ n && n ≤ nSENT 23 then (if w == 0 then 240 else if w == 1 then 30 else 0)
  else if n == nTWT 0 then (if w == 0 then 4 else 0)
  else if n == nTWT 1 then (if w == 0 then 1284 else 0)
  else if n == nUSB then (match w with | 0 => 1 | 4 => 1029 | 8 => 1056 | _ => 0)
  else if nHUBPORT 1 ≤ n && n ≤ nHUBPORT 4 then (if w == 0 then 1 else 0)
  else if n == nYOKE then (if w == 0 then 259 else if w == 1 then 0x00200000 else 0)
  else if nFURROW 0 ≤ n && n ≤ nFURROW 24 then (if 8 ≤ w && (w - 8) % 4 == 1 then 0x01000000 else 0)
  else if n == nSHEAF then (if w == 2 then 4096 else 0)
  else if nTHRCTX 0 ≤ n && n ≤ nTHRCTX 3 then (if w == 3 then 65536000 else 0)
  else if n == nALMANAC then (if w == 0 then 4 else 0)
  else if n == nHARROW then (if 8 ≤ w && (w - 8) % 12 == 4 then 1 else 0)
  else if n == nPOWER then (if w == 0 then 7692 else if w == 9 then 0x7F else 0)
  else if n == nEVENTS then
    (if w == 2 then 0xFFFFFFFE else if w == 3 || w == 8 || w == 9 then 0xFFFFFFFF else 0)
  else if n == nPLOTMAP then (if w == 0 then 1010567683 else if w == 1 then 0x00100000 else 0)
  else 0

/-- The key of a configuration word. -/
def regKey (noun word : Nat) : Nat := noun * 1024 + word

/-- The reset value of every configuration word, by key. -/
def resetWord (key : Nat) : Nat := nounReset (key / 1024) (key % 1024)

end Sys2Proof.Machine
end

