-- ==== Sys2Proof/Machine/Memory.lean ====
section
/-! DEFINITION. Byte memories: SRAM, the flash and PSRAM behind CSP8, and the Almanac's ferroelectric RAM.
A memory is a list of (address, byte) cells in one canonical form. -/

namespace Sys2Proof.Machine

/-- A byte memory: cells with addresses strictly rising and no cell equal to what an unlisted address reads
as. -/
abbrev Memory := List Host.Cell

/-- The byte at an address; an unlisted address reads as the memory's empty byte `d`. -/
def Memory.read (d : Byte) : Memory → Nat → Byte
  | [], _ => d
  | (a, v) :: t, k => if k = a then v else if k < a then d else Memory.read d t k

/-- The memory with one byte written; writing the empty byte removes the cell. -/
def Memory.write (d : Byte) : Memory → Nat → Byte → Memory
  | [], k, v => if v = d then [] else [(k, v)]
  | (a, w) :: t, k, v =>
    if k < a then (if v = d then (a, w) :: t else (k, v) :: (a, w) :: t)
    else if k = a then (if v = d then t else (k, v) :: t)
    else (a, w) :: Memory.write d t k v

/-- The canonical form from a lower bound of the addresses. -/
def Memory.wfFrom (d : Byte) : Nat → Memory → Bool
  | _, [] => true
  | lo, (a, v) :: t => decide (lo ≤ a) && (v != d) && Memory.wfFrom d (a + 1) t

/-- The canonical form. -/
def Memory.wf (d : Byte) (m : Memory) : Bool := Memory.wfFrom d 0 m

/-- n bytes from an address. -/
def Memory.readList (d : Byte) (m : Memory) (a n : Nat) : List Byte :=
  (List.range n).map fun i => Memory.read d m (a + i)

/-- Bytes written from an address upward. -/
def Memory.writeList (d : Byte) : Memory → Nat → List Byte → Memory
  | m, _, [] => m
  | m, a, b :: bs => Memory.writeList d (Memory.write d m a b) (a + 1) bs

/-- A range of addresses returned to the empty byte (a zero-fill, an erase): its cells are dropped. -/
def Memory.clearRange (m : Memory) (a n : Nat) : Memory :=
  m.filter fun c => c.1 < a || a + n ≤ c.1

/-- What an SRAM byte that nothing has written reads as (log 3, DESIGN CHOICE; a bank that wakes from OFF
is zero-filled, 07 R230). -/
def sramEmpty : Byte := 0

/-- What a byte of the NOR or PSRAM device that nothing has written reads as: erased (log 3, DESIGN CHOICE). -/
def flashEmpty : Byte := 0xFF

/-- What an Almanac byte that nothing has written reads as: blank (13 R469; log 3, DESIGN CHOICE). -/
def almEmpty : Byte := 0xFF

end Sys2Proof.Machine
end

