-- ==== Sys2Proof/Machine/State.lean ====
section
/-! DEFINITION. The state of the block: plain data holding every register, buffer, queue, counter, mode and
pin that the spec gives it, the queue of waiting commands, and the state right after reset. -/

namespace Sys2Proof.Machine

/-! ### Timebase and capture lines (01 R14 to R25) -/

/-- The timebase, the period number and the capture lines. -/
structure Tm where
  /-- The 64-bit timebase (R14). -/
  now : Nat := 0
  /-- Whether a capture line has come since reset (R17). -/
  lineSeen : Bool := false
  /-- The 48-bit period number (R17). -/
  period : Nat := 0
  /-- Timebase value of the capture line that began the period in progress (C of R24). -/
  capture : Nat := 0
  /-- Capture lines since reset, from which the ages are taken (R33). -/
  lines : Nat := 0
  /-- C is a free-run capture line; sync_lost of PERIOD (R24). -/
  freeRun : Bool := false
  /-- The considered edge on SYNC_IN (R25). -/
  edge : Option Nat := none
  /-- Edges held as early since START (Table DR-3). -/
  earlyCount : Nat := 0
  /-- The instant a marker or a wake gives the next capture line (R344, R449). -/
  lineAt : Option Nat := none
  /-- The period number that line carries, where it is given. -/
  linePeriod : Option Nat := none
  deriving DecidableEq, Repr

/-! ### Mailboxes (02) -/

/-- The handle of one request: its channel and its number in the order of arrival. -/
structure Ticket where
  ch : Channel
  id : Nat
  deriving DecidableEq, Repr

/-- One reply, before it is laid out as bytes (Tables MB-2 and MB-9). -/
structure Reply where
  v2 : Bool
  tag : Nat
  verb : Nat
  flags : Nat
  noun : Nat
  index : Nat
  epoch : Nat
  status : Nat
  payload : List Byte
  /-- Bits of the transmitted copy that Harrow flips (14 Table HW-2). -/
  flips : List Nat := []
  /-- Header of the request, for the trace of EP6 (13 R482). -/
  request : List Byte := []
  deriving DecidableEq, Repr

/-- How far a request of the tag history has come (R58). -/
inductive HistState where
  | held | accepted | done
  deriving DecidableEq, Repr

/-- One entry of the tag history (R57). -/
structure Hist where
  id : Nat
  tag : Nat
  status : Nat
  state : HistState
  deriving DecidableEq, Repr

/-- A request that is held or awaits its completion (R63, R65). -/
structure HeldReq where
  id : Nat
  verb : Nat
  req : Req
  accepted : Bool
  deriving DecidableEq, Repr

/-- The state of one mailbox channel (R52). -/
structure Chan where
  history : List Hist := []
  cache : List (Nat × Reply) := []
  replies : List Reply := []
  held : List HeldReq := []
  /-- Requests received by a two-wire target and not yet taken (R213). -/
  rx : List (List Byte) := []
  lastRequest : Nat := 0
  /-- Flow control of R66 is in force. -/
  flow : Bool := false
  deriving DecidableEq, Repr

/-- The next-epoch shadow (R72 to R74): its owner, its words, and the words that a STAGE touched. -/
structure Shadow where
  owner : Channel
  words : Tab
  touched : List Nat
  deriving DecidableEq, Repr

/-- A checked COMMIT that waits for its capture line (R77, R78). `named` is the period, none for the first line
after `ready`, the instant at which the checks finish; `notBefore` is the line count of 10 R369, 0 for none. -/
structure PendingCommit where
  ticket : Ticket
  named : Option Nat
  ready : Nat
  notBefore : Nat
  shadow : Shadow
  /-- save_autostart of R80, with the outcome of the write. -/
  save : Option Bool := none
  deriving DecidableEq, Repr

/-- A START or STOP that waits for its capture line (R145 to R148). -/
structure PendingRun where
  ticket : Option Ticket
  start : Bool
  named : Option Nat
  deriving DecidableEq, Repr

/-- A field write under framing v1 that waits for the next capture line (R48). -/
structure LegacyWrite where
  ticket : Ticket
  key : Nat
  value : Nat
  deriving DecidableEq, Repr

/-- The mailbox block. -/
structure Mb where
  chans : List Chan := List.replicate 4 {}
  nextId : Nat := 1
  /-- Applied epoch E (R72). -/
  epoch : Nat := 1
  shadow : Option Shadow := none
  commit : Option PendingCommit := none
  run : Option PendingRun := none
  legacy : List LegacyWrite := []
  /-- Framing v2 in force (R47). -/
  v2 : Bool := true
  /-- compat written and waiting for its reply to be sent (R47): the channel, the replies still to be collected
  there up to that one, and the framing. -/
  compatNext : Option (Nat × Nat × Bool) := none
  /-- The verb and the channel of the last request taken (13 Table AL-3). -/
  serving : Nat := 0
  servingChan : Nat := 0
  deriving DecidableEq, Repr

/-! ### Events (13 R484 to R491) -/

/-- The event system: pending, the EP3 accumulator and report, and the INT_N pin. -/
structure Ev where
  pending : Nat := 0
  ep3Acc : Nat := 0
  /-- A report offered and not yet acknowledged: sequence number and bytes (R302, R486). -/
  ep3Report : Option (Nat × List Byte) := none
  /-- Events in the report offered. -/
  ep3Mask : Nat := 0
  ep3Seq : Nat := 0
  ep3Last : Option Nat := none
  /-- INT_N is driven low (R487). -/
  intN : Bool := false
  intRelease : Option Nat := none
  /-- In a member: events raised since its previous segment (R489). -/
  up : Nat := 0
  /-- Events already raised in the period in progress, for events raised once a period. -/
  inPeriod : Nat := 0
  /-- An event of wake_mask was raised while the function was suspended (09 R318). -/
  wake : Bool := false
  deriving DecidableEq, Repr

/-! ### Almanac (13 R467 to R483) -/

/-- A record in the queue of the controller, before it has a sequence number (Table AL-2). -/
structure AlmRec where
  type : Nat
  cls : Nat
  source : Nat
  index : Nat
  code : Nat
  period : Nat
  stamp : Nat
  rtc : Bool := false
  summary : Bool := false
  merged : Nat := 0
  detail : List Byte := []
  /-- The request that waits for this record's commit (R480, R481). -/
  ticket : Option Ticket := none
  deriving DecidableEq, Repr

/-- An open merging window (R474). -/
structure MergeWin where
  key : MergeKey
  opened : Nat
  count : Nat
  last : AlmRec
  deriving DecidableEq, Repr

/-- The Almanac controller. -/
structure Alm where
  bytes : Memory := []
  queue : List AlmRec := []
  windows : List MergeWin := []
  /-- Records at the front of the queue that a reset left there: they may commit before the scan (R472). -/
  before : Nat := 0
  nextSeq : Nat := 1
  clearSeq : Nat := 0
  ringNext : Nat := 0
  firstFull : Bool := false
  scanDone : Bool := false
  /-- Slots marked in the bad-slot bitmap, in the numbering of R555. -/
  bad : List Nat := []
  backupReported : Nat := 0
  powerUps : Nat := 0
  written : Nat := 0
  saveCount : Nat := 0
  /-- The counters copy saved last (R555). -/
  copy : Nat := 1
  /-- Discarded records not yet told by a committed code-3 record (R473). -/
  dropped : Nat := 0
  /-- EP6: entries not yet collected, and whether the transfer is open (R482). -/
  ep6 : List (List Byte) := []
  ep6Open : Bool := false
  ep6Last : Nat := 0
  /-- Packet bytes that EP6 sent last. -/
  ep6Out : List Byte := []
  deriving DecidableEq, Repr

/-! ### Drill and sheaf (04) -/

/-- Where a drill entry stands in the period in progress (Table DR-2, last_outcome). -/
inductive EntryPhase where
  | notDue | waiting | running | wireDone | complete | completeErr | aborted | skipped | absent
  deriving DecidableEq, Repr

/-- One received CSP unit: its bits, whether its check passed, and whether it is ABSENT (05 R165, R166). -/
structure CspUnit where
  bits : Nat
  ok : Bool
  absent : Bool
  deriving DecidableEq, Repr

/-- The run-time state of one drill entry. -/
structure EntryRt where
  phase : EntryPhase := .notDue
  /-- The entry stamp (R158). -/
  stamp : Nat := 0
  duration : Nat := 0
  units : List CspUnit := []
  lastEnd : Nat := 0
  lastOutcome : Nat := 0
  /-- The TX buffer of the coming run has been read (05 R172). -/
  txReady : Bool := false
  tx : List Byte := []
  /-- Wait for a start bit (05 R162). -/
  waitStart : Bool := false
  deriving DecidableEq, Repr

/-- The drill. Entry e of FURROW0 to FURROW7 stands at 32 f + e, entry e of FURROW24 at 256 + e. -/
structure Drill where
  /-- drill_state: 0 stopped, 1 running, 2 halted for lack of clock (Table MB-13). -/
  mode : Nat := 0
  entries : List EntryRt := List.replicate 288 {}
  abortedNow : Nat := 0
  /-- The committed set is being reloaded (R137): the period number of the reload, as lines counted. -/
  hardAt : Option Nat := none
  /-- Halted after a second hard fault (R137). -/
  dead : Bool := false
  /-- The period in progress is polled: it began with the drill running. -/
  polled : Bool := false
  /-- A hard fault spoils the sheaf of the period in progress. -/
  spoiled : Bool := false
  worstEnd : List Nat := List.replicate 9 0
  minSlack : List Nat := List.replicate 9 0
  deriving DecidableEq, Repr

/-- One field of a sheaf layout (03 Table SX-8, SHEAF_FIELD). `entry` is the drill entry it belongs to, and
`part` its place in its source. -/
structure SheafField where
  valueType : Nat
  size : Nat
  offset : Nat
  noun : Nat
  source : Nat
  unit : Nat
  scale : Nat
  flags : Nat
  device : Nat
  sched : Nat
  entry : Nat
  deriving DecidableEq, Repr

/-- A sheaf layout. -/
structure Layout where
  id : Nat := 0
  bodySize : Nat := 0
  stack : Nat := 1
  fields : List SheafField := []
  deriving DecidableEq, Repr

/-- The last FRESH value of a field, by its source, and the line count at which it was FRESH (R33, R34). -/
structure HeldValue where
  noun : Nat
  source : Nat
  device : Nat
  value : Nat
  line : Nat
  deriving DecidableEq, Repr

/-- One assembled field: value, status and age. -/
structure Slot where
  value : Nat
  status : Nat
  age : Nat
  deriving DecidableEq, Repr

/-- The sheaf being assembled in the headland. -/
structure Assembly where
  period : Nat
  slots : List Slot
  window : Nat
  coherent : Nat
  done : Bool
  faulted : Bool
  missingMember : Bool
  /-- early_syncs and flag [3] of the header, as the assembly found them. -/
  early : Nat
  newEpoch : Bool
  deriving DecidableEq, Repr

/-- What a buffer of the ring holds. -/
structure Buffer where
  period : Nat
  layout : Nat
  header : Nat
  body : Nat
  order : Nat
  deriving DecidableEq, Repr

/-- The sheaf ring and the assembler. -/
structure Sheaf where
  index : Nat := 0
  any : Bool := false
  buffers : List (Option Buffer) := List.replicate 8 none
  lastPeriod : Nat := 0
  published : Nat := 0
  layout : Layout := {}
  held : List HeldValue := []
  assembly : Option Assembly := none
  ticks : Nat := 0
  /-- The next sheaf assembled is the first of its epoch (Table DR-3 flag [3]). -/
  newEpoch : Bool := false
  /-- Edge levels sampled at the capture line, by bank (R204). -/
  levels : List Nat := List.replicate 4 0
  deriving DecidableEq, Repr

/-! ### CSP ports (05) -/

/-- A latch-guarded chain held at its abort (R131): the frame that the recovery repeats. -/
structure HeldChain where
  entry : Nat
  /-- The selects that it keeps asserted. -/
  selects : Nat
  bits : Nat
  div : Nat
  delay : Nat
  lag : Nat
  /-- The bits that SDO carried in the aborted frame. -/
  sdo : List Bool
  /-- A set has been applied since the abort (R134). -/
  old : Bool := false
  /-- Recovery frame in progress, with the instant at which it began. -/
  since : Option Nat
  deriving DecidableEq, Repr

/-- Phases of a unit reset (Table CS-8). -/
inductive FenceStep where
  | fence | recovery | reset | resume
  deriving DecidableEq, Repr

/-- A unit fenced by RESET_UNIT, with the request that waits for it. -/
structure Fence where
  ticket : Ticket
  period : Nat
  since : Nat
  step : FenceStep
  /-- Requests completed with UNIT_RESET and replies discarded (14 R505). -/
  ended : Nat := 0
  discarded : Nat := 0
  deriving DecidableEq, Repr

/-- A slave transaction in progress (R169). -/
structure SlaveTx where
  buffer : Option Nat
  order : Nat
  repeated : Bool
  /-- The bits of the prefix word, in the order sent. -/
  sent : List Bool
  starved : Bool
  deriving DecidableEq, Repr

/-- One sensor port CSP0 to CSP7. -/
structure CspPort where
  fence : Option Fence := none
  chain : Option HeldChain := none
  /-- Entry whose frame is on the wire. -/
  active : Option Nat := none
  /-- Selects asserted, SS0 at bit 0; those of an aborted frame until the instant of their release (R129). -/
  selects : Nat := 0
  releaseAt : Option Nat := none
  /-- The profile of the last frame, whose CPOL is SCK's idle level, and whether SCK rests high after a burst (R159, R162). -/
  profile : Nat := 0
  burst : Bool := false
  /-- Consecutive stuck runs, by 64 × select + unit position (R166); 4 stands for no select. -/
  stuck : Tab := []
  absentNow : Tab := []
  slave : Option SlaveTx := none
  slaveLast : Option (Nat × Nat) := none
  underrun : Bool := false
  /-- A transaction was cut off by a unit reset (R186). -/
  cut : Bool := false
  /-- The bits that SDO carries in the last frame or transaction, in the order sent. -/
  sdo : List Bool := []
  deriving DecidableEq, Repr

/-- A write being gathered into a page of a NOR window (R177). `cfg` holds the CSP8 words under which the access began: W0, and
words m to m + 2 of its select (R182). -/
structure Gather where
  agent : Agent
  first : Nat
  data : List Byte
  last : Nat
  cfg : List Nat
  deriving DecidableEq, Repr

/-- A NOR program cycle on the wire, with the instant of its last status poll (R177, R178), and the words of R182. -/
structure Program where
  agent : Agent
  addr : Nat
  data : List Byte
  since : Nat
  polled : Nat
  cfg : List Nat
  deriving DecidableEq, Repr

/-- The storage port CSP8. -/
structure Csp8 where
  gather : List (Option Gather) := [none, none]
  busy : List (Option Program) := [none, none]
  /-- Programs waiting for a select, in arrival order (R178). -/
  queue : List (List Program) := [[], []]
  fence : Option Fence := none
  /-- The instant at which the last pulse of RST_N began (R180, R187; 14 R517). -/
  rstAt : Option Nat := none
  /-- The status byte polled last on each select (R177). -/
  status : List Nat := [0, 0]
  /-- The command bytes sent last on each select: write enable, then the program command with its address and data (R177). -/
  sent : List (List Byte) := [[], []]
  /-- The bytes of each assertion of the select in the last access to a PSRAM window (R179). -/
  bursts : List Nat := []
  lastAccess : Nat := 0
  deriving DecidableEq, Repr

/-! ### SENT and edge inputs (06) -/

/-- The values of one error-free SENT frame. -/
structure SentFrame where
  fc1 : Nat
  fc2 : Nat
  status : Nat
  stamp : Nat
  deriving DecidableEq, Repr

/-- A serial message in progress: the status nibbles received since its start. -/
structure Serial where
  nibbles : List Nat := []
  deriving DecidableEq, Repr

/-- One SENT receiver. -/
structure SentChan where
  fence : Option Fence := none
  /-- A calibration pulse has been accepted: the receiver is locked. -/
  locked : Bool := false
  cal : Nat := 0
  /-- The previous accepted calibration pulse of R190, none where there is none to compare with. -/
  prevCal : Option Nat := none
  /-- For a frame in flight since before a set applied: when it applied, and the calibration pulse and the words before it. -/
  old : Option (Nat × Option Nat × List Nat) := none
  absent : Bool := false
  lastEnd : Nat := 0
  serial : Serial := {}
  good : Option SentFrame := none
  errored : Bool := false
  message : Option (Nat × Nat) := none
  messageBad : Bool := false
  /-- A trigger entry's frame is awaited or on the line: the entry and the trigger instant (R194). -/
  trigger : Option (Nat × Nat) := none
  deriving DecidableEq, Repr

/-- One edge input. -/
structure EdgeIn where
  /-- Level on the pin after inversion, and the level accepted. -/
  seen : Bool := false
  level : Bool := false
  /-- The edge that began an interval not yet long enough (R202). -/
  since : Option Nat := none
  count : Nat := 0
  rise : Option Nat := none
  fall : Option Nat := none
  /-- Such an edge was accepted in the window. -/
  riseNow : Bool := false
  fallNow : Bool := false
  deriving DecidableEq, Repr

/-- One edge bank: glitches of the window, and its fence. -/
structure EdgeBank where
  fence : Option Fence := none
  glitches : Nat := 0
  deriving DecidableEq, Repr

/-! ### Two-wire targets (06 R208 to R223) -/

/-- The mirrored range of one virtual target (R218). -/
structure Mirror where
  period : Nat := 0
  layout : Nat := 0
  valid : Bool := false
  data : List Byte := []
  readPeriod : Option (Nat × Nat) := none
  /-- The pointer of the virtual target (06 R210). -/
  pointer : Nat := 0
  deriving DecidableEq, Repr

/-- One two-wire target. -/
structure Twt where
  fence : Option Fence := none
  /-- The hand-over of R213's request: address not acknowledged until then (Table SE-7). -/
  busyUntil : Nat := 0
  /-- Whether the last transaction was acknowledged, and the bytes it clocked out. -/
  acked : Bool := false
  out : List Byte := []
  /-- The register pointer of the target (06 R210). -/
  pointer : Nat := 0
  deriving DecidableEq, Repr

/-! ### Memory and faults (07) -/

/-- The power state of a bank (Table PM-1). -/
inductive BankState where
  | on | retained | off
  deriving DecidableEq, Repr

/-- One SRAM bank. -/
structure Bank where
  state : BankState := .on
  lastAccess : Nat := 0
  failed : Bool := false
  /-- A wake is in progress. -/
  waking : Bool := false
  /-- A POWER request that waits for that wake (Table PM-9). -/
  gateTo : Option BankState := none
  deriving DecidableEq, Repr

/-- The resume cursor of a suspended agent (R242). `kind` is the code of last_kind. -/
structure Cursor where
  agent : Agent
  dir : Access
  vaddr : Nat
  index : Nat
  kind : Nat
  count : Nat
  bank : Option Nat
  contentLost : Bool
  /-- Taken by the steward and resolved; the agent replays. -/
  resolved : Bool
  time : Nat
  deriving DecidableEq, Repr

/-- SRAM, the plot map's faults and the USB pool. -/
structure Mem where
  sram : Memory := []
  nor : Memory := []
  psram : Memory := []
  banks : List Bank := List.replicate 64 {}
  /-- Words whose check bits show an uncorrectable error, and words that hold a single-bit error, by word address (R226 to R228). -/
  eccBad : List Nat := []
  eccOne : List Nat := []
  /-- The plots in the translation cache of each holding, the most recent first (R237). -/
  caches : List (List Nat) := List.replicate 16 []
  /-- The fault queue, in R243's order, and the cursors of agents that have been resolved once. -/
  faults : List Cursor := []
  cursors : List Cursor := []
  lastHolding : Nat := 0
  lastKind : Nat := 0
  lastResolved : Bool := false
  lastAttempts : Nat := 0
  lastLost : Bool := false
  lastVaddr : Nat := 0
  lastTime : Nat := 0
  /-- Allocations of EP1 to EP6: first granule and count (R253). -/
  pool : List (Nat × Nat) := List.replicate 6 (0, 0)
  deriving DecidableEq, Repr

/-! ### Clocks, boot and levels (12; 01 R39 to R44) -/

/-- The reference sources, the PLL and the calibration of CK_AON. Sources are numbered as active_source is:
0 crystal, 1 REFIN, 2 yoke, 3 RC. -/
structure Clk where
  active : Nat := 3
  locked : Bool := false
  /-- The boot ROM has locked the PLL, to a source or to the RC (R433, R435). -/
  bootLocked : Bool := false
  xtalOk : Bool := false
  refinOk : Bool := false
  yokeOk : Bool := false
  /-- Holdover since (R440). -/
  holdover : Option Nat := none
  lost : Option Nat := none
  /-- A hitless switch or a relock is under way to this source (R441, R443). -/
  switching : Option Nat := none
  relocking : Option Nat := none
  unlocked : Bool := false
  /-- Errors of the last runs of CK_AON, newest last, in units of 0.01 ppm (R447). -/
  aonRuns : List Int := []
  aonOffset : Int := 0
  deriving DecidableEq, Repr

/-- The phases of a start (Tables CK-4 and CK-6). -/
inductive BootPhase where
  /-- No VIN, or switching stopped. -/
  | off
  /-- Held in reset by RESET_N, a detach cycle or the loss of VDDIO_D. -/
  | held
  /-- The boot ROM runs. -/
  | rom
  /-- An image verified; start work. -/
  | verified
  /-- ROM service (R458). -/
  | romService
  /-- Mailboxes ready. -/
  | ready
  deriving DecidableEq, Repr

/-- Why the steward is starting. -/
inductive StartKind where
  | reset | watchdog | swap | deepWake
  /-- A wake from FALLOW: no start of the steward, only its mailboxes become ready again. -/
  | wake
  deriving DecidableEq, Repr

/-- Boot, straps, identity and the steward. -/
structure Boot where
  phase : BootPhase := .rom
  kind : StartKind := .reset
  /-- The readiness time of this start: 55.5 ms after the release (R459, R460). -/
  readyAt : Nat := 6660000
  /-- The instant at which the mailboxes first became ready after the last POR, RESET_N or detach cycle (09 R303). -/
  readyFrom : Option Nat := none
  /-- The instant at which they last became ready (R466; 14 R520). -/
  readySince : Nat := 0
  excluded : List Nat := []
  /-- 0 boot ROM, 1 slot A, 2 slot B (Table SX-5). -/
  runningFrom : Nat := 0
  bootCount : Nat := 1
  cause : Nat := 1
  legacy : Bool := false
  ykLead : Bool := true
  twa : Nat := 0
  gang : Bool := false
  /-- Pins read live (R452). -/
  service : Bool := false
  testEn : Bool := false
  /-- START of R466 is still to come. -/
  autostart : Bool := false
  /-- The version of the firmware started last: patch, minor and major from the low byte up. -/
  fwVersion : Nat := 0
  buildId : Nat := 0
  romVersion : Nat := 1
  /-- The source in use at the current steward start, the reset value of root_source (R104, R465). -/
  rootSource : Nat := 0
  serial : Nat := 0
  silicon : Nat := 1
  deriving DecidableEq, Repr

/-- The standing failures of Table AR-7, by the row that names them. -/
structure Fail where
  rc : Bool := false
  orphan : Bool := false
  rom : Bool := false
  drill : Bool := false
  usb : Bool := false
  yoke : Bool := false
  /-- Thresher control or twiddle store. -/
  thr : Bool := false
  steward : Bool := false
  stewardL1 : Bool := false
  detach : Bool := false
  deriving DecidableEq, Repr

/-- The service level in force, since when, and the Syntax table's generation (01 R40, 03 R114). -/
structure Lev where
  level : Nat := 1
  since : Nat := 0
  generation : Nat := 1
  firmware : Bool := false
  fail : Fail := {}
  deriving DecidableEq, Repr

/-! ### Power, standby, backup and hot plug (11) -/

/-- The power states of Table PW-5. -/
inductive PwState where
  | run | fallow | deep | backup | off
  deriving DecidableEq, Repr

/-- A FALLOW that has passed its checks and waits for its entry period (R402). -/
structure FallowPending where
  /-- The request, while its reply has not been sent. -/
  ticket : Option Ticket
  deep : Bool
  sleepMs : Nat
  /-- P_c, once fixed, as a period number; and the earliest instant of its capture line. -/
  entry : Option Nat
  earliest : Nat
  /-- The agreement of a lead with joined members: proposal number, and whether COMMIT has been sent. -/
  proposal : Option Nat
  committed : Bool
  /-- The K28.7 marker of P_c has been sent: the commit point (10 R378). -/
  pointSent : Bool
  /-- A wake source of the lead asserted after it (10 R379). -/
  latched : Option Nat
  deriving DecidableEq, Repr

/-- The wake context kept in domain 152 (R402, R448). -/
structure WakeContext where
  deep : Bool
  now : Nat
  period : Nat
  drillRan : Bool
  sleepMs : Nat
  /-- period_ticks at entry, the spacing of the grid that the wake continues (12 R449). -/
  ticks : Nat
  /-- The entry was agreed with the lead, as a joined member (10 R382). -/
  agreed : Bool
  deriving DecidableEq, Repr

/-- The steps of a DETACH (R424) or an emergency detach (Table PW-9). -/
inductive DetachStep where
  | none | accepted | parking | recording | replied | emergency | held
  deriving DecidableEq, Repr

/-- The backup domain's alarm counters and its record in progress (R414 to R418). -/
structure Backup where
  counts : List Nat := [0, 0, 0, 0]
  /-- Alarms per input since the previous record. -/
  sinceRec : List Nat := [0, 0, 0, 0]
  total : Nat := 0
  saturated : Bool := false
  aborted : Nat := 0
  abortedRec : Bool := false
  firstRtc : Option Nat := none
  nextSeq : Nat := 1
  slot : Nat := 0
  /-- A record being written: its trigger bits. -/
  writing : Option Nat := none
  /-- Hold-off of 250 ms in force. -/
  holdoff : Bool := false
  /-- Sequence numbers of records written since the last report, newest last. -/
  lastSeq : Nat := 0
  deriving DecidableEq, Repr

/-- Power supplies, power states, the RTC, backup and hot plug. -/
structure Pw where
  state : PwState := .run
  vin10mv : Nat := 2400
  vsysMv : Nat := 3300
  vbakMv : Nat := 3000
  vresMv : Nat := 3000
  vddioOk : List Bool := [true, true, true, true]
  vddio1v8 : List Bool := [false, false, false, false]
  vinLow : Bool := false
  vinHigh : Bool := false
  overload : Bool := false
  /-- Switching was stopped by the overvoltage of Table PW-1, or by thermal shutdown. -/
  ovStop : Bool := false
  thermalStop : Bool := false
  /-- Thermal shutdown waits for its record's commit (13 R484). -/
  thermalPending : Bool := false
  /-- The RTC at timebase value rtcAt. -/
  rtc : Nat := 0
  rtcAt : Nat := 0
  rtcValid : Bool := true
  cellLow : Bool := false
  resumedFrom : Nat := 0
  lastWake : Nat := 0x1F
  fallow : Option FallowPending := none
  wake : Option WakeContext := none
  /-- Cycles of CK_AON elapsed in the present sleep, as a wake reports them. -/
  waking : Bool := false
  /-- WAKE op 1: domains held on until then, with the request (R427). -/
  hold : Option Nat := none
  prsntHigh : Bool := false
  /-- The condition of R420 has been met since the last power-up. -/
  prsntMet : Bool := false
  detach : DetachStep := .none
  detachTicket : Option Ticket := none
  detachAt : Nat := 0
  detachPeriod : Nat := 0
  /-- PRSNT_N has been high since the detach (R425). -/
  detachHigh : Bool := false
  csp8Gated : Bool := false
  dnRxIdle : Bool := false
  /-- rtc_alarm disarmed by a write of its high word under framing v1 (R430). -/
  rtcDisarmed : Bool := false
  backup : Backup := {}
  /-- alm_enable cleared by a loss of the backup domain's state until the applied set is restored (R411). -/
  almLost : Bool := false
  /-- Settings copied to domains 152 and 153: wake_mask, rtc_alarm, alm_enable, alm_active_high. -/
  aonWakeMask : Nat := 0x7F
  aonRtcAlarm : Nat := 0
  aonAlmEnable : Nat := 0
  aonAlmHigh : Nat := 0
  /-- POWER requests that wait for their banks: the banks and the state that they are to reach (R428). -/
  powers : List (Ticket × Nat × BankState) := []
  deriving DecidableEq, Repr

/-! ### USB and the hub (09) -/

/-- Harrow's selection for one chunk of a delivery: chunk, slot, class and the bit to flip (14 R493). -/
structure ChunkPick where
  chunk : Nat
  slot : Nat
  cls : Nat
  bit : Nat
  deriving DecidableEq, Repr

/-- A delivery copied for a stream: the sheaf's period and layout, the chunk count C and size K it is sent under, its
bytes (R309 to R312), and Harrow's selections. Its prefix is fixed when it starts: skipped and flags (Table US-4). -/
structure Delivery where
  period : Nat
  layout : Nat
  chunks : Nat
  k : Nat
  /-- Virtual address and length of its range in the ring (R311). -/
  src : Nat
  len : Nat
  /-- The range, once it is copied into a half of the allocation. -/
  bytes : List Byte := []
  picks : List ChunkPick := []
  skipped : Nat := 0
  flags : Nat := 0
  /-- No chunk has been dropped. -/
  whole : Bool := true
  deriving DecidableEq, Repr

/-- One isochronous stream. -/
structure Stream where
  alt : Nat := 0
  /-- The second half of the allocation takes the next copy (R312). -/
  half : Bool := false
  /-- The half being filled, the half that waits, and the delivery being sent with its next chunk. -/
  copying : Option Delivery := none
  waiting : Option Delivery := none
  sending : Option (Delivery × Nat) := none
  /-- skipped of the next prefix (Table US-4). -/
  skipped : Nat := 0
  /-- layout_id of the previous delivery. -/
  lastLayout : Option Nat := none
  /-- The next delivery is the first after configuration, a change of alternate setting, a bus reset or a resume. -/
  fresh : Bool := true
  /-- Micro-frames for which the start is still held (14 Table HW-2). -/
  delay : Nat := 0
  /-- A delivery held back for an exchange, and whether the delivery after it has been sent (14 Table HW-2). -/
  swapped : Option (Delivery × Bool) := none
  /-- The transfer sent in the last micro-frame as packets, each with the number of its data PID: none for silence (R310). -/
  out : Option (List (Nat × List Byte)) := none
  deriving DecidableEq, Repr

/-- One downstream port. -/
structure HubPort where
  requested : Bool := false
  state : Nat := 0
  speed : Nat := 0
  /-- The OCI input and when it rose. -/
  oci : Bool := false
  ociSince : Nat := 0
  ppe : Bool := false
  /-- The change bits of the hub class: over-current (R321), connection (R322), suspend and reset. -/
  ocChange : Bool := false
  conChange : Bool := false
  suChange : Bool := false
  rsChange : Bool := false
  /-- A test mode of Table US-1 in force. -/
  test : Option TestMode := none
  fence : Option Fence := none
  deriving DecidableEq, Repr

/-- The function, the streams and the hub. -/
structure Usb where
  state : Nat := 0
  speed : Nat := 0
  address : Nat := 0
  pullup : Bool := false
  vbus : Bool := false
  vbusSince : Nat := 0
  remoteWake : Bool := false
  /-- State before the suspension, and whether it stopped the drill (R316, R317). -/
  before : Nat := 0
  suspended : Bool := false
  stoppedDrill : Bool := false
  resuming : Bool := false
  /-- When the function was suspended (R318). -/
  suspendedAt : Nat := 0
  port5 : Bool := true
  streams : List Stream := [{}, {}]
  ports : List HubPort := List.replicate 4 {}
  fence : Option Fence := none
  /-- Reply bytes that EP2, report bytes that EP3, or what EP0 or the status endpoint of the function or the hub sent last; the answer to
  the last control request: true for an acknowledgement, false for STALL. -/
  out : List Byte := []
  ack : Bool := true
  /-- The transaction translator holds a split transaction that a hot removal dropped (09, Collisions). -/
  tt : Bool := false
  /-- A global over-current under GANG and its change bit (R320). -/
  hubOc : Bool := false
  hubOcChange : Bool := false
  /-- A test mode of Table US-1 in force upstream. -/
  testMode : Option TestMode := none
  deriving DecidableEq, Repr

/-! ### Yoke link (10) -/

/-- A position of the stack, as the lead holds it. -/
structure Position where
  /-- member_state of Table YK-10. -/
  state : Nat := 0
  delayQ : Nat := 0
  lastOffset : Int := 0
  need : Nat := 0
  layoutId : Nat := 0
  serial : Nat := 0
  /-- The cached SHEAF section: layout id and fields (R364). -/
  cached : Option Layout := none
  edgeRun : Nat := 0
  /-- Lines at which a segment was rejected, within the last 64 periods (R352). -/
  rejects : List Nat := []
  offsets : List Int := []
  rangeLeft : Nat := 0
  rangeSum : Nat := 0
  events : Nat := 0
  /-- The segment of the period in progress: its class and its body. Class 0 on time, 1 edge hit, 2 reject, 3 CRC
  failure, 4 a header merged without a body. -/
  segment : Option (Nat × List Byte) := none
  lastBody : List Byte := []
  lastLine : Nat := 0
  /-- The fields by which the last merged body is cut (R353). -/
  lastFields : List SheafField := []
  /-- A segment whose body waits for the resolution of a soft fault of the yoke link (07 R242): its class and its body. -/
  waiting : Option (Nat × List Byte) := none
  rerange : Bool := false
  /-- The reply being collected for a forwarded request (R358). -/
  reply : List Byte := []
  /-- The SHEAF section being read (R364): its offset and size, 0 while they are wanted, and what has been read. -/
  sectionRead : Option (Nat × Nat × List Byte) := none
  deriving DecidableEq, Repr

/-- The kinds of Table YK-3. -/
inductive CmdKind where
  | mbx | joinAccept | range | setDelay | trim | grant | quarantine | release | replyResend | replyDone
  | fallowPropose | fallowCommit | fallowAbort
  deriving DecidableEq, Repr

/-- A command frame of the lead that waits to be sent or acknowledged (R354). Destination 0 is every joined member. -/
structure Command where
  kind : CmdKind
  dest : Nat
  seq : Nat
  payload : List Byte
  sent : Nat
  /-- Positions that have not acknowledged. -/
  open' : List Nat
  /-- Not before this line (R357, R356). -/
  notBefore : Nat
  /-- The YOKE_CTL that waits for its acknowledgement (R359). -/
  ticket : Option Ticket
  deriving DecidableEq, Repr

/-- A forwarded request that waits for its inner reply (R358, R359); without a ticket it is the lead's own read of a
member's table (R364). -/
structure Forward where
  ticket : Option Ticket
  position : Nat
  /-- The tag of the inner message, by which its reply is known. -/
  tag : Nat
  left : List Byte
  deriving DecidableEq, Repr

/-- A grant received by a member and not yet applied. -/
structure Grant where
  apply : Nat
  ticks : Nat
  balkNs : Nat
  slots : List (Nat × Nat)
  deriving DecidableEq, Repr

/-- The yoke link: the lead's side and the member's side. -/
structure Yoke where
  fence : Option Fence := none
  -- Lead
  positions : List Position := List.replicate 7 {}
  seq : Nat := 0
  commands : List Command := []
  forwards : List Forward := []
  /-- Capture lines of the last beacon and of the last rediscovery marker (R360, R383). -/
  lastBeacon : Option Nat := none
  lastRediscovery : Option Nat := none
  markersOn : Bool := false
  /-- Number of the last fallow proposal. -/
  proposal : Nat := 0
  /-- The marker that leaves DN TX last, of the lead or repeated, and the command frame after it. -/
  out : List Byte := []
  cmdOut : List Byte := []
  -- Member
  position : Nat := 0xFF
  hop : Option Nat := none
  linkState : Nat := 0
  delayQ : Nat := 0
  /-- The D_k with which a member that was made to leave sends its last acknowledgement (R341, R352). -/
  partingQ : Nat := 0
  trim : Int := 0
  grant : Option Grant := none
  applied : Option Grant := none
  /-- Frames executed: seq and answer, the last eight (R355). -/
  executed : List (Nat × Nat) := []
  /-- What the next segment carries: acknowledged seq, answer, flags. -/
  ack : Option Nat := none
  answer : Nat := 0
  claim : Bool := false
  leaving : Bool := false
  busy : Bool := false
  leaveTicket : Option Ticket := none
  /-- An MBX3 request being put together, and how much of the reply at the head of MBX3's queue has been sent. -/
  rxBuf : List Byte := []
  txOff : Nat := 0
  /-- Arrival of the last marker, the period it announced, whether it carried the beacon flag, and the beacons and
  attempts counted since the member began to seek (R361). -/
  markerSeen : Nat := 0
  markerPeriod : Nat := 0
  beacon : Bool := false
  attempts : Nat := 0
  beacons : Nat := 0
  /-- Echo segment still to be sent, with t_ta in ns (R346). -/
  echo : Option Nat := none
  /-- The segment or join request sent last, how many ns late Harrow made it, and the bytes forwarded last (R342). -/
  segment : List Byte := []
  segmentDelay : Nat := 0
  upOut : List Byte := []
  /-- A fallow agreement on a member: proposal, state, sleep, period of the ACCEPT, P_c. -/
  agreed : Option (Nat × Bool × Nat × Nat × Option Nat) := none
  cutoffPassed : Bool := false
  /-- A wake source asserted after the cutoff (Table YK-9). -/
  latched : Option Nat := none
  orphan : Bool := false
  repeating : Bool := true
  /-- The repeating stops at the next period boundary (R365). -/
  stopRepeating : Bool := false
  scanning : Bool := false
  deriving DecidableEq, Repr

/-! ### Harrow and firmware replacement (14) -/

/-- The run-time state of one episode slot (Table HW-5). -/
structure Episode where
  state : Nat := 0
  endReason : Nat := 0
  consented : Bool := false
  startedBy : Nat := 0
  lastPeriod : Nat := 0
  lfsr : Nat := 1
  /-- The first period of the window; injections of this episode. -/
  first : Nat := 0
  count : Nat := 0
  deriving DecidableEq, Repr

/-- A consent open on a channel (R497). -/
structure Consent where
  ch : Channel
  id : Nat
  at' : Nat
  deriving DecidableEq, Repr

/-- A selection drawn for a unit that has not yet been received (R493, R495): slot, class, noun of the target,
entry, unit and the bit to flip. -/
structure Selection where
  slot : Nat
  cls : Nat
  target : Nat
  source : Nat
  entry : Nat
  unit : Nat
  bit : Nat
  deriving DecidableEq, Repr

/-- A SENT frame that Harrow holds back, by its slot: until an instant, or for a reorder until the next frame has been
delivered (Table HW-2). -/
structure HeldFrame where
  source : Nat
  frame : SentFrame
  due : Option Nat
  slot : Nat
  deriving DecidableEq, Repr

/-- A reply that Harrow holds back for delay_k ms (Table HW-2). -/
structure HeldReply where
  slot : Nat
  ch : Nat
  reply : Reply
  due : Nat
  deriving DecidableEq, Repr

/-- The Harrow block. -/
structure Hw where
  episodes : List Episode := List.replicate 4 {}
  consentGen : Nat := 1
  consents : List Consent := []
  sealed : Bool := false
  selections : List Selection := []
  /-- Entries on the wire, with the four generators as they stood before their units were drawn for. -/
  drawBase : List (Nat × List Nat) := []
  heldFrames : List HeldFrame := []
  /-- Replies held for a delay, and channels with a reorder pending. -/
  heldReplies : List HeldReply := []
  reorder : List Nat := []
  /-- A command frame held or to be exchanged, by line due. -/
  heldCmd : Option (List Byte × Nat) := none
  /-- Some window was open in the period in progress (flag [2] of the header). -/
  activeNow : Bool := false
  deriving DecidableEq, Repr

/-- A staging in progress (R511 to R514). -/
structure Staging where
  ch : Channel
  slot : Nat
  length : Nat
  received : Nat
  lastRequest : Nat
  /-- Chunks accepted and not yet programmed, in offset order: request, offset, data. -/
  chunks : List (Ticket × Nat × List Byte)
  /-- A begin or a finish under way: the request, and 0 for begin or 2 for finish. -/
  op : Option (Ticket × Nat)
  deriving DecidableEq, Repr

/-- Firmware replacement. -/
structure Upd where
  staging : Option Staging := none
  /-- A swap accepted: the request, the new slot, the trial flag; and the line at which it quiesced. -/
  swap : Option (Ticket × Nat × Bool) := none
  /-- The period whose capture line was the swap line. -/
  swapLine : Option Nat := none
  /-- Requests marked at the swap line (R517), with the payload that a Thresher job's completion carries. -/
  marked : List (Ticket × List Byte) := []
  /-- The result that the swap reply carries: 0 none, else the detail. -/
  result : Option Nat := none
  trialSince : Option Nat := none
  /-- A trial image failed: the other slot starts first (R520). -/
  trialFailed : Bool := false
  deriving DecidableEq, Repr

/-! ### Thresher (08) -/

/-- An object of a context's object table (Table TH-2); its bytes lie in memory from `vaddr`. -/
structure Obj where
  id : Nat
  type : Nat
  flags : Nat
  components : Nat
  ring : Nat
  limbs : Nat
  entries : Nat
  dataLen : Nat
  capacity : Nat
  special : Nat
  vaddr : Nat
  complete : Bool
  received : Nat
  /-- The channel of an inline load in progress, and the time of its last chunk (R283). -/
  owner : Option Channel
  lastChunk : Nat
  /-- Next unused entry of a ZERO_POOL (R280). -/
  used : Nat
  deriving DecidableEq, Repr

/-- What an instruction leaves: the bytes it writes, the objects it changes, and whether its residue check passed (R270, R271). -/
structure KernelResult where
  writes : List (Nat × List Byte)
  objs : List Obj
  ok : Bool
  deriving DecidableEq, Repr

/-- A job (R274 to R285). -/
structure Job where
  ticket : Option Ticket
  number : Nat
  program : Nat
  every : Nat
  count : Nat
  /-- Period of the first sample, once it is known (R279). -/
  first : Option Nat
  /-- Index of the current instruction, and the iteration in progress. -/
  pc : Nat
  iteration : Nat
  /-- The sample's expected sheaf: the period published at the line at which the sample fell. -/
  sheaf : Option Nat
  skipping : Bool
  /-- Waiting for a hand-off or a pool since (R282). -/
  waitSince : Nat
  /-- End reason decided and taking effect at the next pre-emption point. -/
  ending : Option Nat
  /-- A hand-off replacement being returned: its bytes so far. -/
  returned : List Byte
  /-- The sheaf layout that the program was checked against (R275). -/
  layout : Layout
  /-- The result of the current instruction, while a write of it waits for the resolution of a soft fault (R291). -/
  result : Option KernelResult := none
  deriving DecidableEq, Repr

/-- One context, THRCTX0 to THRCTX3. -/
structure Ctx where
  /-- job_state of Table TH-12. -/
  state : Nat := 0
  job : Option Job := none
  objects : List Obj := []
  jobNumber : Nat := 0
  done : Nat := 0
  skipped : Nat := 0
  overruns : Nat := 0
  instr : Nat := 0
  poolLeft : Nat := 0
  handoff : Nat := 0
  lastPeriod : Nat := 0
  fence : Option Fence := none
  /-- The bytes of the context's state lie at save_addr, as the count of free values gave them (R287). -/
  saved : Option Nat := none
  /-- The job_state that the context takes once the save of its state, suspended on a soft fault, is complete (07 Table PM-9). -/
  parking : Option Nat := none
  deriving DecidableEq, Repr

/-- The Thresher. -/
structure Thr where
  ctxs : List Ctx := List.replicate 4 {}
  running : Option Nat := none
  /-- The context that the engine ran last (R289). -/
  last : Nat := 3
  sliceFrom : Nat := 0
  idleSince : Nat := 0
  gated : Bool := true
  fence : Option Fence := none
  deriving DecidableEq, Repr

/-! ### The whole -/

/-- The state of the block. `freeCount` is the model's own: how many free values have been taken. -/
@[ext]
structure State where
  /-- Commands that wait, first in, first out. -/
  pending : List Instr := []
  tm : Tm := {}
  mb : Mb := {}
  /-- Applied configuration words (RWS and RW bits), by regKey. -/
  cfg : Tab := []
  /-- Counters of access code RC, by 32 × regKey + low bit. -/
  cnt : Tab := []
  ev : Ev := {}
  alm : Alm := {}
  drill : Drill := {}
  sheaf : Sheaf := {}
  csp : List CspPort := List.replicate 8 {}
  csp8 : Csp8 := {}
  sent : List SentChan := List.replicate 24 {}
  edge : List EdgeIn := List.replicate 32 {}
  banks : List EdgeBank := List.replicate 4 {}
  twt : List Twt := [{}, {}]
  mirror : List Mirror := List.replicate 64 {}
  mem : Mem := {}
  clk : Clk := {}
  boot : Boot := {}
  lev : Lev := {}
  pw : Pw := {}
  usb : Usb := {}
  yoke : Yoke := {}
  hw : Hw := {}
  upd : Upd := {}
  thr : Thr := {}
  freeCount : Nat := 0
  deriving DecidableEq, Repr

/-- The faults of the model: none. Every command of the table has an effect, so a step never ends in a
fault. -/
inductive Fault where
  deriving DecidableEq, Repr

/-- The refusals of the model. -/
inductive Refusal where
  /-- Raised by an arm of exec for a command without a meaning; safe, since nothing follows from it. No arm
  raises it once every command has its meaning. -/
  | notModelled (mnemonic : String)
  deriving DecidableEq, Repr

/-- The machine right after reset: the release of POR, at the 4.5 ms row of Table CK-6, of a native lead whose
sampled straps are open (12 R452, R459; 15 Table PK-6). The timebase stands at 0 on the RC, the boot ROM is about
to run, the level is L1, no configuration but the reset values is applied, and no command waits. -/
def State.reset : State := {}

end Sys2Proof.Machine
end

