-- ==== Sys2Proof/Machine/Ops.lean ====
section
/-! DEFINITION. The named operations over the state that every family of commands shares: time, configuration
words, counters, events, Almanac records, Harrow draws, and mailbox replies. -/

namespace Sys2Proof.Machine

/-! ### Updating one component -/

def State.modTm (s : State) (f : Tm → Tm) : State := { s with tm := f s.tm }
def State.modMb (s : State) (f : Mb → Mb) : State := { s with mb := f s.mb }
def State.modEv (s : State) (f : Ev → Ev) : State := { s with ev := f s.ev }
def State.modAlm (s : State) (f : Alm → Alm) : State := { s with alm := f s.alm }
def State.modDrill (s : State) (f : Drill → Drill) : State := { s with drill := f s.drill }
def State.modSheaf (s : State) (f : Sheaf → Sheaf) : State := { s with sheaf := f s.sheaf }
def State.modPort (s : State) (k : Nat) (f : CspPort → CspPort) : State := { s with csp := updAt s.csp k f }
def State.modCsp8 (s : State) (f : Csp8 → Csp8) : State := { s with csp8 := f s.csp8 }
def State.modSent (s : State) (c : Nat) (f : SentChan → SentChan) : State := { s with sent := updAt s.sent c f }
def State.modEdge (s : State) (i : Nat) (f : EdgeIn → EdgeIn) : State := { s with edge := updAt s.edge i f }
def State.modBank (s : State) (b : Nat) (f : EdgeBank → EdgeBank) : State := { s with banks := updAt s.banks b f }
def State.modTwt (s : State) (k : Nat) (f : Twt → Twt) : State := { s with twt := updAt s.twt k f }
def State.modMem (s : State) (f : Mem → Mem) : State := { s with mem := f s.mem }
def State.modSram (s : State) (k : Nat) (f : Bank → Bank) : State := s.modMem fun m => { m with banks := updAt m.banks k f }
def State.modClk (s : State) (f : Clk → Clk) : State := { s with clk := f s.clk }
def State.modBoot (s : State) (f : Boot → Boot) : State := { s with boot := f s.boot }
def State.modLev (s : State) (f : Lev → Lev) : State := { s with lev := f s.lev }
def State.modPw (s : State) (f : Pw → Pw) : State := { s with pw := f s.pw }
def State.modBackup (s : State) (f : Backup → Backup) : State := s.modPw fun p => { p with backup := f p.backup }
def State.modUsb (s : State) (f : Usb → Usb) : State := { s with usb := f s.usb }
def State.modStream (s : State) (e : Nat) (f : Stream → Stream) : State :=
  s.modUsb fun u => { u with streams := updAt u.streams e f }
def State.modHub (s : State) (p : Nat) (f : HubPort → HubPort) : State := s.modUsb fun u => { u with ports := updAt u.ports p f }
def State.modYoke (s : State) (f : Yoke → Yoke) : State := { s with yoke := f s.yoke }
def State.modPos (s : State) (k : Nat) (f : Position → Position) : State :=
  s.modYoke fun y => { y with positions := updAt y.positions (k - 1) f }
def State.modHw (s : State) (f : Hw → Hw) : State := { s with hw := f s.hw }
def State.modEpisode (s : State) (e : Nat) (f : Episode → Episode) : State :=
  s.modHw fun h => { h with episodes := updAt h.episodes e f }
def State.modUpd (s : State) (f : Upd → Upd) : State := { s with upd := f s.upd }
def State.modThr (s : State) (f : Thr → Thr) : State := { s with thr := f s.thr }
def State.modCtx (s : State) (n : Nat) (f : Ctx → Ctx) : State := s.modThr fun t => { t with ctxs := updAt t.ctxs n f }
def State.modChan (s : State) (c : Nat) (f : Chan → Chan) : State := s.modMb fun m => { m with chans := updAt m.chans c f }
def State.modEntry (s : State) (e : Nat) (f : EntryRt → EntryRt) : State :=
  s.modDrill fun d => { d with entries := updAt d.entries e f }

/-- A fold over a list of numbers. -/
def State.each (s : State) (l : List Nat) (f : State → Nat → State) : State := l.foldl f s

/-- A conditional update. -/
def State.ite (s : State) (b : Bool) (f : State → State) : State := if b then f s else s

/-! ### Time (01 R14 to R17) -/

/-- The timebase moved forward to an instant, and never back (log 1). -/
def State.at (s : State) (t : Nat) : State := s.modTm fun m => { m with now := max m.now t }

/-- One tick of the timebase, which wraps after 2^64 (R14). -/
def State.tick (s : State) : State := s.modTm fun m => { m with now := (m.now + 1) % 2 ^ 64 }

/-- Whether the timebase counts: in RUN and DOZE, from the release of POR on (R14; 12 R450, Table CK-6). -/
def State.clocked (s : State) : Bool :=
  s.pw.state == .run && s.boot.phase != .off && s.boot.phase != .held

/-- A period number that is n periods later (R17). -/
def addPeriod (p n : Nat) : Nat := (p + n) % 2 ^ 48

/-- Periods from one period number to another. -/
def periodsFrom (p q : Nat) : Nat := (q + 2 ^ 48 - p) % 2 ^ 48

/-- The RTC (11 Table PW-11): it counts CK_AON cycles, 32 768 for each nominal second of the timebase, while its
contents are valid (log 56). -/
def State.rtcNow (s : State) : Nat :=
  if s.pw.rtcValid && s.pw.state == .run then (s.pw.rtc + (s.tm.now - s.pw.rtcAt) * 32768 / 120000000) % 2 ^ 64 else s.pw.rtc

/-! ### Configuration words, counters and free values -/

/-- An applied configuration word (RWS and RW bits of a noun's word). -/
def State.reg (s : State) (noun word : Nat) : Nat := Tab.get resetWord s.cfg (regKey noun word)

/-- A field of an applied word. -/
def State.fld (s : State) (noun word lo w : Nat) : Nat := bits (s.reg noun word) lo w

/-- A one-bit field of an applied word. -/
def State.flag (s : State) (noun word lo : Nat) : Bool := bitAt (s.reg noun word) lo

/-- A 64-bit field of two applied words. -/
def State.reg64 (s : State) (noun word : Nat) : Nat := s.reg noun word + 2 ^ 32 * s.reg noun (word + 1)

/-- An applied word replaced. -/
def State.setReg (s : State) (noun word v : Nat) : State :=
  { s with cfg := Tab.set resetWord s.cfg (regKey noun word) v }

/-- The key of a counter. -/
def cntKey (noun word lo : Nat) : Nat := regKey noun word * 32 + lo

/-- The value of a counter. -/
def State.count (s : State) (noun word lo : Nat) : Nat := Tab.get (fun _ => 0) s.cnt (cntKey noun word lo)

/-- A saturating counter of w bits advanced by n. -/
def State.bumpBy (s : State) (noun word lo w n : Nat) : State :=
  { s with cnt := Tab.set (fun _ => 0) s.cnt (cntKey noun word lo) (satAdd w (s.count noun word lo) n) }

/-- A saturating counter advanced by one. -/
def State.bump (s : State) (noun word lo w : Nat) : State := s.bumpBy noun word lo w 1

/-- A counter cleared, as a read of an RC field does (00 Table SC-4). -/
def State.clearCount (s : State) (noun word lo : Nat) : State :=
  { s with cnt := Tab.set (fun _ => 0) s.cnt (cntKey noun word lo) 0 }

/-- Every counter of a noun cleared (Table CS-8: state and counters are cleared). -/
def State.clearCounts (s : State) (noun : Nat) : State :=
  { s with cnt := s.cnt.filter fun c => c.1 / 32768 != noun }

/-- The next free byte of a NOR device (05 R177): the count of free values is the model's own. -/
def State.freeByte (s : State) : Byte × State :=
  (Config.norByte s.freeCount, { s with freeCount := s.freeCount + 1 })

/-- The period length in ticks under the applied set (R15). -/
def State.periodTicks (s : State) : Nat := 1875 * s.fld nPERIOD 0 0 13

/-- The applied headland. -/
def State.headland (s : State) : Nat := s.fld nPERIOD 1 0 15

def State.isMember (s : State) : Bool := !s.boot.ykLead && !s.boot.legacy
def State.isLead (s : State) : Bool := s.boot.ykLead && !s.boot.legacy
def State.drillOn (s : State) : Bool := s.drill.mode == 1
def State.ready (s : State) : Bool := s.boot.phase == .ready

/-! ### Events (13 R484 to R491) -/

def State.intEnable (s : State) : Nat := s.reg64 nEVENTS 4
def State.coalesce (s : State) : Nat := ticksUs (s.fld nEVENTS 10 0 14)

/-- INT_N brought to its level: low while pending AND int_n_enable is nonzero, and with coalesce_us nonzero not
asserted again until coalesce_us after its last release (R487). -/
def State.settleInt (s : State) : State :=
  let want := (s.ev.pending &&& s.intEnable) != 0
  let held := match s.ev.intRelease with
    | some t => s.coalesce != 0 && s.tm.now < t + s.coalesce
    | none => false
  if s.ev.intN && !want then s.modEv fun e => { e with intN := false, intRelease := some s.tm.now }
  else if !s.ev.intN && want && !held then s.modEv fun e => { e with intN := true }
  else s

/-- An event raised: its bit of pending is set (13, Events); the EP3 accumulator takes it if ep3_enable has it,
and lost_notifications counts a raising that finds it there (R486, R491); a member keeps it for its next
segment (R489); while the function is suspended, wake_mask holds it for a remote wake (09 R318). -/
def State.raise (s : State) (k : Nat) : State :=
  let m := 2 ^ k
  let ep3 := bitAt (s.reg64 nEVENTS 2) k
  let s := s.ite (ep3 && bitAt s.ev.ep3Acc k) (·.bump nEVENTS 11 0 32)
  let s := s.modEv fun e => { e with
    pending := e.pending ||| m
    ep3Acc := if ep3 then e.ep3Acc ||| m else e.ep3Acc
    up := e.up ||| m }
  let s := s.ite (s.usb.suspended && bitAt (s.reg64 nUSB 2) k) (·.modEv fun e => { e with wake := true })
  s.settleInt

/-- An event that is raised once in a period, however often its cause occurs (R173, R200, R207, R221). -/
def State.raiseOnce (s : State) (k : Nat) : State :=
  if bitAt s.ev.inPeriod k then s
  else (s.modEv fun e => { e with inPeriod := e.inPeriod ||| 2 ^ k }).raise k

/-- FAULT_N is low (R488). -/
def State.faultN (s : State) : Bool :=
  (s.boot.kind == .reset && s.boot.phase != .ready) || s.boot.phase == .romService
    || s.lev.level == 1 || (s.ev.pending &&& s.reg64 nEVENTS 6) != 0

/-! ### Almanac records (13 R468 to R475) -/

/-- Class codes of Table AL-2. -/
def clInfo := 0
def clFault := 1
def clAlarm := 2

/-- The class of each record type (Table AL-3). -/
def recClass (t : Nat) : Nat :=
  if [0x01, 0x03, 0x04, 0x05, 0x06, 0x10, 0x11, 0x12, 0x13, 0x20, 0x21, 0x30, 0x50, 0x71, 0xA0].contains t then clFault
  else if t == 0x80 || t == 0x81 then clAlarm else clInfo

/-- The types marked as merged in Table AL-3. -/
def recMerged (t : Nat) : Bool :=
  [0x05, 0x06, 0x10, 0x11, 0x12, 0x20, 0x21, 0x30, 0x40, 0x50, 0x71, 0x80].contains t

/-- Info records that record_info does not switch off: MARK, CLEAR_FIRST, RESET and HARROW. -/
def recAlways (t : Nat) : Bool := [0x02, 0x60, 0x90, 0x91].contains t

/-- The code-3 record that tells of discarded records (R473). -/
def dropRecord (s : State) (n : Nat) : AlmRec :=
  { type := 0xA0, cls := clFault, source := nALMANAC, index := 0, code := 3, period := s.tm.period,
    stamp := s.tm.now, detail := leBytes 4 n }

/-- Discarded records told: added to a code-3 record that is still queued, or queued as one while an entry is
free (R473). -/
def State.tellDrops (s : State) : State :=
  if s.alm.dropped = 0 then s
  else if s.alm.queue.any (fun r => r.type == 0xA0 && r.code == 3) then
    s.modAlm fun a => { a with dropped := 0, queue := a.queue.map fun r =>
      if r.type == 0xA0 && r.code == 3 then { r with detail := leBytes 4 (leAt r.detail 0 4 + a.dropped) } else r }
  else if s.alm.queue.length < 64 then
    s.modAlm fun a => { a with dropped := 0, queue := a.queue ++ [dropRecord s a.dropped] }
  else s

/-- A record put at the tail of the queue of 64 entries: an info record is discarded while 48 or more entries
are occupied, any record while all are, and records_dropped counts it (R472, R473). -/
def State.enqueue (s : State) (r : AlmRec) : State :=
  let n := s.alm.queue.length
  if 64 ≤ n || (48 ≤ n && r.cls == clInfo) then
    ((s.bump nALMANAC 6 0 16).modAlm fun a => { a with dropped := a.dropped + 1 }).tellDrops
  else s.modAlm fun a => { a with queue := a.queue ++ [r] }

/-- The key under which a record is merged (R474). -/
def mergeKey (r : AlmRec) : MergeKey :=
  { type := BitVec.ofNat 8 r.type, source := BitVec.ofNat 16 r.source, index := BitVec.ofNat 16 r.index,
    code := BitVec.ofNat 16 r.code }

/-- The summary that a closing window writes (R474). -/
def summaryOf (s : State) (w : MergeWin) : AlmRec :=
  { w.last with summary := true, merged := w.count, stamp := s.tm.now, ticket := none }

/-- A window closed: with a nonzero count a summary is queued and opens a new window, else merging ends. -/
def State.closeWindow (s : State) (w : MergeWin) (at' : Nat) : State :=
  let rest := s.alm.windows.filter fun v => v.key != w.key
  if w.count = 0 then s.modAlm fun a => { a with windows := rest }
  else (s.modAlm fun a => { a with windows := rest ++ [{ w with opened := at', count := 0 }] }).enqueue (summaryOf s w)

/-- A record given to the controller, merged where its type is merged (R474). -/
def State.record (s : State) (r : AlmRec) : State :=
  if r.cls == clInfo && !recAlways r.type && !s.flag nALMANAC 0 2 then s
  else if !recMerged r.type then s.enqueue r
  else
    let k := mergeKey r
    let s := match s.alm.windows.find? (·.key == k) with
      | some w => if w.opened + ticksS 1 ≤ s.tm.now then s.closeWindow w (w.opened + ticksS 1) else s
      | none => s
    match s.alm.windows.find? (·.key == k) with
    | some _ => s.modAlm fun a => { a with windows := a.windows.map fun w =>
        if w.key == k && w.count < 65535 then { w with count := w.count + 1, last := r } else w }
    | none => (s.enqueue r).modAlm fun a => { a with windows := a.windows ++ [⟨k, s.tm.now, 0, r⟩] }

/-- A record of a type, source, index and code, with the period number and timebase of the occurrence. -/
def State.log (s : State) (type source index code : Nat) (detail : List Byte := []) : State :=
  s.record { type, cls := recClass type, source, index, code, period := s.tm.period, stamp := s.tm.now, detail }

/-- Every open window closed at once, its nonzero count written (R474, at a watchdog restart and UPDATE_SWAP). -/
def State.closeAllWindows (s : State) : State :=
  let ws := s.alm.windows
  ws.foldl (fun s w => if w.count = 0 then s else s.enqueue (summaryOf s w)) (s.modAlm fun a => { a with windows := [] })

/-! ### Harrow (14 R492 to R496, R502) -/

/-- One step of the Galois LFSR; the draw is the value after the step (R493). -/
def lfsrStep (x : Nat) : Nat := if x % 2 = 1 then (x / 2) ^^^ 0x80200003 else x / 2

/-- A generator loaded: zero becomes 1 (R493). -/
def lfsrLoad (x : Nat) : Nat := if x % 2 ^ 32 = 0 then 1 else x % 2 ^ 32

/-- Word w of slot e's descriptor (Table HW-5). -/
def State.hwReg (s : State) (e w : Nat) : Nat := s.reg nHARROW (8 + 12 * e + w)

/-- The detail of a HARROW record of code 1 or 2 (R502): an ended episode carries its injections, the last period of its
window and its end reason. -/
def harrowDetail (s : State) (e : Nat) (ended : Bool) (last : Nat) : List Byte :=
  let p := nth {} s.hw.episodes e
  let n := if ended then p.count else 0
  leBytes 1 e ++ leBytes 1 (bits (s.hwReg e 0) 0 4) ++ leBytes 1 (bits (s.hwReg e 0) 4 4) ++ leBytes 1 p.startedBy
    ++ leBytes 4 (s.hwReg e 1) ++ leBytes 4 n ++ leBytes 6 p.first ++ leBytes 6 last
    ++ leBytes 1 (if ended then p.endReason else 0) ++ List.replicate 7 0

/-- An episode ended with a reason of Table HW-4 and the last period of its window: its record is queued and event 55
raised (R502). -/
def State.endEpisodeAt (s : State) (e reason last : Nat) : State :=
  let p := nth {} s.hw.episodes e
  if p.state == 1 || p.state == 2 then
    let s := s.modEpisode e fun p => { p with state := 3, endReason := reason }
    (s.log 0x60 nHARROW e 2 (harrowDetail s e true (if p.state == 2 then last else 0))).raise 55
  else s

/-- An episode ended in the period in progress. -/
def State.endEpisode (s : State) (e reason : Nat) : State := s.endEpisodeAt e reason s.tm.period

/-- Every running episode ended. -/
def State.endEpisodes (s : State) (reason : Nat) : State := s.each (List.range 4) fun s e => s.endEpisode e reason

/-- An injection made by a slot: counted, and the window closes when count_limit is reached (R494). -/
def State.injected (s : State) (e : Nat) : State :=
  let s := (s.bump nHARROW 2 0 32).bump nHARROW (8 + 12 * e + 9) 0 32
  let s := s.modEpisode e fun p => { p with count := p.count + 1, lastPeriod := s.tm.period }
  let limit := bits (s.hwReg e 4) 8 16
  if limit != 0 && limit ≤ (nth {} s.hw.episodes e).count then s.endEpisode e 2 else s

/-- Slot e has made as many injections as its count_limit allows (R494). -/
def State.spent (s : State) (e : Nat) : Bool :=
  let limit := bits (s.hwReg e 4) 8 16
  limit != 0 && limit ≤ (nth {} s.hw.episodes e).count

/-- Whether the active window of slot e is open: it has not run its period_count periods (R494). -/
def State.windowOpen (s : State) (e : Nat) : Bool :=
  let p := nth {} s.hw.episodes e
  let n := bits (s.hwReg e 6) 16 16
  p.state == 2 && (n == 0 || periodsFrom p.first s.tm.period < n)

/-- What an episode selected for a unit: its slot, class and, for a corruption, the bit to flip. -/
structure Pick where
  slot : Nat
  cls : Nat
  bit : Nat
  deriving DecidableEq, Repr

/-- Whether slot e's active episode has the unit as a candidate: target kind, bit k of target_mask, and bit j of
unit_mask where it is used (Table HW-1). -/
def State.candidate (s : State) (e target k : Nat) (j : Option Nat) : Bool :=
  s.windowOpen e && bits (s.hwReg e 0) 0 4 == target && bitAt (s.hwReg e 1) k
    && (match j with | none => true | some j => bitAt (s.hwReg e 2 + 2 ^ 32 * s.hwReg e 3) j)

/-- One candidate drawn for by one slot (R493). -/
def State.drawSlot (s : State) (e width : Nat) : State × Option Pick :=
  let x := lfsrStep (nth {} s.hw.episodes e).lfsr
  let cls := bits (s.hwReg e 0) 4 4
  let hit := x % 2 ^ bits (s.hwReg e 0) 8 4 == 0
  let y := if hit && cls == 2 then lfsrStep x else x
  let s := s.modEpisode e fun p => { p with lfsr := y }
  let w := max width 1
  let bit := if cls == 2 then y % w else bits (s.hwReg e 0) 16 12 % w
  (s, if hit then some ⟨e, cls, bit⟩ else none)

/-- A unit drawn for by every slot in ascending order; a drop gives later slots no candidate (14, Collisions). -/
def State.drawUnit (s : State) (target k : Nat) (j : Option Nat) (width : Nat) : State × List Pick :=
  (List.range 4).foldl (fun (s, ps) e =>
    if ps.any (·.cls == 0) || !s.candidate e target k j then (s, ps)
    else match s.drawSlot e width with
      | (s, some p) => (s, ps ++ [p])
      | (s, none) => (s, ps)) (s, [])

/-- Whether a window is open (flag [2] of the sheaf header, DBG1). -/
def State.harrowActive (s : State) : Bool := (List.range 4).any s.windowOpen

/-! ### Status codes (02 Table MB-5) -/

def stOk := 0x0000
def stAccepted := 0x0001
def stBusy := 0x0010
def stSuperseded := 0x0011
def stUnitReset := 0x0012
def stNoVerb := 0x0020
def stNoNoun := 0x0021
def stField := 0x0022
def stLength := 0x0023
def stConflict := 0x0030
def stRejected := 0x0031
def stBudget := 0x0032
def stPair := 0x0033
def stDenied := 0x0040
def stLocked := 0x0041
def stFault := 0x0050
def stTimeout := 0x0051
def stAborted := 0x0052

/-! ### Replies (02 R54, R57, R58, R63 to R66) -/

/-- The bytes of a reply under the framing it was formed in (Tables MB-2 and MB-9), without Harrow's flips. -/
def Reply.clean (r : Reply) : List Byte :=
  if r.v2 then
    [0x4A, 0x02] ++ leBytes 2 r.tag ++ leBytes 1 r.verb ++ leBytes 1 r.flags ++ leBytes 2 r.noun ++ leBytes 2 r.index
      ++ leBytes 2 r.payload.length ++ leBytes 4 r.epoch ++ leBytes 2 r.status ++ r.payload
  else
    [0x4A, 0x01] ++ leBytes 1 r.verb ++ [0x01] ++ leBytes 2 r.noun ++ leBytes 2 r.index
      ++ leBytes 1 r.payload.length ++ [0x00] ++ leBytes 2 r.status ++ slice r.payload 0 52

/-- One bit of a message flipped: bit (k mod 8) of byte k / 8 (14 R494). -/
def flipBit (bs : List Byte) (k : Nat) : List Byte := updAt bs (k / 8) fun b => b ^^^ BitVec.ofNat 8 (2 ^ (k % 8))

/-- The bytes that the transport sends. -/
def Reply.bytes (r : Reply) : List Byte := r.flips.foldl flipBit r.clean

/-- The header of a request as it arrived. -/
def reqHeader (verb : Nat) (r : Req) : List Byte :=
  [0x4A, 0x02] ++ leBytes 2 r.tag.toNat ++ leBytes 1 verb ++ [r.flags] ++ leBytes 2 r.noun.toNat
    ++ leBytes 2 r.index.toNat ++ leBytes 2 r.length.toNat ++ leBytes 4 r.epoch.toNat

/-- A reply to a request (02 R54): flags bit [0] set, header epoch E. -/
def mkReply (s : State) (verb : Nat) (r : Req) (flags status : Nat) (payload : List Byte) : Reply :=
  { v2 := s.mb.v2, tag := r.tag.toNat, verb, flags := 1 + flags, noun := r.noun.toNat, index := r.index.toNat,
    epoch := s.mb.epoch, status, payload, request := reqHeader verb r }

/-- A trace entry of EP6 for a reply (13 R482). -/
def traceEntry (s : State) (ch : Nat) (r : Reply) : List Byte :=
  let b := [0xF0] ++ leBytes 1 ch ++ List.replicate 6 0 ++ leBytes 8 s.tm.now ++ List.replicate 4 0
    ++ slice r.request 0 16 ++ leBytes 2 r.status ++ List.replicate 22 0
  b ++ leBytes 4 (crc32 b)

/-- An entry offered to EP6: with 16 entries uncollected it is not streamed and stream_lost counts (13 R482). -/
def State.stream6 (s : State) (e : List Byte) : State :=
  if 16 ≤ s.alm.ep6.length then s.bump nALMANAC 7 16 16
  else s.modAlm fun a => { a with ep6 := a.ep6 ++ [e], ep6Open := true, ep6Last := s.tm.now }

/-- A reply put on the channel's queue: event 22 is raised, and flow control begins with the 16th reply, with
event 23 and flow_stalls (R66, 13 R485). -/
def State.queueReply (s : State) (ch : Nat) (r : Reply) : State :=
  let s := s.modChan ch fun c => { c with replies := c.replies ++ [r] }
  let s := s.ite (s.fld nALMANAC 0 0 2 == 2) fun s => s.stream6 (traceEntry s ch r)
  let s := s.raise 22
  let c := nth {} s.mb.chans ch
  if 16 ≤ c.replies.length && !c.flow then
    ((s.modChan ch fun c => { c with flow := true }).bump nSYS 12 16 16).raise 23
  else s

/-- Whether Harrow leaves a reply alone (14 R496). -/
def harrowExempt (r : Reply) : Bool := (0x40 ≤ r.verb && r.verb ≤ 0x42) || (r.verb == 0x02 && r.noun == nHARROW)

/-- A reply formed: Harrow draws for it (Table HW-2), and it is queued unless it is dropped or held back. -/
def State.sendReply (s : State) (ch : Nat) (r : Reply) : State :=
  if harrowExempt r then s.queueReply ch r
  else
    let (s, ps) := s.drawUnit 4 ch none (8 * r.clean.length)
    if ps.any (·.cls == 0) then ps.foldl (fun s p => if p.cls == 0 then s.injected p.slot else s) s
    else
      let flips := (ps.filter fun p => p.cls == 1 || p.cls == 2).map (·.bit)
      let s := ps.foldl (fun s p => if p.cls == 1 || p.cls == 2 || p.cls == 4 then s.injected p.slot else s) s
      let r := { r with flips := r.flips ++ flips }
      match ps.find? (·.cls == 4) with
      | some p =>
        let due := s.tm.now + ticksMs (bits (s.hwReg p.slot 4) 0 8)
        s.modHw fun h => { h with heldReplies := h.heldReplies ++ [⟨p.slot, ch, r, due⟩] }
      | none =>
        -- exchanged with the newest reply still queued; with none, with the next one (log 24)
        let pick := ps.find? (·.cls == 3)
        let s : State := match pick with | some p => s.injected p.slot | none => s
        let swap (s : State) (l : Reply) : State :=
          (s.modChan ch fun c => { c with replies := c.replies.dropLast }).queueReply ch r
            |>.modChan ch fun c => { c with replies := c.replies ++ [l] }
        let due := s.hw.reorder.contains ch
        let s := s.ite due fun s => s.modHw fun h => { h with reorder := h.reorder.erase ch }
        let c := nth {} s.mb.chans ch
        match c.replies.getLast? with
        | some l => if due || pick.isSome then swap s l else s.queueReply ch r
        | none => (s.ite pick.isSome fun s => s.modHw fun h => { h with reorder := h.reorder ++ [ch] }).queueReply ch r

/-- The reply cache with one more full reply: the 16 most recent requests whose payload is at most 512 bytes, in
the order of the requests (R57). -/
def cacheAdd (c : List (Nat × Reply)) (id : Nat) (r : Reply) : List (Nat × Reply) :=
  if r.payload.length ≤ 512 then
    lastN 16 ((c.filter fun e => e.1 < id) ++ [(id, r)] ++ (c.filter fun e => id < e.1))
  else c.filter fun e => e.1 != id

/-- The final or interim reply of a request: stored in the history and the cache under framing v2, and sent. -/
def State.answer (s : State) (ch : Nat) (id : Nat) (r : Reply) (st : HistState) : State :=
  let s := s.ite s.mb.v2 fun s => s.modChan ch fun c => { c with
    history := c.history.map fun h => if h.id == id then { h with status := r.status, state := st } else h
    cache := if c.history.any (·.id == id) then cacheAdd c.cache id r else c.cache }
  s.sendReply ch r

/-- A held or accepted request completed: its reply carries the status and payload, and the completion flag if
the request was answered ACCEPTED (R63). Nothing happens when the request is no longer held. -/
def State.complete (s : State) (t : Ticket) (status : Nat) (payload : List Byte := []) : State :=
  match (nth {} s.mb.chans t.ch.val).held.find? (·.id == t.id) with
  | none => s
  | some h =>
    let s := s.modChan t.ch.val fun c => { c with held := c.held.filter (·.id != t.id) }
    s.answer t.ch.val t.id (mkReply s h.verb h.req (if h.accepted then 8 else 0) status payload) .done

/-- A request completed if there is one. -/
def State.completeOpt (s : State) (t : Option Ticket) (status : Nat) (payload : List Byte := []) : State :=
  match t with | none => s | some t => s.complete t status payload

/-! ### The upstream pull-up (09 R303, R326) -/

/-- A stream stopped: setting 0, both halves discarded, and the next delivery is a first one (R325). -/
def Stream.stopped (x : Stream) : Stream :=
  { x with
    alt := 0
    copying := none
    waiting := none
    sending := none
    swapped := none
    delay := 0
    fresh := true
    out := none }

/-- A downstream port of a hub that has been detached or reset: only its inputs and its fence stay. -/
def HubPort.unpowered (p : HubPort) : HubPort := { oci := p.oci, ociSince := p.ociSince, fence := p.fence }

/-- The pull-up released: the function is detached, its streams stop, and PPE1 to PPE4 are low (R303, R326). -/
def State.dropUsb (s : State) : State :=
  s.modUsb fun u => { u with
    pullup := false
    state := 0
    speed := 0
    address := 0
    remoteWake := false
    suspended := false
    resuming := false
    testMode := none
    tt := false
    hubOc := false
    hubOcChange := false
    port5 := true
    streams := u.streams.map (·.stopped)
    ports := u.ports.map (·.unpowered) }

/-! ### Service level (01 R40 to R44) -/

/-- The level that the standing failures leave (Table AR-7, R46 in legacy mode). -/
def levelOf (f : Fail) (legacy : Bool) : Nat :=
  if f.rc || f.orphan || f.rom || f.drill || f.detach || f.stewardL1 then 1
  else if f.steward || f.usb || ((f.yoke || f.thr) && !legacy) then 2 else 3

/-- A new Syntax table generation (03 R114). -/
def State.newTable (s : State) : State := s.modLev fun l => { l with generation := (l.generation + 1) % 2 ^ 32 }

end Sys2Proof.Machine
end

