-- ==== Sys2Proof/Machine/Operands.lean ====
section
/-! DEFINITION. The operand forms: a mailbox request taken through the checks of 02 Table MB-4, its payload
fields, virtual addresses through the plot map, and the bytes they name. -/

namespace Sys2Proof.Machine

/-! ### Payload fields -/

/-- The little-endian payload field of n bytes at an offset (02 R69). -/
def pf (r : Req) (off n : Nat) : Nat := leAt r.payload off n

/-- Whether n payload bytes from an offset are zero: reserved bytes (00 R9, R10). -/
def pz (r : Req) (off n : Nat) : Bool := pf r off n == 0

/-! ### Channels (02 Table MB-1) -/

/-- The lowest level at which a channel is served (02 Table MB-1). -/
def chanLevel (ch : Nat) : Nat := match ch with | 0 => 3 | 1 => 1 | 2 => 2 | _ => 3

/-- Whether a channel is served at all: mailboxes ready, or ROM service on MBX1; the level; MBX3 in a member only; MBX0 while the
function is not suspended (02 R52; 09 R319; 12 R458, Table CK-7). -/
def State.serves (s : State) (ch : Nat) : Bool :=
  s.pw.state == .run &&
  ((s.boot.phase == .romService && ch == 1)
    || (s.ready && decide (chanLevel ch ≤ s.lev.level) && (ch != 3 || s.isMember) && (ch != 0 || !s.usb.suspended)))

/-- Whether a channel accepts a request now: it is served and its reply queue is not full (02 R66). -/
def State.accepts (s : State) (ch : Nat) : Bool :=
  s.serves ch && decide ((nth {} s.mb.chans ch).replies.length < 16)

/-! ### Verbs (02 Table MB-6) -/

/-- The lowest level of a verb of firmware 3.2; none where the code is undefined. -/
def verbLevel (v : Nat) : Option Nat :=
  if [0x01, 0x02, 0x03, 0x04, 0x05, 0x0A, 0x10, 0x11, 0x12, 0x31, 0x32, 0x50, 0x51, 0x52, 0x53, 0x54].contains v then some 1
  else if [0x06, 0x07, 0x09, 0x40, 0x41, 0x42].contains v then some 2
  else if [0x08, 0x20, 0x21, 0x22, 0x23, 0x24, 0x30].contains v then some 3
  else none

/-- Whether the verb is absent by the mode: in legacy mode the Thresher verbs and YOKE_CTL (01 Table AR-8),
under framing v1 COMMIT and DISCARD (02 R83). -/
def State.verbAbsent (s : State) (v : Nat) : Bool :=
  (s.boot.legacy && ((0x20 ≤ v && v ≤ 0x24) || v == 0x30)) || (!s.mb.v2 && (v == 4 || v == 5))

/-- The six verbs of ROM service (02 after Table MB-6). -/
def romVerb (v : Nat) : Bool := [0x01, 0x02, 0x0A, 0x10, 0x50, 0x51].contains v

/-- A step of Table MB-4: whether it passes, and the status if it does not. -/
abbrev Check := Bool × Nat

/-- The status of the first check that fails (02 R56). -/
def firstFail : List Check → Option Nat
  | [] => none
  | (ok, st) :: l => if ok then firstFail l else some st

/-- How a verb answers (02 R63): at once, held, or ACCEPTED with a payload. -/
inductive Answer where
  | done (status : Nat) (payload : List Byte)
  | hold
  | accept (payload : List Byte)
  deriving DecidableEq, Repr

/-- The longest message: 4 096 bytes, 4 064 on MBX3, 64 under framing v1 with 52 bytes of payload
(02 R54, R82; 10 R358). -/
def maxPayload (v2 : Bool) (ch : Nat) : Nat := if !v2 then 52 else if ch = 3 then 4048 else 4080

/-- Step 4 as far as the transport decides it. -/
def State.transportLen (s : State) (r : Req) : Bool :=
  r.payload.length == r.length.toNat && decide (r.length.toNat ≤ maxPayload s.mb.v2 r.ch.val)

/-- Steps 4 to 6 of Table MB-4 (R56; 01 R41). -/
def State.headChecks (s : State) (v : Nat) (r : Req) (lenOk : Bool) : List Check :=
  let defined := (verbLevel v).isSome && !s.verbAbsent v
  [(s.transportLen r && (lenOk || !defined), stLength),
   (defined, stNoVerb),
   ((verbLevel v).getD 1 ≤ s.lev.level && (s.boot.phase != .romService || romVerb v), stDenied)]

/-- Step 7 for a verb that takes no noun: noun and index are 0 (02 Table MB-2, R84). -/
def noNoun (r : Req) : Check := (r.noun == 0 && r.index == 0, stNoNoun)

/-- The held-request limit of R65. An ALMANAC_MARK that waits for its record's commit and a THR_LOAD that waits for the storage port
are immediate, and do not count (Table MB-6). -/
def State.heldRoom (s : State) (r : Req) : Check :=
  (decide (((nth {} s.mb.chans r.ch.val).held.filter fun h => h.verb != 0x11 && h.verb != 0x20).length < 8), stBusy)

/-- Nothing is pending that R404 (11) protects: no FALLOW between its checks and its entry. -/
def State.noFallow (s : State) : Check := (s.pw.fallow.isNone, stBusy)

/-- No DETACH has been accepted: after one, COMMIT, START and FALLOW are refused (11 R424). -/
def State.notDetached (s : State) : Check := (s.pw.detach == .none, stBusy)

/-- The bytes of a request on its transport. -/
def reqBytes (v2 : Bool) (verb : Nat) (r : Req) : List Byte :=
  if v2 then reqHeader verb r ++ r.payload
  else [0x4A, 0x01] ++ leBytes 1 verb ++ [0x00] ++ leBytes 2 r.noun.toNat ++ leBytes 2 r.index.toNat
    ++ leBytes 1 r.length.toNat ++ [0x00, 0x00, 0x00] ++ slice r.payload 0 52

/-- The reply to a repeated tag (R58, R59): nothing while the original is held, else the cached reply, else the
stored status without a payload, with the replay flag set. The model's choices (DESIGN CHOICE, log 94): an ACCEPTED reply that
has left the cache before its completion is resent as ACCEPTED without a payload, and a reply that gives a status alone echoes the
verb, noun and index of the repeat. -/
def State.replay (s : State) (verb : Nat) (r : Req) (h : Hist) : State :=
  if h.state == .held then s
  else match (nth {} s.mb.chans r.ch.val).cache.find? (·.1 == h.id) with
    | some (_, c) => s.sendReply r.ch.val { c with flags := c.flags ||| 2 }
    | none => s.sendReply r.ch.val (mkReply s verb r 2 h.status [])

/-- A request whose outcome is known: its history entry is made, and it is answered or held. -/
def State.settle (s : State) (verb : Nat) (r : Req) (t : Ticket) (a : Answer) : State :=
  let ch := r.ch.val
  match a with
  | .done st p =>
    -- event 61 is raised at every refused COMMIT (13 R485; log 40: not for FAULT, UNIT_RESET or ABORTED)
    let s := s.ite (verb == 4 && st != stOk && st < stFault && st != stUnitReset) (·.raise 61)
    s.answer ch t.id (mkReply s verb r 0 st p) .done
  | .hold => s
  | .accept p => s.answer ch t.id (mkReply s verb r 0 stAccepted p) .accepted

/-- The verb under way and its channel: the last request taken, while it is held; 0 when none is (13 Table AL-3, code 4). -/
def State.underWay (s : State) : Option HeldReq :=
  ((nth {} s.mb.chans s.mb.servingChan).held.filter (·.verb == s.mb.serving)).getLast?

/-- The tag history with a new request in it (R57): the last 4 096. -/
def State.remember (s : State) (r : Req) (id : Nat) : State :=
  if s.mb.v2 then s.modChan r.ch.val fun c => { c with
    history := lastN 4096 (c.history ++ [⟨id, r.tag.toNat, stOk, .held⟩]) } else s

/-- A request received on its channel, before its tag is looked up: a two-wire request leaves the receive buffer, the
owner's time-out of R74 starts again, and flag [4] clears the history and the cache (R54, R60, R74, R213). The other bits of the
flags byte that belong to replies, and the reserved ones, are not looked at (DESIGN CHOICE, log 94). -/
def State.received (s : State) (verb : Nat) (r : Req) : State :=
  let ch := r.ch.val
  let c := nth {} s.mb.chans ch
  let s := s.ite (c.rx.head? == some (reqBytes s.mb.v2 verb r)) fun s => s.modChan ch fun c => { c with rx := c.rx.tail }
  let s := s.modChan ch fun c => { c with lastRequest := s.tm.now }
  let s := s.modMb fun m => { m with serving := verb, servingChan := ch }
  s.ite (s.mb.v2 && bitAt r.flags.toNat 4) fun s => s.modChan ch fun c => { c with history := [], cache := [] }

/-- A request with a tag of its own: it is numbered and entered in the tag history (R57). -/
def State.numbered (s : State) (verb : Nat) (r : Req) : State :=
  let s := s.received verb r
  (s.modMb fun m => { m with nextId := m.nextId + 1 }).remember r s.mb.nextId

/-- The ticket of a request that is taken next. -/
def State.ticketFor (s : State) (r : Req) : Ticket := ⟨r.ch, s.mb.nextId⟩

/-- The state in which a request executes: it is entered as held before it does, so that it can complete. -/
def State.entered (s : State) (verb : Nat) (r : Req) : State :=
  (s.numbered verb r).modChan r.ch.val fun c => { c with held := c.held ++ [⟨s.mb.nextId, verb, r, false⟩] }

/-- What execution leaves, answered: at once, held, or ACCEPTED (R63). -/
def State.answered (s : State) (verb : Nat) (r : Req) (t : Ticket) (a : Answer) : State :=
  match a with
  | .done st p => (s.modChan r.ch.val fun c => { c with held := c.held.filter (·.id != t.id) }).settle verb r t (.done st p)
  | .hold => s
  | .accept p =>
    (s.modChan r.ch.val fun c => { c with held := c.held.map fun h => if h.id == t.id then { h with accepted := true } else h }).settle
      verb r t (.accept p)

/-- A request taken through Table MB-4 (R56), with the checks of steps 7 to 11 and the execution that its verb
states. A channel that accepts no request leaves it with its sender (R66). -/
def State.serve (s : State) (verb : Nat) (r : Req) (lenOk : Bool) (checks : State → List Check)
    (run : State → Ticket → State × Answer) : State :=
  if !s.accepts r.ch.val then s
  else
    let c := nth {} (s.received verb r).mb.chans r.ch.val
    match (if s.mb.v2 then c.history.find? (·.tag == r.tag.toNat) else none) with
    | some h => (s.received verb r).replay verb r h
    | none =>
      let n := s.numbered verb r
      match firstFail (n.headChecks verb r lenOk ++ checks n) with
      | some st => n.settle verb r (s.ticketFor r) (.done st [])
      | none =>
        let x := run (s.entered verb r) (s.ticketFor r)
        x.1.answered verb r (s.ticketFor r) x.2

/-- A named period within the limits of R77: at least 2 and at most 65 536 periods ahead. -/
def State.namedOk (s : State) (p : Nat) : Bool :=
  let d := periodsFrom s.tm.period p
  2 ≤ d && d ≤ 65536

/-! ### Banks and units (11 Table PW-2, R396; 14 Table HW-6) -/

/-- The I/O bank of a CSP port, or of the SENT and EDGE units. -/
def cspBank (k : Nat) : Nat := if k < 4 then 0 else if k < 8 then 1 else 3

/-- Whether an I/O bank's supply is valid. -/
def State.bankOk (s : State) (b : Nat) : Bool := nth true s.pw.vddioOk b

/-- The ports run from L2 on (01 Table AR-6). -/
def State.portsRun (s : State) : Bool := decide (2 ≤ s.lev.level)

/-- A CSP port is on: enabled, supplied, and not held off by PRSNT_N or the level (01 Table AR-6; 05 Table CS-3; 11 R396, R420). -/
def State.cspOn (s : State) (k : Nat) : Bool := s.portsRun && s.flag (nCSP k) 0 0 && s.bankOk (cspBank k) && s.pw.prsntMet

def State.sentOn (s : State) (c : Nat) : Bool := s.portsRun && s.flag (nSENT c) 0 0 && s.bankOk 2

def State.edgeBankOn (s : State) (b : Nat) : Bool := s.portsRun && s.fld (nEDGE b) 0 0 8 != 0 && s.bankOk 2

/-! ### The plot map (07 R233 to R239) -/

/-- The holding of an agent (Table PM-2). -/
def holdingOf : Agent → Nat
  | .steward => 0 | .drill => 1 | .assembler | .slaveReader | .mirrorCopy => 2 | .usb => 3 | .yoke => 4 | .storage => 5
  | .thr n => 6 + n.val

/-- The size of an agent's element (Table PM-2). -/
def elementOf : Agent → Nat
  | .steward => 32 | .drill | .assembler | .slaveReader | .mirrorCopy => 8 | .usb | .yoke | .storage => 64 | .thr _ => 256

/-- A mapping of one region of the PLOTMAP noun, read through a word function so that a staged set can be checked. -/
structure Region where
  holding : Nat
  read : Bool
  write : Bool
  virt : Nat
  phys : Nat
  count : Nat
  deriving DecidableEq, Repr

/-- Region r of a set of words (Table PM-5). -/
def regionOf (w : Nat → Nat → Nat) (r : Nat) : Region :=
  let a := w nPLOTMAP (32 + 3 * r)
  { holding := bits a 0 4, read := bitAt a 4, write := bitAt a 5, virt := bits a 8 18,
    phys := bits (w nPLOTMAP (33 + 3 * r)) 0 18, count := bits (w nPLOTMAP (34 + 3 * r)) 0 19 }

/-- The physical plot that a region gives a virtual plot. -/
def Region.plot (g : Region) (p : Nat) : Option Nat :=
  if g.virt ≤ p && p < g.virt + g.count then some (g.phys + (p - g.virt)) else none

/-- A virtual plot of a host-mapped holding: its physical plot and permissions. -/
def plotOf (w : Nat → Nat → Nat) (h p : Nat) : Option (Nat × Bool × Bool) :=
  (List.range 64).findSome? fun r =>
    let g := regionOf w r
    if g.count != 0 && g.holding == h then (g.plot p).map fun q => (q, g.read, g.write) else none

/-- Virtual base at which the steward maps the sheaf ring in the USB holding (09, Buffers). -/
def usbRing : Nat := 0x01000000

/-- The device kind of a storage select: 0 none, 1 NOR, 2 PSRAM (05 Table CS-6). -/
def State.kindOf (s : State) (sel : Nat) : Nat := s.fld (nCSP 8) (4 + 4 * sel) 0 2

/-- A plot of a holding that the steward firmware maps: SRAM and the open storage windows, one to one (log 8). Only the steward
writes into a NOR window (R234; 05 R176). -/
def State.firmwarePlot (s : State) (h p : Nat) : Option (Nat × Bool × Bool) :=
  let sel := p / 0x10000 - 2
  if p < 0x400 then some (p, true, true)
  else if 0x20000 ≤ p && s.flag (nCSP 8) (4 + 4 * sel) 5 && p % 0x10000 < 256 * s.fld (nCSP 8) (7 + 4 * sel) 16 9 then
    some (p, true, h != 5 || s.kindOf sel != 1)
  else none

/-- A virtual plot of any holding: what the tables of R235 are built from. The steward's own holdings are mapped as firmware needs
them (log 8); holding 3 maps the pool at 0 and the ring, read-only, at 0x0100_0000. -/
def State.plot (s : State) (h p : Nat) : Option (Nat × Bool × Bool) :=
  if 0x40000 ≤ p then none
  else if h = 3 then
    let base := s.fld nPLOTMAP 0 24 6
    if p < 64 then (if base = 0 then none else some (base * 16 + p, true, true))
    else
      let q := p - usbRing / 4096
      if usbRing / 4096 ≤ p && q < 8 * (s.reg nSHEAF 2 / 4096) then
        (plotOf s.reg 2 (s.reg nSHEAF 1 / 4096 + q)).map fun (a, _, _) => (a, true, false)
      else none
  else if h = 0 || h = 5 || 10 ≤ h then s.firmwarePlot h p
  else plotOf s.reg h p

/-- Whether an access of a kind is permitted (07 R236). Execute permission exists in holding 0 only. -/
def permitted (h : Nat) (r w : Bool) : Access → Bool
  | .read => r | .write => w | .fetch => h == 0

/-- The physical address of a virtual one, where the access is mapped and permitted (07 R241, rows 1 and 2). -/
def State.translate (s : State) (h : Nat) (dir : Access) (v : Nat) : Option Nat :=
  match s.plot h (v / 4096) with
  | some (q, r, w) => if permitted h r w dir then some (q * 4096 + v % 4096) else none
  | none => none

/-! ### The plot tables (07 R235, Table PM-4) -/

/-- The physical address of root entry r of holding h. -/
def rootAt (h r : Nat) : Nat := 0x3C000 + h * 0x400 + 4 * r

/-- The physical address of the leaf table of root entry r of holding h: the steward holds it in one plot of B00 to B03, below the
root tables (which plot the spec does not say: free). -/
def leafAt (h r : Nat) : Nat := 4096 * (Config.leafPlot h r % 60)

/-- Whether a root entry is valid: some plot of its 1 024 is mapped. -/
def State.leafUsed (s : State) (h r : Nat) : Bool := (List.range 1024).any fun i => (s.plot h (1024 * r + i)).isSome

/-- Root entry r of holding h, for r below 256 (Table PM-4): valid, and the address of its leaf table. -/
def State.rootWord (s : State) (h r : Nat) : Nat := if s.leafUsed h r then 1 + leafAt h r else 0

/-- A plot descriptor: valid, read, write, execute in holding 0, and the physical plot (Table PM-4). -/
def descriptorOf (h : Nat) : Option (Nat × Bool × Bool) → Nat
  | some (q, r, w) => 1 + 2 * b2n r + 4 * b2n w + 8 * b2n (h == 0) + 4096 * (q % 2 ^ 18)
  | none => 0

/-- A byte of the plot tables, which the steward builds in B00 to B03 at every change of the mapping (R235, R238); none where no
table lies. -/
def State.tableByte (s : State) (a : Nat) : Option Byte :=
  if 0x3C000 ≤ a then some (BitVec.ofNat 8 (s.rootWord ((a - 0x3C000) / 0x400) (a % 0x400 / 4) / 2 ^ (8 * (a % 4))))
  else (findBelow 4096 fun i => s.leafUsed (i / 256) (i % 256) && leafAt (i / 256) (i % 256) == a / 4096 * 4096).map fun i =>
    BitVec.ofNat 8 (descriptorOf (i / 256) (s.plot (i / 256) (1024 * (i % 256) + a % 4096 / 4)) / 2 ^ (8 * (a % 4)))

/-- The byte at a physical address (07 Table PM-3): SRAM with the plot tables in B00 to B03, the SS0 window or the SS1 window. In
the reserved range there is nothing, and no plot maps it (R234). -/
def State.physByte (s : State) (a : Nat) : Byte :=
  if a < 0x40000 then (s.tableByte a).getD (Memory.read sramEmpty s.mem.sram a)
  else if a < 0x400000 then Memory.read sramEmpty s.mem.sram a
  else if a < 0x20000000 then 0
  else if a < 0x30000000 then Memory.read flashEmpty s.mem.nor (a - 0x20000000)
  else Memory.read flashEmpty s.mem.psram (a - 0x30000000)

/-- The bytes of a storage device written at an offset of its window. -/
def State.storeWrite (s : State) (sel a : Nat) (bs : List Byte) : State :=
  if sel = 0 then s.modMem fun m => { m with nor := Memory.writeList flashEmpty m.nor a bs }
  else s.modMem fun m => { m with psram := Memory.writeList flashEmpty m.psram a bs }

/-- Bytes written to SRAM, which removes an uncorrectable error from each word written whole (07 R228), or to a
PSRAM window (05 R179); a NOR window is written by programs (05 R177), not here. -/
def State.physWrite (s : State) (a : Nat) (bs : List Byte) : State :=
  if a < 0x400000 then s.modMem fun m => { m with
    sram := Memory.writeList sramEmpty m.sram a bs
    eccBad := m.eccBad.filter fun w => !(a ≤ w && w + 8 ≤ a + bs.length) }
  else if 0x20000000 ≤ a && a < 0x40000000 then
    let sel := (a - 0x20000000) / 0x10000000
    if s.kindOf sel = 2 then s.storeWrite sel (a % 0x10000000) bs else s
  else s

/-- A range of virtual addresses cut at plot boundaries: (address, offset in the range, length). -/
def plotRuns (v n : Nat) : List (Nat × Nat × Nat) :=
  if n = 0 then []
  else (List.range ((v + n - 1) / 4096 - v / 4096 + 1)).map fun i =>
    let p := v / 4096 + i
    let a := max v (p * 4096)
    (a, a - v, min (v + n) (p * 4096 + 4096) - a)

/-- Whether every byte of a range is mapped for an access. -/
def State.mapped (s : State) (h : Nat) (dir : Access) (v n : Nat) : Bool :=
  (plotRuns v n).all fun (a, _, _) => (s.translate h dir a).isSome

/-- n bytes read through a holding; a plot that is not mapped reads as nothing (the fault is PLOT_FAULT's). -/
def State.virtRead (s : State) (h v n : Nat) : List Byte :=
  (plotRuns v n).flatMap fun (a, _, len) =>
    match s.translate h .read a with
    | some q => (List.range len).map fun i => s.physByte (q + i)
    | none => List.replicate len 0

/-- Bytes written through a holding; a plot that is not mapped takes none. -/
def State.virtWrite (s : State) (h v : Nat) (bs : List Byte) : State :=
  (plotRuns v bs.length).foldl (fun s (a, off, len) =>
    match s.translate h .write a with
    | some q => s.physWrite q (slice bs off len)
    | none => s) s

/-! ### Pool and fences -/

/-- Granules 16 to 511 that no endpoint holds (07 R253). -/
def freeGranule (pool : List (Nat × Nat)) (g : Nat) : Bool :=
  16 ≤ g && g < 512 && pool.all fun (f, n) => g < f || f + n ≤ g

/-- The number of free granules. -/
def freeGranules (pool : List (Nat × Nat)) : Nat := ((List.range 512).filter (freeGranule pool)).length

/-- The length of the run of free granules that begins at g. -/
def runAt (pool : List (Nat × Nat)) (g : Nat) : Nat :=
  ((List.range (512 - g)).takeWhile fun i => freeGranule pool (g + i)).length

/-- The longest free run. -/
def largestRun (pool : List (Nat × Nat)) : Nat := (List.range 512).foldl (fun m g => max m (runAt pool g)) 0

/-- The lowest free run that is long enough (07 R255). -/
def lowestRun (pool : List (Nat × Nat)) (n : Nat) : Option Nat := findBelow 512 fun g => n ≤ runAt pool g

end Sys2Proof.Machine
end

