-- ==== Sys2Proof/Machine/Access.lean ====
section
/-! DEFINITION. One access of an agent through the plot map: the elements it makes, the checks of 07 Table PM-6 in their order,
the fault that the first failing check gives, and what an access that passes leaves behind (07 R226 to R230, R237, R241 to R251; 05
R177 to R180). -/

namespace Sys2Proof.Machine

/-! ### Banks (07 R226 to R231) -/

/-- The state of bank k. -/
def State.bank (s : State) (k : Nat) : Bank := nth {} s.mem.banks k

/-- The bank of a physical SRAM address. -/
def bankOfAddr (a : Nat) : Option Nat := if a < 0x400000 then some (a / 0x10000) else none

/-- A bank's contents lost. -/
def State.wipeBank (s : State) (k : Nat) : State :=
  s.modMem fun m => { m with
    sram := Memory.clearRange m.sram (k * 0x10000) 0x10000
    eccBad := m.eccBad.filter fun w => w / 0x10000 != k
    eccOne := m.eccOne.filter fun w => w / 0x10000 != k }

/-- A bank that has reached ON, zero-filled where it was OFF (R230). -/
def State.bankOn (s : State) (k : Nat) : State :=
  (s.ite ((s.bank k).state == .off) (·.wipeBank k)).modSram k fun b => { b with state := .on, waking := false, lastAccess := s.tm.now }

/-! ### What an access is -/

/-- One part of an operation: a range of virtual addresses read or written. -/
structure Piece where
  dir : Access
  vaddr : Nat
  len : Nat
  deriving DecidableEq, Repr

/-- What comes of an access: it is done, the agent waits, or its operation ends. -/
inductive Reach where
  | done | waits | ends
  deriving DecidableEq, Repr

/-- The element of an agent that an address lies in. -/
def elementAt (a : Agent) (v : Nat) : Nat := v - v % elementOf a

/-- The elements that a range takes. -/
def elementsIn (a : Agent) (v n : Nat) : Nat := if n = 0 then 0 else (v + n - 1) / elementOf a - v / elementOf a + 1

/-- The first failing element of an operation: the part it lies in, its address and index, and the kind of Table PM-6. -/
structure Failing where
  part : Nat
  dir : Access
  vaddr : Nat
  index : Nat
  kind : Nat
  deriving DecidableEq, Repr

/-! ### Table walks (07 R235, R237) -/

/-- Holdings 1 and 2 have locked entries for every plot; every other holding has a cache of 32 entries. -/
def State.cached (s : State) (h p : Nat) : Bool := h == 1 || h == 2 || (nth [] s.mem.caches h).contains p

/-- An access that is not cached walks the root entry and the descriptor; either word may hold an uncorrectable error (R241, row 5). -/
def State.walkBad (s : State) (h p : Nat) : Bool :=
  s.mem.eccBad.any fun w => w < 0x40000 && !s.cached h p &&
    (w == rootAt h (p / 1024) / 8 * 8 || (s.leafUsed h (p / 1024) && w == (leafAt h (p / 1024) + 4 * (p % 1024)) / 8 * 8))

/-- A translation entered in the cache of its holding: the one used longest ago leaves it (DESIGN CHOICE, log 99). -/
def State.enterCache (s : State) (h p : Nat) : State :=
  if h == 1 || h == 2 then s
  else s.modMem fun m => { m with caches := updAt m.caches h fun l => (p :: l.filter (· != p)).take 32 }

/-! ### The checks of Table PM-6 -/

/-- Whether the error of a word stops an access to n bytes from p: a read of it, or a write that does not cover it whole (R228). -/
def stopsAt (dir : Access) (p n w : Nat) : Bool := w < p + n && p < w + 8 && !(dir == .write && p ≤ w && w + 8 ≤ p + n)

/-- The first failing check in a range inside one plot: its address and kind. -/
def State.runFault (s : State) (a : Agent) (dir : Access) (v n : Nat) : Option (Nat × Nat) :=
  let h := holdingOf a
  if s.walkBad h (v / 4096) then some (v, 5)
  else match s.plot h (v / 4096) with
    | none => some (v, 1)
    | some (q, r, w) =>
      if !permitted h r w dir then some (v, 2)
      else
        let p := q * 4096 + v % 4096
        match bankOfAddr p with
        | none => none
        | some k =>
          if (s.bank k).state != .on then some (v, 3)
          else (s.mem.eccBad.filter (stopsAt dir p n)).min?.map fun w => (v + (w - p), 5)

/-- The first failing check of a part. -/
def State.pieceFault (s : State) (a : Agent) (x : Piece) : Option (Nat × Nat) :=
  (plotRuns x.vaddr x.len).findSome? fun (v, _, n) => s.runFault a x.dir v n

/-- The first failing element of an operation's parts, numbered from k, with ix elements before them. -/
def State.firstFault (s : State) (a : Agent) : Nat → Nat → List Piece → Option Failing
  | _, _, [] => none
  | k, ix, x :: l =>
    match s.pieceFault a x with
    | some (v, kind) => some ⟨k, x.dir, elementAt a v, ix + (elementAt a v - elementAt a x.vaddr) / elementOf a, kind⟩
    | none => s.firstFault a (k + 1) (ix + elementsIn a x.vaddr x.len) l

/-! ### Storage windows (05 R176 to R180) -/

/-- A select to which an access stalls: a NOR device that is busy, or a fenced port (05 R178, R187). -/
def State.selectWaits (s : State) (sel : Nat) : Bool := (nth none s.csp8.busy sel).isSome || s.csp8.fence.isSome

/-- The writer of a program stalls until its busy bit clears (05 R177). -/
def State.writing (s : State) (a : Agent) : Bool :=
  (s.csp8.busy.any fun p => p.any (·.agent == a)) || (s.csp8.queue.any fun q => q.any (·.agent == a))

/-- Whether an access stalls on the storage port. -/
def State.stalls (s : State) (a : Agent) (l : List Piece) : Bool :=
  s.writing a || l.any fun x => (plotRuns x.vaddr x.len).any fun (v, _, _) => match s.translate (holdingOf a) x.dir v with
    | some p => 0x20000000 ≤ p && s.selectWaits (p / 0x10000000 - 2)
    | none => false

/-- Bits moved in one SCK cycle for the command, the address and the data of a bus format (05 Table CS-4). -/
def formatLanes (f : Nat) : Nat × Nat × Nat :=
  match f with
  | 0 => (1, 1, 1) | 1 => (1, 1, 2) | 2 => (1, 2, 2) | 3 => (1, 1, 4) | 4 => (1, 4, 4) | 5 => (4, 8, 8) | 6 => (8, 8, 8) | _ => (16, 16, 16)

/-- SCK cycles of an access to n bytes: command, address, dummy cycles of a read, and data (05 R174, R175). -/
def State.accessCycles (s : State) (sel : Nat) (dir : Access) (n : Nat) : Nat :=
  let f := s.fld (nCSP 8) (4 + 4 * sel) 2 3
  let (c, a, d) := formatLanes f
  let addr := if f == 7 || s.flag (nCSP 8) (5 + 4 * sel) 28 then 32 else 24
  ceilDiv (if f == 7 then 16 else 8) c + ceilDiv addr a + (if dir == .write then 0 else s.fld (nCSP 8) (4 + 4 * sel) 16 5) + ceilDiv (8 * n) d

/-- Whether an assertion for n bytes lasts no longer than max_assert_ticks: SCK is 320 MHz / sck_div (05 R179, Table CS-6). -/
def State.assertFits (s : State) (sel : Nat) (dir : Access) (n : Nat) : Bool :=
  s.accessCycles sel dir n * s.fld (nCSP 8) (4 + 4 * sel) 8 8 * 3 ≤ 8 * s.fld (nCSP 8) (7 + 4 * sel) 0 16

/-- The bytes of each assertion in an access to n bytes of a PSRAM window: the longest that fit, at least one byte (05 R179; log
100). -/
def State.burstsOf (s : State) (sel : Nat) (dir : Access) (n : Nat) : List Nat :=
  if s.fld (nCSP 8) (7 + 4 * sel) 0 16 = 0 then [n]
  else
    let b := max 1 ((List.range n).filter fun i => s.assertFits sel dir (i + 1)).length
    List.replicate (n / b) b ++ (if n % b = 0 then [] else [n % b])

/-! ### An access that passes -/

/-- Words with a single-bit error that an access reads are corrected and written back, and count; one written whole is rewritten
(R227, R228). -/
def State.correct (s : State) (dir : Access) (p n : Nat) : State :=
  let hit := s.mem.eccOne.filter (stopsAt dir p n)
  let s := s.modMem fun m => { m with eccOne := m.eccOne.filter fun w => !(w < p + n && p < w + 8) }
  if hit.isEmpty then s else (s.bumpBy nPLOTMAP 12 0 16 hit.length).raise 42

/-- A range inside one plot accessed: its bank's idle interval begins again, or the storage port's (R232; 11 R399). -/
def State.touchRun (s : State) (a : Agent) (dir : Access) (v n : Nat) : State :=
  let h := holdingOf a
  match s.translate h dir v with
  | none => s
  | some p =>
    let s := s.enterCache h (v / 4096)
    match bankOfAddr p with
    | some k => (s.modSram k fun b => { b with lastAccess := s.tm.now }).correct dir p n
    | none =>
      let sel := p / 0x10000000 - 2
      let bursts := if s.kindOf sel = 2 then s.burstsOf sel dir n else s.csp8.bursts
      (s.modCsp8 fun c => { c with lastAccess := s.tm.now, bursts }).modPw fun p => { p with csp8Gated := false }

/-- A part accessed. -/
def State.touch (s : State) (a : Agent) (x : Piece) : State :=
  (plotRuns x.vaddr x.len).foldl (fun s (v, _, n) => s.touchRun a x.dir v n) s

/-- An operation accessed whole: a replay has succeeded, and the cursor in it is left (R243, R246). -/
def State.accessed (s : State) (a : Agent) (l : List Piece) : State :=
  (l.foldl (fun s x => s.touch a x) s).modMem fun m => { m with
    cursors := m.cursors.filter fun c =>
      !(c.agent == a && l.any fun x => x.dir == c.dir && elementAt a x.vaddr ≤ c.vaddr && c.vaddr < x.vaddr + x.len) }

/-! ### Taking a fault (07 R242, R246, R247) -/

/-- The place of an agent in the fabric priority (01 R13). -/
def agentRank : Agent → Nat
  | .drill => 0 | .assembler | .slaveReader | .mirrorCopy => 1 | .yoke => 2 | .usb => 3 | .storage => 4 | .steward => 5 | .thr _ => 6

/-- Where a cursor goes in the queue: by fabric priority, then by arrival (R243). -/
def insertFault (c : Cursor) : List Cursor → List Cursor
  | [] => [c]
  | d :: l => if agentRank c.agent < agentRank d.agent then c :: d :: l else d :: insertFault c l

/-- The bank that a faulting element reaches. -/
def State.faultBank (s : State) (a : Agent) (v : Nat) : Option Nat :=
  (s.plot (holdingOf a) (v / 4096)).bind fun x => bankOfAddr (x.1 * 4096)

/-- The detail of a PLOT_FAULT record (13 Table AL-3): the cursor, last_content_lost, the bank and whether it failed. -/
def State.faultDetail (s : State) (c : Cursor) : List Byte :=
  leBytes 1 (holdingOf c.agent) ++ leBytes 1 (match c.dir with | .read => 0 | .write => 1 | .fetch => 2) ++ leBytes 4 c.vaddr
    ++ leBytes 4 c.index ++ leBytes 1 c.kind ++ leBytes 1 c.count ++ leBytes 1 (b2n c.contentLost) ++ leBytes 1 (c.bank.getD 0xFF)
    ++ leBytes 1 (b2n (c.bank.any fun k => (s.bank k).failed))

def State.faultRecord (s : State) (c : Cursor) : State := s.log 0x20 nPLOTMAP (holdingOf c.agent) c.kind (s.faultDetail c)

/-- The cursors that an agent has left. -/
def State.dropCursors (s : State) (a : Agent) : State :=
  s.modMem fun m => { m with faults := m.faults.filter (·.agent != a), cursors := m.cursors.filter (·.agent != a) }

/-- What the PLOTMAP noun shows of the latest fault. -/
def State.showFault (s : State) (c : Cursor) : State :=
  s.modMem fun m => { m with
    lastHolding := holdingOf c.agent
    lastKind := c.kind
    lastResolved := c.resolved
    lastAttempts := c.count
    lastLost := c.contentLost
    lastVaddr := c.vaddr
    lastTime := c.time }

/-- A fault that is not resolved: event 41 is raised and the Almanac takes the cursor (R246, R247). -/
def State.unresolved (s : State) (c : Cursor) : State := ((s.faultRecord c).raise 41).dropCursors c.agent

/-- A fault of a kind at an element: its cursor is recorded, and it is queued; true where it ends the operation, as hard or as the
third at its cursor (R242 to R247, R250, R251). -/
def State.noteFault (s : State) (a : Agent) (dir : Access) (v index kind : Nat) : State × Bool :=
  let e := elementAt a v
  let bank := s.faultBank a v
  let before := s.mem.cursors.find? fun c => c.agent == a && c.vaddr == e && c.index == index && c.dir == dir
  let c : Cursor :=
    { agent := a, dir, vaddr := e, index, kind, count := min 3 ((before.map (·.count)).getD 0 + 1), bank
      contentLost := false, resolved := false, time := s.tm.now }
  let dead := bank.any fun k => (s.bank k).failed
  let s := s.showFault c
  let s := if kind = 5 then
      ((s.bump nPLOTMAP 12 16 16).log 0x21 nPLOTMAP 0 0 (leBytes 4 ((s.translate (holdingOf a) dir e).getD 0) ++ [1])).raise 43
    else s
  if kind = 1 || kind = 2 || kind = 5 || (kind = 3 && dead) then ((s.bump nPLOTMAP 11 0 16).unresolved c, true)
  else if 3 ≤ c.count then ((s.bump nPLOTMAP 10 16 16).unresolved c, true)
  else (s.modMem fun m => { m with
      faults := insertFault c m.faults
      cursors := m.cursors.filter fun x => !(x.agent == a && x.vaddr == e && x.index == index && x.dir == dir) }, false)

/-- A soft fault resolved: it counts, event 40 is raised, and its cursor stays until the replay succeeds (R243, R251). -/
def State.noteResolved (s : State) (c : Cursor) (lost : Bool) : State :=
  let d := { c with resolved := true, contentLost := lost }
  let s := s.modMem fun m => { m with
    faults := m.faults.filter (· != c)
    cursors := m.cursors ++ [d] }
  ((s.showFault d).bump nPLOTMAP 10 0 16).raise 40

/-! ### The access of an agent -/

/-- Whether an agent is suspended on a soft fault. -/
def State.suspended (s : State) (a : Agent) : Bool := s.mem.faults.any (·.agent == a)

/-- The parts of an operation taken through the checks. -/
def State.reach (s : State) (a : Agent) (l : List Piece) : State × Reach :=
  match s.firstFault a 0 0 l with
  | some f =>
    let (s, hard) := s.noteFault a f.dir f.vaddr f.index f.kind
    (s, if hard then .ends else .waits)
  | none => if s.stalls a l then (s, .waits) else (s.accessed a l, .done)

/-- An access of an agent to every part of an operation; a suspended agent makes none. -/
def State.access (s : State) (a : Agent) (l : List Piece) : State × Reach := if s.suspended a then (s, .waits) else s.reach a l

/-- Bytes written at an address by an agent. -/
def State.writeOne (s : State) (a : Agent) (w : Nat × List Byte) : State := s.virtWrite (holdingOf a) w.1 w.2

/-- The parts that writes make. -/
def writeParts (ws : List (Nat × List Byte)) : List Piece := ws.map fun w => ⟨.write, w.1, w.2.length⟩

/-- The writes of an operation up to a failing element (R242). -/
def writesBefore (ws : List (Nat × List Byte)) (f : Failing) : List (Nat × List Byte) :=
  let part := nth (0, []) ws f.part
  ws.take f.part ++ [(part.1, part.2.take (f.vaddr - part.1))]

/-- Writes taken through the checks: every element before a faulting one is written, and nothing of the faulting one (R242). -/
def State.put (s : State) (a : Agent) (ws : List (Nat × List Byte)) : State × Reach :=
  match s.reach a (writeParts ws) with
  | (t, .done) => (ws.foldl (fun s w => s.writeOne a w) t, .done)
  | (t, r) => match s.firstFault a 0 0 (writeParts ws) with
    | some f => ((writesBefore ws f).foldl (fun s w => s.writeOne a w) t, r)
    | none => (t, r)

/-- A write of an agent; a suspended agent makes none. -/
def State.store (s : State) (a : Agent) (ws : List (Nat × List Byte)) : State × Reach := if s.suspended a then (s, .waits) else s.put a ws

/-! ### Accesses of the firmware (07 Table PM-2, PM-8) -/

/-- The steward and the storage port reach another holding's plots through their own, which maps them one to one. -/
def State.firmwareParts (s : State) (h : Nat) (l : List Piece) : List Piece :=
  l.flatMap fun x => (plotRuns x.vaddr x.len).filterMap fun (v, _, n) => (s.translate h x.dir v).map fun p => ⟨x.dir, p, n⟩

/-- An access of the steward or the storage port in the course of a verb. A bank that is not ON is woken and the access replayed
within the same command (DESIGN CHOICE, log 101); false where a hard fault ends the verb. -/
def State.fwAccess (a : Agent) (l : List Piece) : Nat → State → State × Bool
  | 0, s => (s, false)
  | n + 1, s =>
    match s.firstFault a 0 0 l with
    | none => (s.accessed a l, true)
    | some f =>
      match s.noteFault a f.dir f.vaddr f.index f.kind with
      | (s, true) => (s, false)
      | (s, false) =>
        match (s.mem.faults.find? (·.agent == a)).bind fun c => c.bank.map fun k => (c, k) with
        | none => (s, false)
        | some (c, k) =>
          let off := (s.bank k).state == .off
          let s := s.bankOn k
          let s := s.ite off fun s => (s.bump nPLOTMAP 11 16 16).faultRecord { c with contentLost := true }
          State.fwAccess a l n (s.noteResolved c off)

/-- An access of the firmware to parts of a holding: at most one wake for each bank. -/
def State.firmware (s : State) (a : Agent) (h : Nat) (l : List Piece) : State × Bool :=
  State.fwAccess a (s.firmwareParts h l) 65 s

end Sys2Proof.Machine
end

