-- ==== Sys2Proof/Machine/Kernels.lean ====
section
/-! DEFINITION. The arithmetic of the Thresher: residues in the two stored forms, the residue check, and the kernels
over polynomials (08 R261 to R272). A polynomial is its components, each a list of limbs, each a list of words. -/

namespace Sys2Proof.Machine

/-- One limb of a ring: its prime, the constants of its table entry, its mode and its root of unity (R263, R264). -/
structure Limb where
  q : Nat
  qPrime : Nat
  mu : Nat
  mont : Bool
  psi : Nat
  deriving DecidableEq, Repr

/-- The words of one limb of one component. -/
abbrev Row := List Nat

/-- One component: a row for each limb. -/
abbrev Comp := List Row

/-! ### Reduction (R265, R266) -/

/-- β, the bit length of q. -/
def Limb.beta (l : Limb) : Nat := Nat.log2 l.q + 1

/-- The quotient digit m or t of a product (Table TH-3). -/
def Limb.digit (l : Limb) (a b : Nat) : Nat :=
  if l.mont then (a * b % 2 ^ 64) * l.qPrime % 2 ^ 64 else a * b / 2 ^ (l.beta - 1) * l.mu / 2 ^ (l.beta + 1)

/-- A product before its conditional subtractions. -/
def Limb.rawMul (l : Limb) (a b : Nat) : Nat :=
  if l.mont then (a * b + l.digit a b * l.q) / 2 ^ 64 else a * b - l.digit a b * l.q

/-- How many times q is subtracted: at most once for MONT, twice for RECIP (Table TH-3). -/
def Limb.subs (l : Limb) (r : Nat) : Nat := if l.mont then b2n (l.q ≤ r) else min 2 (r / max l.q 1)

/-- A modular product in stored form. -/
def Limb.mul (l : Limb) (a b : Nat) : Nat := l.rawMul a b - l.subs (l.rawMul a b) * l.q

/-- A modular sum. -/
def Limb.add (l : Limb) (a b : Nat) : Nat := if l.q ≤ a + b then a + b - l.q else a + b

/-- A modular difference. -/
def Limb.sub (l : Limb) (a b : Nat) : Nat := if b ≤ a then a - b else a + l.q - b

/-- The stored form of a residue (R265). -/
def Limb.store (l : Limb) (x : Nat) : Nat := if l.mont then x * 2 ^ 64 % l.q else x % l.q

/-- The residue of a stored word. -/
def Limb.load (l : Limb) (x : Nat) : Nat := if l.mont then l.mul x 1 else x

/-- A power modulo q by repeated squaring. -/
def powMod (q : Nat) : Nat → Nat → Nat → Nat
  | 0, _, _ => 1 % q
  | k + 1, b, e => if e = 0 then 1 % q else (if e % 2 = 1 then b else 1) * powMod q k (b * b % q) (e / 2) % q

/-- b to the e, for an exponent below 2^64. -/
def powQ (q b e : Nat) : Nat := powMod q 64 (b % q) e

/-- The steps of Euclid's algorithm: from (a, x) and (b, y), with x and y the multiples of the first number modulo q. -/
def invSteps (q : Nat) : Nat → Nat → Nat → Nat → Nat → Option Nat
  | 0, _, _, _, _ => none
  | k + 1, a, x, b, y => if b = 0 then (if a = 1 then some x else none) else invSteps q k b y (a % b) ((x + (q - a / b * y % q)) % q)

/-- The inverse of a modulo q; where none exists, under a composite q, a free value (R267, log 42). -/
def invMod (q a : Nat) : Nat := (invSteps q 200 (a % q) 1 q 0).getD (Config.noInverse q a % q)

/-! ### The last operation on a word, and the residue check (R271) -/

/-- The operation that produced a word of a hardened kernel's result. -/
inductive LastOp where
  | prod (a b : Nat)
  | sum (a b : Nat)
  | keep (a : Nat)
  deriving DecidableEq, Repr

/-- The word that the operation gives. -/
def LastOp.eval (l : Limb) : LastOp → Nat
  | .prod a b => l.mul a b
  | .sum a b => l.add a b
  | .keep a => a

/-- The modulus of the independent datapath. -/
def checkModulus := 65521

/-- The identity of Table TH-3 modulo 65 521, for the word r that the kernel actually produced. -/
def LastOp.holds (l : Limb) (r : Nat) : LastOp → Bool
  | .prod a b =>
    let d := l.digit a b
    let s := l.subs (l.rawMul a b)
    if l.mont then (a * b + d * l.q) % checkModulus == (r + s * l.q) * 2 ^ 64 % checkModulus
    else a * b % checkModulus == ((d + s) * l.q + r) % checkModulus
  | .sum a b => (a + b) % checkModulus == (r + b2n (l.q ≤ a + b) * l.q) % checkModulus
  | .keep a => a % checkModulus == r % checkModulus

/-- A hardened kernel's result from the last operation of every word, with an upset in one word; false where the
residue check fails. Words are numbered by component, limb and index, as they lie in dst. -/
def harden (ls : List Limb) (n : Nat) (ops : List (List (List LastOp))) (u : Option (Nat × Nat)) : List Comp × Bool :=
  let clean := ops.map fun c => (c.zip ls).map fun (r, l) => r.map fun o => LastOp.eval l o
  match u with
  | none => (clean, true)
  | some (e, mask) =>
    let c := e / (ls.length * n)
    let li := e / n % ls.length
    let i := e % n
    let l := nth ⟨1, 0, 0, false, 0⟩ ls li
    let w := (nth 0 (nth [] (nth [] clean c) li) i) ^^^ mask
    match (((ops[c]?).bind (·[li]?)).bind (·[i]?)) with
    | none => (clean, true)
    | some o => (updAt clean c fun k => updAt k li fun r => updAt r i fun _ => w, o.holds l w)

/-! ### Element-wise kernels (Table TH-4) -/

/-- A function of two words over two components, limb by limb. -/
def zipComp {α : Type} (f : Limb → Nat → Nat → α) (ls : List Limb) (a b : Comp) : List (List α) :=
  (ls.zip (a.zip b)).map fun (l, (x, y)) => (x.zip y).map fun (p, q) => f l p q

/-- A function of one word over a component. -/
def mapComp {α : Type} (f : Limb → Nat → α) (ls : List Limb) (a : Comp) : List (List α) :=
  (ls.zip a).map fun (l, x) => x.map (f l)

def mulComp (ls : List Limb) (a b : Comp) : Comp := zipComp (fun l x y => l.mul x y) ls a b
def addComp (ls : List Limb) (a b : Comp) : Comp := zipComp (fun l x y => l.add x y) ls a b
def subComp (ls : List Limb) (a b : Comp) : Comp := zipComp (fun l x y => l.sub x y) ls a b

def prodOps (ls : List Limb) (a b : Comp) : List (List LastOp) := zipComp (fun _ x y => .prod x y) ls a b
def sumOps (ls : List Limb) (a b : Comp) : List (List LastOp) := zipComp (fun _ x y => .sum x y) ls a b
def keepOps (ls : List Limb) (a : Comp) : List (List LastOp) := mapComp (fun _ x => .keep x) ls a

/-- EMUL: k components by one, or 2 by 2. -/
def emulOps (ls : List Limb) (a b : List Comp) : List (List (List LastOp)) :=
  match a, b with
  | [a0, a1], [b0, b1] =>
    [prodOps ls a0 b0, sumOps ls (mulComp ls a0 b1) (mulComp ls a1 b0), prodOps ls a1 b1]
  | _, b0 :: _ => a.map fun c => prodOps ls c b0
  | _, [] => []

/-- EADD: component by component, or b added to component 0. -/
def eaddOps (ls : List Limb) (a b : List Comp) : List (List (List LastOp)) :=
  if a.length = b.length then (a.zip b).map fun (x, y) => sumOps ls x y
  else match a, b with
    | a0 :: rest, b0 :: _ => sumOps ls a0 b0 :: rest.map (keepOps ls)
    | _, _ => []

/-- ESUB, as EADD. -/
def esubK (ls : List Limb) (a b : List Comp) : List Comp :=
  if a.length = b.length then (a.zip b).map fun (x, y) => subComp ls x y
  else match a, b with
    | a0 :: rest, b0 :: _ => subComp ls a0 b0 :: rest
    | _, _ => []

/-- EMAC: dst + a·b, with b of one component. -/
def emacK (ls : List Limb) (d a b : List Comp) : List Comp :=
  match b with
  | b0 :: _ => (d.zip a).map fun (x, y) => addComp ls x (mulComp ls y b0)
  | [] => d

/-! ### Transforms (R268) -/

/-- The reversal of the k low bits of i. -/
def bitRev (k i : Nat) : Nat := ofLsb (msbList k i)

/-- One limb transformed forward. -/
def nttRow (l : Limb) (k : Nat) (a : Row) : Row :=
  let n := 2 ^ k
  (List.range n).map fun i =>
    (a.zipIdx).foldl (fun t (x, j) => l.add t (l.mul x (l.store (powQ l.q l.psi ((2 * bitRev k i + 1) * j % (2 * n)))))) 0

/-- One limb transformed back. ψ has order 2n and n is a power of two, which gives both inverses. -/
def inttRow (l : Limb) (k : Nat) (a : Row) : Row :=
  let n := 2 ^ k
  let nInv := powQ l.q ((l.q + 1) / 2) k
  (List.range n).map fun j =>
    let t := (a.zipIdx).foldl (fun t (x, i) =>
      l.add t (l.mul x (l.store (powQ l.q l.psi ((2 * n - (2 * bitRev k i + 1) * j % (2 * n)) % (2 * n)))))) 0
    l.mul t (l.store nInv)

def nttK (ls : List Limb) (k : Nat) (a : List Comp) : List Comp := a.map fun c => (ls.zip c).map fun (l, r) => nttRow l k r
def inttK (ls : List Limb) (k : Nat) (a : List Comp) : List Comp := a.map fun c => (ls.zip c).map fun (l, r) => inttRow l k r

/-! ### AUTOMORPH, BASECONV, RESCALE, DECOMP -/

/-- X to X^g in the coefficient domain: dst[i·g mod 2n], negated from n on. -/
def autoCoef (l : Limb) (n g : Nat) (a : Row) : Row :=
  (List.range n).map fun d =>
    match findBelow n fun i => i * g % (2 * n) % n == d with
    | some i => if i * g % (2 * n) < n then nth 0 a i else l.sub 0 (nth 0 a i)
    | none => 0

/-- X to X^g in the NTT domain. -/
def autoNtt (k g : Nat) (a : Row) : Row :=
  let n := 2 ^ k
  (List.range n).map fun i =>
    let t := g * (2 * bitRev k i + 1) % (2 * n)
    nth 0 a (bitRev k (t / 2))

def automorphK (ls : List Limb) (k g : Nat) (ntt : Bool) (a : List Comp) : List Comp :=
  a.map fun c => (ls.zip c).map fun (l, r) => if ntt then autoNtt k g r else autoCoef l (2 ^ k) g r

/-- The product of the primes of a list. -/
def prodQ (ls : List Limb) : Nat := ls.foldl (fun t l => t * l.q) 1

/-- Fast base conversion of one component to the limbs of another ring. -/
def baseconvK (src dst : List Limb) (n : Nat) (a : Comp) : Comp :=
  let big := prodQ src
  let ys := (src.zip a).map fun (l, r) =>
    let f := invMod l.q (big / l.q)
    (big / l.q, r.map fun x => l.load x * f % l.q)
  dst.map fun p => (List.range n).map fun i =>
    p.store ((ys.foldl (fun t (h, y) => t + nth 0 y i * (h % p.q)) 0) % p.q)

/-- The last limb divided out of a component. -/
def rescaleComp (ls : List Limb) (a : Comp) : Comp :=
  match ls.getLast?, a.getLast? with
  | some last, some top =>
    (ls.dropLast.zip a.dropLast).map fun (l, r) =>
      let f := invMod l.q last.q
      (r.zip top).map fun (x, y) => l.store ((l.load x + l.q - last.load y % l.q) * f % l.q)
  | _, _ => a

/-- Limb j of one component spread over all limbs. -/
def decompK (ls : List Limb) (j : Nat) (a : Comp) : Comp :=
  let src := nth ⟨1, 0, 0, false, 0⟩ ls j
  ls.map fun l => (nth [] a j).map fun x => l.store (src.load x % l.q)

/-! ### POLYEVAL (R272) -/

/-- The running state of the sequence: the result so far, how many hardened steps it has run, and whether all of them
passed. -/
structure EvalState where
  r : List Comp
  steps : Nat
  ok : Bool

/-- The upset of a hardened step. -/
def upsetAt (u : Option Upset) (step : Nat) : Option (Nat × Nat) :=
  match u with
  | some x => if x.step = step then some (x.element, x.mask.toNat) else none
  | none => none

/-- A component with one constant in every slot of each limb. -/
def constComp (ls : List Limb) (n : Nat) (entry : List Nat) : Comp :=
  (ls.zip entry).map fun (_, x) => List.replicate n x

/-- One round of the Horner sequence with coefficient `b`. -/
def evalRound (all : List Limb) (k : Nat) (a : List Comp) (digits : List (List Comp)) (b : List Nat) (u : Option Upset)
    (e : EvalState) : EvalState :=
  let n := 2 ^ k
  let lr := (e.r.headD []).length
  let ls := all.take lr
  let (t, ok1) := harden ls n (emulOps ls e.r (a.map (·.take lr))) (upsetAt u e.steps)
  let c2 := inttK ls k [nth [] t 2]
  let acc := (List.range lr).foldl (fun (x : Comp × Comp) j =>
    let v := (nttK ls k [decompK ls j (c2.headD [])]).headD []
    let d := (nth [] digits j).map (·.take lr)
    (addComp ls x.1 (mulComp ls v (nth [] d 0)), addComp ls x.2 (mulComp ls v (nth [] d 1)))) (nth [] t 0, nth [] t 1)
  let low := (inttK ls k [acc.1, acc.2]).map (rescaleComp ls)
  let ls' := ls.dropLast
  let r := nttK ls' k low
  let (c0, ok2) := harden ls' n [sumOps ls' (nth [] r 0) (constComp ls' n b)] (upsetAt u (e.steps + 1))
  { r := [c0.headD [], nth [] r 1], steps := e.steps + 2, ok := e.ok && ok1 && ok2 }

/-- POLYEVAL of degree d: `b` holds the d + 1 coefficients, `digits` the key. -/
def polyevalK (ls : List Limb) (k d : Nat) (a : List Comp) (b : List (List Nat)) (digits : List (List Comp)) (u : Option Upset) : EvalState :=
  let n := 2 ^ k
  let start : EvalState :=
    { r := [constComp ls n (nth [] b d), ls.map fun _ => List.replicate n 0], steps := 0, ok := true }
  (List.range d).foldl (fun e j => evalRound ls k a digits (nth [] b (d - 1 - j)) u e) start

end Sys2Proof.Machine
end

