-- ==== Sys2Proof/Machine/Layout.lean ====
section
/-! DEFINITION. The sheaf layout that a set of configuration words gives, its identifier, and the drill's
entries, durations and deadlines (03 R107, R108; 04 R122 to R130, R142; 05 R156 to R164; 06 R194 to R196, R204). -/

namespace Sys2Proof.Machine

/-- A set of configuration words: noun and word to value. -/
abbrev Words := Nat → Nat → Nat

/-! ### Entries (04 Table DR-2) -/

/-- The furrows in the order of R125, by index: 0 to 7 for CSP0 to CSP7, 8 for FURROW24. -/
def furrowNoun (f : Nat) : Nat := if f = 8 then nFURROW 24 else nFURROW f

def entryCount (w : Words) (f : Nat) : Nat := bits (w (furrowNoun f) 0) 0 6

def entOffset (w : Words) (f e : Nat) : Nat := bits (w (furrowNoun f) (8 + 4 * e)) 0 23
def entType (w : Words) (f e : Nat) : Nat := bits (w (furrowNoun f) (8 + 4 * e)) 24 3
def entSelect (w : Words) (f e : Nat) : Nat := bits (w (furrowNoun f) (8 + 4 * e)) 28 2
def entCoherent (w : Words) (f e : Nat) : Bool := bitAt (w (furrowNoun f) (8 + 4 * e)) 30
def entGuard (w : Words) (f e : Nat) : Bool := bitAt (w (furrowNoun f) (8 + 4 * e)) 31
def entDeadline (w : Words) (f e : Nat) : Nat := bits (w (furrowNoun f) (9 + 4 * e)) 0 23
def entEvery (w : Words) (f e : Nat) : Nat := bits (w (furrowNoun f) (9 + 4 * e)) 24 8
def entPhase (w : Words) (f e : Nat) : Nat := bits (w (furrowNoun f) (10 + 4 * e)) 0 8
def entTarget (w : Words) (f e : Nat) : Nat := bits (w (furrowNoun f) (10 + 4 * e)) 8 5

/-- The index of an entry's run-time state. -/
def entIx (f e : Nat) : Nat := 32 * f + e

/-- Whether an entry takes part (below entry_count, and not empty). -/
def entUsed (w : Words) (f e : Nat) : Bool := decide (e < entryCount w f) && entType w f e != 0

/-- Whether an entry runs in a period (04 R126). -/
def entDue (w : Words) (f e p : Nat) : Bool := entUsed w f e && p % (max 1 (entEvery w f e)) == entPhase w f e

/-- Every entry that takes part, in the order of R125: (furrow, entry). -/
def usedEntries (w : Words) : List (Nat × Nat) :=
  (List.range 9).flatMap fun f => ((List.range (entryCount w f)).filter (entUsed w f)).map fun e => (f, e)

/-! ### CSP profiles (05 Table CS-3) -/

/-- A profile's fields. -/
structure Profile where
  mode : Nat
  spiMode : Nat
  msbFirst : Bool
  selectMap : Nat
  div : Nat
  delay : Nat
  frameBits : Nat
  unitBits : Nat
  unitCount : Nat
  check : Nat
  absentPeriods : Nat
  lead : Nat
  lag : Nat
  txSource : Nat
  txWord : Nat
  txAddr : Nat
  mono : Nat
  wait : Nat
  startBit : Bool
  valueLsb : Nat
  valueWidth : Nat
  valueSigned : Bool
  auxLsb : Nat
  auxWidth : Nat
  unit : Nat
  scale : Nat
  deriving DecidableEq, Repr

/-- Profile p of port k. -/
def profileOf (w : Words) (k p : Nat) : Profile :=
  let n := 8 + 8 * p
  let x (i : Nat) := w (nCSP k) (n + i)
  { mode := bits (x 0) 0 3, spiMode := bits (x 0) 3 2, msbFirst := bitAt (x 0) 5, selectMap := bits (x 0) 6 4,
    div := bits (x 0) 10 13, delay := bits (x 0) 23 7, frameBits := bits (x 1) 0 13, unitBits := bits (x 1) 13 6,
    unitCount := bits (x 1) 19 7, check := bits (x 1) 26 2, absentPeriods := bits (x 1) 28 4, lead := bits (x 2) 0 8,
    lag := bits (x 2) 8 8, txSource := bits (x 2) 16 2, txWord := x 3, txAddr := x 4, mono := bits (x 5) 0 12,
    wait := bits (x 5) 12 12, startBit := bitAt (x 5) 24, valueLsb := bits (x 6) 0 5, valueWidth := bits (x 6) 5 6,
    valueSigned := bitAt (x 6) 11, auxLsb := bits (x 6) 12 5, auxWidth := bits (x 6) 17 4, unit := bits (x 6) 22 4,
    scale := bits (x 6) 26 6 }

/-- The units that a frame of a profile gives: in long-frame mode consecutive 32-bit units (Table CS-1). -/
def Profile.units (p : Profile) : Nat := if p.mode = 1 then ceilDiv p.frameBits 32 else p.unitCount

/-- Bits of unit j: the last unit of a long frame holds the rest. -/
def Profile.widthOf (p : Profile) (j : Nat) : Nat :=
  if p.mode = 1 then min 32 (p.frameBits - 32 * j) else p.unitBits

/-- The ticks of a frame's bits, 3 × sck_div / 8 each, rounded up (04 Table DR-1, 05 R157). -/
def frameTicks (frameBits d : Nat) : Nat := ceilDiv (frameBits * 3 * d) 8

/-- The worst-case duration of a CSP transfer (04 Table DR-1). -/
def Profile.duration (p : Profile) : Nat :=
  p.lead + frameTicks p.frameBits p.div + p.delay + p.lag + (if p.mode = 3 then p.wait else 0) + 8

/-! ### SENT channels (06 Table SE-4) -/

def sentNibbles (w : Words) (c : Nat) : Nat := bits (w (nSENT c) 0) 3 3
def sentFc1 (w : Words) (c : Nat) : Nat := bits (w (nSENT c) 0) 6 3
def sentPause (w : Words) (c : Nat) : Nat := bits (w (nSENT c) 0) 9 2
def sentSerial (w : Words) (c : Nat) : Nat := bits (w (nSENT c) 0) 11 2
def sentTick (w : Words) (c : Nat) : Nat := bits (w (nSENT c) 1) 0 10
def sentFrameLen (w : Words) (c : Nat) : Nat := bits (w (nSENT c) 1) 10 11
def sentTrig (w : Words) (c : Nat) : Nat := bits (w (nSENT c) 2) 0 16
def sentResp (w : Words) (c : Nat) : Nat := bits (w (nSENT c) 2) 16 16

/-- t_frame,max of R195. -/
def sentFrameMax (w : Words) (c : Nat) : Nat :=
  let f := if sentPause w c = 2 then sentFrameLen w c
    else 56 + 27 * (sentNibbles w c + 2) + (if sentPause w c = 1 then 768 else 0)
  15 * sentTick w c * f

/-- The worst-case duration D of an entry (04 Table DR-1). -/
def entDuration (w : Words) (f e : Nat) : Nat :=
  match entType w f e with
  | 1 => (profileOf w f (entTarget w f e % 4)).duration
  | 2 => let c := entTarget w f e
         sentTrig w c + sentResp w c + sentFrameMax w c + 8
  | _ => 0

/-! ### Deadlines (04 R127) -/

def wordsPeriod (w : Words) : Nat := 1875 * bits (w nPERIOD 0) 0 13
def wordsHeadland (w : Words) : Nat := bits (w nPERIOD 1) 0 15

/-- The deadline limit L (R19). -/
def limitOf (w : Words) : Nat := wordsPeriod w - wordsHeadland w

/-- The launch that follows entry e on its CSP port, in ticks from the capture line. -/
def nextLaunch (w : Words) (f e : Nat) : Nat :=
  if e + 1 < entryCount w f then entOffset w f (e + 1) else wordsPeriod w + entOffset w f 0

/-- The effective deadline of an entry under a deadline limit (R127). -/
def effDeadline (w : Words) (limit f e : Nat) : Nat :=
  let d := entDeadline w f e
  let a := min (if d = 0 then limit else d) limit
  if f < 8 && entType w f e == 1 then
    let p := profileOf w f (entTarget w f e % 4)
    min a (nextLaunch w f e - (if p.mode = 3 then p.mono else 12))
  else a

/-- Latest offset + D among the entries of a furrow. -/
def worstEndOf (w : Words) (f : Nat) : Nat :=
  ((List.range (entryCount w f)).filter (entUsed w f)).foldl (fun m e => max m (entOffset w f e + entDuration w f e)) 0

/-- Least slack of a furrow's entries (Table DR-2). -/
def minSlackOf (w : Words) (limit f : Nat) : Nat :=
  match (List.range (entryCount w f)).filter (entUsed w f) with
  | [] => 0
  | e :: es => es.foldl (fun m e => min m (effDeadline w limit f e - (entOffset w f e + entDuration w f e)))
      (effDeadline w limit f e - (entOffset w f e + entDuration w f e))

/-! ### Fields (03 Table SX-8) -/

/-- sched_offset of a field that is not scheduled. -/
def noSched : Nat := 0xFFFFFFFF

/-- value_type of an integer of a size (03 Table SX-9). -/
def intType (signed : Bool) (size : Nat) : Nat :=
  (if signed then 0x10 else 0) + (match size with | 1 => 1 | 2 => 2 | 4 => 3 | _ => 4)

/-- The bytes of a value of a width (05 R163). -/
def valueBytes (width : Nat) : Nat := if width ≤ 8 then 1 else if width ≤ 16 then 2 else 4

/-- A field before it has its offset. -/
def mkField (vt size noun source unit scale flags sched entry : Nat) : SheafField :=
  { valueType := vt, size, offset := 0, noun, source, unit, scale, flags, device := 0, sched, entry }

/-- A signed scale of 6 bits as the signed byte of a SHEAF_FIELD record. -/
def scaleByte (x : Nat) : Nat := ofSigned 8 (signedOf 6 x)

/-- The fields of a CSP entry (05 R163, R164). -/
def cspFields (w : Words) (k e : Nat) : List SheafField :=
  let p := profileOf w k (entTarget w k e % 4)
  let src (i : Nat) := 256 * e + i
  let coh := b2n (entCoherent w k e)
  let n := nCSP k
  let ix := entIx k e
  let val (pos : Nat) :=
    if p.mode = 1 then mkField 0x03 4 n (src pos) 0 0 coh (entOffset w k e) ix
    else
      let size := valueBytes p.valueWidth
      mkField (intType p.valueSigned size) size n (src pos) p.unit (scaleByte p.scale) coh (entOffset w k e) ix
  let aux (pos : Nat) := mkField 0x01 1 n (src pos) 0 0 0 noSched ix
  let hasAux := p.mode != 1 && p.auxWidth != 0
  [mkField 0x30 8 n (src 0) 4 0 0 noSched ix, mkField 0x03 4 n (src 1) 4 0 0 noSched ix]
    ++ (List.range p.units).flatMap fun j =>
      if hasAux then [val (2 + 2 * j), aux (3 + 2 * j)] else [val (2 + j)]

/-- The fields of a SENT entry (06 Table SE-3); only a trigger entry's can be coherent. -/
def sentFields (w : Words) (e : Nat) : List SheafField :=
  let c := entTarget w 8 e
  let coh := entType w 8 e == 2 && entCoherent w 8 e
  let fl := b2n coh
  let sched := if coh then entOffset w 8 e else noSched
  let n := nSENT c
  let ix := entIx 8 e
  let x := w (nSENT c) 3
  let size (nib : Nat) := if nib ≤ 4 then 2 else 4
  let s1 := size (sentFc1 w c)
  let s2 := size (sentNibbles w c - sentFc1 w c)
  [mkField (intType (bitAt x 20) s1) s1 n 0 (bits x 0 4) (scaleByte (bits x 4 6)) fl sched ix]
    ++ (if sentFc1 w c < sentNibbles w c then
        [mkField (intType (bitAt x 21) s2) s2 n 1 (bits x 10 4) (scaleByte (bits x 14 6)) fl sched ix] else [])
    ++ [mkField 0x01 1 n 2 0 0 fl sched ix]
    ++ (if sentSerial w c != 0 then [mkField 0x01 1 n 3 0 0 0 noSched ix, mkField 0x02 2 n 4 0 0 0 noSched ix] else [])
    ++ [mkField 0x30 8 n 5 4 0 0 noSched ix]

/-- The entry of FURROW24 that samples a bank. -/
def bankEntry (w : Words) (b : Nat) : Option Nat :=
  findBelow (entryCount w 8) fun e => entType w 8 e == 4 && entTarget w 8 e == b

/-- The edge-sample entry of highest index (06 R204). -/
def lastEdgeEntry (w : Words) : Option Nat :=
  ((List.range (entryCount w 8)).filter fun e => entType w 8 e == 4).getLast?

/-- The fields of an edge-sample entry: its bank's, and with the last such entry every input's (06 R204). -/
def edgeFields (w : Words) (e : Nat) : List SheafField :=
  let b := entTarget w 8 e % 4
  let coh := b2n (entCoherent w 8 e)
  let ix := entIx 8 e
  let n := nEDGE b
  [mkField 0x20 1 n 0 0 0 coh (if entCoherent w 8 e then 0 else noSched) ix, mkField 0x20 1 n 1 0 0 0 noSched ix,
    mkField 0x20 1 n 2 0 0 0 noSched ix, mkField 0x02 2 n 3 0 0 0 noSched ix]
    ++ (if lastEdgeEntry w == some e then
        (List.range 32).flatMap fun i =>
          let bk := i / 8
          let k := i % 8
          if bitAt (w (nEDGE bk) 0) (16 + k) then
            let ix := entIx 8 ((bankEntry w bk).getD 0)
            [mkField 0x02 2 (nEDGE bk) (8 + 3 * k) 0 0 0 noSched ix, mkField 0x30 8 (nEDGE bk) (9 + 3 * k) 4 0 0 noSched ix,
              mkField 0x30 8 (nEDGE bk) (10 + 3 * k) 4 0 0 noSched ix]
          else []
      else [])

/-- The fields of one entry. -/
def entryFields (w : Words) (f e : Nat) : List SheafField :=
  match entType w f e with
  | 1 => cspFields w f e
  | 2 | 3 => sentFields w e
  | 4 => edgeFields w e
  | _ => []

/-- The bytes of a slot (04 Table DR-4). -/
def slotBytes (size : Nat) : Nat := if size = 8 then 16 else 8

/-- Offsets given in order, from a start. -/
def placeFields : Nat → List SheafField → List SheafField
  | _, [] => []
  | o, f :: fs => { f with offset := o } :: placeFields (o + slotBytes f.size) fs

/-- The first offset after fields that follow one another. -/
def fieldsEnd (o : Nat) (fs : List SheafField) : Nat := fs.foldl (fun o f => o + slotBytes f.size) o

/-- Whether a set plans position k with fields of its own (10 R375; an expected_layout of 0 gives none, log 31). -/
def plannedWith (w : Words) (k : Nat) : Bool := bitAt (w nYOKE 0) (15 + k) && w nYOKE (12 + 4 * (k - 1)) != 0

/-- The block of a planned position: its link field and the member's fields (10 R375). -/
def memberFields (cached : Nat → Option Layout) (k : Nat) : List SheafField :=
  let link := mkField 0x12 2 nYOKE k 0 0 2 noSched 0
  let fs := match cached k with
    | some l => l.fields.map fun f => { f with flags := f.flags ||| 2, device := k, entry := 0 }
    | none => []
  { link with device := k } :: fs

/-- The layout of a set. -/
def layoutOf (w : Words) (lead : Bool) (cached : Nat → Option Layout) : Layout :=
  let own := (usedEntries w).flatMap fun (f, e) => entryFields w f e
  let ks := if lead then ((List.range 7).map (· + 1)).filter (plannedWith w) else []
  let all := own ++ ks.flatMap (memberFields cached)
  { id := 0, bodySize := fieldsEnd 0 all, stack := 1 + ks.length, fields := placeFields 0 all }

/-- Bytes 4 to 31 of a SHEAF_FIELD record (03 Table SX-8). -/
def fieldRecordBody (v1 : Bool) (number : Nat) (f : SheafField) : List Byte :=
  let st := f.offset + (if f.size = 8 then 8 else 4)
  leBytes 2 number ++ leBytes 1 f.valueType ++ leBytes 1 f.size ++ leBytes 4 f.offset ++ leBytes 4 st
    ++ leBytes 4 (if v1 then noSched else st + 1) ++ leBytes 2 f.noun ++ leBytes 2 f.source ++ leBytes 1 f.unit
    ++ leBytes 1 f.scale ++ leBytes 1 f.flags ++ leBytes 1 f.device ++ leBytes 4 f.sched

/-- Header size and version (04 R140, R152). -/
def headerSize (legacy : Bool) : Nat := if legacy then 32 else 64

/-- Bytes 8 to 19 of the SHEAF_LAYOUT record. -/
def layoutRecordHead (legacy : Bool) (l : Layout) : List Byte :=
  leBytes 1 (if legacy then 1 else 2) ++ [0] ++ leBytes 2 (headerSize legacy) ++ leBytes 4 l.bodySize
    ++ leBytes 2 l.fields.length ++ leBytes 1 l.stack ++ [0]

/-- The identifier of a layout that replaces another (03 R108): a CRC-32 over the layout record and bytes 4 to 27
of each field record; 0 becomes 1; a different layout never takes the old one's identifier. -/
def layoutIdOf (legacy : Bool) (old l : Layout) : Nat :=
  if old.id != 0 && old.fields.map (fun f => { f with sched := 0, entry := 0 }) == l.fields.map (fun f => { f with sched := 0, entry := 0 })
      && old.stack == l.stack then old.id
  else
    let c := crc32 (layoutRecordHead legacy l
      ++ (l.fields.zipIdx.flatMap fun (f, i) => (fieldRecordBody legacy i f).take 24))
    let c := if c = 0 then 1 else c
    if c = old.id then (if (c + 1) % 2 ^ 32 = 0 then 1 else c + 1) else c

/-- The layout with its identifier. -/
def newLayout (legacy : Bool) (old : Layout) (w : Words) (lead : Bool) (cached : Nat → Option Layout) : Layout :=
  let l := layoutOf w lead cached
  { l with id := layoutIdOf legacy old l }

/-- The worst-case assembly time A of R130. -/
def assemblyTicks (l : Layout) : Nat := 120 + ceilDiv (l.bodySize / 8) 2

end Sys2Proof.Machine
end

