-- ==== Sys2Proof/Machine/Checks.lean ====
section
/-! DEFINITION. The checks of a configuration set at COMMIT (02 Table MB-8 and the rules it names), applied
also to the autostart set (12 R464), to a set at a firmware swap (14 R518), and to each write under framing v1
(01 R48). -/

namespace Sys2Proof.Machine

/-- A failed check: the reason of Table MB-8, the noun and word it is reported at, and the ticks of a budget. -/
structure Failure where
  reason : Nat
  noun : Nat
  word : Nat
  required : Nat := 0
  available : Nat := 0
  deriving DecidableEq, Repr

/-- The status of a reason (Table MB-8). -/
def reasonStatus (r : Nat) : Nat := if r = 2 || r = 3 then stBudget else if r = 5 then stPair else stRejected

/-- The 16-byte detail of R76. -/
def Failure.detail (f : Failure) : List Byte :=
  leBytes 2 f.noun ++ leBytes 2 0 ++ leBytes 2 f.word ++ leBytes 2 f.reason ++ leBytes 4 f.required ++ leBytes 4 f.available

/-- A failure where a condition holds. -/
def failIf (b : Bool) (reason noun word : Nat) : List Failure := if b then [{ reason, noun, word }] else []

/-- What a set is checked against: its words, the applied words, the state, and the layout it gives. -/
structure CheckCtx where
  w : Words
  s : State
  layout : Layout
  /-- The checks of R168 in which a field of pair group 1 or 2 takes part are put off to START (05 R188). -/
  loose : Bool

/-- The served or streamed bytes of a sheaf: header and body. -/
def CheckCtx.sheafBytes (c : CheckCtx) : Nat := headerSize c.s.boot.legacy + c.layout.bodySize

/-- L_k of a joined member: floor(0.12 × (s_k − D_k)) − A − 24 ticks (10 R343). -/
def memberLimit (y : Yoke) (l : Layout) : Option Nat :=
  match y.linkState, y.applied with
  | 5, some g => some ((4 * (nth (0, 0) g.slots (y.position - 1)).1 - y.delayQ) * 3 / 100 - assemblyTicks l - 24)
  | _, _ => none

/-- The deadline limit of a set: in a joined member the one its grant gives (10 R343). -/
def CheckCtx.limit (c : CheckCtx) : Nat := (memberLimit c.s.yoke c.layout).getD (limitOf c.w)

/-! ### PERIOD and CLOCK -/

/-- R18, R87. -/
def checkPeriod (c : CheckCtx) : List Failure :=
  let src := bits (c.w nPERIOD 0) 16 2
  failIf ((src == 1 && !c.s.isMember) || (src == 2 && c.s.isMember)) 6 nPERIOD 0
    ++ failIf (wordsPeriod c.w ≤ wordsHeadland c.w) 1 nPERIOD 1

/-- Whether a reference source reports itself qualified (12 R432). -/
def State.sourceOk (s : State) (src : Nat) : Bool :=
  match src with
  | 0 => s.clk.xtalOk | 1 => s.clk.refinOk | 2 => s.clk.yokeOk | _ => false

/-- R86: a change of root_source to a source that is not there, or to the yoke in a lead or in legacy mode. -/
def checkClock (c : CheckCtx) : List Failure :=
  let o := bits (c.s.reg nCLOCK 0) 0 2
  let n := bits (c.w nCLOCK 0) 0 2
  failIf (n != o && (!c.s.sourceOk n || (n == 2 && !c.s.isMember))) 6 nCLOCK 0

/-- Changes that need the drill stopped (flag [0] of a FIELD record; R86, 04 R139, 05 Table CS-3). -/
def checkStopped (c : CheckCtx) : List Failure :=
  let ch (n word lo w : Nat) := failIf (bits (c.w n word) lo w != bits (c.s.reg n word) lo w) 7 n word
  if c.s.drill.mode = 0 then []
  else ch nCLOCK 0 0 2 ++ (List.range 8).flatMap (fun k => ch (nCSP k) 0 0 2) ++ ch nSHEAF 1 0 32 ++ ch nSHEAF 2 0 32

/-! ### CSP ports (05 R168, R170) -/

/-- Bits of a unit used by its check (Table CS-2). -/
def checkWidth (check : Nat) : Nat := match check with | 1 => 1 | 2 => 6 | 3 => 8 | _ => 0

/-- Whether two bit ranges share a bit. -/
def overlap (a wa b wb : Nat) : Bool := wa != 0 && wb != 0 && a < b + wb && b < a + wa

/-- The rules of R168 on one profile in which a field of pair group 1 or 2 takes part. -/
def checkPairs (c : CheckCtx) (k p : Nat) : List Failure :=
  let f := profileOf c.w k p
  let n := 8 + 8 * p
  let cw := checkWidth f.check
  (List.range 4).flatMap (fun sl =>
    failIf (bitAt f.selectMap sl && bits (c.w (nCSP k) (4 + sl)) 0 13 != f.frameBits) 4 (nCSP k) (4 + sl))
  ++ failIf (f.mode == 3 && 1 < popcount 4 f.selectMap) 4 (nCSP k) n
  ++ failIf ((f.mode == 0 || f.mode == 2) && f.frameBits != f.unitBits * f.unitCount) 4 (nCSP k) (n + 1)
  ++ failIf (f.mode == 2 && 16 < f.unitCount) 4 (nCSP k) (n + 1)
  ++ failIf ((f.lead == 0 || f.lag == 0) && f.selectMap != 0) 4 (nCSP k) (n + 2)
  ++ failIf ((f.lead != 0 || f.lag != 0) && f.selectMap == 0) 4 (nCSP k) (n + 2)
  ++ failIf (f.txSource == 2 && (plotRuns f.txAddr (ceilDiv f.frameBits 8)).any fun (a, _, _) =>
      match plotOf c.w 1 (a / 4096) with | some (_, r, _) => !r | none => true) 4 (nCSP k) (n + 4)
  ++ failIf (f.unitBits < f.valueLsb + f.valueWidth || (f.auxWidth != 0 && f.unitBits < f.auxLsb + f.auxWidth)
      || f.unitBits < cw || overlap f.valueLsb f.valueWidth f.auxLsb f.auxWidth || overlap f.valueLsb f.valueWidth 0 cw
      || overlap f.auxLsb f.auxWidth 0 cw) 4 (nCSP k) (n + 6)

/-- The rules of R168 and R170 on a port in which a field of pair group 1 or 2 takes part. -/
def checkPairFields (c : CheckCtx) (k : Nat) : List Failure :=
  let slave := bitAt (c.w (nCSP k) 0) 1
  let unit := (profileOf c.w k 0).unitBits
  (List.range 4).flatMap (checkPairs c k)
  ++ failIf (slave && !([8, 16, 32].contains unit)) 4 (nCSP k) 9
  ++ failIf (slave && bits (c.w (nCSP k) 40) 0 17 % (max 1 (unit / 8)) != 0) 4 (nCSP k) 40

/-- The other rules of R168 on one profile. -/
def checkProfile (c : CheckCtx) (k p : Nat) : List Failure :=
  let f := profileOf c.w k p
  let n := 8 + 8 * p
  failIf (f.mode == 3 && f.wait != 0 && !f.startBit) 4 (nCSP k) (n + 5)
  ++ failIf (f.mono != 0 && f.mode != 3) 4 (nCSP k) (n + 5)

/-- The rules on a port: enable and role against its furrow, slave mode, and its profiles (R168, R170). -/
def checkPort (c : CheckCtx) (k : Nat) : List Failure :=
  let w0 := c.w (nCSP k) 0
  let slave := bitAt w0 1
  let used := (List.range (entryCount c.w k)).any fun e => entType c.w k e == 1
  let len := bits (c.w (nCSP k) 41) 0 17
  let served := if len = 0 then c.sheafBytes else len
  failIf (used && (!bitAt w0 0 || slave)) 4 (nCSP k) 0
  ++ failIf (slave && entryCount c.w k != 0) 4 (nCSP k) 0
  ++ failIf (slave && c.w nSHEAF 2 < bits (c.w (nCSP k) 40) 0 17 + served) 4 (nCSP k) 40
  ++ (List.range 4).flatMap (checkProfile c k)
  ++ (if c.loose then [] else checkPairFields c k)

/-! ### SENT, edges and TWT1 (06 R199, R206, R220) -/

def checkSent (c : CheckCtx) (ch : Nat) : List Failure :=
  let n := sentNibbles c.w ch
  let f := 56 + 27 * (n + 2)
  let w0 := c.w (nSENT ch) 0
  let spc := bitAt w0 1
  let trig := sentTrig c.w ch
  let has (t : Nat) := (List.range (entryCount c.w 8)).any fun e => entType c.w 8 e == t && entTarget c.w 8 e == ch
  failIf (n < sentFc1 c.w ch) 4 (nSENT ch) 0
  ++ failIf ((has 2 && !spc) || (has 3 && spc)) 4 (nSENT ch) 0
  ++ failIf ((has 2 || has 3) && !bitAt w0 0) 4 (nSENT ch) 0
  ++ failIf (sentPause c.w ch == 2 && (sentFrameLen c.w ch < f + 12 || f + 768 < sentFrameLen c.w ch)) 4 (nSENT ch) 1
  ++ failIf (spc && (trig < 120 || 12000 < trig)) 4 (nSENT ch) 2
  ++ failIf (!spc && trig != 0) 4 (nSENT ch) 2

def checkEdge (c : CheckCtx) (b : Nat) : List Failure :=
  let w0 := c.w (nEDGE b) 0
  let en := bits w0 0 8
  let st := bits w0 16 8
  failIf (st &&& (0xFF ^^^ en) != 0) 4 (nEDGE b) 0
  ++ failIf (st != 0 && (bankEntry c.w b).isNone) 4 (nEDGE b) 0

/-- The bits of a mask, as the answered address of target k (R217): the bits of k placed under the mask. -/
def depositBits : Nat → Nat → Nat → Nat → Nat
  | 0, _, _, _ => 0
  | n + 1, i, mask, k =>
    if bitAt mask i then (k % 2) * 2 ^ i + depositBits n (i + 1) mask (k / 2) else depositBits n (i + 1) mask k

/-- The address of TWT1's target k. -/
def twtAddress (base mask k : Nat) : Nat := base ||| depositBits 7 0 mask k

def checkTwt (c : CheckCtx) : List Failure :=
  let w0 := c.w (nTWT 1) 0
  let base := bits w0 4 7
  let mask := bits w0 11 7
  let bad := 6 < popcount 7 mask || base &&& mask != 0
    || (List.range (2 ^ popcount 7 mask)).any fun k =>
        let a := twtAddress base mask k
        a ≤ 7 || 0x78 ≤ a
  failIf bad 4 (nTWT 1) 0
  ++ (List.range 63).flatMap fun i =>
    let v := c.w (nTWT 1) (4 + i)
    failIf (bits v 17 7 != 0 && c.layout.bodySize < bits v 0 17 + bits v 17 7) 4 (nTWT 1) (4 + i)

/-! ### Furrows (04 R123, R124, R128) -/

/-- Whether an entry type is allowed in a furrow: 1 in FURROW0 to FURROW7, 2 to 4 in FURROW24, and none in FURROW8
(Table DR-1). -/
def typeAllowed (noun t : Nat) : Bool :=
  t == 0 || (if noun == nFURROW 24 then 2 ≤ t && t ≤ 4 else noun != nFURROW 8 && t == 1)

/-- R123 on a set that no STAGE has judged: every entry of every furrow, and the entry_count of FURROW8. -/
def checkTypes (c : CheckCtx) : List Failure :=
  ([0, 1, 2, 3, 4, 5, 6, 7, 8, 24].flatMap fun k => (List.range 32).flatMap fun e =>
    failIf (!typeAllowed (nFURROW k) (bits (c.w (nFURROW k) (8 + 4 * e)) 24 3)) 4 (nFURROW k) (8 + 4 * e))
  ++ failIf (bits (c.w (nFURROW 8) 0) 0 6 != 0) 4 (nFURROW 8) 0

/-- R124 and R128 on one entry below entry_count: an empty one too, whose target alone is not checked. -/
def checkEntry (c : CheckCtx) (f e : Nat) : List Failure :=
  let w := c.w
  let n := furrowNoun f
  let a := 8 + 4 * e
  let t := entType w f e
  let p := profileOf w f (entTarget w f e % 4)
  let lower := (List.range (entryCount w f)).any fun i => entOffset w f i < entOffset w f e
  let secondGuard := (List.range e).any (entGuard w f)
  let need := entOffset w f e + entDuration w f e
  let have' := effDeadline w c.limit f e
  failIf (entGuard w f e && !(t == 1 && p.mode == 2)) 4 n a
  ++ failIf (entGuard w f e && (secondGuard || lower)) 4 n a
  ++ failIf (t == 1 && p.selectMap != 0 && !bitAt p.selectMap (entSelect w f e)) 4 n a
  ++ failIf (t == 3 && entCoherent w f e) 4 n a
  ++ failIf ((t == 3 || t == 4) && entOffset w f e != 0) 4 n a
  ++ (if have' < need then [{ reason := 2, noun := n, word := a, required := need, available := have' }] else [])
  ++ failIf (f == 8 && t != 0 && (List.range e).any fun i => entType w 8 i == t && entTarget w 8 i == entTarget w 8 e) 9 n a
  ++ failIf (entEvery w f e ≤ entPhase w f e) 4 n (a + 2)
  ++ failIf ((t == 1 || t == 4) && 4 ≤ entTarget w f e) 4 n (a + 2)
  ++ failIf ((t == 2 || t == 3) && 24 ≤ entTarget w f e) 4 n (a + 2)

def checkFurrow (c : CheckCtx) (f : Nat) : List Failure :=
  (List.range (entryCount c.w f)).flatMap (checkEntry c f)

/-! ### Sheaf, plot map and storage windows (04 R130, R139; 05 R176; 07 R240) -/

/-- Whether a range of virtual addresses is mapped in a holding of a set with a permission. -/
def setMapped (w : Words) (h v n : Nat) (ok : Bool → Bool → Bool) : Bool :=
  (plotRuns v n).all fun (a, _, _) => match plotOf w h (a / 4096) with | some (_, r, wr) => ok r wr | none => false

def checkSheaf (c : CheckCtx) : List Failure :=
  let stride := c.w nSHEAF 2
  let a := assemblyTicks c.layout
  (if wordsHeadland c.w < a then
    [{ reason := 3, noun := nSHEAF, word := 0, required := a, available := wordsHeadland c.w }] else [])
  ++ failIf (!setMapped c.w 2 (c.w nSHEAF 1) (8 * stride) fun _ wr => wr) 4 nSHEAF 1
  ++ failIf (stride < c.sheafBytes) 4 nSHEAF 2

/-- The end of the physical range that a plot lies in, and whether it is a storage window: (select, end). -/
def physEnd (p : Nat) : Option (Option Nat × Nat) :=
  if p < 0x400 then some (none, 0x400)
  else if 0x20000 ≤ p && p < 0x30000 then some (some 0, 0x30000)
  else if 0x30000 ≤ p && p < 0x40000 then some (some 1, 0x40000)
  else none

def checkRegion (c : CheckCtx) (r : Nat) : List Failure :=
  let g := regionOf c.w r
  let n := 32 + 3 * r
  if g.count = 0 then []
  else
    let last := g.phys + g.count
    let pool := bits (c.w nPLOTMAP 0) 24 6
    let hitsPool := pool != 0 && g.phys < 16 * pool + 64 && 16 * pool < last
    failIf (!([1, 2, 4, 6, 7, 8, 9].contains g.holding)) 4 nPLOTMAP n
    ++ failIf (0x40000 < g.virt + g.count) 4 nPLOTMAP n
    ++ failIf ((List.range r).any fun i =>
        let o := regionOf c.w i
        o.count != 0 && o.holding == g.holding && overlap o.virt o.count g.virt g.count) 9 nPLOTMAP n
    ++ (match physEnd g.phys with
      | none => [{ reason := 4, noun := nPLOTMAP, word := n + 1 }]
      | some (none, e) => failIf (e < last) 4 nPLOTMAP (n + 1)
      | some (some sl, e) =>
        let m := 4 + 4 * sl
        let kind := bits (c.w (nCSP 8) m) 0 2
        failIf (e < last || !bitAt (c.w (nCSP 8) m) 5
          || 256 * bits (c.w (nCSP 8) (m + 3)) 16 9 < last - (0x20000 + 0x10000 * sl)
          || g.holding == 1 || g.holding == 2 || (g.write && kind == 1)) 4 nPLOTMAP (n + 1))
    ++ failIf (g.phys < 0x40 || hitsPool) 9 nPLOTMAP (n + 1)

def checkPlotmap (c : CheckCtx) : List Failure :=
  let w := c.w
  let base := w nPLOTMAP 1
  let body := ceilDiv c.layout.bodySize 4096 * 4096
  let capture := (plotRuns base body).all fun (a, _, _) =>
    match plotOf w 1 (a / 4096), plotOf w 2 (a / 4096) with
    | some (p, _, w1), some (q, r2, _) => w1 && r2 && p == q
    | _, _ => false
  let plots (h r : Nat) := (List.range r).foldl (fun t i =>
    let g := regionOf w i
    if g.holding == h then t + g.count else t) 0
  let tooMany (r : Nat) :=
    let h := (regionOf w r).holding
    (h == 1 || h == 2) && plots h r ≤ 256 && 256 < plots h (r + 1)
  failIf (bits (w nPLOTMAP 0) 24 6 != bits (c.s.reg nPLOTMAP 0) 24 6 && c.s.mem.pool.any fun p => p.2 != 0) 4 nPLOTMAP 0
  ++ failIf (!capture) 4 nPLOTMAP 1
  ++ (List.range 64).flatMap (checkRegion c)
  ++ (List.range 64).flatMap fun r => failIf (tooMany r) 4 nPLOTMAP (34 + 3 * r)

/-! ### USB and hub (09 R307, R315, R333) -/

/-- The fields of stream e (0 for EP4, 1 for EP5) in a set (Table US-6), with its range over a layout (R308,
R309). -/
structure StreamCfg where
  enable : Bool
  stack : Bool
  every : Nat
  chunks : Nat
  offset : Nat
  length : Nat
  k : Nat
  deriving DecidableEq, Repr

/-- Body offset of the first member block, if the layout has one. -/
def stackStart (l : Layout) : Option Nat := (l.fields.find? fun f => f.device != 0).map (·.offset)

def streamCfg (w : Words) (legacy : Bool) (l : Layout) (e : Nat) : StreamCfg :=
  let x := w nUSB (4 + 4 * e)
  let hs := headerSize legacy
  let len := bits (w nUSB (6 + 4 * e)) 0 17
  let off := bits (w nUSB (5 + 4 * e)) 0 17
  let stack := bitAt x 1 && e == 1
  let off' := if stack then hs + (stackStart l).getD l.bodySize else off
  let s := if stack then hs + l.bodySize - off' else if len = 0 then hs + l.bodySize - off else len
  let c := max 1 (bits x 10 3)
  { enable := bitAt x 0, stack := bitAt x 1, every := max 1 (bits x 2 8), chunks := c, offset := off', length := s,
    k := ceilDiv (ceilDiv s c) 8 * 8 }

/-- Granules that a stream needs (Table US-3). -/
def streamNeed (c : StreamCfg) : Nat := if c.enable then 2 * ceilDiv (c.length + 16 * c.chunks) 512 else 0

/-- The pool once stream e (0 for EP4, 1 for EP5) holds the granules it needs: a larger allocation takes the lowest free run in
place of the old one; none where no run is long enough (09 R307). -/
def carveStream (pool : List (Nat × Nat)) (e need : Nat) : Option (List (Nat × Nat)) :=
  if need ≤ (nth (0, 0) pool (3 + e)).2 then some pool
  else (lowestRun pool need).map fun g => updAt pool (3 + e) fun _ => (g, need)

/-- The pool once both streams hold what they need, EP4 carved first: EP5 takes its run from what that leaves. -/
def carveStreams (pool : List (Nat × Nat)) (need4 need5 : Nat) : Option (List (Nat × Nat)) :=
  (carveStream pool 0 need4).bind (carveStream · 1 need5)

def checkUsb (c : CheckCtx) : List Failure :=
  let need (e : Nat) := streamNeed (streamCfg c.w c.s.boot.legacy c.layout e)
  let noPool := bits (c.w nPLOTMAP 0) 24 6 == 0
  let short (e : Nat) : Bool := (nth (0, 0) c.s.mem.pool (3 + e)).2 < need e
    && (noPool || (if e = 0 then (carveStream c.s.mem.pool 0 (need 0)).isNone
      else (carveStream ((carveStream c.s.mem.pool 0 (need 0)).getD c.s.mem.pool) 1 (need 1)).isNone))
  (List.range 2).flatMap fun e =>
    let f := streamCfg c.w c.s.boot.legacy c.layout e
    let n := 4 + 4 * e
    let m := wordsPeriod c.w * f.every / 15000
    if !f.enable then []
    else
      failIf (f.stack && e == 1 && !c.s.isLead) 6 nUSB n
      ++ failIf (f.stack && e == 0) 4 nUSB n
      ++ failIf (m < f.chunks) 4 nUSB n
      ++ failIf ((if e = 0 then 3072 else 2048) < 16 + f.k) 4 nUSB n
      ++ failIf (1 < f.chunks && f.length ≤ (f.chunks - 1) * f.k) 4 nUSB n
      ++ failIf (short e) 4 nUSB n
      ++ failIf (f.offset % 8 != 0 || c.sheafBytes < f.offset + f.length) 4 nUSB (n + 1)

def checkHub (c : CheckCtx) : List Failure :=
  if !c.s.boot.gang then []
  else (List.range 3).flatMap fun k =>
    failIf (bitAt (c.w (nHUBPORT (k + 2)) 0) 0 != bitAt (c.w (nHUBPORT 1) 0) 0) 4 (nHUBPORT (k + 2)) 0

/-! ### Yoke (10 R340, R371, R372, R376) -/

/-- Ticks as nanoseconds, and the ticks that a number of nanoseconds holds (10 R343). -/
def ticksNs (t : Nat) : Nat := t * 25 / 3
def nsTicks (ns : Nat) : Nat := ns * 12 / 100

/-- The slots of a plan: (position, start s_k, length), in descending position (R340). -/
def planSlots (l balk : Nat) (plan : List (Nat × Nat)) : List (Nat × Nat × Nat) :=
  (plan.foldr (fun (k, bytes) (acc, next) =>
    let len := (bytes + 94) * 100
    let start := match next with
      | none => l - 1000 - len
      | some n => n - balk - len
    (acc ++ [(k, start, len)], some start)) (([] : List (Nat × Nat × Nat)), (none : Option Nat))).1

/-- The planned positions of a set with their slot_bytes. -/
def planOf (w : Words) : List (Nat × Nat) :=
  (((List.range 7).map (· + 1)).filter fun k => bitAt (w nYOKE 0) (15 + k)).map fun k => (k, bits (w nYOKE (13 + 4 * (k - 1))) 0 13)

/-- The balk in ns. -/
def balkOf (w : Words) : Nat := 10 * bits (w nYOKE 0) 2 8

/-- The instant at which the join window opens, as far as it lies after the capture line (R340). -/
def joinOpen (w : Words) : Nat :=
  let l := ticksNs (limitOf w)
  let stop := match (planSlots l (balkOf w) (planOf w)).getLast? with
    | some (_, s, _) => s - balkOf w
    | none => l - 1000
  stop - 12000

/-- A member's need: the latest worst_case_end, plus A, plus 24 (Table YK-4). -/
def needOf (w : Words) (l : Layout) : Nat :=
  (List.range 9).foldl (fun m f => max m (worstEndOf w f)) 0 + assemblyTicks l + 24

/-- Slot start that a grant gives a position. -/
def grantStart (g : Grant) (k : Nat) : Nat := (nth (0, 0) g.slots (k - 1)).1

/-- Transmit time in ticks of a member under a grant: floor(0.12 × (s_k − D_k)). -/
def transmitTicks (g : Grant) (k delayQ : Nat) : Nat := (4 * grantStart g k - delayQ) * 3 / 100

def checkYoke (c : CheckCtx) : List Failure :=
  if c.s.boot.legacy then []
  else if c.s.isMember then
    let k := c.s.yoke.position
    let need := needOf c.w c.layout
    let tooShort (g : Option Grant) := match g with
      | some g => let t := transmitTicks g k c.s.yoke.delayQ
                  if t < need then [{ reason := 2, noun := nYOKE, word := 0, required := need, available := t : Failure }] else []
      | none => []
    failIf (bits (c.w nYOKE 0) 16 7 != 0) 4 nYOKE 0
    ++ (if k = 0xFF then [] else tooShort c.s.yoke.applied ++ tooShort c.s.yoke.grant)
    ++ failIf (!setMapped c.w 4 (c.w nSHEAF 1) (8 * c.w nSHEAF 2) fun r _ => r) 4 nYOKE 1
  else
    let plan := planOf c.w
    let slots := planSlots (ticksNs (limitOf c.w)) (balkOf c.w) plan
    let open' := joinOpen c.w
    (if open' < 4000 then
      [{ reason := 2, noun := nYOKE, word := 0, required := 480, available := nsTicks open' }] else [])
    ++ failIf (!plan.isEmpty && !bitAt (c.w nYOKE 0) 0) 4 nYOKE 0
    ++ failIf (plan.any fun (k, _) =>
        let v := c.w nYOKE 1 + (k - 1) * 8192
        !((plotRuns v 8192).all fun (a, _, _) =>
          match plotOf c.w 4 (a / 4096), plotOf c.w 2 (a / 4096) with
          | some (p, _, w4), some (q, r2, _) => w4 && r2 && p == q
          | _, _ => false)) 4 nYOKE 1
    ++ plan.flatMap fun (k, bytes) =>
      let m := 12 + 4 * (k - 1)
      let pos := nth {} c.s.yoke.positions (k - 1)
      let start := match slots.find? (·.1 == k) with | some (_, s, _) => s | none => 0
      let t := (4 * start - pos.delayQ) * 3 / 100
      failIf (c.w nYOKE m != 0 && (match pos.cached with | none => true | some l => bytes < l.bodySize)) 4 nYOKE m
      ++ (if (pos.state == 3 || pos.state == 4) && t < pos.need then
          [{ reason := 2, noun := nYOKE, word := m + 1, required := pos.need, available := t }] else [])

/-! ### Thresher (08 R263, R290, R298) -/

/-- The bit length of a number below 2^64. -/
def bitLength (q : Nat) : Nat := if q = 0 then 0 else Nat.log2 q + 1

/-- Two words as a 64-bit value. -/
def pair64 (w : Words) (n m : Nat) : Nat := w n m + 2 ^ 32 * w n (m + 1)

/-- Whether a valid limb entry's q, q′, μ and check word agree (R263). -/
def limbOk (w : Words) (l : Nat) : Bool :=
  let m := 16 + 8 * l
  let q := pair64 w nTHRESHER m
  let q' := pair64 w nTHRESHER (m + 2)
  let mu := pair64 w nTHRESHER (m + 4)
  q % 2 == 1 && 2 ^ 30 ≤ q && q < 2 ^ 60 && (q * q' + 1) % 2 ^ 64 == 0 && mu == 2 ^ (2 * bitLength q) / q
    && w nTHRESHER (m + 7) == crc32 ((List.range 7).flatMap fun i => leBytes 4 (w nTHRESHER (m + i)))

/-- Limb table indexes that a RING object in memory names (08 R264). -/
def ringLimbs (s : State) (n : Nat) (o : Obj) : List Nat :=
  (List.range o.limbs).map fun i => ofLe (s.virtRead (6 + n) (o.vaddr + 68 + 16 * i) 1)

/-- Limb entries named by loaded RING objects. -/
def State.limbsInUse (s : State) : List Nat :=
  (List.range 4).flatMap fun n => ((nth {} s.thr.ctxs n).objects.filter fun o => o.type == 1 && o.complete).flatMap (ringLimbs s n)

def checkThresher (c : CheckCtx) : List Failure :=
  if c.s.boot.legacy then []
  else
    let used := c.s.limbsInUse
    (List.range 32).flatMap (fun l =>
      let m := 16 + 8 * l
      let changed := (List.range 8).any fun i => c.w nTHRESHER (m + i) != c.s.reg nTHRESHER (m + i)
      failIf ((bitAt (c.w nTHRESHER (m + 6)) 0 && !limbOk c.w l) || (changed && used.contains l)) 5 nTHRESHER m)
    ++ (List.range 4).flatMap fun n =>
      let h := 6 + n
      let x := nTHRCTX n
      let inUse := (List.range 64).any fun r => let g := regionOf c.w r; g.count != 0 && g.holding == h
      let busy := (nth {} c.s.thr.ctxs n).job.isSome
      failIf (busy && c.w x 1 != c.s.reg x 1) 4 x 1
      ++ failIf (inUse && !setMapped c.w h (c.w x 1) 2048 fun r wr => r && wr) 4 x 1
      ++ failIf (busy && (c.w x 2 != c.s.reg x 2 || bitAt (c.w x 3) 0 != c.s.flag x 3 0)) 4 x 2
      ++ failIf (bitAt (c.w x 3) 0 && !setMapped c.w h (c.w x 2) (8 * c.w nSHEAF 2) fun r _ => r) 4 x 2

/-! ### The whole set -/

/-- Every failed check of a set, before they are put in order. Of several that fail at one noun and word the first of this list
is reported, since R75 orders nouns and words alone: the model's choice (DESIGN CHOICE, log 93). -/
def allFailures (c : CheckCtx) : List Failure :=
  checkClock c ++ checkPeriod c ++ checkStopped c
  ++ (List.range 8).flatMap (checkPort c)
  ++ (List.range 24).flatMap (checkSent c)
  ++ (List.range 4).flatMap (checkEdge c)
  ++ checkTwt c ++ checkUsb c ++ checkHub c ++ checkYoke c
  ++ checkTypes c ++ (List.range 9).flatMap (checkFurrow c)
  ++ checkSheaf c ++ checkThresher c ++ checkPlotmap c

/-- The first failure in ascending order of noun ID and then of word offset (02 R75). -/
def firstFailure (l : List Failure) : Option Failure :=
  l.foldl (fun b f => match b with
    | none => some f
    | some g => if f.noun < g.noun || (f.noun == g.noun && f.word < g.word) then some f else b) none

/-- The words of a shadow's or a legacy write's set: its touched words over the applied set. -/
def State.wordsWith (s : State) (words : Tab) (touched : List Nat) : Words := fun n w =>
  let k := regKey n w
  if touched.contains k then Tab.get resetWord words k else s.reg n w

/-- The cached layout of each position. -/
def State.cachedOf (s : State) (k : Nat) : Option Layout := (nth {} s.yoke.positions (k - 1)).cached

/-- The layout that a set gives, replacing the layout in force. -/
def State.layoutFor (s : State) (w : Words) : Layout :=
  newLayout s.boot.legacy s.sheaf.layout w s.isLead s.cachedOf

/-- The first failed check of a set (02 R75). -/
def State.checkSet (s : State) (w : Words) (loose : Bool) : Option Failure :=
  firstFailure (allFailures { w, s, layout := s.layoutFor w, loose })

end Sys2Proof.Machine
end

