-- ==== Sys2Proof/Machine/Nouns.lean ====
section
/-! DEFINITION. What a read of a noun's word returns: the read-only fields computed from the state, joined with
the applied or staged configuration bits and the counters (the noun tables of 02, 04 to 11, 13 and 14). -/

namespace Sys2Proof.Machine

/-! ### Power domains (11 Table PW-3, R398, Table PW-4) -/

/-- DOZE gating is in force: doze_enable is 1 and no WAKE op 1 holds the domains on (R399, R427). -/
def State.dozing (s : State) : Bool := s.flag nPOWER 0 2 && (match s.pw.hold with | some t => t ≤ s.tm.now | none => true)

/-- A latch-guarded chain is held on some port (04 R131). -/
def State.chainHeld (s : State) : Bool := s.csp.any fun p => p.chain.isSome

/-- Whether Table PW-4 gates a domain now. -/
def State.gated (s : State) (d : Nat) : Bool :=
  s.dozing &&
  (if d == 2 || d == 3 then s.drill.mode == 0 && !s.chainHeld
   else if 70 ≤ d && d ≤ 77 then s.flag (nCSP (d - 70)) 0 0 && !s.flag (nCSP (d - 70)) 0 1 && entryCount s.reg (d - 70) == 0
   else if d == 78 then s.pw.csp8Gated
   else if 109 ≤ d && d ≤ 111 then s.flag nUSB 0 0 && (s.usb.suspended || !s.usb.vbus)
   else if 112 ≤ d && d ≤ 115 then s.flag nUSB 0 0 && !(nth {} s.usb.ports (d - 112)).ppe
   else if d == 117 then s.flag nYOKE 0 0 && s.pw.dnRxIdle
   else if 120 ≤ d && d ≤ 151 then s.flag nTHRESHER 0 0 && s.thr.gated
   else false)

/-- Whether the applied set enables the unit of a domain, and the clock runs (R398; 12 Table CK-2, R442). -/
def State.enabledDomain (s : State) (d : Nat) : Bool :=
  if d ≤ 5 || d == 78 || d == 107 then true
  else if d ≤ 69 then (nth {} s.mem.banks (d - 6)).state == .on
  else if d ≤ 77 then s.flag (nCSP (d - 70)) 0 0 && !s.lev.fail.rc
  else if d ≤ 102 then s.flag (nSENT (d - 79)) 0 0 && !s.lev.fail.rc
  else if d ≤ 106 then s.fld (nEDGE (d - 103)) 0 0 8 != 0
  else if d == 108 then s.flag (nTWT 1) 0 0
  else if d ≤ 115 then s.flag nUSB 0 0 && !s.lev.fail.rc
  else if d ≤ 117 then !s.boot.legacy && s.flag nYOKE 0 0
  else if d ≤ 151 then !s.boot.legacy && s.flag nTHRESHER 0 0 && !s.lev.fail.rc
  else true

/-- Whether a domain is powered. -/
def State.domainOn (s : State) (d : Nat) : Bool := s.enabledDomain d && !s.gated d

/-- domain_on as 154 bits (Table PW-11). -/
def State.domains (s : State) : Nat := ofLsb ((List.range 154).map s.domainOn)

/-- power_state reads DOZE while at least one domain is gated by Table PW-4 or by auto_gate (R399). -/
def State.inDoze (s : State) : Bool :=
  (List.range 154).any (fun d => s.enabledDomain d && s.gated d) || s.mem.banks.any fun b => b.state == .retained

/-- A bit map over the 64 banks. -/
def State.bankMap (s : State) (p : Bank → Bool) : Nat := ofLsb (s.mem.banks.map p)

/-! ### The first-fault zone (13 R469, R475) -/

/-- The 64 bytes at an Almanac address. -/
def almSlot (m : Memory) (a : Nat) : List Byte := Memory.readList almEmpty m a 64

/-- The sequence of a slot. -/
def slotSeq (b : List Byte) : Nat := leAt b 4 4

/-- Whether a slot is valid: its CRC matches and its sequence is neither 0 nor 0xFFFFFFFF (R469). -/
def slotValid (b : List Byte) : Bool :=
  let q := slotSeq b
  q != 0 && q != 0xFFFFFFFF && leAt b 60 4 == crc32 (b.take 60)

/-- Whether a slot is blank: all 0x00 or all 0xFF. -/
def slotBlank (b : List Byte) : Bool := b.all (· == 0) || b.all (· == 0xFF)

/-- Sequence numbers compared modulo 2^32 (R470): a is before b. -/
def seqBefore (a b : Nat) : Bool := let d := (b + 2 ^ 32 - a) % 2 ^ 32; 0 < d && d < 2 ^ 31

/-- Address of a slot of a region: 1 first-fault zone, 2 ring, 3 backup-alarm area (Table AL-1). -/
def slotAddr (region i : Nat) : Nat := (match region with | 1 => 0x01000 | 2 => 0x05000 | _ => 0x3D000) + 64 * i

/-- Slots of a region. -/
def regionSlots (region : Nat) : Nat := match region with | 1 => 256 | 2 => 3584 | 3 => 128 | _ => 64

/-- Number of a slot in the bad-slot bitmap (R555). -/
def badIndex (region i : Nat) : Nat := match region with | 1 => i | 2 => 256 + i | _ => 3840 + i

/-- Whether slot i of the first-fault zone counts: valid, and not below clear_sequence (R480). -/
def firstSlotUsed (a : Alm) (i : Nat) : Bool :=
  let b := almSlot a.bytes (slotAddr 1 i)
  slotValid b && !(a.clearSeq != 0 && seqBefore (slotSeq b) a.clearSeq)

/-- first_used (Table AL-5). -/
def firstUsed (a : Alm) : Nat := ((List.range 256).filter (firstSlotUsed a)).length

/-! ### Words of each noun -/

/-- The steward firmware runs, rather than the boot ROM (06 Table SE-8, firmware version). -/
def State.firmwareRuns (s : State) : Bool := s.boot.phase == .verified || s.ready

/-- The framing that the applied set selects: v2 in native mode, in legacy mode by compat (01 R47). -/
def State.framing (s : State) : Bool := !s.boot.legacy || s.fld nSYS 14 0 2 == 2

/-- SYS W1: the firmware version, 0 while the boot ROM runs. -/
def State.fwWord (s : State) : Nat := if s.firmwareRuns then s.boot.fwVersion else 0

/-- The version as the byte structures give it: major, minor, patch. -/
def State.fwBytes (s : State) : List Byte := leBytes 1 (bits s.fwWord 16 8) ++ leBytes 1 (bits s.fwWord 8 8) ++ leBytes 1 (bits s.fwWord 0 8)

def roSYS (s : State) (w : Nat) : Nat :=
  match w with
  | 0 => 0x6440 + 65536 * s.boot.silicon
  | 1 => s.fwWord
  | 2 => s.lev.level + 4 * b2n s.boot.legacy + 8 * b2n (s.boot.phase == .romService) + 16 * b2n s.boot.service
      + 32 * b2n s.boot.testEn + 64 * b2n s.boot.ykLead + 128 * b2n s.hw.sealed + 256 * b2n s.mb.v2
  | 3 => s.boot.cause
  | 4 => s.boot.bootCount
  | 5 => s.mb.epoch
  | 6 => b2n s.mb.shadow.isSome + 2 * (match s.mb.shadow with | some h => h.owner.val | none => 0) + 8 * b2n s.mb.commit.isSome
  | 7 => s.sheaf.layout.id
  | 8 => bits s.tm.now 0 32
  | 9 => bits s.tm.now 32 32
  | 10 => bits s.tm.period 0 32
  | 11 => bits s.tm.period 32 16
  | _ => 0

def roCLOCK (s : State) (w : Nat) : Nat :=
  match w with
  | 1 => s.clk.active + 4 * b2n (s.clk.locked && s.clk.holdover.isNone) + 8 * b2n s.clk.xtalOk + 16 * b2n s.clk.refinOk + 32 * b2n s.clk.yokeOk
  | 3 => ofSigned 16 s.clk.aonOffset
  | _ => 0

def roPERIOD (s : State) (w : Nat) : Nat :=
  match w with
  | 2 => s.periodTicks
  | 3 => s.drill.mode + 4 * b2n s.chainHeld + 8 * b2n s.tm.freeRun
  | _ => 0

/-- Index of a furrow noun, FURROW24 being 8; FURROW8 takes no entries. -/
def furrowIx (n : Nat) : Option Nat := if n == nFURROW 24 then some 8 else if n - nFURROW 0 < 8 then some (n - nFURROW 0) else none

def roFURROW (s : State) (n w : Nat) : Nat :=
  match furrowIx n with
  | none => 0
  | some f =>
    if w == 1 then nth 0 s.drill.worstEnd f
    else if w == 2 then nth 0 s.drill.minSlack f
    else if 8 ≤ w && (w - 8) % 4 == 3 then
      let e := nth {} s.drill.entries (entIx f ((w - 8) / 4))
      e.lastEnd % 2 ^ 23 + 2 ^ 23 * e.lastOutcome
    else 0

/-- The selects that a held chain keeps asserted (04 R131). -/
def CspPort.held (c : CspPort) : Nat := c.chain.elim 0 (·.selects)

/-- The selects asserted at an instant: those of an aborted frame until their release (04 R129). -/
def CspPort.selectsAt (c : CspPort) (now : Nat) : Nat := if c.releaseAt.any (· ≤ now) then c.held else c.selects

/-- port_state of Table CS-3. -/
def State.portState (s : State) (k : Nat) : Nat :=
  let p := nth {} s.csp k
  let recovering := match p.chain with
    | some c => c.since.isSome
    | none => false
  if p.fence.isSome then 3
  else if !s.cspOn k then 0
  else if p.active.isSome || p.slave.isSome || recovering then 2 else 1

def roCSP (s : State) (k w : Nat) : Nat :=
  let p := nth {} s.csp k
  if w == 1 then s.portState k + 4 * p.selectsAt s.tm.now + 64 * b2n p.chain.isSome + 128 * b2n p.underrun else 0

def roCSP8 (s : State) (w : Nat) : Nat :=
  if w == 1 then b2n (nth none s.csp8.busy 0).isSome + 2 * b2n (nth none s.csp8.busy 1).isSome + 4 * b2n s.csp8.fence.isSome else 0

def roSENT (s : State) (c w : Nat) : Nat :=
  let x := nth {} s.sent c
  if w == 4 then
    (if x.fence.isSome then 3 else if !s.sentOn c then 0 else if x.locked then 2 else 1) + 4 * b2n x.absent + 65536 * x.cal
  else 0

def roEDGE (s : State) (b w : Nat) : Nat :=
  if w == 1 then
    let lv := ofLsb ((List.range 8).map fun k => (nth {} s.edge (8 * b + k)).level && bitAt (s.reg (nEDGE b) 0) k)
    (if (nth {} s.banks b).fence.isSome then 3 else if s.edgeBankOn b then 1 else 0) + 256 * lv
  else 0

def roTWT0 (s : State) (w : Nat) : Nat := if w == 0 then 1 + 16 * (0x48 + s.boot.twa) else 0

/-- VBUS_DET after its debounce of 2 ms (09 R303, R332; log 52). -/
def State.vbusPresent (s : State) : Bool := s.usb.vbus && decide (s.usb.vbusSince + ticksMs 2 ≤ s.tm.now)

/-- The capacity of an alternate setting (09 Table US-2). -/
def altCapacity (alt : Nat) : Nat := 1024 * alt

/-- Stream e under the applied set and the layout in force. -/
def State.streamCfg (s : State) (e : Nat) : StreamCfg := Machine.streamCfg s.reg s.boot.legacy s.sheaf.layout e

/-- too_small of a stream: the transfers of the delivery in progress, or of those to come, exceed the setting that the host selected
(09 R314). -/
def State.tooSmall (s : State) (e : Nat) : Bool :=
  let x := nth {} s.usb.streams e
  let c := s.streamCfg e
  let k := match x.sending, x.waiting with
    | some (d, _), _ => some d.k
    | none, some d => some d.k
    | none, none => if c.enable then some c.k else none
  x.alt != 0 && k.any fun k => decide (altCapacity x.alt < 16 + k)

def roUSB (s : State) (w : Nat) : Nat :=
  if w == 1 then
    (if s.usb.fence.isSome then 6 else s.usb.state) + 8 * s.usb.speed + 32 * (nth {} s.usb.streams 0).alt + 128 * (nth {} s.usb.streams 1).alt
      + 512 * b2n s.usb.remoteWake + 1024 * b2n s.vbusPresent + 2048 * b2n (s.tooSmall 0) + 4096 * b2n (s.tooSmall 1)
  else 0

def roHUB (s : State) (p w : Nat) : Nat :=
  let x := nth {} s.usb.ports p
  if w == 1 then (if x.fence.isSome then 6 else x.state) + 8 * x.speed + 32 * b2n x.oci + 64 * b2n x.ppe else 0

/-- Positions whose member is joined, with its layout agreed or not (Table YK-10). -/
def State.joined (s : State) : List Nat :=
  ((List.range 7).map (· + 1)).filter fun k => let st := (nth {} s.yoke.positions (k - 1)).state; st == 3 || st == 4

/-- link_state of Table YK-10. -/
def State.linkState (s : State) : Nat :=
  if !s.flag nYOKE 0 0 then 0
  else if s.yoke.fence.isSome then 7
  else if s.isLead then
    let agreement := match s.pw.fallow with
      | some f => f.proposal.isSome
      | none => false
    if agreement then 8 else if s.joined.isEmpty then 1 else 2
  else if s.yoke.agreed.isSome then 8 else s.yoke.linkState

/-- own_deadline: L_k of a joined member. -/
def State.ownDeadline (s : State) : Nat := (memberLimit s.yoke s.sheaf.layout).getD 0

def roYOKE (s : State) (w : Nat) : Nat :=
  if w == 2 then
    b2n (!s.boot.ykLead) + 16 * s.linkState + 256 * (if s.isLead then 0 else s.yoke.position) + 65536 * s.joined.length
  else if w == 3 then s.ownDeadline
  else if w == 4 then (if s.isMember then s.yoke.delayQ else 0)
  else if w == 5 then (if s.isMember then needOf s.reg s.sheaf.layout else 0)
  else if 12 ≤ w && (w - 12) % 4 == 2 then
    let p := nth {} s.yoke.positions ((w - 12) / 4)
    p.state + 65536 * (p.delayQ / 4)
  else if 12 ≤ w && (w - 12) % 4 == 3 then ofSigned 16 (nth {} s.yoke.positions ((w - 12) / 4)).lastOffset
  else 0

def roSHEAF (s : State) (w : Nat) : Nat :=
  let l := s.sheaf.layout
  match w with
  | 0 => s.sheaf.index + 8 * b2n s.sheaf.any
  | 3 => l.bodySize
  | 4 => l.fields.length + 65536 * headerSize s.boot.legacy + 16777216 * (if s.boot.legacy then 1 else 2)
  | 5 => l.id
  | 6 => bits s.sheaf.lastPeriod 0 32
  | 7 => bits s.sheaf.lastPeriod 32 16
  | 8 => s.sheaf.ticks
  | _ => 0

/-- Limb tables of the twiddle store in use over all loaded rings (08 R264). -/
def State.twiddleUsed (s : State) : Nat :=
  s.thr.ctxs.foldl (fun t c => (c.objects.filter fun o => o.type == 1 && o.complete).foldl (fun t o => t + o.limbs) t) 0

def roTHRESHER (s : State) (w : Nat) : Nat :=
  if w == 1 then
    (if !s.flag nTHRESHER 0 0 then 0 else if s.thr.fence.isSome then 3 else if s.thr.running.isSome then 2 else 1)
      + 4 * s.thr.running.getD 7 + 256 * (128 - s.twiddleUsed)
  else 0

def roTHRCTX (s : State) (n w : Nat) : Nat :=
  let c := nth {} s.thr.ctxs n
  match w with
  | 4 => (if c.fence.isSome || s.thr.fence.isSome then 7 else c.state) + 256 * c.instr
  | 5 => c.jobNumber
  | 6 => c.done
  | 7 => c.skipped
  | 8 => c.overruns
  | 9 => c.poolLeft + 65536 * (c.objects.filter (·.complete)).length
  | _ => 0

def roALMANAC (s : State) (w : Nat) : Nat :=
  match w with
  | 1 => s.alm.nextSeq
  | 2 => s.alm.ringNext + 4096 * firstUsed s.alm + 2097152 * b2n s.alm.firstFull + 4194304 * b2n s.alm.scanDone
  | 3 => s.alm.clearSeq
  | 4 => s.alm.backupReported
  | 7 => s.alm.bad.length
  | _ => 0

/-- Consents still open: opened less than 1 000 ms ago (14 R497). -/
def State.openConsents (s : State) : List Consent := s.hw.consents.filter fun c => s.tm.now < c.at' + ticksMs 1000

def roHARROW (s : State) (w : Nat) : Nat :=
  if w == 0 then b2n s.boot.testEn + 2 * b2n s.hw.sealed + 4 * ofLsb (s.hw.episodes.map (·.state == 2))
  else if w == 1 then
    match s.openConsents.getLast? with
    | some c => 1 + 2 * c.ch.val + 65536 * c.id
    | none => 0
  else if 8 ≤ w then
    let p := nth {} s.hw.episodes ((w - 8) / 12)
    match (w - 8) % 12 with
    | 8 => p.state + 4 * p.endReason + 64 * b2n p.consented + 128 * p.startedBy
    | 10 => bits p.lastPeriod 0 32
    | 11 => bits p.lastPeriod 32 16
    | _ => 0
  else 0

def roPOWER (s : State) (w : Nat) : Nat :=
  match w with
  | 0 => b2n s.inDoze + 16 * b2n s.pw.prsntHigh
  | 1 => s.pw.vin10mv + 65536 * s.pw.vsysMv
  | 2 => s.pw.vbakMv + 65536 * s.pw.vresMv
  | 3 => ofLsb s.pw.vddioOk + 16 * ofLsb s.pw.vddio1v8 + 256 * b2n s.pw.vinLow + 512 * b2n s.pw.vinHigh
      + 1024 * b2n s.pw.overload + 2048 * b2n s.pw.rtcValid + 4096 * b2n s.pw.cellLow + 8192 * s.pw.resumedFrom
      + 32768 * s.pw.lastWake
  | 4 | 5 | 6 | 7 | 8 => bits s.domains (32 * (w - 4)) 32
  | 12 => bits s.rtcNow 0 32
  | 13 => bits s.rtcNow 32 32
  | _ => 0

def roPLOTMAP (s : State) (w : Nat) : Nat :=
  let m := s.mem
  match w with
  | 4 => bits (s.bankMap (·.state == .on)) 0 32
  | 5 => bits (s.bankMap (·.state == .on)) 32 32
  | 6 => bits (s.bankMap (·.state == .retained)) 0 32
  | 7 => bits (s.bankMap (·.state == .retained)) 32 32
  | 8 => bits (s.bankMap (·.failed)) 0 32
  | 9 => bits (s.bankMap (·.failed)) 32 32
  | 13 => m.lastHolding + 16 * m.lastKind + 128 * b2n m.lastResolved + 256 * m.lastAttempts + 1024 * b2n m.lastLost
  | 14 => m.lastVaddr
  | 15 => bits m.lastTime 0 32
  | 16 => bits m.lastTime 32 32
  | 17 => freeGranules m.pool + 65536 * largestRun m.pool
  | 18 | 19 | 20 | 21 | 22 | 23 => (nth (0, 0) m.pool (w - 18)).1 + 65536 * (nth (0, 0) m.pool (w - 18)).2
  | _ => 0

/-- The read-only, fixed and W1C bits of a word. -/
def State.roWord (s : State) (n w : Nat) : Nat :=
  if n == nSYS then roSYS s w
  else if n == nCLOCK then roCLOCK s w
  else if n == nPERIOD then roPERIOD s w
  else if nCSP 0 ≤ n && n ≤ nCSP 7 then roCSP s (n - nCSP 0) w
  else if n == nCSP 8 then roCSP8 s w
  else if nSENT 0 ≤ n && n ≤ nSENT 23 then roSENT s (n - nSENT 0) w
  else if nEDGE 0 ≤ n && n ≤ nEDGE 3 then roEDGE s (n - nEDGE 0) w
  else if n == nTWT 0 then roTWT0 s w
  else if n == nUSB then roUSB s w
  else if nHUBPORT 1 ≤ n && n ≤ nHUBPORT 4 then roHUB s (n - nHUBPORT 1) w
  else if n == nYOKE then roYOKE s w
  else if nFURROW 0 ≤ n && n ≤ nFURROW 24 then roFURROW s n w
  else if n == nSHEAF then roSHEAF s w
  else if n == nTHRESHER then roTHRESHER s w
  else if nTHRCTX 0 ≤ n && n ≤ nTHRCTX 3 then roTHRCTX s (n - nTHRCTX 0) w
  else if n == nALMANAC then roALMANAC s w
  else if n == nHARROW then roHARROW s w
  else if n == nPOWER then roPOWER s w
  else if n == nEVENTS then (if w == 0 then bits s.ev.pending 0 32 else if w == 1 then bits s.ev.pending 32 32 else 0)
  else if n == nPLOTMAP then roPLOTMAP s w
  else 0

/-- The counters of a word, each at its place (counters of access code RC). -/
def State.rcWord (s : State) (n : Noun) (w : Nat) : Nat :=
  (wordFields n w).foldl (fun t (f, lo, wd, _) => if f.acc == .rc then t + place (s.count n.id w lo) lo wd else t) 0

/-- The configuration bits of a word as GET returns them. compat reads 0b10 in native mode (Table MB-11); the
address fields of TWT0 are read-only; under the staged view the shadow's words are read (02 Table MB-3). -/
def State.cfgWord (s : State) (n w : Nat) (staged : Bool) : Nat :=
  if n == nSYS && w == 14 && !s.boot.legacy then 2
  else match s.mb.shadow, staged with
    | some h, true => if h.touched.contains (regKey n w) then Tab.get resetWord h.words (regKey n w) else s.reg n w
    | _, _ => s.reg n w

/-- A word of a noun as GET returns it: the configuration word gives its RWS and RW bits alone, and reserved bits read zero
(00 R9, R11). -/
def State.getWord (s : State) (n : Noun) (w : Nat) (staged : Bool) : Nat :=
  ((s.cfgWord n.id w staged &&& (accMask n w [.rws, .rw] &&& (0xFFFFFFFF ^^^ reservedBits n.id w)))
    ||| s.roWord n.id w ||| s.rcWord n w) % 2 ^ 32

/-- Whether a word holds part of an RC field (02 R61). -/
def hasRc (n : Noun) (w : Nat) : Bool := (wordFields n w).any fun (f, _, _, _) => f.acc == .rc

/-- The RC fields of a word cleared by the read that returned them (00 Table SC-4). -/
def State.clearRc (s : State) (n : Noun) (w : Nat) : State :=
  (wordFields n w).foldl (fun s (f, lo, _, _) => if f.acc == .rc then s.clearCount n.id w lo else s) s

end Sys2Proof.Machine
end

