-- ==== Sys2Proof/Machine/ThrOps.lean ====
section
/-! DEFINITION. Operations of the Thresher that several families share: objects in a context's holding, scheduling,
and the end of a job (08 R259 to R262, R274, R283 to R295). -/

namespace Sys2Proof.Machine

/-- The state of context n. -/
def State.ctx (s : State) (n : Nat) : Ctx := nth {} s.thr.ctxs n

/-- An object of a context. -/
def Ctx.obj (c : Ctx) (id : Nat) : Option Obj := c.objects.find? (·.id == id)

/-- A complete object of a context. -/
def Ctx.loaded (c : Ctx) (id : Nat) : Option Obj := (c.obj id).filter (·.complete)

/-- An object put in place of the one under its ID. -/
def State.putObj (s : State) (n : Nat) (o : Obj) : State :=
  s.modCtx n fun c => { c with objects := c.objects.filter (·.id != o.id) ++ [o] }

/-- An object removed, and its ID freed. -/
def State.dropObj (s : State) (n id : Nat) : State := s.modCtx n fun c => { c with objects := c.objects.filter (·.id != id) }

/-- Object bytes, from its header on. -/
def State.objBytes (s : State) (n : Nat) (o : Obj) (off len : Nat) : List Byte := s.virtRead (6 + n) (o.vaddr + off) len

/-! ### Rings and words (R261, R264) -/

/-- log2 n of a RING object. -/
def State.ringLog (s : State) (n : Nat) (o : Obj) : Nat := leAt (s.objBytes n o 64 2) 0 2

/-- The limbs of a RING object, from the applied limb table. -/
def State.ringOf (s : State) (n : Nat) (o : Obj) : List Limb :=
  (List.range o.limbs).map fun i =>
    let d := s.objBytes n o (68 + 16 * i) 16
    let m := 16 + 8 * (leAt d 0 1 % 32)
    { q := s.reg64 nTHRESHER m, qPrime := s.reg64 nTHRESHER (m + 2), mu := s.reg64 nTHRESHER (m + 4)
      mont := !s.flag nTHRESHER (m + 6) 1, psi := leAt d 8 8 }

/-- The ring that an object names: log2 n and the limbs that it uses. -/
def State.ringFor (s : State) (n : Nat) (o : Obj) : Option (Nat × List Limb) :=
  ((s.ctx n).loaded o.ring).bind fun g =>
    if g.type == 1 && o.limbs ≤ g.limbs then some (s.ringLog n g, (s.ringOf n g).take o.limbs) else none

/-- k words of an object from a byte offset. -/
def State.words (s : State) (n : Nat) (o : Obj) (off k : Nat) : List Nat :=
  let bs := s.objBytes n o off (8 * k)
  (List.range k).map fun i => leAt bs (8 * i) 8

/-- Components of an object from a byte offset. -/
def State.compsAt (s : State) (n : Nat) (o : Obj) (off comps limbs size : Nat) : List Comp :=
  (List.range comps).map fun c => (List.range limbs).map fun l => s.words n o (off + (c * limbs + l) * size * 8) size

/-- The bytes of components (R261). -/
def compBytes (cs : List Comp) : List Byte := cs.flatMap fun c => c.flatMap fun r => r.flatMap (leBytes 8)

/-! ### The header (Table TH-2) -/

/-- The object that a header describes, before its data has arrived. -/
def objOf (id vaddr : Nat) (h : List Byte) : Obj :=
  { id, type := leAt h 4 1, flags := leAt h 6 1, components := leAt h 7 1, ring := leAt h 8 1, limbs := leAt h 9 1
    entries := leAt h 10 2, dataLen := leAt h 12 4, capacity := leAt h 16 4, special := leAt h 20 4, vaddr
    complete := false, received := 0, owner := none, lastChunk := 0, used := 0 }

/-- A header written from an object. data_length and the CRC follow what a kernel writes into it (log 43). -/
def Obj.header (o : Obj) : List Byte :=
  let h := [0x4A, 0x4E, 0x54, 0x4F] ++ leBytes 1 o.type ++ [1] ++ leBytes 1 o.flags ++ leBytes 1 o.components ++ leBytes 1 o.ring
    ++ leBytes 1 o.limbs ++ leBytes 2 o.entries ++ leBytes 4 o.dataLen ++ leBytes 4 o.capacity ++ leBytes 4 o.special
    ++ List.replicate 36 0
  h ++ leBytes 4 (crc32 h)

/-- A type that kernels take as a polynomial: CIPHERTEXT or PLAINTEXT. -/
def polyType (t : Nat) : Bool := t == 5 || t == 6

/-- The bytes of data that a type's shape has (R261, R264, R274, R276, Table TH-1). -/
def dataSize (type n limbs components entries : Nat) : Option Nat :=
  match type with
  | 1 => some (4 + 16 * limbs)
  | 2 => if components = 2 then some (16 * limbs * n) else none
  | 3 | 4 | 7 => if components = 2 then some (entries * 16 * limbs * n) else none
  | 5 => if components = 2 || components = 3 then some (components * limbs * n * 8) else none
  | 6 => if components = 1 then some (limbs * n * 8) else none
  | 8 => some (16 * entries)
  | 9 => some (8 + 8 * entries)
  | 10 => some (entries * limbs * 8)
  | _ => none

/-- Whether the header of an object is well formed by itself (Table TH-2). -/
def headerOk (h : List Byte) (o : Obj) : Bool :=
  h.take 4 == [0x4A, 0x4E, 0x54, 0x4F] && leAt h 5 1 == 1 && o.flags < 8 && leAt h 60 4 == crc32 (h.take 60)
    && (slice h 24 36).all (· == 0) && 1 ≤ o.limbs && o.limbs ≤ 32 && o.dataLen ≤ o.capacity
    && (o.type == 4 || o.special == 0)
    && (if [1, 2, 5, 6].contains o.type then o.entries == 0 else true)
    && (if [1, 8, 9].contains o.type then o.ring == 0xFF else true)
    && (if [1, 8, 9, 10].contains o.type then o.components == 0 else true)

/-- Whether every word of an object's residues is below its limb's q (R262). -/
def State.residuesOk (s : State) (n : Nat) (o : Obj) (k : Nat) (ls : List Limb) : Bool :=
  let rows := if o.type == 10 then o.entries else if [3, 4, 7].contains o.type then o.entries * o.components else o.components
  (List.range rows).all fun c => ls.zipIdx.all fun (l, i) =>
    let size := if o.type == 10 then 1 else 2 ^ k
    (s.words n o (64 + (c * ls.length + i) * size * 8) size).all (· < l.q)

/-- The checks of R262 on an object whose bytes lie in memory. -/
def State.objOk (s : State) (n : Nat) (o : Obj) : Bool :=
  let h := s.objBytes n o 0 64
  headerOk h o && s.mapped (6 + n) .write o.vaddr (64 + o.capacity) && o.received == 64 + o.dataLen &&
    (if o.type == 8 then o.entries ≤ 256 && dataSize 8 0 o.limbs 0 o.entries == some o.dataLen
     else if [1, 9].contains o.type then dataSize o.type 0 o.limbs 0 o.entries == some o.dataLen
     else match s.ringFor n o with
       | some (k, ls) => dataSize o.type (2 ^ k) o.limbs o.components o.entries == some o.dataLen && s.residuesOk n o k ls
       | none => false)

/-- R264 of a RING object: 0 where it holds, else the status of the refusal. The bytes of its data that the spec reserves are
not looked at (DESIGN CHOICE, log 95). -/
def State.ringStatus (s : State) (n : Nat) (o : Obj) : Nat :=
  let k := s.ringLog n o
  let count := leAt (s.objBytes n o 66 1) 0 1
  let used := s.thr.ctxs.zipIdx.foldl (fun t (c, i) =>
    (c.objects.filter fun x => x.type == 1 && x.complete && !(i == n && x.id == o.id)).foldl (fun t x => t + x.limbs) t) 0
  if k < 10 || 16 < k || count != o.limbs || 128 < used + o.limbs then stField
  else
    let ok := (List.range o.limbs).all fun i =>
      let ix := leAt (s.objBytes n o (68 + 16 * i) 1) 0 1
      let q := s.reg64 nTHRESHER (16 + 8 * ix)
      let psi := leAt (s.objBytes n o (76 + 16 * i) 8) 0 8
      ix < 32 && s.flag nTHRESHER (22 + 8 * ix) 0 && q % 2 ^ (k + 1) == 1 && psi < q && powQ q psi (2 ^ k) == q - 1
    if ok then 0 else stPair

/-! ### Scheduling (R286 to R289) -/

/-- A context that may run: its job is ready or has been pre-empted (R286). -/
def Ctx.eligible (c : Ctx) : Bool := c.state == 1 && c.fence.isNone && c.job.isSome

/-- The priority of a context. -/
def State.priority (s : State) (n : Nat) : Nat := s.fld (nTHRCTX n) 0 0 2

/-- The eligible context of highest priority, taken in ascending number after a given one (R286, R289). -/
def State.nextCtx (s : State) (after : Nat) : Option Nat :=
  let l := ((List.range 4).map fun i => (after + 1 + i) % 4).filter fun n => (s.ctx n).eligible
  l.foldl (fun b n => match b with
    | some m => if s.priority m < s.priority n then some n else b
    | none => some n) none

/-- Whether the engine can run: the applied set enables it, and it is neither fenced nor without its clock. -/
def State.engineOn (s : State) : Bool := s.flag nTHRESHER 0 0 && s.thr.fence.isNone && !s.lev.fail.rc && !s.lev.fail.thr

/-- The engine left by its context. -/
def State.freeEngine (s : State) (n : Nat) : State :=
  if s.thr.running == some n then s.modThr fun t => { t with running := none, idleSince := s.tm.now } else s

/-! ### The end of a job (R285) -/

/-- The status of each end reason (Table TH-8). -/
def endStatus (reason : Nat) : Nat :=
  match reason with
  | 0 => stOk | 1 | 2 | 3 => stAborted | 4 | 5 | 6 => stFault | 7 => stTimeout | 8 => stUnitReset | _ => stSuperseded

/-- The completion's payload (Table TH-7). -/
def jobReply (n : Nat) (c : Ctx) (j : Job) (reason : Nat) : List Byte :=
  leBytes 1 n ++ leBytes 1 reason ++ leBytes 4 j.number ++ leBytes 4 c.done ++ leBytes 4 c.skipped ++ leBytes 2 c.instr ++ leBytes 6 c.lastPeriod

/-- The agent that context n is. -/
def thrAgent (n : Nat) : Agent := .thr ⟨n % 4, Nat.mod_lt _ (by decide)⟩

/-- A job ended: its counters stay, its cursors are left, its completion is sent, event 35 or 36 raised, and a THRESHER record
written where event 36 is (R285, 13 Table AL-3; log 45). -/
def State.closeJob (s : State) (n reason : Nat) : State :=
  let c := s.ctx n
  match c.job with
  | none => s
  | some j =>
    let s := ((s.modCtx n fun c => { c with job := none, state := 0, saved := none, parking := none }).freeEngine n).dropCursors (thrAgent n)
    let s := if reason = 0 then (s.bump nTHRESHER 2 0 32).raise 35
      else if reason = 1 || reason = 2 then s
      else ((s.ite (reason == 4) (·.bump nTHRESHER 4 16 16)).log 0x30 (nTHRCTX n) 0 reason (leBytes 4 j.number ++ leBytes 2 c.instr)).raise 36
    s.completeOpt j.ticket (endStatus reason) (jobReply n c j reason)

/-! ### The context state (R287; 07 R248, Table PM-9) -/

/-- The bytes of a saved state, from a count of free values (log 44). -/
def savedBytes (k : Nat) : List Byte := (List.range 2048).map fun i => Config.saveByte (k + i)

/-- The address of the save area. -/
def State.saveAddr (s : State) (n : Nat) : Nat := s.reg (nTHRCTX n) 1

/-- The 2 KiB context state written to save_addr; how it is laid out is left open (R287, log 44). -/
def State.saveCtx (s : State) (n : Nat) : State × Reach :=
  match ({ s with freeCount := s.freeCount + 2048 } : State).put (thrAgent n) [(s.saveAddr n, savedBytes s.freeCount)] with
  | (t, .done) => (t.modCtx n fun c => { c with saved := some s.freeCount }, .done)
  | x => x

/-- The context state read back from save_addr. Where the bytes are not those that were saved, the position in the program is
free (R287, log 44). -/
def State.restoreCtx (s : State) (n : Nat) : State × Reach :=
  match (s.ctx n).saved with
  | none => (s, .done)
  | some k =>
    match s.access (thrAgent n) [⟨.read, s.saveAddr n, 2048⟩] with
    | (t, .done) =>
      let bs := t.virtRead (6 + n) (s.saveAddr n) 2048
      (if bs == savedBytes k then t
        else t.modCtx n fun c => { c with job := c.job.map fun j => { j with pc := Config.restoredPc bs % 256 } }, .done)
    | x => x

/-- A context starts on the engine. -/
def State.runCtx (s : State) (n : Nat) : State :=
  (s.modThr fun t => { t with running := some n, last := n, sliceFrom := s.tm.now, gated := false }).modCtx n
    fun c => { c with state := 2, saved := none }

/-- An idle engine takes the eligible context of highest priority, the next after the one it ran last (R286, R289). A context whose
restore meets a soft fault is suspended, one whose restore meets a hard fault ends, and the next is taken (07 Table PM-9). -/
def State.dispatchN : Nat → State → State
  | 0, s => s
  | k + 1, s =>
    if s.engineOn && s.thr.running.isNone then
      match s.nextCtx s.thr.last with
      | none => s
      | some n => match s.restoreCtx n with
        | (s, .done) => s.runCtx n
        | (s, .waits) => if s.suspended (thrAgent n) then State.dispatchN k (s.modCtx n fun c => { c with state := 4 }) else s
        | (s, .ends) => State.dispatchN k (s.closeJob n 4)
    else s

def State.dispatch (s : State) : State := State.dispatchN 5 s

def State.endJob (s : State) (n reason : Nat) : State := (s.closeJob n reason).dispatch

/-- A context leaves the engine at a pre-emption point. A job told to end does so. Its state is saved first: a soft fault in the save
holds the engine until it is resolved, a hard one ends the job (R287, R290; 07 Table PM-9). -/
def State.parkCtx (s : State) (n st : Nat) : State :=
  if s.thr.running != some n then s.modCtx n fun c => { c with state := st }
  else match (s.ctx n).job.bind (·.ending) with
    | some r => s.endJob n r
    | none => match s.saveCtx n with
      | (s, .done) => ((s.modCtx n fun c => { c with state := st, parking := none }).freeEngine n).dispatch
      | (s, .waits) => s.modCtx n fun c => { c with parking := some st }
      | (s, .ends) => s.endJob n 4

/-- A running context suspended on a soft fault of its own: it does not hold the engine (07 R248). -/
def State.suspendCtx (s : State) (n : Nat) : State :=
  if s.suspended (thrAgent n) && s.thr.running == some n then s.parkCtx n 4 else s

/-- Whether a queued fault of a context lies in its save area. -/
def State.saveFaulted (s : State) (n : Nat) : Bool :=
  s.mem.faults.any fun c => c.agent == thrAgent n && s.saveAddr n ≤ c.vaddr && c.vaddr < s.saveAddr n + 2048

/-- A fault of a context has been resolved: a suspended save goes on, and a suspended context becomes eligible (07 R248). -/
def State.resumeCtx (s : State) (n : Nat) : State :=
  match (s.ctx n).parking with
  | some st => if s.saveFaulted n then s else s.parkCtx n (if st == 4 && !s.suspended (thrAgent n) then 1 else st)
  | none =>
    if (s.ctx n).state == 4 && !s.suspended (thrAgent n) then (s.modCtx n fun c => { c with state := 1 }).dispatch else s

/-- A job told to end at its next pre-emption point: at once where it does not hold the engine, or is suspended on a fault (R287,
R290, R293; 07 Table PM-9). -/
def State.stopJob (s : State) (n reason : Nat) : State :=
  if s.thr.running == some n && !s.suspended (thrAgent n) then
    s.modCtx n fun c => { c with job := c.job.map fun j => { j with ending := j.ending <|> some reason } }
  else s.endJob n reason

/-- Every job ended. -/
def State.endJobs (s : State) (reason : Nat) : State := s.each (List.range 4) fun s n => s.endJob n reason

/-- The object table of a context cleared (R293). -/
def State.clearObjects (s : State) (n : Nat) : State := s.modCtx n fun c => { c with objects := [], poolLeft := 0 }

end Sys2Proof.Machine
end

