-- ==== Sys2Proof/Machine/Levels.lean ====
section
/-! DEFINITION. The service level: what the standing failures leave, and what a change of level brings with it
(01 R39 to R44; 08 Table TH-8; 09 R303). -/

namespace Sys2Proof.Machine

/-- The level that holds now: L1 until a start from reset has made its mailboxes ready, and else what the standing
failures leave (R40; 12 R459). While nothing is served it stays (01, Service levels). -/
def State.levelNow (s : State) : Nat :=
  if s.pw.state != .run then s.lev.level
  else if s.boot.phase != .ready && (s.boot.kind == .reset || s.boot.kind == .deepWake) then 1
  else levelOf s.lev.fail s.boot.legacy

/-- What leaving L3 does: the pull-up is released and every Thresher job ends with reason 6 (09 R303; 08 Table TH-8). -/
def State.leaveL3 (s : State) : State := s.dropUsb.endJobs 6

/-- The level brought to what the failures leave: a change is recorded with the row of Table AR-7 that caused it, and
takes a new table (R44, 03 Table SX-10). -/
def State.relevel (s : State) (row : Nat) : State :=
  let n := s.levelNow
  if n = s.lev.level then s
  else
    let o := s.lev.level
    let s := (s.modLev fun l => { l with level := n, since := s.tm.period % 2 ^ 32 }).newTable
    (s.log 0x01 nSYS 0 row (leBytes 1 o ++ leBytes 1 n)).ite (n < 3) (·.leaveL3)

/-- A failure set or cleared, and the level brought to it. -/
def State.fail (s : State) (row : Nat) (f : Fail → Fail) : State :=
  (s.modLev fun l => { l with fail := f l.fail }).relevel row

end Sys2Proof.Machine
end

