-- ==== Sys2Proof/Machine/SyntaxTable.lean ====
section
/-! DEFINITION. The Syntax table, byte for byte, as DESCRIBE returns it (03 R92 to R120). -/

namespace Sys2Proof.Machine

/-- Records joined after a type byte, the length of the whole record and version 1 (03 R94, Table SX-1). -/
def recordOf (type : Nat) (body : List Byte) : List Byte :=
  leBytes 1 type ++ leBytes 2 (body.length + 4) ++ [1] ++ body

/-- A section: its records and its SECTION_CRC record (03 R101). -/
def sectionOf (records : List (List Byte)) : List Byte :=
  let b := records.flatten
  b ++ recordOf 0x0F (leBytes 4 (crc32 b))

/-! ### Section 1 (03 Table SX-5) -/

/-- stack_position: 0 in a lead, 0xFF in a member that has not joined. -/
def State.stackPosition (s : State) : Nat := if s.isMember then s.yoke.position else 0

def identityRecord (s : State) : List Byte :=
  recordOf 0x10 (leBytes 2 0x6440 ++ leBytes 2 s.boot.silicon ++ ascii 16 "JN6440-QB" ++ leBytes 8 s.boot.serial
    ++ leBytes 1 (b2n (!s.boot.ykLead)) ++ leBytes 1 s.stackPosition ++ [0, 0])

/-- Whether the boot ROM's table is in place: until the mailboxes are ready, and in ROM service (03 R118). -/
def State.romTable (s : State) : Bool := !s.lev.firmware || s.boot.phase == .romService

def firmwareRecord (s : State) : List Byte :=
  recordOf 0x11 (s.fwBytes
    ++ leBytes 1 s.boot.runningFrom ++ leBytes 4 s.boot.buildId ++ [3] ++ leBytes 1 s.boot.romVersion ++ [0, 0]
    ++ leBytes 4 s.boot.bootCount)

def serviceRecord (s : State) : List Byte :=
  recordOf 0x12 (leBytes 1 s.lev.level
    ++ leBytes 1 (b2n (s.boot.phase == .romService) + 2 * b2n s.boot.legacy + 4 * b2n s.mb.v2 + 8 * b2n s.hw.sealed)
    ++ [0, 0] ++ leBytes 4 s.lev.since)

def section1 (s : State) : List (List Byte) := [identityRecord s, firmwareRecord s, serviceRecord s]

/-! ### Section 2 (03 Table SX-8) -/

def layoutRecord (s : State) : List Byte :=
  let l := s.sheaf.layout
  recordOf 0x60 (leBytes 4 l.id ++ layoutRecordHead s.boot.legacy l ++ leBytes 4 s.periodTicks ++ leBytes 4 s.mb.epoch
    ++ [0, 0, 0, 0])

def section2 (s : State) : List (List Byte) :=
  layoutRecord s :: s.sheaf.layout.fields.zipIdx.map fun (f, i) => recordOf 0x61 (fieldRecordBody s.boot.legacy i f)

/-! ### Section 3 (02 Table MB-6; 03 Table SX-7) -/

/-- A verb: code, completion of Table MB-6 (0 immediate, 1 held, 2 accepted), whether it takes a noun, and its
largest request payload. -/
structure VerbRow where
  code : Nat
  completion : Nat
  noun : Bool
  most : Nat
  deriving DecidableEq, Repr

/-- The catalogue in ascending code; the largest payloads follow the payload tables of the verbs' chapters. -/
def verbRows : List VerbRow := [
  ⟨0x01, 0, false, 8⟩, ⟨0x02, 0, true, 4⟩, ⟨0x03, 0, true, 4080⟩, ⟨0x04, 1, false, 8⟩, ⟨0x05, 0, false, 0⟩,
  ⟨0x06, 1, false, 8⟩, ⟨0x07, 1, false, 8⟩, ⟨0x08, 1, false, 8⟩, ⟨0x09, 0, false, 16⟩, ⟨0x0A, 0, false, 8⟩,
  ⟨0x10, 0, false, 8⟩, ⟨0x11, 0, false, 36⟩, ⟨0x12, 1, false, 4⟩, ⟨0x20, 0, false, 4080⟩, ⟨0x21, 2, false, 18⟩,
  ⟨0x22, 0, false, 8⟩, ⟨0x23, 0, false, 10⟩, ⟨0x24, 0, false, 4080⟩, ⟨0x30, 1, false, 4068⟩, ⟨0x31, 1, false, 8⟩,
  ⟨0x32, 1, false, 4⟩, ⟨0x40, 0, false, 0⟩, ⟨0x41, 0, false, 4⟩, ⟨0x42, 0, false, 12⟩, ⟨0x50, 2, false, 4072⟩,
  ⟨0x51, 1, false, 4⟩, ⟨0x52, 2, true, 0⟩, ⟨0x53, 1, false, 0⟩, ⟨0x54, 1, false, 12⟩]

/-- The largest request under the framing in force: 52 bytes under v1, where STAGE has 12 and DESCRIBE 4 (02 R83). -/
def VerbRow.mostIn (v : VerbRow) (v2 : Bool) : Nat :=
  if v2 then v.most else if v.code == 3 then 12 else if v.code == 1 then 4 else min 52 v.most

def verbRecord (v2 : Bool) (v : VerbRow) : List Byte :=
  recordOf 0x30 (leBytes 1 v.code ++ [1] ++ leBytes 1 ((verbLevel v.code).getD 0) ++ leBytes 1 v.completion
    ++ leBytes 1 (b2n (romVerb v.code) + 2 * b2n v.noun) ++ [0] ++ leBytes 2 (v.mostIn v2))

/-- The verbs that the mode and the framing serve (03 R106, R118, R120). -/
def section3 (s : State) : List (List Byte) :=
  (verbRows.filter fun v => if s.romTable then romVerb v.code else !s.verbAbsent v.code).map (verbRecord s.mb.v2)

/-! ### Section 4 (13 Table AL-6) -/

/-- The source and name of each of the 64 events (13 Table AL-6). -/
def eventRows : List (Nat × String) :=
  [(nSHEAF, "SHEAF_READY"), (nSHEAF, "SHEAF_DROPPED"), (nPERIOD, "DEADLINE_MISS"), (nPERIOD, "HEADLAND_OVERRUN")]
  ++ (List.range 9).map (fun k => (nCSP k, "CSP" ++ toString k ++ "_FAULT"))
  ++ (List.range 3).map (fun g => (nSENT (8 * g), "SENT_GROUP" ++ toString g ++ "_FAULT"))
  ++ (List.range 4).map (fun b => (nEDGE b, "EDGE_BANK" ++ toString b ++ "_CAPTURE"))
  ++ [(nTWT 0, "TWT0_ACTIVITY"), (nTWT 1, "TWT1_ACTIVITY"), (0, "MBX_REPLY_READY"), (0, "MBX_OVERFLOW"),
    (nUSB, "USB_SUSPEND"), (nUSB, "USB_RESUME"), (nUSB, "USB_BUS_RESET"), (nUSB, "HUB_OVER_CURRENT"),
    (nUSB, "HUB_CONNECT_CHANGE"), (nYOKE, "YOKE_MEMBER_JOINED"), (nYOKE, "YOKE_MEMBER_LOST"),
    (nYOKE, "YOKE_EDGE_HIT_THRESHOLD"), (nYOKE, "YOKE_QUARANTINE"), (nYOKE, "YOKE_ORPHANED"),
    (nPOWER, "FALLOW_ABORTED"), (nTHRESHER, "THR_JOB_DONE"), (nTHRESHER, "THR_JOB_FAULTED"),
    (nTHRESHER, "THR_PREEMPTED"), (nTHRESHER, "THR_HANDOFF_REQUEST"), (nTHRESHER, "THR_INTEGRITY_FAULT"),
    (nPLOTMAP, "PLOT_FAULT_RESOLVED"), (nPLOTMAP, "PLOT_FAULT_UNRESOLVED"), (nPLOTMAP, "ECC_CORRECTED"),
    (nPLOTMAP, "ECC_UNCORRECTABLE")]
  ++ [(nPOWER, "VIN_UNDERVOLTAGE"), (nPOWER, "VIN_OVERVOLTAGE"), (nPOWER, "VSYS_OVERLOAD"),
    (nPOWER, "THERMAL_WARNING"), (nPOWER, "THERMAL_SHUTDOWN"), (nPOWER, "BACKUP_CELL_LOW"),
    (nPOWER, "ALARM_CAPTURED"), (nPOWER, "RTC_ALARM"), (nPOWER, "PRSNT_CHANGE"), (nALMANAC, "ALMANAC_RING_WRAP"),
    (nALMANAC, "ALMANAC_WRITE_FAILURE"), (nHARROW, "HARROW_ACTIVE"), (nSYS, "UPDATE_STAGED"),
    (nSYS, "UPDATE_SWAP_COMPLETE"), (nSYS, "WATCHDOG_PREWARNING"), (nCLOCK, "REFERENCE_LOST"),
    (nCLOCK, "PLL_UNLOCK"), (0, "COMMIT_REJECTED"), (0, "UNIT_RESET_COMPLETE"), (nALMANAC, "USER_EVENT")]

/-- Events never raised in legacy mode (03 R120). -/
def neverInLegacy (k : Nat) : Bool := (29 ≤ k && k ≤ 33) || (35 ≤ k && k ≤ 39)

def section4 (s : State) : List (List Byte) :=
  eventRows.zipIdx.map fun ((src, name), k) =>
    recordOf 0x40 (leBytes 1 k ++ leBytes 1 (b2n (s.boot.legacy && neverInLegacy k)) ++ leBytes 2 src ++ ascii 24 name)

/-! ### Section 5 (11 Table PW-3) -/

/-- Group (the row of the domain map), unit noun and name of a domain; the spec leaves the names and the groups'
numbers to the table's builder (log 39). -/
def domainRow (d : Nat) : Nat × Nat × String :=
  if d ≤ 5 then (0, nth 0 [0, 0, nPERIOD, nSHEAF, nPLOTMAP, 0] d,
    nth "" ["STEWARD_CORE", "CACHES", "DRILL", "SHEAF_ASSEMBLER", "PLOT_MAP", "MAILBOX"] d)
  else if d ≤ 69 then (1, nPLOTMAP, "B" ++ toString ((d - 6) / 10) ++ toString ((d - 6) % 10))
  else if d ≤ 78 then (2, nCSP (d - 70), "CSP" ++ toString (d - 70))
  else if d ≤ 102 then (3, nSENT (d - 79), "SENT" ++ toString (d - 79))
  else if d ≤ 106 then (4, nEDGE (d - 103), "EDGE" ++ toString (d - 103))
  else if d ≤ 108 then (5, nTWT (d - 107), "TWT" ++ toString (d - 107))
  else if d ≤ 111 then (6, nUSB, nth "" ["UPSTREAM_PHY", "USB_DEVICE", "HUB_CORE"] (d - 109))
  else if d ≤ 115 then (6, nHUBPORT (d - 111), "DP" ++ toString (d - 111) ++ "_PHY")
  else if d ≤ 117 then (7, nYOKE, nth "" ["YOKE_UP", "YOKE_DN"] (d - 116))
  else if d ≤ 119 then (8, nTHRESHER, nth "" ["THR_CONTROL", "THR_TWIDDLE"] (d - 118))
  else if d ≤ 151 then (8, nTHRESHER, "THR_LANE" ++ toString (d - 120))
  else if d = 152 then (9, nPOWER, "ALWAYS_ON")
  else (10, nPOWER, "BACKUP")

def section5 : List (List Byte) :=
  (List.range 154).map fun d =>
    let (g, n, t) := domainRow d
    recordOf 0x50 (leBytes 1 d ++ leBytes 1 g ++ leBytes 1 (b2n (d ≤ 151)) ++ [0] ++ leBytes 2 n ++ [0, 0] ++ ascii 16 t)

/-! ### Section 6 (03 Table SX-6) -/

/-- The noun whose FIELD records also describe a noun of the same family (layout_ref); 0 for the first of a
family and for a noun of its own. -/
def layoutRef (n : Nat) : Nat :=
  if nCSP 0 < n && n ≤ nCSP 7 then nCSP 0
  else if nSENT 0 < n && n ≤ nSENT 23 then nSENT 0
  else if nEDGE 0 < n && n ≤ nEDGE 3 then nEDGE 0
  else if nHUBPORT 1 < n && n ≤ nHUBPORT 4 then nHUBPORT 1
  else if nFURROW 0 < n && n ≤ nFURROW 24 then nFURROW 0
  else if nTHRCTX 0 < n && n ≤ nTHRCTX 3 then nTHRCTX 0
  else 0

/-- A field as its FIELD records cover it: 64 bits each (03 R104). -/
def fieldParts (f : RegField) : List RegField :=
  if f.width ≤ 64 then [f]
  else (List.range (ceilDiv f.width 64)).map fun i => { f with word := f.word + 2 * i, width := min 64 (f.width - 64 * i) }

/-- The reset value of a field as its record shows it: zero with flags [1] or [2]; the firmware's patch level and
the source in use at the start are the device's (03 R104). -/
def fieldReset (s : State) (noun : Nat) (f : RegField) : Nat :=
  if f.flags / 2 % 4 != 0 then 0
  else if noun == nSYS && f.word == 1 && f.lo == 0 then s.boot.fwVersion % 256
  else if noun == nCLOCK && f.word == 0 && f.lo == 0 then s.boot.rootSource
  else f.reset

/-- Least and greatest defined values of a field (03 R105). -/
def fieldBounds (f : RegField) : Nat × Nat :=
  match f.kind with
  | .sgn => (2 ^ 64 - 2 ^ (f.width - 1), 2 ^ (f.width - 1) - 1)
  | .bmap => (0, 2 ^ f.width - 1)
  | _ => (f.least, f.top)

def fieldRecord (s : State) (noun : Nat) (f : RegField) : List Byte :=
  recordOf 0x21 (leBytes 2 f.word ++ leBytes 1 f.lo ++ leBytes 1 f.width ++ leBytes 1 f.acc.code ++ leBytes 1 f.kind.code
    ++ leBytes 1 f.flags ++ leBytes 1 f.pair ++ leBytes 8 (fieldReset s noun f) ++ leBytes 8 (fieldBounds f).1
    ++ leBytes 8 (fieldBounds f).2 ++ ascii 24 f.name)

/-- Ascending word and bit (03 Table SX-4). -/
def fieldBefore (a b : RegField) : Bool := a.word < b.word || (a.word == b.word && a.lo ≤ b.lo)

/-- A field put into a list in that order. -/
def insertField (f : RegField) : List RegField → List RegField
  | [] => [f]
  | g :: gs => if fieldBefore g f then g :: insertField f gs else f :: g :: gs

def nounFields (n : Noun) : List RegField :=
  if layoutRef n.id != 0 then [] else (n.fields.flatMap fieldParts).foldl (fun l f => insertField f l) []

def nounRecords (s : State) (n : Noun) : List (List Byte) :=
  let fs := nounFields n
  recordOf 0x20 (leBytes 2 n.id ++ [0, 0] ++ leBytes 2 n.words ++ leBytes 2 fs.length ++ leBytes 2 (layoutRef n.id)
    ++ leBytes 1 (b2n (n.id == nHARROW)) ++ [0] ++ ascii 8 n.name)
  :: fs.map (fieldRecord s n.id)

def section6 (s : State) : List (List Byte) :=
  (nouns.filter fun n => if s.romTable then n.id == nSYS else !(s.boot.legacy && absentInLegacy n.id)).flatMap (nounRecords s)

/-! ### The whole table (03 R93, R99, R100) -/

/-- The sections after section 0: identifier and records. -/
def tableSections (s : State) : List (Nat × List (List Byte)) :=
  if s.romTable then [(1, section1 s), (3, section3 s), (6, section6 s)]
  else [(1, section1 s), (2, section2 s), (3, section3 s), (4, section4 s)]
    ++ (if s.boot.legacy then [] else [(5, section5)]) ++ [(6, section6 s)]

/-- layout_kind: 0 ROM table, 1 full, 2 restricted. -/
def State.layoutKind (s : State) : Nat := if s.romTable then 0 else if s.boot.legacy then 2 else 1

/-- The Syntax table. -/
def syntaxTable (s : State) : List Byte :=
  let secs := (tableSections s).map fun (i, rs) => (i, rs.length, sectionOf rs)
  let head := 36 + 12 * secs.length
  let dir := (secs.foldl (fun (acc, off) (i, n, b) =>
    (acc ++ leBytes 1 i ++ [0] ++ leBytes 2 n ++ leBytes 4 off ++ leBytes 4 b.length, off + b.length)) (([] : List Byte), head))
  sectionOf [recordOf 0x00 ([0x4A, 0x4E, 0x53, 0x58, 2] ++ leBytes 1 s.layoutKind ++ leBytes 1 secs.length ++ [0]
      ++ leBytes 4 dir.2 ++ leBytes 4 s.lev.generation ++ leBytes 4 s.sheaf.layout.id
      ++ leBytes 4 (if s.romTable then 0 else s.mb.epoch) ++ dir.1)]
    ++ secs.flatMap fun (_, _, b) => b

/-- The 16 bytes of the Syntax pointer in the early registers (03 Table SX-11). -/
def syntaxPointer (s : State) : List Byte :=
  leBytes 1 (if s.romTable then 1 else 2) ++ leBytes 1 s.layoutKind ++ [0, 0] ++ leBytes 4 s.lev.generation
    ++ leBytes 4 (syntaxTable s).length ++ leBytes 4 s.sheaf.layout.id

end Sys2Proof.Machine
end

