-- ==== Sys2Proof/Machine/YokeOps.lean ====
section
/-! DEFINITION. Operations on the yoke link that several families share: the lead's command frames, the plan and
the grant, and what a member's limit is (10 R338 to R343, R354 to R356, R369, R375). -/

namespace Sys2Proof.Machine

/-- The kind codes of 10 Table YK-3. -/
def CmdKind.code : CmdKind → Nat
  | .mbx => 1 | .joinAccept => 2 | .range => 3 | .setDelay => 4 | .trim => 5 | .grant => 6 | .quarantine => 7
  | .release => 8 | .replyResend => 9 | .replyDone => 10 | .fallowPropose => 11 | .fallowCommit => 12 | .fallowAbort => 13

/-- A frame on the line: K27.7, its bytes and K29.7 (Table YK-1). -/
def framed (b : List Byte) : List Byte := 0xFB :: (b ++ [0xFD])

/-- The header and the payload of a command frame (R338). -/
def frameBody (kind : CmdKind) (dest seq : Nat) (payload : List Byte) : List Byte :=
  leBytes 1 dest ++ leBytes 1 kind.code ++ leBytes 2 seq ++ leBytes 1 payload.length ++ [0, 0, 0] ++ payload

/-- The bytes of a command frame between its start and end symbols (R338). -/
def Command.bytes (c : Command) : List Byte :=
  let b := frameBody c.kind (if c.dest = 0 then 0xFF else c.dest) c.seq c.payload
  b ++ leBytes 4 (crc32 b)

/-- A command frame queued under the next seq (R354). A broadcast goes to every joined member; with no destination
it completes at once and nothing is sent (R367). -/
def State.command (s : State) (kind : CmdKind) (dest : Nat) (payload : List Byte) (notBefore : Nat := 0)
    (ticket : Option Ticket := none) : State :=
  let waitFor := if dest = 0 then s.joined else [dest]
  if waitFor.isEmpty then s
  else s.modYoke fun y => { y with
    seq := (y.seq + 1) % 65536
    commands := y.commands ++ [{ kind, dest, seq := y.seq, payload, sent := 0, open' := waitFor, notBefore, ticket }] }

/-- The plan of a set as a grant: slot starts and lengths of positions 1 to 7 (R340, Table YK-3). -/
def grantOf (w : Words) (apply : Nat) : Grant :=
  let slots := planSlots (ticksNs (limitOf w)) (balkOf w) (planOf w)
  { apply, ticks := wordsPeriod w, balkNs := balkOf w,
    slots := ((List.range 7).map (· + 1)).map fun k =>
      match slots.find? (·.1 == k) with
      | some (_, st, _) => (st, ((planOf w).find? (·.1 == k)).elim 0 (·.2))
      | none => (0, 0) }

/-- The GRANT payload. -/
def Grant.bytes (g : Grant) : List Byte :=
  leBytes 6 g.apply ++ leBytes 4 g.ticks ++ leBytes 2 g.balkNs
    ++ g.slots.flatMap fun (st, n) => leBytes 4 st ++ leBytes 2 n

/-- A grant as an operand carries it. -/
def Grant.ofPlan (g : GrantPlan) : Grant :=
  { apply := g.applyPeriod.toNat, ticks := g.periodTicks.toNat, balkNs := g.balkNs.toNat,
    slots := g.slots.map fun (a, b) => (a.toNat, b.toNat) }

/-- Whether a set changes period_ticks, balk, plan_mask or a slot_bytes of the applied set (R369). -/
def State.planChanges (s : State) (w : Words) : Bool :=
  s.isLead && (wordsPeriod w != s.periodTicks || balkOf w != balkOf s.reg || planOf w != planOf s.reg)

/-- A position changed by its number, 1 to 7. -/
def State.pos (s : State) (k : Nat) : Position := nth {} s.yoke.positions (k - 1)

/-- Whether a position is planned by the applied set. -/
def State.planned (s : State) (k : Nat) : Bool := s.flag nYOKE 0 (15 + k)

/-- The state of a position that is not joined: 1 where it is planned, 0 where it is not (Table YK-10). -/
def State.unjoinedState (s : State) (k : Nat) : Nat := if s.planned k then 1 else 0

/-! ### The segment area (R376, R387) -/

/-- A body written through holding 4 to the segment area: it is merged; after a soft fault it waits, and a hard one leaves it unmerged
(R353, R387). -/
def State.mergeBody (s : State) (k cls : Nat) (body : List Byte) : State :=
  match s.store .yoke [(s.reg nYOKE 1 + (k - 1) * 8192, body)] with
  | (s, .done) => s.modPos k fun p => { p with
      segment := some (cls, body)
      waiting := none
      lastBody := body
      lastLine := s.tm.lines
      lastFields := (p.cached.map (·.fields)).getD [] }
  | (s, .waits) => s.modPos k fun p => { p with waiting := some (cls, body) }
  | (s, .ends) => s.modPos k fun p => { p with segment := some (2, []), waiting := none }

/-- The bodies that wait are written after the resolution (R387). -/
def State.takeWaiting (s : State) : State :=
  s.each ((List.range 7).map (· + 1)) fun s k => match (s.pos k).waiting with
    | some (cls, body) => if s.suspended .yoke then s else s.mergeBody k cls body
    | none => s

/-- A body that waits no longer: its segment is not merged (R387). -/
def Position.giveUp (p : Position) : Position :=
  if p.waiting.isSome then { p with waiting := none, segment := some (2, []) } else p

end Sys2Proof.Machine
end

