-- ==== Sys2Proof/Machine/Mailbox.lean ====
section
/-! DEFINITION. The configuration and reading verbs of the mailbox chapter: BAD_FRAME, DESCRIBE, GET, STAGE, COMMIT,
DISCARD, START, STOP, SNAP, EVENTS, undefined verbs and the shadow's time-out (02; 04 R145 to R151). -/

namespace Sys2Proof.Machine

/-! ### Fenced units (14 Table HW-6) -/

/-- Whether the unit of a noun is fenced by RESET_UNIT. -/
def State.fenced (s : State) (n : Nat) : Bool :=
  if nCSP 0 ≤ n && n ≤ nCSP 7 then (nth {} s.csp (n - nCSP 0)).fence.isSome
  else if n == nCSP 8 then s.csp8.fence.isSome
  else if nSENT 0 ≤ n && n ≤ nSENT 23 then (nth {} s.sent (n - nSENT 0)).fence.isSome
  else if nEDGE 0 ≤ n && n ≤ nEDGE 3 then (nth {} s.banks (n - nEDGE 0)).fence.isSome
  else if n == nTWT 0 || n == nTWT 1 then (nth {} s.twt (n - nTWT 0)).fence.isSome
  else if n == nUSB then s.usb.fence.isSome
  else if nHUBPORT 1 ≤ n && n ≤ nHUBPORT 4 then (nth {} s.usb.ports (n - nHUBPORT 1)).fence.isSome || s.usb.fence.isSome
  else if n == nYOKE then s.yoke.fence.isSome
  else if n == nTHRESHER then s.thr.fence.isSome
  else if nTHRCTX 0 ≤ n && n ≤ nTHRCTX 3 then (nth {} s.thr.ctxs (n - nTHRCTX 0)).fence.isSome || s.thr.fence.isSome
  else false

/-- Whether some unit is fenced. -/
def State.anyFence (s : State) : Bool := nouns.any fun n => s.fenced n.id

/-- Whether a set of words touches a fenced unit (R81). -/
def State.touchesFenced (s : State) (keys : List Nat) : Bool := keys.any fun k => s.fenced (k / 1024)

/-! ### BAD_FRAME (R56 step 1) -/

/-- Step 1: the magic, and the framing version of the channel. -/
def frameOk (v2 : Bool) (b : List Byte) : Bool := b.take 2 == [0x4A, if v2 then 2 else 1]

/-- A request whose magic or framing version is wrong is discarded without a reply, and bad_frames counts it; one that a
two-wire target had received leaves its buffer. -/
def execBadFrame (ch : Channel) (magic version : Byte) (s : State) : Host.Outcome State Fault Refusal :=
  if s.accepts ch.val && !frameOk s.mb.v2 [magic, version] then
    let here := ((nth {} s.mb.chans ch.val).rx.head?.map (·.take 2)) == some [magic, version]
    .next ((s.ite here fun s => s.modChan ch.val fun c => { c with rx := c.rx.tail }).bump nSYS 12 0 16)
  else .next s

/-- A verb code that is undefined or not available in the mode: NO_SUCH_VERB at step 5 (R56). -/
def execNoSuchVerb (verb : Byte) (r : Req) (s : State) : Host.Outcome State Fault Refusal :=
  let v := verb.toNat
  if (verbLevel v).isSome && !s.verbAbsent v then .next s
  else .next (s.serve v r true (fun _ => []) fun s _ => (s, .done stNoVerb []))

/-! ### Replies that must fit their transport -/

/-- Whether a reply payload of n bytes fits the channel: 4 078 bytes, 4 046 on MBX3, 52 under v1 (R54, R82;
10 R358). -/
def State.fits (s : State) (r : Req) (n : Nat) : Bool :=
  if !s.mb.v2 then n ≤ 52 else if r.ch.val = 3 then n ≤ 4046 else n ≤ 4078

/-! ### DESCRIBE (R69, R83; 03 R92, R115) -/

def State.describeMax (s : State) (r : Req) : Nat := if s.mb.v2 then pf r 4 2 else 48

def execDescribe (r : Req) (s : State) : Host.Outcome State Fault Refusal :=
  let off := pf r 0 4
  let len := s.describeMax r
  .next (s.serve 0x01 r (r.length.toNat == (if s.mb.v2 then 8 else 4) && s.fits r (if s.mb.v2 then 8 + min len 4070 else 52))
    (fun s => [noNoun r,
      ((!s.mb.v2 || (1 ≤ len && len ≤ 4070 && pz r 6 2)) && off < (syntaxTable s).length, stField)])
    fun s _ =>
      let t := syntaxTable s
      let body := (t.drop off).take len
      (s, .done stOk (if s.mb.v2 then leBytes 4 t.length ++ leBytes 4 off ++ body
        else leBytes 4 off ++ slice body 0 48)))

/-! ### GET (R61, R69, R83, R84) -/

/-- Step 7 for GET and STAGE: the noun exists in the mode, SYS alone in ROM service, and is unindexed. -/
def State.nounCheck (s : State) (r : Req) : Check :=
  ((findNoun s.boot.legacy r.noun.toNat).isSome && r.index == 0 && (s.boot.phase != .romService || r.noun.toNat == nSYS), stNoNoun)

/-- The noun of a request. -/
def State.nounOf (s : State) (r : Req) : Noun := (findNoun s.boot.legacy r.noun.toNat).getD ⟨0, "", 0, []⟩

/-- R61: words with part of an RC field in a reply above 512 bytes. -/
def State.rcTooLong (s : State) (r : Req) : Bool :=
  512 < 4 + 4 * pf r 2 2 && (List.range (pf r 2 2)).any fun i => hasRc (s.nounOf r) (pf r 0 2 + i)

def execGet (r : Req) (s : State) : Host.Outcome State Fault Refusal :=
  let off := pf r 0 2
  let n := pf r 2 2
  .next (s.serve 0x02 r (r.length.toNat == 4 && !s.rcTooLong r && (n == 0 || 1018 < n || !s.mb.v2 || s.fits r (4 + 4 * n)))
    (fun s => [s.nounCheck r,
      (1 ≤ n && n ≤ (if s.mb.v2 then 1018 else 12) && off + n ≤ (s.nounOf r).words, stField)])
    fun s _ =>
      let nn := s.nounOf r
      let staged := s.mb.v2 && bitAt r.flags.toNat 2
      let words := (List.range n).flatMap fun i => leBytes 4 (s.getWord nn (off + i) staged)
      ((List.range n).foldl (fun s i => s.clearRc nn (off + i)) s,
        .done stOk (leBytes 2 off ++ leBytes 2 n ++ words)))

/-! ### STAGE (R69 to R74, R83; 01 R48) -/

/-- A STAGE item: its word offset and its (mask, value) pairs. -/
abbrev StageItem := Nat × List (Nat × Nat)

/-- The pairs of an item. -/
def stagePairs (p : List Byte) (n : Nat) : List (Nat × Nat) :=
  (List.range n).map fun i => (leAt p (8 * i) 4, leAt p (8 * i + 4) 4)

/-- The items of a payload, where they fill it exactly and each has 1 to 509 words (R70). -/
def stageItems : Nat → List Byte → Option (List StageItem)
  | _, [] => some []
  | 0, _ => none
  | k + 1, p =>
    let n := leAt p 2 2
    if p.length < 4 || n = 0 || 509 < n || p.length < 4 + 8 * n then none
    else (stageItems k (p.drop (4 + 8 * n))).map fun l => (leAt p 0 2, stagePairs (p.drop 4) n) :: l

/-- The items of a request under the framing in force: under v1 one word with two reserved bytes (R83). -/
def State.stageOf (s : State) (r : Req) : Option (List StageItem) :=
  if s.mb.v2 then (if r.payload.isEmpty then none else stageItems r.payload.length r.payload)
  else if r.payload.length = 12 then some [(pf r 0 2, [(pf r 4 4, pf r 8 4)])] else none

/-- The (word, mask, value) triples of items, in order. -/
def stageWrites (l : List StageItem) : List (Nat × Nat × Nat) :=
  l.flatMap fun (o, ps) => ps.zipIdx.map fun ((m, v), i) => (o + i, m, v)

/-- Writable masks of a word: RWS bits, and the bits of access RW or W1C that act at once (R71). -/
def rwsMask (n : Noun) (w : Nat) : Nat := accMask n w [.rws] &&& (0xFFFFFFFF ^^^ reservedBits n.id w)
def immMask (n : Noun) (w : Nat) : Nat := accMask n w [.rw, .w1c]

/-- Which kinds of field the mask bits address: RWS, immediate, neither writable. -/
def stageKinds (n : Noun) (ws : List (Nat × Nat × Nat)) : Bool × Bool × Bool :=
  (ws.any fun (w, m, _) => m &&& rwsMask n w != 0, ws.any fun (w, m, _) => m &&& immMask n w != 0,
    ws.any fun (w, m, _) => m &&& (0xFFFFFFFF ^^^ (rwsMask n w ||| immMask n w)) != 0)

/-- Whether a STAGE acts at once: its mask bits address fields of access RW or W1C and no RWS field (R71). -/
def stageImmediate (n : Noun) (ws : List (Nat × Nat × Nat)) : Bool :=
  let (rws, imm, _) := stageKinds n ws
  imm && !rws

/-- A word under writes: masked bits replaced (R70). -/
def writtenWord (ws : List (Nat × Nat × Nat)) (cur : Nat) (w : Nat) : Nat :=
  ws.foldl (fun c (x, m, v) => if x = w then (c &&& (0xFFFFFFFF ^^^ m)) ||| (v &&& m) else c) cur

/-- The value of a field over a word function. -/
def fieldValue (cur : Nat → Nat) (f : RegField) : Nat :=
  (List.range 3).foldl (fun t j => match f.part (f.word + j) with
    | some (lo, w, from') => t + (bits (cur (f.word + j)) lo w) <<< from'
    | none => t) 0

/-- Whether writes address a field. -/
def addresses (ws : List (Nat × Nat × Nat)) (f : RegField) : Bool :=
  ws.any fun (w, m, _) => match f.part w with
    | some (lo, wd, _) => m &&& maskOf lo wd != 0
    | none => false

/-- A staged value that is refused by itself beyond its FIELD record: an entry type that the furrow does not
allow, an entry in FURROW8, compat in native mode (04 R123; Table MB-11). -/
def State.stagedAlone (s : State) (n : Noun) (f : RegField) (v : Nat) : Bool :=
  if n.id == nSYS && f.word == 14 then s.boot.legacy
  else if nFURROW 0 ≤ n.id && n.id ≤ nFURROW 24 then
    if f.name == "type" then typeAllowed n.id v
    else if f.name == "entry_count" && n.id == nFURROW 8 then v == 0
    else true
  else true

/-- The values that one item leaves in the fields it addresses are defined, over the words that the items before it leave
(step 11). -/
def State.itemDefined (s : State) (n : Noun) (cur : Nat → Nat) (before item : List (Nat × Nat × Nat)) : Bool :=
  let new (w : Nat) := writtenWord (before ++ item) (cur w) w
  n.fields.all fun f =>
    if (f.acc == .rws || f.acc == .rw) && addresses item f then
      let v := fieldValue new f
      f.okValue v && s.stagedAlone n f v
    else true

/-- Every value that a STAGE stages is defined, item by item: one that a later item overwrites too (step 11, 00 R10). -/
def State.stageDefined (s : State) (n : Noun) (cur : Nat → Nat) (items : List StageItem) : Bool :=
  (List.range items.length).all fun i =>
    s.itemDefined n cur (stageWrites (items.take i)) (stageWrites ((items.drop i).take 1))

/-- Whether writes touch the descriptor (RW words) of a HARROW slot, of every slot or of one that is pending or
active (14 R501 and the collisions after R502). -/
def harrowTouched (n : Noun) (ws : List (Nat × Nat × Nat)) (e : Nat) : Bool :=
  n.id == nHARROW && ws.any fun (w, m, _) => m != 0 && 8 + 12 * e ≤ w && w < 20 + 12 * e && m &&& immMask n w != 0

/-- Step 9 (R73, R74): the epoch is 0 or E + 1, and no other channel owns the shadow. -/
def nextEpoch (e : Nat) : Nat := if e = 0xFFFFFFFF then 1 else e + 1

def State.epochOk (s : State) (r : Req) : Bool := !s.mb.v2 || r.epoch == 0 || r.epoch.toNat == nextEpoch s.mb.epoch

def State.shadowMine (s : State) (r : Req) : Bool :=
  match s.mb.shadow with
  | some h => h.owner == r.ch
  | none => true

/-- The words as a STAGE of one noun finds them: staged where the shadow has them, pending where a write under v1
waits for its line. -/
def State.stagedWord (s : State) (n w : Nat) : Nat :=
  let k := regKey n w
  match s.mb.legacy.reverse.find? (·.key == k) with
  | some l => l.value
  | none => match s.mb.shadow with
    | some h => if h.touched.contains k then Tab.get resetWord h.words k else s.reg n w
    | none => s.reg n w

/-- Events acknowledged: the bits are cleared in pending (13 R490). -/
def State.ackEvents (s : State) (mask : Nat) : State :=
  (s.modEv fun e => { e with pending := e.pending &&& ((2 ^ 64 - 1) ^^^ mask) }).settleInt

/-- Immediate writes: RW bits into the applied word, W1C bits acknowledge (00 Table SC-4). -/
def State.writeNow (s : State) (n : Noun) (ws : List (Nat × Nat × Nat)) : State :=
  ws.foldl (fun s (w, m, v) =>
    if n.id == nEVENTS then s.ackEvents ((m &&& v) <<< (32 * w))
    else s.setReg n.id w (writtenWord [(w, m, v)] (s.reg n.id w) w)) s

/-- RWS writes into the shadow, which opens if it is not open (R74). -/
def State.writeShadow (s : State) (r : Req) (n : Noun) (ws : List (Nat × Nat × Nat)) : State :=
  let h := s.mb.shadow.getD { owner := r.ch, words := [], touched := [] }
  let h := ws.foldl (fun h (w, m, v) =>
    if m = 0 then h
    else
      let k := regKey n.id w
      let old := if h.touched.contains k then Tab.get resetWord h.words k else s.reg n.id w
      { h with words := Tab.set resetWord h.words k (writtenWord [(w, m, v)] old w),
               touched := if h.touched.contains k then h.touched else h.touched ++ [k] }) h
  s.modMb fun m => { m with shadow := some h }

/-- The words of the applied set with the writes that wait under framing v1 and one more (R48). -/
def State.legacySet (s : State) (key value : Nat) : Words := fun n w =>
  if regKey n w = key then value
  else match s.mb.legacy.reverse.find? (·.key == regKey n w) with
    | some l => l.value
    | none => s.reg n w

/-- A field write under framing v1: checked by the rules of COMMIT, and held until the next capture line (R48). -/
def State.stageLegacy (s : State) (t : Ticket) (n : Noun) (ws : List (Nat × Nat × Nat)) : State × Answer :=
  match ws with
  | (w, m, v) :: _ =>
    let key := regKey n.id w
    let value := writtenWord [(w, m, v)] (s.stagedWord n.id w) w
    match s.checkSet (s.legacySet key value) (s.drill.mode == 0) with
    | some f => (s, .done (reasonStatus f.reason) [])
    | none => (s.modMb fun b => { b with legacy := b.legacy ++ [{ ticket := t, key, value }] }, .hold)
  | [] => (s, .done stOk [])

def execStage (r : Req) (s : State) : Host.Outcome State Fault Refusal :=
  let items := s.stageOf r
  let ws := stageWrites (items.getD [])
  .next (s.serve 0x03 r items.isSome
    (fun s =>
      let n := s.nounOf r
      let now := stageImmediate n ws
      let (rws, imm, bad) := stageKinds n ws
      [s.nounCheck r,
       (!(s.hw.sealed && (List.range 4).any (harrowTouched n ws)), stLocked),
       (s.epochOk r && (now || s.shadowMine r), stConflict),
       (now || s.mb.commit.isNone, stBusy),
       (now || s.pw.fallow.isNone, stBusy),
       (!(List.range 4).any (fun e => harrowTouched n ws e && ((nth {} s.hw.episodes e).state == 1 || (nth {} s.hw.episodes e).state == 2)), stBusy),
       (s.mb.v2 || now || (s.heldRoom r).1, stBusy),
       (s.mb.v2 || now || !s.fenced n.id, stBusy),
       (ws.all (fun (w, _, _) => w < n.words) && !bad && !(rws && imm) && (s.mb.v2 || pz r 2 2)
         && s.stageDefined n (s.stagedWord n.id) (items.getD []), stField)])
    fun s t =>
      let n := s.nounOf r
      let count := ((items.getD []).filter fun i => i.2.any fun p => p.1 != 0).length
      let reply := leBytes 2 count ++ [0, 0]
      if stageImmediate n ws then (s.writeNow n ws, .done stOk reply)
      else if count = 0 then (s, .done stOk reply)
      else if !s.mb.v2 then s.stageLegacy t n ws
      else (s.writeShadow r n ws, .done stOk reply))

/-! ### COMMIT (R75 to R81; 10 R369; 05 R185) -/

/-- Bytes of a set as STAGE items with their noun before them: (key, mask, value) triples (05 R185, log 32). -/
def autostartItems (words : List (Nat × Nat × Nat)) : List Byte :=
  words.flatMap fun (k, m, v) =>
    leBytes 2 (k / 1024) ++ [0, 0] ++ leBytes 2 (k % 1024) ++ [1, 0] ++ leBytes 4 m ++ leBytes 4 v

/-- Every word of a set whose RWS bits differ from their reset value, with the mask of those bits. -/
def savedWords (w : Words) : List (Nat × Nat × Nat) :=
  nouns.flatMap fun n => (List.range n.words).filterMap fun i =>
    let m := rwsMask n i
    if w n.id i &&& m != resetWord (regKey n.id i) &&& m then some (regKey n.id i, m, w n.id i &&& m) else none

/-- The cached SHEAF sections of a lead's planned positions (10 R374): the records of section 2 with the member's
layout, each with its own SECTION_CRC. -/
def cachedSection (k : Nat) (l : Layout) : List Byte :=
  sectionOf (recordOf 0x60 (leBytes 4 l.id ++ layoutRecordHead false l ++ leBytes 4 0 ++ leBytes 4 0 ++ leBytes 4 k)
    :: l.fields.zipIdx.map fun (f, i) => recordOf 0x61 (fieldRecordBody false i f))

def State.cachedSections (s : State) (w : Words) : List Byte :=
  if s.isLead then (planOf w).flatMap fun (k, _) => (s.cachedOf k).elim [] (cachedSection k) else []

/-- An autostart copy (05 R185). -/
def autostartCopy (seq epoch : Nat) (items sections : List Byte) : List Byte :=
  [0x4A, 0x4E, 0x41, 0x53] ++ leBytes 4 seq ++ leBytes 4 items.length ++ leBytes 4 epoch ++ leBytes 4 (crc32 items)
    ++ items ++ sections

/-- Offset of copy 0 or 1 in the SS0 window (05 Table CS-7). -/
def copyAt (i : Nat) : Nat := 0x080000 + 0x10000 * i

/-- n bytes of the NOR device. -/
def State.nor (s : State) (a n : Nat) : List Byte := Memory.readList flashEmpty s.mem.nor a n

/-- The sequence number of a valid copy. -/
def State.copySeq (s : State) (i : Nat) : Option Nat :=
  let h := s.nor (copyAt i) 20
  let n := leAt h 8 4
  if h.take 4 == [0x4A, 0x4E, 0x41, 0x53] && n ≤ 65516 && leAt h 16 4 == crc32 (s.nor (copyAt i + 20) n) then some (leAt h 4 4) else none

/-- The copy that a save rewrites: the one with the older sequence number, or one that is not valid. -/
def State.copyToWrite (s : State) : Nat × Nat :=
  match s.copySeq 0, s.copySeq 1 with
  | some a, some b => if a ≤ b then (0, b + 1) else (1, a + 1)
  | some a, none => (1, a + 1)
  | none, some b => (0, b + 1)
  | none, none => (0, 1)

/-- A set saved: the copy is erased and written (05 R185). A save that fails leaves that copy erased. -/
def State.saveAutostart (s : State) (w : Words) (epoch : Nat) (ok : Bool) : State :=
  let (i, seq) := s.copyToWrite
  let s := s.modMem fun m => { m with nor := Memory.clearRange m.nor (copyAt i) 0x10000 }
  let bytes := autostartCopy (seq % 2 ^ 32) epoch (autostartItems (savedWords w)) (s.cachedSections w)
  if ok then s.modMem fun m => { m with nor := Memory.writeList flashEmpty m.nor (copyAt i) bytes }
  else s

/-- The size limit of a copy (10 R374). -/
def State.saveTooLong (s : State) (w : Words) : Bool :=
  65536 < 20 + (autostartItems (savedWords w)).length + (s.cachedSections w).length

/-- The instant of the capture line that begins the period d periods ahead, as far as it can be foreseen. -/
def State.lineAhead (s : State) (d : Nat) : Nat := s.tm.capture + d * s.periodTicks

/-- The state as the checks see it: a STOP that takes effect at or before the line of the COMMIT leaves the drill
stopped (02, Collisions). -/
def State.atApply (s : State) (named : Option Nat) : State :=
  match s.mb.run with
  | some p =>
    let first := match p.named, named with
      | none, _ => true
      | some q, some n => periodsFrom s.tm.period q ≤ periodsFrom s.tm.period n
      | some _, none => false
    if !p.start && first then s.modDrill fun d => { d with mode := 0 } else s
  | none => s

/-- A COMMIT's checks and what they leave (R75 to R77, R81): a refusal with its detail, or a frozen shadow, whose set is
saved as it applies (R80). A period that has gone by (reason 0x000B) and a set too long for its copy are reported before any
other failed check: the model's choice (DESIGN CHOICE, log 93). -/
def State.runCommit (s : State) (r : Req) (t : Ticket) (h : Shadow) (checkTicks : Nat) (saveOk : Bool) : State × Answer :=
  let named := if pf r 0 1 = 1 then some (pf r 2 6) else none
  let w := s.wordsWith h.words h.touched
  let refuse (f : Failure) : State × Answer := (s, .done (reasonStatus f.reason) f.detail)
  let ready := s.tm.now + min checkTicks (ticksMs 20)
  let ahead := match named with
    | some p => periodsFrom s.tm.period p
    | none => 0
  let plan := s.planChanges w && !s.joined.isEmpty
  let late := named.isSome && (s.lineAhead ahead ≤ ready || (plan && s.lineAhead ahead < ready + 8 * s.periodTicks))
  match (if late then some { reason := 0x000B, noun := 0, word := 0 : Failure }
      else if bitAt (pf r 1 1) 0 && s.saveTooLong w then some { reason := 4, noun := 0, word := 0 }
      else (s.atApply named).checkSet w false) with
  | some f => refuse f
  | none =>
    let save := bitAt (pf r 1 1) 0
    if save && s.csp8.fence.isSome then (s, .done stBusy [])
    else
      let notBefore := if plan && named.isNone then s.tm.lines + 8 + ceilDiv (ready - s.tm.capture) s.periodTicks else 0
      let c : PendingCommit := { ticket := t, named, shadow := h, ready, notBefore, save := if save then some saveOk else none }
      let s := s.modMb fun m => { m with commit := some c }
      let apply := match named with
        | some p => p
        | none => addPeriod s.tm.period (c.notBefore - s.tm.lines)
      (s.ite plan (·.command .grant 0 (grantOf w apply).bytes), .hold)

/-- The detail of a refusal with reason 0x000A or 0x000B, which no noun and word cause, carries noun 0 and word 0 (DESIGN CHOICE,
log 93). -/
def execCommit (r : Req) (checkTicks : Nat) (saveOk : Bool) (s : State) : Host.Outcome State Fault Refusal :=
  .next (s.serve 0x04 r (r.length.toNat == 8)
    (fun s => [noNoun r,
      (s.epochOk r && s.shadowMine r, stConflict),
      s.heldRoom r, s.noFallow, s.notDetached,
      (s.mb.commit.isNone, stBusy),
      (!(match s.mb.shadow with | some h => s.touchesFenced h.touched | none => false), stBusy),
      (pf r 0 1 ≤ 1 && pf r 1 1 ≤ 1 && (pf r 0 1 == 0 || s.namedOk (pf r 2 6)), stField)])
    fun s t =>
      match s.mb.shadow with
      | none => (s, .done stRejected ({ reason := 0x000A, noun := 0, word := 0 : Failure }).detail)
      | some h => s.runCommit r t h checkTicks saveOk)

/-! ### DISCARD and the shadow's time-out (R74, R78) -/

/-- The shadow cleared; a pending COMMIT is answered with a status. -/
def State.dropShadow (s : State) (status : Nat) : State :=
  let c := s.mb.commit
  let s := s.modMb fun m => { m with shadow := none, commit := none }
  s.completeOpt (c.map (·.ticket)) status

def execDiscard (r : Req) (s : State) : Host.Outcome State Fault Refusal :=
  .next (s.serve 0x05 r (r.length.toNat == 0)
    (fun s => [noNoun r, (s.epochOk r && s.shadowMine r, stConflict)])
    fun s _ => (s.dropShadow stAborted, .done stOk []))

/-- After 10 s without any request on the owning channel the shadow is discarded (R74); it stands while a COMMIT is
pending (log 41). -/
def execShadowTimeout (s : State) : Host.Outcome State Fault Refusal :=
  match s.mb.shadow with
  | some h =>
    let due := (nth {} s.mb.chans h.owner.val).lastRequest + ticksS 10
    .next (if s.mb.commit.isNone then (s.at due).modMb fun m => { m with shadow := none } else s)
  | none => .next s

/-! ### START and STOP (04 R145 to R148) -/

/-- The reply of START and STOP: a period and two reserved bytes. -/
def runReply (p : Nat) : List Byte := leBytes 6 p ++ [0, 0]

/-- A START or STOP put in place of a pending one, which is answered ABORTED (04 R148). -/
def State.setRun (s : State) (run : Option PendingRun) : State :=
  let old := s.mb.run
  let s := s.modMb fun m => { m with run }
  match old with
  | some p => s.completeOpt p.ticket stAborted
  | none => s

def runChecks (r : Req) (start : Bool) (s : State) : List Check :=
  [noNoun r, s.heldRoom r, s.noFallow, (!start || s.notDetached.1, stBusy),
    (pf r 0 1 ≤ 1 && pz r 1 1 && (pf r 0 1 == 0 || s.namedOk (pf r 2 6)), stField)]

/-- The checks of R168 and R170 that writes to pair groups 1 and 2 left undone, made by a START under framing v1 (05 R188). -/
def State.pairFailure (s : State) : Option Failure :=
  let c : CheckCtx := { w := s.reg, s, layout := s.sheaf.layout, loose := false }
  firstFailure ((List.range 8).flatMap (checkPairFields c))

def execStart (r : Req) (s : State) : Host.Outcome State Fault Refusal :=
  .next (s.serve 0x06 r (r.length.toNat == 8) (runChecks r true) fun s t =>
    match (if s.mb.v2 || s.drill.mode != 0 then none else s.pairFailure) with
    | some f => (s, .done stRejected f.detail)
    | none =>
      let s := (s.setRun none).modBoot fun b => { b with autostart := false }
      if s.drill.mode != 0 then (s, .done stOk (runReply s.tm.period))
      else (s.setRun (some { ticket := some t, start := true, named := if pf r 0 1 = 1 then some (pf r 2 6) else none }), .hold))

def execStop (r : Req) (s : State) : Host.Outcome State Fault Refusal :=
  .next (s.serve 0x07 r (r.length.toNat == 8) (runChecks r false) fun s t =>
    let s := (s.setRun none).modBoot fun b => { b with autostart := false }
    if s.drill.mode == 0 then (s, .done stOk (runReply s.tm.period))
    else (s.setRun (some { ticket := some t, start := false, named := if pf r 0 1 = 1 then some (pf r 2 6) else none }), .hold))

/-! ### SNAP (04 R150, R151) -/

/-- The virtual address of a ring buffer (04 R138). -/
def State.bufferAt (s : State) (b : Nat) : Nat := s.reg nSHEAF 1 + b * s.reg nSHEAF 2

/-- The buffer that a SNAP names. -/
def State.snapBuffer (s : State) (r : Req) : Option (Nat × Buffer) :=
  if !s.sheaf.any then none
  else if pf r 0 1 = 0 then (nth none s.sheaf.buffers s.sheaf.index).map fun b => (s.sheaf.index, b)
  else (List.range 8).findSome? fun i => match nth none s.sheaf.buffers i with
    | some b => if b.period = pf r 2 6 then some (i, b) else none
    | none => none

def execSnap (r : Req) (reused : Bool) (s : State) : Host.Outcome State Fault Refusal :=
  let off := pf r 8 4
  let len := pf r 12 2
  .next (s.serve 0x09 r (r.length.toNat == 16 && s.fits r (16 + min len 4062))
    (fun s => [noNoun r,
      (pf r 0 1 ≤ 1 && pz r 1 1 && pz r 14 2 && 1 ≤ len && len ≤ 4062
        && (match s.snapBuffer r with | some (_, b) => off + len ≤ b.header + b.body | none => false), stField)])
    fun s _ =>
      match s.snapBuffer r with
      | none => (s, .done stField [])
      | some (i, b) =>
        if reused then (s, .done stAborted [])
        else match s.firmware .steward 2 [⟨.read, s.bufferAt i + off, len⟩] with
        | (s, false) => (s, .done stFault [])
        | (s, true) => (s, .done stOk (leBytes 6 b.period ++ [0, 0] ++ leBytes 4 (if s.boot.legacy then 0 else b.layout) ++ leBytes 4 off
          ++ s.virtRead 2 (s.bufferAt i + off) len)))

/-! ### EVENTS (R91; 13 R490) -/

def execEvents (r : Req) (s : State) : Host.Outcome State Fault Refusal :=
  .next (s.serve 0x0A r (r.length.toNat == 8) (fun _ => [noNoun r]) fun s _ =>
    (s.ackEvents (pf r 0 8), .done stOk (leBytes 8 s.ev.pending ++ leBytes 6 s.tm.period ++ [0, 0])))

end Sys2Proof.Machine
end

