-- ==== Sys2Proof/Machine/Drill.lean ====
section
/-! DEFINITION. The drill: launching, completing and aborting entries, held chains and their recovery frames, the
TX prefetch, and hard faults in the sheaf path (04 R126 to R137; 05 R156 to R173; 14 R492 to R495). -/

namespace Sys2Proof.Machine

/-! ### What is scheduled -/

/-- The deadline limit in force, from the capture line (01 R19; in a joined member 10 R343). -/
def State.limit (s : State) : Nat := (memberLimit s.yoke s.sheaf.layout).getD (s.periodTicks - s.headland)

/-- The run-time state of an entry. -/
def State.entry (s : State) (f e : Nat) : EntryRt := nth {} s.drill.entries (entIx f e)

/-- The profile that a CSP entry names. -/
def State.profile (s : State) (f e : Nat) : Profile := profileOf s.reg f (entTarget s.reg f e % 4)

/-- The instant of an entry's launch in the period in progress. -/
def State.launchAt (s : State) (f e : Nat) : Nat := s.tm.capture + entOffset s.reg f e

/-- The instant of an entry's effective deadline (04 R127). -/
def State.deadlineAt (s : State) (f e : Nat) : Nat := s.tm.capture + effDeadline s.reg s.limit f e

/-- The CSP fault event of a port, raised once a period (05 R173). -/
def State.portFault (s : State) (k : Nat) : State := s.raiseOnce (4 + k)

/-- The SENT group fault event of a channel, raised once a period (06 R200). -/
def State.sentFault (s : State) (c : Nat) : State := s.raiseOnce (13 + c / 8)

/-! ### Units on the wire (05 R156 to R166) -/

/-- Bits put together under msb_first (R159). -/
def assemble (msb : Bool) (xs : List Bool) : Nat := if msb then ofMsb xs else ofLsb xs

/-- The bits of a unit in the order of arrival. -/
def disassemble (msb : Bool) (w v : Nat) : List Bool := if msb then msbList w v else (msbList w v).reverse

/-- n bits of a list from an offset; bits that were not received read 0 (R162). -/
def bitSlice (xs : List Bool) (off n : Nat) : List Bool :=
  let t := (xs.drop off).take n
  t ++ List.replicate (n - t.length) false

/-- The units of a received frame (R160, R162, Table CS-1). -/
def Profile.unitsOf (p : Profile) (sdi : List Bool) : List Nat :=
  (List.range p.units).map fun j =>
    if p.mode = 1 then assemble p.msbFirst (bitSlice sdi (32 * j) (p.widthOf j))
    else assemble p.msbFirst (bitSlice sdi (p.unitBits * j) p.unitBits)

/-- The check of one unit (05 Table CS-2). -/
def unitCheck (check w v : Nat) : Bool :=
  match check with
  | 0 => true
  | 1 => popcount w v % 2 == 1
  | 2 => crc6 (msbList (w - 6) (v >>> 6)) == bits v 0 6
  | _ => crc8 (msbList (w - 8) (v >>> 8)) == bits v 0 8

/-- The check of a long frame: over the bits as received, the last ones being the check (R165). -/
def frameCheck (check : Nat) (xs : List Bool) : Bool :=
  match check with
  | 0 => true
  | 1 => (xs.filter id).length % 2 == 1
  | 2 => crc6 (xs.take (xs.length - 6)) == ofMsb (xs.drop (xs.length - 6))
  | _ => crc8 (xs.take (xs.length - 8)) == ofMsb (xs.drop (xs.length - 8))

/-- Which units of a frame pass their check. -/
def Profile.checks (p : Profile) (us : List Nat) : List Bool :=
  if p.mode = 1 then
    let xs := us.zipIdx.flatMap fun (v, j) => disassemble p.msbFirst (p.widthOf j) v
    let ok := frameCheck p.check xs
    us.map fun _ => ok
  else us.map (unitCheck p.check p.unitBits)

/-- Whether a unit is stuck: all ones or all zeros (R166). -/
def Profile.stuck (p : Profile) (j v : Nat) : Bool := v == 0 || v == 2 ^ p.widthOf j - 1

/-- The key of a unit position on a select; 4 stands for no select. -/
def stuckKey (sel j : Nat) : Nat := 64 * sel + j

/-- The select that an entry drives, 4 for none. -/
def State.selectOf (s : State) (f e : Nat) : Nat := if (s.profile f e).selectMap = 0 then 4 else entSelect s.reg f e

/-- One unit of a completed run taken into the stuck counts (R166), and its outcome. A unit that is ABSENT stays so
until a run in which it is not stuck. -/
def State.takeUnit (s : State) (k sel j : Nat) (p : Profile) (v : Nat) (ok stuck : Bool) : State × CspUnit :=
  let key := stuckKey sel j
  let port := nth {} s.csp k
  let n := if stuck then min 255 (Tab.get (fun _ => 0) port.stuck key + 1) else 0
  let was := Tab.get (fun _ => 0) port.absentNow key != 0
  let absent := stuck && (was || (p.absentPeriods != 0 && p.absentPeriods ≤ n))
  let became := absent && !was
  let s := s.modPort k fun c => { c with stuck := Tab.set (fun _ => 0) c.stuck key n,
                                         absentNow := Tab.set (fun _ => 0) c.absentNow key (b2n absent) }
  let s := if became then (s.log 0x12 (nCSP k) j 2).portFault k else s
  let s := if !ok && !absent then ((s.bump (nCSP k) 3 0 16).log 0x12 (nCSP k) j 1).portFault k else s
  (s, { bits := v, ok, absent })

/-- Every unit of a completed run. -/
def State.takeUnits (s : State) (k sel : Nat) (p : Profile) (us : List (Nat × Bool × Bool)) : State × List CspUnit :=
  us.zipIdx.foldl (fun (s, acc) ((v, ok, stuck), j) =>
    let (s, u) := s.takeUnit k sel j p v ok stuck
    (s, acc ++ [u])) (s, [])

/-- The bits that SDO carries in a frame, in the order sent: the low bits of a word for each unit, in the bit order of msb_first, or
the TX buffer in the order of its bytes (R159, R161). -/
def State.sdoOf (s : State) (f e : Nat) : List Bool :=
  let p := s.profile f e
  match p.txSource with
  | 2 => ((s.entry f e).tx.flatMap fun b => disassemble p.msbFirst 8 b.toNat).take p.frameBits
  | 1 => (List.range p.units).flatMap fun j => disassemble p.msbFirst (p.widthOf j) (if j = 0 then p.txWord else 0)
  | _ => (List.range p.units).flatMap fun j => disassemble p.msbFirst (p.widthOf j) p.txWord

/-! ### Harrow on CSP units (14 R493, R495) -/

/-- The draws for the first n units of an entry on port k, in the order in which their first bits are clocked. -/
def State.drawUnits (s : State) (k ix n : Nat) (p : Profile) : State :=
  s.each (List.range n) fun s j =>
    let (s, ps) := s.drawUnit 0 k (some j) (p.widthOf j)
    s.modHw fun h => { h with selections := h.selections ++ ps.map fun q =>
      { slot := q.slot, cls := q.cls, target := 0, source := k, entry := ix, unit := j, bit := q.bit } }

/-- The generators of the four slots. -/
def State.lfsrs (s : State) : List Nat := s.hw.episodes.map (·.lfsr)

/-- The generators put back to what they were before the units that were never clocked (R493). -/
def State.undraw (s : State) (k ix clocked : Nat) (p : Profile) : State :=
  match s.hw.drawBase.find? (·.1 == ix) with
  | none => s
  | some (_, base) =>
    let at' (n : Nat) : List Nat :=
      let t := s.modHw fun h => { h with episodes := (h.episodes.zip base).map fun (q, x) => { q with lfsr := x } }
      (t.drawUnits k ix n p).lfsrs
    let reached := ((List.range p.units).filter fun j => j * (if p.mode = 1 then 32 else p.unitBits) < clocked).length
    let all := at' p.units
    let done := at' reached
    s.modHw fun h => { h with
      episodes := h.episodes.zipIdx.map fun (q, i) => if q.lfsr = nth 0 all i then { q with lfsr := nth 0 done i } else q
      selections := h.selections.filter fun x => x.entry != ix || x.unit < reached
      drawBase := h.drawBase.filter (·.1 != ix) }

/-- The selections drawn for an entry, by slot and unit. -/
def State.selected (s : State) (ix : Nat) : List Selection :=
  let l := s.hw.selections.filter fun x => x.target == 0 && x.entry == ix
  (List.range 4).flatMap fun e => l.filter (·.slot == e)

/-- The selections of an entry and its generators' base forgotten. -/
def State.clearSelections (s : State) (ix : Nat) : State :=
  s.modHw fun h => { h with selections := h.selections.filter (fun x => !(x.target == 0 && x.entry == ix)),
                            drawBase := h.drawBase.filter (·.1 != ix) }

/-- One selection applied to the units of a frame before they are checked (14 Table HW-2). -/
def applySelection (p : Profile) (us : List Nat) (x : Selection) : List Nat × Bool :=
  match x.cls with
  | 1 | 2 => (updAt us x.unit fun v => v ^^^ 2 ^ x.bit, true)
  | 3 =>
    if x.unit + 1 < p.units then
      (updAt (updAt us x.unit fun _ => nth 0 us (x.unit + 1)) (x.unit + 1) fun _ => nth 0 us x.unit, true)
    else (us, false)
  | 4 => (us, true)
  | _ => (us, false)

/-- Every selection of a completed entry, each counted where it is applied. -/
def State.applySelections (s : State) (ix : Nat) (p : Profile) (us : List Nat) : State × List Nat :=
  (s.selected ix).foldl (fun (s, us) x =>
    if s.spent x.slot then (s, us)
    else
      let (us, did) := applySelection p us x
      (if did then s.injected x.slot else s, us)) (s, us)

/-- The bit at which a delay selected for a unit stops SCK (14 Table HW-2). -/
def State.stallBit (s : State) (p : Profile) (x : Selection) : Nat :=
  min p.frameBits (max (bits (s.hwReg x.slot 0) 16 12) (x.unit * (if p.mode = 1 then 32 else p.unitBits)))

/-! ### Writing received values through the plot map (07, capture area) -/

/-- The size bytes of a value, sign-extended where its type is signed (04 R142). -/
def valueOf (vt size : Nat) (width v : Nat) : Nat :=
  if vt / 16 = 1 then ofSigned (8 * size) (signedOf width v) else v % 2 ^ (8 * size)

/-- The value that a unit gives to a field (05 R163): position 0 is the stamp, 1 the duration. -/
def Profile.fieldValue (p : Profile) (rt : EntryRt) (f : SheafField) : Nat :=
  let pos := f.source % 256
  if pos = 0 then rt.stamp
  else if pos = 1 then rt.duration % 2 ^ 32
  else
    let hasAux := p.mode != 1 && p.auxWidth != 0
    let j := if hasAux then (pos - 2) / 2 else pos - 2
    let u := nth { bits := 0, ok := false, absent := false } rt.units j
    if p.mode = 1 then u.bits
    else if hasAux && (pos - 2) % 2 = 1 then bits u.bits p.auxLsb p.auxWidth
    else valueOf f.valueType f.size p.valueWidth (bits u.bits p.valueLsb p.valueWidth)

/-- The unit position of a CSP field, none for the stamp and the duration. -/
def Profile.unitIndex (p : Profile) (f : SheafField) : Option Nat :=
  let pos := f.source % 256
  if pos < 2 then none else some (if p.mode != 1 && p.auxWidth != 0 then (pos - 2) / 2 else pos - 2)

/-- The fields of the layout in force that an entry supplies. -/
def State.fieldsOf (s : State) (f e : Nat) : List SheafField :=
  s.sheaf.layout.fields.filter fun x => x.device == 0 && x.entry == entIx f e
    && (if f = 8 then x.noun != nYOKE else x.noun == nCSP f)

/-- The write of values to the capture area, each at its body offset (07 R239, log 33). -/
def State.captureWrites (s : State) (vs : List (SheafField × Nat)) : List (Nat × List Byte) :=
  vs.map fun (f, v) => (s.reg nPLOTMAP 1 + f.offset, leBytes f.size v)

/-- The value of a SENT frame field (06 Table SE-3). -/
def State.sentValue (s : State) (c : Nat) (f : SheafField) (x : SentFrame) : Nat :=
  match f.source with
  | 0 => valueOf f.valueType f.size (4 * sentFc1 s.reg c) x.fc1
  | 1 => valueOf f.valueType f.size (4 * (sentNibbles s.reg c - sentFc1 s.reg c)) x.fc2
  | 2 => x.status
  | _ => x.stamp

/-! ### Hard faults (04 R137) -/

/-- A hard fault in the drill or the assembler: the sheaf of the period is not published, and the committed set is
reloaded at the next capture line; another in the period after the reload halts the drill and drops to L1. -/
def State.hardFault (s : State) : State :=
  let s := s.modDrill fun d => { d with spoiled := true }
  if s.drill.hardAt == some s.tm.lines then
    let s := s.modDrill fun d => { d with mode := 0, dead := true, hardAt := none }
    (s.log 0x13 nSHEAF 0 2).fail 10 fun f => { f with drill := true }
  else
    (s.modDrill fun d => { d with hardAt := some (s.tm.lines + 1) }).log 0x13 nSHEAF 0 1

/-- What a hard fault of the drill does (07 Table PM-8): nothing once it has stopped. -/
def State.drillFault (s : State) : State := if s.drill.mode == 0 then s else s.hardFault

/-- An entry's write-back through the plot map: `u` is the state in which the entry has completed. A soft fault suspends the drill, and
the entry completes after the replay; a hard one ends its work (R129, R136, R137). -/
def State.writeBack (s u : State) (ws : List (Nat × List Byte)) : State :=
  match s.store .drill ws with
  | (_, .done) => (u.store .drill ws).1
  | (t, .waits) => t
  | (t, .ends) => t.drillFault

/-! ### Launch (04 R126, R135; 05 R158; 06 R194) -/

/-- A CSP entry launched: its select asserts, beside that of a held chain, and its stamp is taken (05 R158, R162). -/
def State.launchCsp (s : State) (f e : Nat) : State :=
  let p := s.profile f e
  let ix := entIx f e
  let at' := s.launchAt f e
  let stamp := if p.mode = 3 && p.selectMap = 0 then at' + p.lead else at'
  let sdo := s.sdoOf f e
  let s := s.modEntry ix fun r => { r with phase := .running, stamp, units := [], duration := 0, waitStart := p.mode == 3 && p.startBit }
  let own := if p.selectMap = 0 then 0 else 2 ^ entSelect s.reg f e
  let s := s.modPort f fun c => { c with
    active := some e
    sdo
    selects := c.held ||| own
    releaseAt := none
    profile := entTarget s.reg f e % 4
    burst := false }
  let s := s.modHw fun h => { h with drawBase := h.drawBase ++ [(ix, h.episodes.map (·.lfsr))] }
  s.drawUnits f ix p.units p

/-- A SENT trigger launched, or suppressed while its channel is still transmitting (04 R135). -/
def State.launchTrigger (s : State) (e : Nat) : State :=
  let c := entTarget s.reg 8 e
  let ix := entIx 8 e
  if (nth {} s.sent c).trigger.isSome then
    let s := s.modEntry ix fun r => { r with phase := .skipped, lastOutcome := 4 }
    ((s.bump (nSENT c) 7 16 16).log 0x12 (nSENT c) c 8).sentFault c
  else
    (s.modEntry ix fun r => { r with phase := .running, stamp := s.launchAt 8 e, duration := 0 }).modSent c fun x =>
      { x with trigger := some (ix, s.launchAt 8 e), good := none, errored := false }

/-- A drill entry due in this period launches exactly at its offset (R126). -/
def execEntryLaunch (furrow : Fin 9) (entry : Fin 32) (s : State) : Host.Outcome State Fault Refusal :=
  let f := furrow.val
  let e := entry.val
  if s.drillOn && (s.entry f e).phase == .waiting then
    let s := s.at (s.launchAt f e)
    .next (match entType s.reg f e with
      | 1 => s.launchCsp f e
      | 2 => s.launchTrigger e
      | _ => s.modEntry (entIx f e) fun r => { r with phase := .running, stamp := s.launchAt f e })
  else .next s

/-! ### Completion (04 R129) -/

/-- SCK rests high after a burst in encoder-read mode, else at the CPOL of the last frame's profile (05 R158, R162). -/
def State.afterBurst (s : State) (k : Nat) (c : CspPort) : Bool := (profileOf s.reg k c.profile).mode == 3

/-- The wire transfer of a port's frame is over: its select is released, and that of a held chain stays. -/
def State.releasePort (s : State) (k : Nat) : State :=
  s.modPort k fun c => { c with active := none, selects := c.held, releaseAt := none, burst := s.afterBurst k c }

/-- An entry marked complete at an instant. -/
def State.finishEntry (s : State) (f e t : Nat) (ok : Bool) : State :=
  s.modEntry (entIx f e) fun r => { r with
    phase := if ok then .complete else .completeErr
    duration := t - r.stamp
    lastEnd := (t - s.tm.capture) % 2 ^ 23
    lastOutcome := if ok then 1 else 2
    waitStart := false }

/-- A completed CSP run: its units are checked and its transfers counted; with it, the values to write back (05 R163, R165, R166,
R173). -/
def State.completeCsp (s : State) (f e t : Nat) (us : List (Nat × Bool × Bool)) : State × List (Nat × List Byte) :=
  let p := s.profile f e
  let (s, units) := s.takeUnits f (s.selectOf f e) p us
  let ok := units.all fun u => u.ok && !u.absent
  let s := ((s.modEntry (entIx f e) fun r => { r with units }).finishEntry f e t ok).releasePort f
  let s := (s.bump (nCSP f) 2 0 32).clearSelections (entIx f e)
  (s, s.captureWrites ((s.fieldsOf f e).map fun x => (x, p.fieldValue (s.entry f e) x)))

/-- A CSP entry's frame has been received: a drop selected for a unit withholds the write-back (14 Table HW-2). -/
def State.receiveCsp (s : State) (f e t : Nat) (sdi : List Bool) : State × List (Nat × List Byte) :=
  let p := s.profile f e
  let ix := entIx f e
  let drops := (s.selected ix).filter fun x => x.cls == 0 && !s.spent x.slot
  if drops.isEmpty then
    let (s, us) := s.applySelections ix p (p.unitsOf sdi)
    s.completeCsp f e t (us.zipIdx.zip (p.checks us) |>.map fun ((v, j), ok) => (v, ok, p.stuck j v))
  else
    let s := drops.foldl (fun s x => s.injected x.slot) s
    (((s.modEntry ix fun r => { r with phase := .wireDone }).releasePort f).clearSelections ix, [])

/-- The values that the last frame of a channel gives an entry's fields. -/
def State.frameWrites (s : State) (e : Nat) : List (Nat × List Byte) :=
  let c := entTarget s.reg 8 e
  match (nth {} s.sent c).good with
  | some g => s.captureWrites (((s.fieldsOf 8 e).filter (·.source < 3)).map fun x => (x, s.sentValue c x g))
  | none => []

/-- A trigger entry's frame has ended and is written (06 Table SE-2). -/
def State.completeTrigger (s : State) (e t : Nat) : State :=
  let c := entTarget s.reg 8 e
  let x := nth {} s.sent c
  if x.good.isSome || x.errored then
    s.writeBack ((s.finishEntry 8 e t x.good.isSome).modSent c fun y => { y with trigger := none }) (s.frameWrites e)
  else s

/-- The drill's write-back waits for the resolution of a soft fault (R136). -/
def State.drillWaits (s : State) : Bool := s.suspended .drill

/-- An entry's data is written through the plot map and its fields receive their status (R129). The received bits
are those that a start bit leaves; the instant is the end of the write-back, by the effective deadline. While a soft fault of the
drill is not resolved no entry completes: the row comes again after the replay (R136). -/
def execEntryComplete (furrow : Fin 9) (entry : Fin 32) (sdi : List Bool) (t : Stamp) (s : State) :
    Host.Outcome State Fault Refusal :=
  let f := furrow.val
  let e := entry.val
  let t := t.toNat
  if (s.entry f e).phase == .running && t ≤ s.deadlineAt f e && !s.drillWaits then
    let s := s.at t
    .next (match entType s.reg f e with
      | 1 => let (u, ws) := s.receiveCsp f e t sdi; s.writeBack u ws
      | 2 => s.completeTrigger e t
      | _ => s.finishEntry f e t true)
  else .next s

/-- No start bit within t_wait: the burst stops and the entry completes with an error; every unit is stuck (05 R162,
R166). -/
def execStartBitTimeout (port : Fin 8) (entry : Fin 32) (s : State) : Host.Outcome State Fault Refusal :=
  let f := port.val
  let e := entry.val
  let p := s.profile f e
  if (s.entry f e).phase == .running && (s.entry f e).waitStart && entType s.reg f e == 1 && !s.drillWaits then
    let t := s.launchAt f e + p.lead + p.wait + p.delay + p.lag + 8
    let s := s.at t
    let (u, ws) := s.completeCsp f e t ((List.range p.units).map fun _ => (0, false, true))
    .next (s.writeBack u ws)
  else .next s

/-! ### Abort (01 R19; 04 R129, R131) -/

/-- The detail of a DEADLINE record: last_outcome, offset and effective deadline (13 Table AL-3). -/
def State.deadlineDetail (s : State) (f e : Nat) : List Byte :=
  leBytes 4 3 ++ leBytes 4 (entOffset s.reg f e) ++ leBytes 4 (effDeadline s.reg s.limit f e)

/-- The instant at which an aborted frame releases its select: t_lag after SCK has stopped at its bit boundary or, past the last bit,
after the abort, and never later than the frame would have (R129, Table DR-1). -/
def State.releaseInstant (s : State) (f e clocked : Nat) : Nat :=
  let p := s.profile f e
  let first := s.launchAt f e + p.lead
  let late := max s.tm.now (first + frameTicks clocked p.div) + p.lag
  if p.mode = 3 && p.startBit then late else min late (first + frameTicks p.frameBits p.div + p.delay + p.lag)

/-- What an abort does to a port's pins: a latch-guarded chain aborted during its shift keeps its select; else the select is
released after t_lag (R129, R131). -/
def State.abortPort (s : State) (f e clocked : Nat) : State :=
  let p := s.profile f e
  if entGuard s.reg f e && clocked < p.frameBits then
    s.modPort f fun c => { c with
      active := none
      releaseAt := none
      chain := some
        { entry := e, selects := c.selects, bits := p.frameBits, div := p.div, delay := p.delay, lag := p.lag, sdo := c.sdo, since := none } }
  else
    let t := s.releaseInstant f e clocked
    s.modPort f fun c => { c with active := none, releaseAt := some t, burst := s.afterBurst f c }

/-- Selections of an aborted entry: those whose unit was never clocked are undone, a delay whose stop was reached
counts (14 R493, R494). -/
def State.abortSelections (s : State) (f e clocked : Nat) : State :=
  let p := s.profile f e
  let ix := entIx f e
  let s := s.undraw f ix clocked p
  let s := (s.selected ix).foldl (fun s x => if x.cls == 4 && !s.spent x.slot && s.stallBit p x ≤ clocked then s.injected x.slot else s) s
  s.clearSelections ix

/-- A missed deadline: counted, recorded and DEADLINE_MISS raised (R19). -/
def State.missDeadline (s : State) (f e : Nat) : State :=
  let s := (s.bump nPERIOD 4 0 32).bump (furrowNoun f) 3 0 32
  let s := s.modDrill fun d => { d with abortedNow := d.abortedNow + 1 }
  (s.log 0x10 (furrowNoun f) e 0 (s.deadlineDetail f e)).raise 2

/-- Whether a cursor of the drill lies in an entry's part of the capture area. -/
def State.entryCursor (s : State) (f e : Nat) (c : Cursor) : Bool :=
  c.agent == .drill && c.dir == .write && (s.fieldsOf f e).any fun x =>
    let a := s.reg nPLOTMAP 1 + x.offset
    elementAt .drill a ≤ c.vaddr && c.vaddr < a + x.size

/-- The replay of an aborted entry's write-back is discarded; a wake in progress completes (R136; 07 Table PM-9). -/
def State.discardWrite (s : State) (f e : Nat) : State :=
  s.modMem fun m => { m with
    faults := m.faults.filter fun c => !s.entryCursor f e c
    cursors := m.cursors.filter fun c => !s.entryCursor f e c }

/-- An entry incomplete at its effective deadline is aborted: DEADLINE_MISS is raised and counted (R19). -/
def execDeadlineAbort (furrow : Fin 9) (entry : Fin 32) (clocked : Nat) (wireDone : Bool) (s : State) :
    Host.Outcome State Fault Refusal :=
  let f := furrow.val
  let e := entry.val
  let ph := (s.entry f e).phase
  let ty := entType s.reg f e
  if (ph == .running || ph == .wireDone) && (ty == 1 || ty == 2) then
    let s := (s.at (s.deadlineAt f e)).discardWrite f e
    let s := if ty == 1 && ph == .running then
        (if wireDone then s.releasePort f else s.abortPort f e clocked).abortSelections f e (if wireDone then (s.profile f e).frameBits else clocked)
      -- a sensor that has not begun to answer is not transmitting at the next trigger instant (04 R135)
      else if ty == 2 && clocked == 0 then s.modSent (entTarget s.reg 8 e) fun x => { x with trigger := none }
      else s
    .next ((s.modEntry (entIx f e) fun r =>
      { r with phase := .aborted, lastEnd := 0, lastOutcome := 3, waitStart := false }).missDeadline f e)
  else .next s

/-! ### Parking, and the end of a DETACH (11 R402, R424) -/

/-- Every port parked: selects released, SCK at CPOL, SDO at sdo_idle, SENT lines released (11 R402). -/
def State.parkPorts (s : State) : State :=
  { s with
    csp := s.csp.map fun c => { c with active := none, selects := 0, releaseAt := none, burst := false, chain := none, slave := none }
    sent := s.sent.map fun c => { c with trigger := none } }

/-- The DETACH record, which the request waits for; where it is not written the reply follows at once (R424; 13 R473). -/
def State.detachRecord (s : State) : State :=
  let reply := leBytes 6 s.pw.detachPeriod ++ [0, 0]
  if s.flag nALMANAC 0 2 && s.alm.queue.length < 48 then
    (s.modPw fun p => { p with detach := .recording }).log 0x07 nPOWER 0 1
  else (s.modPw fun p => { p with detach := .replied, detachAt := s.tm.now }).completeOpt s.pw.detachTicket stOk reply

/-- After the recovery frames every port parks, and the record is queued behind what waits (R424). -/
def State.detachPark (s : State) : State :=
  if s.pw.detach == .parking && !(s.csp.any fun c => c.chain.isSome) then s.parkPorts.detachRecord else s

/-! ### Recovery frames (04 R131 to R134) -/

/-- The ticks of a recovery frame from the capture line to the release of its select. -/
def HeldChain.ticks (c : HeldChain) : Nat := frameTicks c.bits c.div + c.delay + c.lag

/-- The recovery frame of a port starts, with the SDO pattern of the aborted frame (R131); it shifts again from its first bit
after a halt (R133). -/
def State.startRecovery (s : State) (k : Nat) : State :=
  s.modPort k fun c => match c.chain with
    | some h => { c with chain := some { h with since := some s.tm.now }, sdo := h.sdo, selects := h.selects, releaseAt := none }
    | none => c

/-- The reset phase of a port: selects released, SCK and SDO at rest, state and counters cleared, a slave transaction cut off
(05 Table CS-8). -/
def CspPort.cleared (c : CspPort) : CspPort := { fence := c.fence, cut := c.cut || c.slave.isSome, profile := c.profile }

def State.resetPort (s : State) (k : Nat) : State := (s.modPort k (·.cleared)).clearCounts (nCSP k)

/-- The recovery frame ends and the select is released after t_lag (R131); a fenced port goes on to its reset phase
(05 Table CS-8). -/
def execRecoveryFrameEnd (port : Fin 8) (s : State) : Host.Outcome State Fault Refusal :=
  let k := port.val
  match (nth {} s.csp k).chain with
  | some h =>
    match h.since with
    | some t0 =>
      let s := (s.at (t0 + h.ticks)).modPort k fun c => { c with
        chain := none
        selects := c.selects &&& (0xF ^^^ h.selects)
        fence := c.fence.map fun f => if f.step == .recovery then { f with step := .reset } else f }
      let s := s.bump (nCSP k) 2 0 32
      let s := if (nth {} s.csp k).fence.any (·.step == .reset) then s.resetPort k else s
      .next s.detachPark
    | none => .next s
  | none => .next s

/-! ### The TX buffer (05 R172) -/

/-- The TX buffer of an entry has been read through the drill's holding in the headland. -/
def execTxPrefetchComplete (port : Fin 8) (entry : Fin 32) (s : State) : Host.Outcome State Fault Refusal :=
  let f := port.val
  let e := entry.val
  let p := s.profile f e
  let n := ceilDiv p.frameBits 8
  if entUsed s.reg f e && entType s.reg f e == 1 && p.txSource == 2 then
    match s.access .drill [⟨.read, p.txAddr, n⟩] with
    | (s, .done) => .next (s.modEntry (entIx f e) fun r => { r with txReady := true, tx := s.virtRead 1 p.txAddr n })
    | (s, .waits) => .next s
    | (s, .ends) => .next s.drillFault
  else .next s

/-! ### Hard faults (04 R137) -/

/-- A hard fault in the drill or in the assembler (R137). -/
def execDrillHardFault (assembler : Bool) (s : State) : Host.Outcome State Fault Refusal :=
  if s.drill.mode == 0 then .next s
  else .next ((if assembler then s.modSheaf fun h => { h with assembly := h.assembly.map fun a => { a with faulted := true } } else s).hardFault)

end Sys2Proof.Machine
end

