-- ==== Sys2Proof/Machine/Sheaf.lean ====
section
/-! DEFINITION. Field statuses, the assembly of a sheaf, its headers and its publication, and the CSP slave role that
serves it (01 R27 to R37; 04 R138 to R144, R152; 05 R169 to R171; 10 R353, R377). -/

namespace Sys2Proof.Machine

/-! ### Status codes (01 Table AR-3) -/

def fresh := 0
def stale := 1
def dropped := 2
def damaged := 3
def absent := 4

/-- What a source gives a field in a period: a status, and the value where it is FRESH. -/
abbrev Given := Nat × Nat

/-- Whether a fence makes a unit's fields ABSENT: from the capture line after its acceptance to its resume phase (05 R186). -/
def fencedOut (f : Option Fence) : Bool := match f with
  | some x => x.step == .recovery || x.step == .reset
  | none => false

/-! ### Own fields (04 Table DR-5) -/

/-- A CSP field (05 R163, R166). -/
def State.givenCsp (s : State) (f : SheafField) : Given :=
  let k := f.noun - nCSP 0
  let e := f.source / 256
  let p := s.profile k e
  let rt := s.entry k e
  let gone := match p.unitIndex f with
    | some j => Tab.get (fun _ => 0) (nth {} s.csp k).absentNow (stuckKey (s.selectOf k e) j) != 0
    | none => false
  if rt.phase == .absent || !s.cspOn k || gone then (absent, 0)
  else match rt.phase with
    | .notDue => (stale, 0)
    | .complete | .completeErr =>
      match p.unitIndex f with
      | none => (fresh, p.fieldValue rt f)
      | some j => if (nth { bits := 0, ok := false, absent := false } rt.units j).ok then (fresh, p.fieldValue rt f) else (damaged, 0)
    | _ => (dropped, 0)

/-- A SENT field (06 R193, R197). -/
def State.givenSent (s : State) (f : SheafField) : Given :=
  let c := f.noun - nSENT 0
  let e := f.entry - 256
  let x := nth {} s.sent c
  let rt := nth {} s.drill.entries f.entry
  if x.absent || fencedOut x.fence || !s.sentOn c then (absent, 0)
  else if rt.phase == .notDue then (stale, 0)
  else if f.source = 3 || f.source = 4 then
    match x.message with
    | some (i, d) => (fresh, if f.source = 3 then i else d)
    | none => (if x.messageBad then damaged else stale, 0)
  else if entType s.reg 8 e == 2 then
    match rt.phase with
    | .complete => (match x.good with | some g => (fresh, s.sentValue c f g) | none => (dropped, 0))
    | .completeErr => (damaged, 0)
    | _ => (dropped, 0)
  else match x.good with
    | some g => (fresh, s.sentValue c f g)
    | none => (if x.errored then damaged else stale, 0)

/-- A bitmap over the eight inputs of a bank. -/
def State.bankBits (s : State) (b : Nat) (p : EdgeIn → Bool) : Nat :=
  ofLsb ((List.range 8).map fun k => p (nth {} s.edge (8 * b + k)) && bitAt (s.reg (nEDGE b) 0) k)

/-- An edge field (06 R204). -/
def State.givenEdge (s : State) (f : SheafField) : Given :=
  let b := f.noun - nEDGE 0
  let rt := nth {} s.drill.entries f.entry
  if fencedOut (nth {} s.banks b).fence || !s.edgeBankOn b then (absent, 0)
  else if rt.phase == .notDue then (stale, 0)
  else if f.source < 8 then
    (fresh, match f.source with
      | 0 => nth 0 s.sheaf.levels b
      | 1 => s.bankBits b (·.riseNow)
      | 2 => s.bankBits b (·.fallNow)
      | _ => min 65535 (nth {} s.banks b).glitches)
  else
    let i := nth {} s.edge (8 * b + (f.source - 8) / 3)
    match (f.source - 8) % 3 with
    | 0 => (fresh, min 65535 i.count)
    | 1 => (match i.riseNow, i.rise with | true, some t => (fresh, t) | _, _ => (stale, 0))
    | _ => (match i.fallNow, i.fall with | true, some t => (fresh, t) | _, _ => (stale, 0))

/-- What an own field's source gives it. -/
def State.given (s : State) (f : SheafField) : Given :=
  if nSENT 0 ≤ f.noun && f.noun ≤ nSENT 23 then s.givenSent f
  else if nEDGE 0 ≤ f.noun && f.noun ≤ nEDGE 3 then s.givenEdge f
  else s.givenCsp f

/-- The held value of a field (01 R34). -/
def State.heldOf (s : State) (f : SheafField) : Option HeldValue :=
  s.sheaf.held.find? fun h => h.noun == f.noun && h.source == f.source && h.device == f.device

/-- The slot of a field whose source gave (status, value): FRESH takes the value at age 0, ABSENT zero at 255, any
other status the last FRESH value and the periods since (01 Table AR-3, R34). -/
def State.slotOf (s : State) (f : SheafField) (g : Given) : Slot :=
  if g.1 = fresh then ⟨g.2, fresh, 0⟩
  else if g.1 = absent then ⟨0, absent, 255⟩
  else match s.heldOf f with
    | some h => ⟨h.value, g.1, min 255 (s.tm.lines - h.line)⟩
    | none => ⟨0, g.1, 255⟩

/-- Where an own field lies in the capture area (07 R239). -/
def State.capturePart (s : State) (dir : Access) (f : SheafField) : Piece := ⟨dir, s.reg nPLOTMAP 1 + f.offset, f.size⟩

/-- The value of a field in the capture area, read through holding 2 (07 R239). -/
def State.captured (s : State) (f : SheafField) : Nat :=
  leAt (s.virtRead 2 (s.capturePart .read f).vaddr f.size) 0 f.size

/-- What an own field gets: where its source gave it a value, the value that the drill wrote to the capture area. -/
def State.gathered (s : State) (f : SheafField) : Given :=
  let g := s.given f
  if g.1 = fresh then (fresh, s.captured f) else g

/-! ### Member fields (10 Table YK-6) -/

/-- A field of a member's body: the status byte and the age follow its value (04 Table DR-4). -/
def cutSlot (body : List Byte) (m : SheafField) (more : Nat) : Slot :=
  let st := m.offset + (if m.size = 8 then 8 else 4)
  ⟨leAt body m.offset m.size, leAt body st 1, min 255 (leAt body (st + 1) 1 + more)⟩

/-- Field f of a lead's layout, the i-th of its block, in the fields of a member: where the layouts differ, the field of the same
source and size. -/
def fieldIn (fs : List SheafField) (f : SheafField) (i : Nat) : Option SheafField :=
  let same (m : SheafField) : Bool := m.noun == f.noun && m.source == f.source && m.size == f.size
  match fs[i]? with
  | some m => if same m then some m else fs.find? same
  | none => fs.find? same

/-- The last merged value of the i-th field of a position's block, with the age that it has reached (10 R353). -/
def State.lastMember (s : State) (f : SheafField) (i status : Nat) : Slot :=
  let p := s.pos f.device
  if i = 0 then s.slotOf f (status, 0)
  else match fieldIn p.lastFields f (i - 1) with
    | some m => { cutSlot p.lastBody m (s.tm.lines - p.lastLine) with status }
    | none => ⟨0, status, 255⟩

/-- The i-th field of a position's block: the link field, or the member's (i − 1)-th. -/
def State.memberSlot (s : State) (f : SheafField) (i : Nat) : Slot :=
  let p := s.pos f.device
  let link : Slot := ⟨ofSigned 16 (max (-32768) (min 32767 p.lastOffset)), fresh, 0⟩
  let none' : Slot := ⟨0, absent, 255⟩
  let merged := match p.segment with | some (0, _) | some (1, _) | some (4, _) => true | _ => false
  if (p.state != 3 && p.state != 4) || s.yoke.fence.isSome then none'
  else if p.state == 4 then (if i = 0 && merged then link else none')
  else match p.segment with
    | some (3, _) => s.lastMember f i damaged
    | some (4, _) => if i = 0 then link else none'
    | none | some (2, _) => s.lastMember f i dropped
    | some (_, body) =>
      if i = 0 then link
      else match (p.cached.map (·.fields)).bind fun fs => fs[i - 1]? with
        | some m => cutSlot body m 0
        | none => none'

/-! ### Assembly (04 R130; 01 R37) -/

/-- The slots of every field, with the index of a member field within its block. -/
def State.slots (s : State) : List Slot :=
  let fs := s.sheaf.layout.fields
  fs.zipIdx.map fun (f, i) =>
    if f.device = 0 then s.slotOf f (s.gathered f)
    else s.memberSlot f (i - (fs.findIdx fun g => g.device == f.device))

/-- The FRESH fields flagged coherent. -/
def coherentOf (fs : List SheafField) (ss : List Slot) : List SheafField :=
  ((fs.zip ss).filter fun (f, x) => x.status == fresh && f.flags % 2 == 1).map (·.1)

/-- The coherence window: latest less earliest scheduled instant (01 R37). -/
def windowOf (fs : List SheafField) : Nat :=
  match fs with
  | [] => 0
  | f :: r => (r.foldl (fun m g => max m g.sched) f.sched) - (r.foldl (fun m g => min m g.sched) f.sched)

/-- The FRESH values taken into the held values. -/
def State.hold (s : State) (ss : List Slot) : State :=
  let news := ((s.sheaf.layout.fields.zip ss).filter fun (_, x) => x.status == fresh).map fun (f, x) =>
    (⟨f.noun, f.source, f.device, x.value, s.tm.lines⟩ : HeldValue)
  let kept := s.sheaf.held.filter fun h => !(news.any fun n => n.noun == h.noun && n.source == h.source && n.device == h.device)
  s.modSheaf fun h => { h with held := kept ++ news }

/-- The window of an entry that ran ends (04 R143): a SENT channel's frames and messages, a bank's edges. -/
def State.closeEntry (s : State) (e : Nat) : State :=
  if (s.entry 8 e).phase == .notDue then s
  else match entType s.reg 8 e with
    | 2 | 3 => s.modSent (entTarget s.reg 8 e) fun x => { x with good := none, errored := false, message := none, messageBad := false }
    | 4 =>
      let b := entTarget s.reg 8 e % 4
      (s.each (List.range 8) fun s k => s.modEdge (8 * b + k) fun i => { i with count := 0, riseNow := false, fallNow := false }).modBank b
        fun x => { x with glitches := 0 }
    | _ => s

/-- Collect and edge-sample entries of the period end at the deadline limit (Table DR-1: D is 0). -/
def State.endCollect (s : State) (e : Nat) : State :=
  let t := entType s.reg 8 e
  let ph := (s.entry 8 e).phase
  if (t == 3 || t == 4) && (ph == .waiting || ph == .running) then
    s.modEntry (entIx 8 e) fun r => { r with phase := .complete, lastOutcome := 1, lastEnd := 0 }
  else s

/-! ### The bytes of a sheaf (04 R140 to R142, R152) -/

/-- A slot of a field (04 Table DR-4); header v1 has no age byte. -/
def slotBytesOf (legacy : Bool) (f : SheafField) (x : Slot) : List Byte :=
  let age := if legacy then 0 else x.age
  if f.size = 8 then leBytes 8 x.value ++ leBytes 1 x.status ++ leBytes 1 age ++ List.replicate 6 0
  else slice (leBytes f.size x.value) 0 4 ++ leBytes 1 x.status ++ leBytes 1 age ++ [0, 0]

/-- The number of slots with a status. -/
def statusCount (ss : List Slot) (st : Nat) : Nat := (ss.filter (·.status == st)).length

/-- The header's flags (04 Table DR-3). -/
def State.sheafFlags (s : State) (a : Assembly) : Nat :=
  b2n s.tm.freeRun + 2 * b2n s.chainHeld + 4 * b2n s.hw.activeNow + 8 * b2n a.newEpoch + 16 * b2n a.missingMember

/-- Header v2 (04 Table DR-3). -/
def State.headerV2 (s : State) (a : Assembly) : List Byte :=
  let l := s.sheaf.layout
  let h := [0x4A, 0x4E, 0x53, 0x48, 2] ++ leBytes 1 l.stack ++ leBytes 2 64 ++ leBytes 4 l.bodySize ++ leBytes 4 l.id
    ++ leBytes 6 a.period ++ leBytes 2 (s.sheafFlags a) ++ leBytes 8 s.tm.capture ++ leBytes 4 s.mb.epoch
    ++ leBytes 4 a.window ++ leBytes 2 a.coherent
    ++ [fresh, stale, dropped, damaged, absent].flatMap (fun st => leBytes 2 (statusCount a.slots st))
    ++ leBytes 2 a.early ++ leBytes 2 s.drill.abortedNow ++ [0, 0, 0, 0]
  h ++ leBytes 4 (crc32 h)

/-- Header v1 (04 Table DR-8). -/
def State.headerV1 (s : State) (a : Assembly) : List Byte :=
  [0x4A, 0x01] ++ leBytes 2 s.sheaf.layout.fields.length ++ leBytes 4 a.period ++ leBytes 8 s.tm.capture ++ leBytes 4 a.window
    ++ leBytes 2 a.coherent ++ leBytes 2 (s.sheafFlags a % 16) ++ leBytes 2 (statusCount a.slots dropped)
    ++ leBytes 2 (statusCount a.slots damaged) ++ leBytes 2 (statusCount a.slots absent) ++ leBytes 2 (statusCount a.slots stale)

/-- The header and the body of the sheaf assembled. -/
def State.sheafOf (s : State) (a : Assembly) : List Byte :=
  (if s.boot.legacy then s.headerV1 a else s.headerV2 a)
    ++ (s.sheaf.layout.fields.zip a.slots).flatMap fun (f, x) => slotBytesOf s.boot.legacy f x

/-- The buffer that the next sheaf is written to. -/
def State.nextBuffer (s : State) : Nat := if s.sheaf.any then (s.sheaf.index + 1) % 8 else 0

/-! ### The assembler's rows (04 R130; 07 R239) -/

/-- The FRESH values of collect and edge-sample entries, which the drill writes to the capture area at the limit. -/
def State.collectWrites (s : State) : List (Nat × List Byte) :=
  let fs := s.sheaf.layout.fields.filter fun f => f.device == 0 && 256 ≤ f.entry && entType s.reg 8 (f.entry - 256) != 2
  s.captureWrites ((fs.map fun f => (f, s.given f)).filterMap fun (f, g) => if g.1 = fresh then some (f, g.2) else none)

/-- What the assembler reads: the capture area's values of the FRESH own fields. -/
def State.assemblyParts (s : State) : List Piece :=
  (s.sheaf.layout.fields.filter fun f => f.device == 0 && (s.given f).1 == fresh).map (s.capturePart .read)

/-- The assembly begun: every field takes its value, status and age (04 R130, R143). -/
def State.assemble (s : State) : State :=
  let s := s.modYoke fun y => { y with positions := y.positions.map (·.giveUp) }
  let ss := s.slots
  let coh := coherentOf s.sheaf.layout.fields ss
  let missing := s.isLead && (planOf s.reg).any fun (k, _) => match (s.pos k).segment with
    | some (0, _) | some (1, _) | some (4, _) => false
    | _ => true
  let a : Assembly :=
    { period := s.tm.period, slots := ss, window := windowOf coh, coherent := coh.length, done := false, faulted := false
      missingMember := missing, early := s.tm.earlyCount % 65536, newEpoch := s.sheaf.newEpoch }
  let s := (s.hold ss).modSheaf fun h => { h with assembly := some a, newEpoch := false }
  s.each (List.range (entryCount s.reg 8)) State.closeEntry

/-- A hard fault of the assembler (07 Table PM-8). -/
def State.assemblerFault (s : State) : State :=
  if s.drill.mode == 0 then s
  else (s.modSheaf fun h => { h with assembly := h.assembly.map fun a => { a with faulted := true } }).hardFault

/-- Assembly starts at the deadline limit: the drill writes what SENT channels and edge banks collected, and the assembler reads the
capture area. Where either meets a soft fault the row comes again after the replay (04 R130; 07 R239, R242). -/
def execAssemblyStart (s : State) : Host.Outcome State Fault Refusal :=
  if s.drillOn && s.drill.polled && s.sheaf.assembly.isNone then
    let s := (s.at (s.tm.capture + s.limit)).each (List.range (entryCount s.reg 8)) State.endCollect
    match s.store .drill s.collectWrites with
    | (s, .waits) => .next s
    | (s, .ends) => .next s.drillFault
    | (s, .done) => match s.access .assembler s.assemblyParts with
      | (s, .waits) => .next s
      | (s, .ends) => .next s.assemblerFault
      | (s, .done) => .next s.assemble
  else .next s

/-- The assembler finishes the buffer for the period, A ticks at most after the limit: it writes the sheaf through holding 2 (04
R130). -/
def execAssemblyComplete (s : State) : Host.Outcome State Fault Refusal :=
  match s.sheaf.assembly with
  | some a =>
    if a.done || a.faulted then .next s
    else
      let s := s.at (s.tm.capture + s.limit + s.sheaf.ticks)
      match s.store .assembler [(s.bufferAt s.nextBuffer, s.sheafOf a)] with
      | (s, .done) => .next (s.modSheaf fun h => { h with assembly := some { a with done := true } })
      | (s, .waits) => .next s
      | (s, .ends) => .next s.assemblerFault
  | none => .next s

/-! ### The TWT1 mirror (06 R218) -/

/-- The range of one virtual target copied into the mirror; a range whose copy meets a fault keeps its copy. -/
def State.copyTarget (s : State) (buffer period layout k : Nat) : State :=
  let w := s.reg (nTWT 1) (3 + k)
  let len := bits w 17 7
  let a := s.bufferAt buffer + headerSize s.boot.legacy + bits w 0 17
  if len = 0 then s
  else match s.access .mirrorCopy [⟨.read, a, len⟩] with
    | (s, .done) => { s with mirror := updAt s.mirror k fun m => { m with period, layout, valid := true, data := s.virtRead 2 a len } }
    | (s, _) => s

/-- Every virtual target's range of the body of the latest published sheaf copied into the mirror: at its publication, and again
once a soft fault has been resolved. -/
def State.refreshMirror (s : State) : State :=
  match nth none s.sheaf.buffers s.sheaf.index with
  | some b => s.each ((List.range 63).map (· + 1)) fun s k => s.copyTarget s.sheaf.index b.period b.layout k
  | none => s

/-! ### Publication (01 R28 to R32) -/

/-- Why the sheaf of the period that ends is not published: 3 a hard fault, 2 a plot fault, 1 a headland overrun
(13 Table AL-3); 0 where it is published. -/
def State.unpublished (s : State) : Nat :=
  if s.drill.spoiled then 3
  else if s.suspended .assembler then 2
  else match s.sheaf.assembly with
    | none => 1
    | some a => if a.faulted then 2 else if a.done then 0 else 1

/-- A slave transaction whose latched buffer is reused. -/
def CspPort.reuse (b : Nat) (c : CspPort) : CspPort :=
  match c.slave with
  | some t => if t.buffer == some b then { c with slave := some { t with starved := true } } else c
  | none => c

/-- The sheaf published at the end of its period's headland: one write of the publish index, and SHEAF_READY (R28). -/
def State.publish (s : State) (a : Assembly) : State :=
  let b := s.nextBuffer
  let l := s.sheaf.layout
  let n := s.sheaf.published + 1
  let x : Buffer := { period := a.period, layout := l.id, header := headerSize s.boot.legacy, body := l.bodySize, order := n }
  let s := s.modSheaf fun h => { h with index := b, any := true, buffers := updAt h.buffers b (fun _ => some x), lastPeriod := a.period, published := n }
  -- a slave transaction whose buffer is reused underruns (05 R171)
  let s := s.each (List.range 8) fun s k => s.modPort k (CspPort.reuse b)
  ((s.bump nSHEAF 9 0 32).raise 0).refreshMirror

/-- A period of the running drill with no published sheaf (R30 to R32). -/
def State.unpublish (s : State) (why : Nat) : State :=
  let s := ((s.bump nSHEAF 10 0 32).log 0x11 nSHEAF 0 why).raise 1
  if why = 1 then (s.bump nPERIOD 5 16 16).raise 3 else s

/-- The end of a period for the sheaf path; the period of a hard fault that halts the drill counts too (R31, R137). -/
def State.endSheaf (s : State) : State :=
  let s := if s.drill.polled && (s.drillOn || s.drill.spoiled) then
      match s.unpublished, s.sheaf.assembly with
      | 0, some a => s.publish a
      | why, _ => s.unpublish why
    else s
  -- no operation of the sheaf path goes on into the next period (07 Table PM-9)
  (((s.modSheaf fun h => { h with assembly := none }).modDrill fun d => { d with spoiled := false }).dropCursors .drill).dropCursors .assembler

/-! ### The CSP slave role (05 R169 to R171) -/

/-- The prefix word of a transaction. -/
def slavePrefix (port : CspPort) (b : Option Buffer) : Nat :=
  match b with
  | none => 0
  | some b =>
    let rep := match port.slaveLast with | some (o, _) => o == b.order | none => false
    let lay := match port.slaveLast with | some (_, l) => l != b.layout | none => false
    b.period % 2 ^ 24 + 2 ^ 24 * b2n rep + 2 ^ 25 * b2n (port.underrun || port.cut) + 2 ^ 26 * b2n lay

/-- A number as units of a profile's width in its bit order: the bytes of a unit are least significant first (00 R8; 05 R159). -/
def Profile.unitBitsOf (p : Profile) (bs : List Byte) : List Bool :=
  let n := p.unitBits / 8
  (List.range (bs.length / max 1 n)).flatMap fun j => disassemble p.msbFirst p.unitBits (leAt bs (n * j) n)

/-- SS0 asserts: the port latches the latest published sheaf and sends its prefix, in the bit order of profile 0. Before any sheaf
has been published every unit is zero and counts as an underrun (R171). -/
def execSlaveTransactionStart (port : Fin 8) (s : State) : Host.Outcome State Fault Refusal :=
  let k := port.val
  let c := nth {} s.csp k
  if s.cspOn k && s.flag (nCSP k) 0 1 && c.slave.isNone && !fencedOut c.fence then
    let b := if s.sheaf.any then nth none s.sheaf.buffers s.sheaf.index else none
    let p := disassemble (profileOf s.reg k 0).msbFirst 32 (slavePrefix c b)
    let tx : SlaveTx :=
      { buffer := if b.isSome then some s.sheaf.index else none, order := (b.map (·.order)).getD 0
        repeated := bitAt (slavePrefix c b) 24, sent := p, starved := b.isNone }
    .next (s.modPort k fun c => { c with slave := some tx, cut := false, selects := 1, sdo := p })
  else .next s

/-- What a transaction of n units reads: the served range of the latched buffer (R169). -/
def State.slavePart (s : State) (k : Nat) (tx : SlaveTx) (units : Nat) : Option Piece :=
  let n := units * ((profileOf s.reg k 0).unitBits / 8)
  (tx.buffer.bind fun i => (nth none s.sheaf.buffers i).map fun b => (i, b)).map fun (i, b) =>
    let len := bits (s.reg (nCSP k) 41) 0 17
    ⟨.read, s.bufferAt i + bits (s.reg (nCSP k) 40) 0 17, min n (if len = 0 then b.header + b.body else len)⟩

/-- The bytes of n units after the prefix: the served range, then zero (R169). -/
def State.slaveBytes (s : State) (k : Nat) (tx : SlaveTx) (units : Nat) : List Byte :=
  let n := units * ((profileOf s.reg k 0).unitBits / 8)
  match s.slavePart k tx units with
  | none => List.replicate n 0
  | some x => slice (s.virtRead 2 x.vaddr x.len) 0 n

/-- The bits that a transaction of n units sends, of which the first m could be supplied: each later unit repeats the one before it,
the prefix standing before the first (R169, R171). -/
def State.slaveBits (s : State) (k : Nat) (tx : SlaveTx) (units m : Nat) : List Bool :=
  let p := profileOf s.reg k 0
  let good := tx.sent ++ p.unitBitsOf (s.slaveBytes k tx m)
  if tx.buffer.isNone then tx.sent ++ List.replicate (units * p.unitBits) false
  else good ++ (List.range (units - m)).flatMap fun _ => lastN p.unitBits good

/-- SS0 releases: the transaction is counted, with one underrun, and the port's event, where a unit could not be supplied, as after a
plot fault of the reader (R171; 07 Table PM-8).
Which unit was the first the row does not say: a free value. -/
def execSlaveTransactionEnd (port : Fin 8) (units : Nat) (starved : Bool) (s : State) : Host.Outcome State Fault Refusal :=
  let k := port.val
  match (nth {} s.csp k).slave with
  | none => .next s
  | some tx =>
    let (s, r) := s.access .slaveReader (s.slavePart k tx units).toList
    let under := starved || tx.starved || r != .done
    let m := if under then min units (Config.unitsSupplied s.freeCount) else units
    let sent := s.slaveBits k tx units m
    let last := (tx.buffer.bind fun i => nth none s.sheaf.buffers i).map fun b => (tx.order, b.layout)
    let s := if under then { s with freeCount := s.freeCount + 1 } else s
    let s := (s.bump (nCSP k) 2 0 32).modPort k fun c => { c with
      slave := none
      selects := 0
      underrun := under
      sdo := sent
      slaveLast := if last.isSome then last else c.slaveLast }
    .next (if under then ((s.bump (nCSP k) 3 16 16).log 0x12 (nCSP k) 0 3).raise (4 + k) else s)

end Sys2Proof.Machine
end

