-- ==== Sys2Proof/Machine/Sent.lean ====
section
/-! DEFINITION. The SENT receivers and the edge inputs (06 R189 to R207; 14 Table HW-2). -/

namespace Sys2Proof.Machine

/-! ### Decoding a frame (06 R190 to R192) -/

/-- Whether a pulse, in CK_SENT cycles of 125 ns, lasts 56 nominal ticks ±25 %; the tick is in 0.1 µs (R190). -/
def calLike (tick p : Nat) : Bool := 336 * tick ≤ 10 * p && 10 * p ≤ 560 * tick

/-- Whether a pulse differs by at most 1.5625 % from the previous accepted calibration pulse (R190). -/
def calNear (prev : Option Nat) (p : Nat) : Bool := match prev with
  | some q => (max p q - min p q) * 64 ≤ q
  | none => true

/-- Whole ticks of a pulse: its length over the measured tick, rounded, halves up (R191). -/
def wholeTicks (cal p : Nat) : Nat := (2 * p * 56 + cal) / (2 * max 1 cal)

/-- Four shifts of the 4-bit register under x^4 + x^3 + x^2 + 1 (PRESUMED, SAE J2716; log 20). -/
def sentShift (c : Nat) : Nat := (List.range 4).foldl (fun c _ => if c / 8 % 2 = 1 then (2 * c % 16) ^^^ 0xD else 2 * c % 16) c

/-- The fast-channel CRC: initial value 5; the recommended form adds a zero nibble (06 Table SE-1; log 20). -/
def sentCrc (legacy : Bool) (ns : List Nat) : Nat :=
  let c := ns.foldl (fun c n => n ^^^ sentShift c) 5
  if legacy then c else sentShift c

/-- One frame as its pulses give it. -/
structure Decoded where
  accepted : Bool
  nibbles : List Nat
  timing : Bool
  crc : Bool
  deriving DecidableEq, Repr

/-- The words that a frame is decoded under: those of the set in which its calibration pulse ended (06, Collisions). -/
def State.sentWords (s : State) (c syncEnd : Nat) : Words :=
  match (nth {} s.sent c).old with
  | some (t, _, ws) => fun n i => if n = nSENT c && i < 3 && syncEnd < t then nth 0 ws i else s.reg n i
  | none => s.reg

/-- The calibration pulse that a frame's is compared with. -/
def State.calBefore (s : State) (c syncEnd : Nat) : Option Nat :=
  let x := nth {} s.sent c
  match x.old with
  | some (t, p, _) => if syncEnd < t then p else x.prevCal
  | none => x.prevCal

/-- A frame decoded under a set: the pulses from its calibration pulse on, and the pulse in the position of the next one. Bits
flipped by Harrow count from bit 0 of the CRC nibble (14 R494). -/
def decodeSent (w : Words) (prev : Option Nat) (c : Nat) (pulses : List Nat) (nextPulse : Nat) (flips : List Nat) : Decoded :=
  let tick := sentTick w c
  let cal := nth 0 pulses 0
  let accepted := calLike tick cal && calNear prev cal
  let n := sentNibbles w c + 2
  let rest := pulses.drop 1
  let nibs := rest.take n
  let mode := sentPause w c
  let pause := rest[n]?
  let countBad := nibs.length < n || nibs.any (calLike tick) || !calLike tick nextPulse || (mode != 0 && pause.isNone)
  let ts := nibs.map (wholeTicks cal)
  let rangeBad := ts.any fun t => t < 12 || 27 < t
  let pauseBad := match mode, pause with
    | 1, some p => wholeTicks cal p < 12 || 768 < wholeTicks cal p
    | 2, some p => wholeTicks cal (cal + nibs.foldl (· + ·) 0 + p) != sentFrameLen w c
    | _, _ => false
  let vals := ts.map (· - 12)
  let vals := flips.foldl (fun v k => updAt v (n - 1 - k / 4) fun x => x ^^^ 2 ^ (k % 4)) vals
  let data := (vals.drop 1).take (n - 2)
  { accepted, nibbles := vals, timing := !accepted || countBad || rangeBad || pauseBad
    crc := sentCrc (bitAt (w (nSENT c) 0) 2) data == nth 0 vals (n - 1) }

/-- A number from its nibbles, the first the most significant (06 Table SE-3). -/
def ofNibbles (ns : List Nat) : Nat := ns.foldl (fun a n => 16 * a + n) 0

/-- The values of an error-free frame. -/
def frameOf (w : Words) (c : Nat) (d : Decoded) (stamp : Nat) : SentFrame :=
  let data := (d.nibbles.drop 1).take (sentNibbles w c)
  { fc1 := ofNibbles (data.take (sentFc1 w c)), fc2 := ofNibbles (data.drop (sentFc1 w c))
    status := nth 0 d.nibbles 0, stamp }

/-! ### Serial messages (R192; forms PRESUMED from SAE J2716, log 20) -/

/-- Bits 3 and 2 of status nibbles as numbers, the first the most significant. -/
def serialBits (b : Nat) (ns : List Nat) : List Bool := ns.map fun n => bitAt n b

/-- A short message of 16 frames: bit 3 marks its start, bit 2 carries ID, data and CRC. -/
def shortMessage (legacy : Bool) (ns : List Nat) : Nat × Nat × Bool :=
  let x := ofMsb (serialBits 2 ns)
  (bits x 12 4, bits x 4 8, sentCrc legacy [bits x 12 4, bits x 8 4, bits x 4 4] == bits x 0 4)

/-- The 6-bit CRC of an enhanced message: x^6 + x^4 + x^3 + 1, initial value 0b010101, six zero bits appended. -/
def serialCrc6 (xs : List Bool) : Nat :=
  (xs ++ List.replicate 6 false).foldl (fun c b =>
    let t := (2 * c) % 64 + b2n b
    if c / 32 % 2 = 1 then t ^^^ 0x19 else t) 0x15

/-- Whether 18 frames are an enhanced message: bit 3 begins 111111 0 and is 0 in frames 13 and 18. -/
def enhancedFramed (ns : List Nat) : Bool :=
  let x := serialBits 3 ns
  x.length == 18 && (x.take 6).all id && !(x.getD 6 true) && !(x.getD 12 true) && !(x.getD 17 true)

/-- An enhanced message: ID of 8 bits with 12 data bits, or with the configuration bit ID of 4 bits with 16. -/
def enhancedMessage (ns : List Nat) : Nat × Nat × Bool :=
  let x3 := serialBits 3 ns
  let x2 := serialBits 2 ns
  let d := ofMsb (x2.drop 6)
  let hi := ofMsb ((x3.drop 8).take 4)
  let lo := ofMsb ((x3.drop 13).take 4)
  let body := (ns.drop 6).flatMap fun n => [bitAt n 2, bitAt n 3]
  let ok := serialCrc6 body == ofMsb (x2.take 6)
  if x3.getD 7 false then (hi, 4096 * lo + d, ok) else (16 * hi + lo, d, ok)

/-- A completed message: delivered, or counted as a serial error (R192, R200). -/
def State.serialDone (s : State) (c : Nat) (m : Nat × Nat × Bool) : State :=
  let (i, d, ok) := m
  let s := s.modSent c fun x => { x with serial := { nibbles := [] } }
  if ok then s.modSent c fun x => { x with message := some (i, d) }
  else (((s.modSent c fun x => { x with messageBad := true }).bump (nSENT c) 7 0 16).log 0x12 (nSENT c) c 7).sentFault c

/-- One status nibble of an error-free frame taken into the message in progress. -/
def State.serialNibble (s : State) (c n : Nat) : State :=
  let ns := (nth {} s.sent c).serial.nibbles
  match sentSerial s.reg c with
  | 0 => s
  | 1 =>
    let ns := if bitAt n 3 then [n] else if ns.isEmpty then [] else ns ++ [n]
    let s := s.modSent c fun x => { x with serial := { nibbles := ns } }
    if ns.length = 16 then s.serialDone c (shortMessage (s.flag (nSENT c) 0 2) ns) else s
  | _ =>
    let ns := lastN 18 (ns ++ [n])
    let s := s.modSent c fun x => { x with serial := { nibbles := ns } }
    if enhancedFramed ns then s.serialDone c (enhancedMessage ns) else s

/-! ### SENT_FRAME_END (R191, R193; 14 R495) -/

/-- An error-free frame delivered to its window; a frame held back for a reorder follows it (14 Table HW-2). -/
def State.deliverSent (s : State) (c : Nat) (f : SentFrame) : State :=
  let s := s.modSent c fun x => { x with good := some f, absent := false }
  match s.hw.heldFrames.find? fun h => h.source == c && h.due.isNone with
  | some h => (s.modHw fun w => { w with heldFrames := w.heldFrames.filter fun g => !(g.source == c && g.due.isNone) }).modSent c
      fun x => { x with good := some h.frame }
  | none => s

/-- An errored frame: counted, and the message in progress is discarded (R191, R192, R200). -/
def State.errorSent (s : State) (c : Nat) (d : Decoded) : State :=
  let s := s.modSent c fun x => { x with errored := true, serial := { nibbles := [] } }
  let s := if d.timing then s.bump (nSENT c) 6 16 16 else s.bump (nSENT c) 6 0 16
  (s.log 0x12 (nSENT c) c 7).sentFault c

/-- An error-free frame, delivered at once, held for the next frame, or held for a delay. -/
def State.goodSent (s : State) (c : Nat) (f : SentFrame) (ps : List Pick) : State :=
  let s := s.bump (nSENT c) 5 0 32
  let s := s.serialNibble c f.status
  match ps.find? (fun p => p.cls == 3 || p.cls == 4) with
  | some p =>
    let due := if p.cls = 4 then some (s.tm.now + 1875 * bits (s.hwReg p.slot 4) 0 8) else none
    (s.injected p.slot).modHw fun h => { h with heldFrames := h.heldFrames ++ [⟨c, f, due, p.slot⟩] }
  | none => s.deliverSent c f

/-- A received frame decoded and recorded. -/
def State.takeSent (s : State) (c : Nat) (pulses : List Nat) (nextPulse syncEnd : Nat) : State :=
  let x := nth {} s.sent c
  let (s, ps) := s.drawUnit 1 c none (4 * (sentNibbles s.reg c + 1))
  let drops := ps.filter (·.cls == 0)
  if !drops.isEmpty then
    (drops.foldl (fun s p => s.injected p.slot) s).modSent c fun x => { x with trigger := none }
  else
    let flips := ps.filter fun p => p.cls == 1 || p.cls == 2
    let w := s.sentWords c syncEnd
    let d := decodeSent w (s.calBefore c syncEnd) c pulses nextPulse (flips.map (·.bit))
    let late := x.old.any fun o => syncEnd < o.1
    let s := flips.foldl (fun s p => s.injected p.slot) s
    let s := s.modSent c fun x => { x with lastEnd := s.tm.now, locked := d.accepted, old := x.old.filter fun o => syncEnd < o.1 }
    let s := if d.accepted && !late then s.modSent c fun x => { x with prevCal := some (nth 0 pulses 0), cal := nth 0 pulses 0 % 65536 } else s
    let stamp := match x.trigger with | some (_, o) => o | none => syncEnd
    if d.timing || !d.crc then s.errorSent c d else s.goodSent c (frameOf w c d stamp) ps

/-- A frame ends on a channel's line. In SPC mode a frame without a trigger, or of an entry that was aborted, is discarded, and has yet
ended on the line (R194, R197; 04 Table DR-1). -/
def execSentFrameEnd (c : Fin 24) (pulses : List Nat) (nextPulse : Nat) (syncEnd t : Stamp) (s : State) :
    Host.Outcome State Fault Refusal :=
  let x := nth {} s.sent c.val
  if !s.sentOn c.val || fencedOut x.fence then .next s
  else
    let s := (s.at t.toNat).modSent c.val fun x => { x with lastEnd := t.toNat }
    if s.flag (nSENT c.val) 0 1 then
      match x.trigger with
      | none => .next s
      | some (ix, _) =>
        if (nth {} s.drill.entries ix).phase == .running then .next (s.takeSent c.val pulses nextPulse syncEnd.toNat)
        else .next (s.modSent c.val fun x => { x with trigger := none })
    else .next (s.takeSent c.val pulses nextPulse syncEnd.toNat)

/-- No frame for absent_ms: the channel becomes ABSENT (R197, R200). -/
def execSentAbsentTimeout (c : Fin 24) (s : State) : Host.Outcome State Fault Refusal :=
  let k := c.val
  let ms := s.fld (nSENT k) 1 21 8
  if s.sentOn k && ms != 0 && !(nth {} s.sent k).absent then
    let s := (s.at ((nth {} s.sent k).lastEnd + ticksMs ms)).modSent k fun x => { x with absent := true, locked := false }
    .next ((s.log 0x12 (nSENT k) k 2).sentFault k)
  else .next s

/-! ### Edge inputs (06 R201 to R207) -/

/-- debounce_us of input i. -/
def State.debounce (s : State) (i : Nat) : Nat := s.fld (nEDGE (i / 8)) (4 + i % 8) 0 14

/-- A change of level accepted with the stamp of the edge that began the stable interval (R202, R207). -/
def State.acceptEdge (s : State) (i stamp : Nat) : State :=
  let b := i / 8
  let k := i % 8
  let lv := (nth {} s.edge i).seen
  let s := s.modEdge i fun x => { x with level := lv, since := none, count := x.count + 1,
                                         rise := if lv then some stamp else x.rise, fall := if lv then x.fall else some stamp,
                                         riseNow := x.riseNow || lv, fallNow := x.fallNow || !lv }
  let s := s.bump (nEDGE b) 3 0 32
  let sel := s.fld (nEDGE b) (4 + k) 14 2
  if bitAt (s.reg (nEDGE b) 0) (24 + k) && (sel == 0 || (sel == 1 && lv) || (sel == 2 && !lv)) then s.raiseOnce (16 + b) else s

/-- Whether an input is enabled on a running bank whose fence lets edges through. -/
def State.edgeOn (s : State) (i : Nat) : Bool :=
  s.edgeBankOn (i / 8) && bitAt (s.reg (nEDGE (i / 8)) 0) (i % 8) && !fencedOut (nth {} s.banks (i / 8)).fence

/-- An edge crosses the pin of an input: `level` is the pin's new level. With debounce_us 0 it is accepted at once;
a pulse that ends before debounce_us is a glitch (R201, R202). An edge that the bank does not take only sets the level (R222). -/
def execEdgeSeen (i : Fin 32) (level : Bool) (t : Stamp) (s : State) : Host.Outcome State Fault Refusal :=
  let i := i.val
  let b := i / 8
  let lv := level != bitAt (s.reg (nEDGE b) 0) (8 + i % 8)
  if !s.edgeOn i then .next (s.modEdge i fun x => { x with seen := lv, level := lv, since := none })
  else
    let s := s.at t.toNat
    let x := nth {} s.edge i
    let s := s.modEdge i fun x => { x with seen := lv }
    if lv == x.level then
      if x.since.isSome then
        .next (((s.modEdge i fun x => { x with since := none }).bump (nEDGE b) 2 0 32).modBank b fun y => { y with glitches := y.glitches + 1 })
      else .next s
    else if s.debounce i = 0 then .next (s.acceptEdge i t.toNat)
    else .next (s.modEdge i fun x => { x with since := some (x.since.getD t.toNat) })

/-- A level stable for debounce_us is accepted (R202). -/
def execEdgeAccept (i : Fin 32) (s : State) : Host.Outcome State Fault Refusal :=
  let i := i.val
  match (nth {} s.edge i).since with
  | some t0 => if s.edgeOn i then .next ((s.at (t0 + ticksUs (s.debounce i))).acceptEdge i t0) else .next s
  | none => .next s

end Sys2Proof.Machine
end

