-- ==== Sys2Proof/Machine/Twt.lean ====
section
/-! DEFINITION. The two-wire targets: their registers, the mailbox window and the virtual targets (06 R208 to R221). -/

namespace Sys2Proof.Machine

/-- The channel of a two-wire target: TWT0 carries MBX1 and TWT1 MBX2 (02 Table MB-1). -/
def twtChan (k : Nat) : Nat := k + 1

/-- TWT0 answers from 6 ms after VIN crosses UVLO, 1.5 ms after the release (12 Table CK-6); TWT1 while it is enabled
and the level is at least L2, through steward restarts and swaps (R212); neither in a detach cycle, while fenced, or in a sleeping device (06 Table SE-7). -/
def State.twtUp (s : State) (k : Nat) : Bool :=
  s.pw.state == .run && (nth {} s.twt k).fence.isNone
    && !(s.boot.phase == .off || s.boot.phase == .held)
    && (if k = 0 then s.boot.kind != .reset || s.boot.phase != .rom || ticksUs 1500 ≤ s.tm.now
        else s.flag (nTWT 1) 0 0 && 2 ≤ s.lev.level)

/-- Whether the address is acknowledged: the target answers, and no request is being handed over. -/
def State.twtAck (s : State) (k : Nat) : Bool := s.twtUp k && (nth {} s.twt k).busyUntil ≤ s.tm.now

/-- An address that was not acknowledged. -/
def State.nackAddress (s : State) (k : Nat) : State :=
  (s.bump (nTWT k) 2 16 16).modTwt k fun t => { t with acked := false, out := [] }

/-- A pointer or data byte that was not acknowledged. -/
def State.nackData (s : State) (k : Nat) : State :=
  (s.bump (nTWT k) 3 0 16).modTwt k fun t => { t with acked := false, out := [] }

/-- The activity event of a target, raised once a period (R221). -/
def State.twtEvent (s : State) (k : Nat) : State := s.raiseOnce (20 + k)

/-- Whether the mailbox window is served: mailboxes ready, or on TWT0 in ROM service. -/
def State.windowServed (s : State) (k : Nat) : Bool := s.serves (twtChan k)

/-- A completed read: the bytes it clocked out. -/
def State.twtOut (s : State) (k : Nat) (bs : List Byte) : State :=
  (s.bump (nTWT k) 1 0 32).modTwt k fun t => { t with acked := true, out := bs }

/-! ### Replies collected (02 R66; 01 R47) -/

/-- The oldest reply of a channel taken from its queue: flow control ends, and a change of framing whose reply it was
takes effect with a new table generation (01 R47; 03 Table SX-10). -/
def State.collect (s : State) (ch : Nat) : State :=
  let s := s.modChan ch fun c => { c with replies := c.replies.tail, flow := c.flow && decide (16 < c.replies.length) }
  match s.mb.compatNext with
  | some (c, n, v) =>
    if c != ch then s
    else if n ≤ 1 then (s.modMb fun m => { m with v2 := v, compatNext := none }).newTable
    else s.modMb fun m => { m with compatNext := some (c, n - 1, v) }
  | none => s

/-! ### The mailbox window (R213 to R215) -/

/-- The address of a target: TWT0's with its straps, or that of target 0 of TWT1 (R211, R217). -/
def State.twtAddr (s : State) (k : Nat) : Nat := if k = 0 then 0x48 + s.boot.twa else s.fld (nTWT 1) 0 4 7

/-- SMBus PEC over the bytes of a transaction (R208, R215): the CRC-8 of polynomial 0x07, initial value 0 (PRESUMED, SMBus; log 106). -/
def pecOf (bs : List Byte) : Byte := BitVec.ofNat 8 (crc8Marker bs)

/-- The address byte of a transaction. -/
def addressByte (a : Nat) (read : Bool) : Byte := BitVec.ofNat 8 (2 * a + b2n read)

/-- Whether a write passes its integrity check: its last byte is the PEC where pec_enable is set (R215). -/
def State.pecOk (s : State) (k : Nat) (bytes : List Byte) (pec : Byte) : Bool :=
  !s.flag (nTWT k) 0 1 || pec == pecOf (addressByte (s.twtAddr k) false :: bytes)

/-- A write whose PEC fails: discarded whole and counted (R215, R221). -/
def State.pecFailed (s : State) (k : Nat) : State :=
  ((s.bump (nTWT k) 2 0 16).modTwt k fun t => { t with acked := true, out := [] }).twtEvent k

/-- What a read puts on the bus after its address phases: blocks of bytes, each with its PEC where PEC is enabled; what follows them is
0x00 (R210, R215). -/
def blockStream (pec : Bool) (sent : List Byte) : List (List Byte) → List Byte
  | [] => []
  | b :: l =>
    if pec then
      let t := sent ++ b
      b ++ [pecOf t] ++ blockStream pec (t ++ [pecOf t]) l
    else b ++ blockStream pec sent l

/-- The address phases of a read: with a pointer phase of its own, or without (R210). -/
def readPhases (a : Nat) (pointer : Option Byte) : List Byte :=
  match pointer with
  | some p => [addressByte a false, p, addressByte a true]
  | none => [addressByte a true]

/-- Bytes of data, PEC bytes left out, among n clocked from a block of `first` bytes that blocks of 16 follow. -/
def dataClocked (pec : Bool) (first n : Nat) : Nat :=
  if !pec || n ≤ first then n else first + (n - first - 1) / 17 * 16 + min 16 ((n - first - 1) % 17)

/-- The pointer of a target set. -/
def State.setPointer (s : State) (k p : Nat) : State := s.modTwt k fun t => { t with pointer := p }

/-- A request written at pointer 0x40. -/
def State.writeRequest (s : State) (k : Nat) (data : List Byte) (pec : Byte) : State :=
  if !s.twtAck k then s.nackAddress k
  else if !s.windowServed k then s.nackData k
  else if !data.isEmpty && !s.accepts (twtChan k) then (s.setPointer k 0x40).nackData k
  else if !s.pecOk k (0x40 :: data) pec then s.pecFailed k
  else if data.isEmpty then ((s.setPointer k 0x40).twtOut k []).twtEvent k
  else
    let s := (s.setPointer k 0x40).ite (4096 < data.length) (·.bump (nTWT k) 3 0 16)
    let s := s.modChan (twtChan k) fun c => { c with rx := c.rx ++ [data.take 4096] }
    ((s.twtOut k []).modTwt k fun t => { t with busyUntil := s.tm.now + ticksUs 50 }).twtEvent k

/-- One write transaction whose pointer is 0x40 carries one request (R213). -/
def execTwtRequestWrite (target : Fin 2) (data : List Byte) (pec : Byte) (s : State) : Host.Outcome State Fault Refusal :=
  .next (s.writeRequest target.val data pec)

/-- A read at 0x41 of so many bytes returns the oldest reply from its first byte, and its PEC; the reply leaves the queue only when its
last byte, and its PEC byte where PEC is enabled, has been clocked out (R214, R215). The pointer stays at the window. -/
def State.readReply (s : State) (k clocked : Nat) (phases : List Byte) : State :=
  let pec := s.flag (nTWT k) 0 1
  match (nth {} s.mb.chans (twtChan k)).replies.head? with
  | none => s.twtOut k (List.replicate clocked 0)
  | some r =>
    let s := s.twtOut k (slice (blockStream pec phases [r.bytes]) 0 clocked)
    if r.bytes.length + b2n pec ≤ clocked then s.collect (twtChan k) else s

/-- A read with pointer 0x41: so many bytes are clocked, and with `pecClocked` the byte behind them, which behind a whole reply is its
PEC. -/
def execTwtReplyRead (target : Fin 2) (clocked : Nat) (pecClocked : Bool) (s : State) : Host.Outcome State Fault Refusal :=
  let k := target.val
  .next (if !s.twtAck k then s.nackAddress k
    else if !s.windowServed k then s.nackData k
    else (s.setPointer k 0x41).readReply k (clocked + b2n pecClocked) (readPhases (s.twtAddr k) (some 0x41)))

/-! ### Registers (06 Table SE-8) -/

/-- The 64 early registers of a target. -/
def State.twtRegisters (s : State) (k : Nat) : List Byte :=
  let ch := twtChan k
  let c := nth {} s.mb.chans ch
  leBytes 2 0x6440 ++ leBytes 2 s.boot.silicon
    ++ s.fwBytes
    ++ leBytes 1 s.boot.romVersion ++ leBytes 1 s.lev.level
    ++ leBytes 1 (b2n (s.boot.phase == .romService) + 2 * b2n s.boot.legacy + 4 * b2n s.mb.v2 + 8 * b2n s.hw.sealed)
    ++ [0, 0] ++ leBytes 4 s.boot.bootCount ++ leBytes 8 s.ev.pending ++ List.replicate 8 0
    ++ syntaxPointer s
    ++ leBytes 1 (b2n (s.ready || s.boot.phase == .romService) + 2 * b2n (!c.replies.isEmpty) + 4 * b2n (s.accepts ch) + 8 * b2n c.flow)
    ++ leBytes 1 (min 16 c.replies.length) ++ leBytes 2 ((c.replies.head?.map (·.bytes.length)).getD 0)
    ++ leBytes 4 (s.tm.period % 2 ^ 32) ++ List.replicate 8 0

/-- The 16-byte register blocks that a read from a pointer can reach (R212). -/
def State.registerBlocks (s : State) (k p : Nat) : List (List Byte) :=
  let r := s.twtRegisters k
  (List.range (4 - p / 16)).map fun i => if i = 0 then slice r p (16 - p % 16) else slice r (16 * (p / 16 + i)) 16

/-- A read of registers: it continues from the pointer, increments it, and past the end of the registers reads 0x00 (R210). -/
def State.readRegisters (s : State) (k p count : Nat) (phases : List Byte) : State :=
  let pec := s.flag (nTWT k) 0 1
  (s.setPointer k (min 0x40 (p + dataClocked pec (16 - p % 16) count))).twtOut k
    (slice (blockStream pec phases (s.registerBlocks k p)) 0 count)

/-- A read of a mailbox target, from a pointer that it carries or from the one that stands; at 0x41 it reads the reply (R210, R212,
R214). -/
def State.readTarget (s : State) (k : Nat) (pointer : Option Byte) (count : Nat) : State :=
  let p := (pointer.map (·.toNat)).getD (nth {} s.twt k).pointer
  let phases := readPhases (s.twtAddr k) pointer
  if !s.twtAck k then s.nackAddress k
  else if pointer.isSome && (0x41 < p || (0x40 ≤ p && !s.windowServed k)) then s.nackData k
  else if p = 0x41 then (s.setPointer k p).readReply k count phases
  else s.readRegisters k p count phases

def execTwtRegisterRead (target : Fin 2) (pointer : Option Byte) (count : Nat) (s : State) : Host.Outcome State Fault Refusal :=
  .next (s.readTarget target.val pointer count)

/-- A write to a register: only 0x40 takes data; without data it sets the pointer (R210, R221; 06 Table SE-7). -/
def execTwtRegisterWrite (target : Fin 2) (pointer : Byte) (data : TwtData) (s : State) : Host.Outcome State Fault Refusal :=
  let k := target.val
  let p := pointer.toNat
  .next (if pointer == 0x40 then s.writeRequest k data.bytes data.pec
    else if !s.twtAck k then s.nackAddress k
    else if 0x41 < p || (p == 0x41 && !s.windowServed k) then s.nackData k
    else if !data.bytes.isEmpty then (s.setPointer k p).nackData k
    else if !s.pecOk k [pointer] data.pec then s.pecFailed k
    else ((s.setPointer k p).twtOut k []).twtEvent k)

/-! ### Virtual targets (R217, R218) -/

/-- The view of a virtual target (06 Table SE-9). -/
def State.virtualView (s : State) (k : Nat) : List Byte :=
  let m := nth {} s.mirror k
  let len := bits (s.reg (nTWT 1) (3 + k)) 17 7
  let same := match m.readPeriod with | some (p, _) => m.valid && p == m.period | none => false
  let moved := match m.readPeriod with | some (_, l) => m.valid && l != m.layout | none => false
  let data := if m.valid then slice m.data 0 len else List.replicate len 0
  leBytes 6 m.period ++ leBytes 1 (b2n same + 2 * b2n moved + 4 * b2n (!s.sheaf.any)) ++ [0] ++ leBytes 4 m.layout
    ++ [0, 0, 0, 0] ++ data

/-- The bits of a value under a mask, in ascending order. -/
def collectBits : Nat → Nat → Nat → Nat → Nat
  | 0, _, _, _ => 0
  | n + 1, i, mask, a => if bitAt mask i then b2n (bitAt a i) + 2 * collectBits n (i + 1) mask a else collectBits n (i + 1) mask a

/-- The target of TWT1 that an address names: one that equals base_address in the bits where addr_mask is 0 (R217). -/
def State.twtTarget (s : State) (a : Nat) : Option Nat :=
  let base := s.fld (nTWT 1) 0 4 7
  let mask := s.fld (nTWT 1) 0 11 7
  if (a ^^^ base) &&& (127 ^^^ mask) = 0 then some (collectBits 7 0 mask a) else none

/-- A read of a virtual target's view, from a pointer that it carries or from the one that stands (R210, R215, R218). -/
def State.readVirtual (s : State) (a k : Nat) (pointer : Option Byte) (count : Nat) : State :=
  let v := s.virtualView k
  let p := (pointer.map (·.toNat)).getD (nth {} s.mirror k).pointer
  if pointer.isSome && v.length ≤ p then s.nackData 1
  else
    let pec := s.flag (nTWT 1) 0 1
    let s := s.twtOut 1 (slice (blockStream pec (readPhases a pointer) [v.drop p]) 0 count)
    { s with mirror := updAt s.mirror k fun m => { m with readPeriod := some (m.period, m.layout), pointer := min v.length (p + count) } }

/-- A read at an address of TWT1: target 0 is the mailbox target; a virtual target answers only with a nonzero vt_length; an address
outside the base and the mask is not TWT1's (R217). -/
def execVirtualTargetRead (address : BitVec 7) (pointer : Option Byte) (count : Nat) (s : State) : Host.Outcome State Fault Refusal :=
  .next (match s.twtTarget address.toNat with
    | none => s
    | some 0 => s.readTarget 1 pointer count
    | some k =>
      if !s.twtUp 1 || bits (s.reg (nTWT 1) (3 + k)) 17 7 = 0 then s.nackAddress 1 else s.readVirtual address.toNat k pointer count)

/-- SCL or SDA low for 35 ms: the transaction is abandoned and counted; a reply stays queued (R216, R221). -/
def execTwtBusTimeout (target : Fin 2) (s : State) : Host.Outcome State Fault Refusal :=
  let k := target.val
  if s.twtUp k then
    .next (((s.bump (nTWT k) 3 16 16).modTwt k fun t => { t with acked := false, out := [] }).twtEvent k)
  else .next s

end Sys2Proof.Machine
end

