-- ==== Sys2Proof/Machine/Usb.lean ====
section
/-! DEFINITION. The USB device port and the hub: attachment, suspension and wake, the sheaf streams, the bulk and
interrupt endpoints, hub ports and their failures (09; 13 R486; 14 Table HW-2). -/

namespace Sys2Proof.Machine

/-! ### Attachment (R303, R325, R326) -/

/-- The function is configured and its bus is not suspended. -/
def State.usbUp (s : State) : Bool := s.usb.state == 4 && s.usb.fence.isNone

/-- The conditions of R303 beside their times. -/
def State.mayAttach (s : State) : Bool :=
  s.lev.level == 3 && s.flag nUSB 0 0 && s.usb.vbus && s.ready && s.usb.fence.isNone && s.pw.state == .run && s.pw.prsntMet

/-- Once all five conditions hold the pull-up is enabled, 2 ms after VBUS_DET and 10 ms after the mailboxes first became
ready at the earliest (R303). -/
def execUsbPullupEnable (s : State) : Host.Outcome State Fault Refusal :=
  if s.mayAttach && !s.usb.pullup then
    .next ((s.at (max (s.usb.vbusSince + ticksMs 2) (s.boot.readyFrom.getD 0 + ticksMs 10))).modUsb fun u =>
      { u with pullup := true, state := b2n u.port5, port5 := u.port5 })
  else .next s

/-- VBUS_DET rises: the qualification of 2 ms begins (R303; 11 Table PW-4). -/
def execVbusDetected (s : State) : Host.Outcome State Fault Refusal :=
  if s.usb.vbus then .next s else .next (s.modUsb fun u => { u with vbus := true, vbusSince := s.tm.now })

/-- The tag history and the reply cache of MBX0 cleared (02 R62). -/
def State.clearMbx0 (s : State) : State := s.modChan 0 fun c => { c with history := [], cache := [] }

/-- The function leaves the suspended state: event 25, and a drill stopped by R316 starts again (R317). -/
def State.leaveSuspend (s : State) : State :=
  if s.usb.suspended then
    let again := s.usb.stoppedDrill
    let s := (s.modUsb fun u => { u with
      suspended := false
      state := u.before
      resuming := false
      stoppedDrill := false
      streams := u.streams.map fun x => { x with fresh := true } }).raise 25
    if again then s.setRun (some { ticket := none, start := true, named := none }) else s
  else s

/-- The effects of a bus reset on the function, before its event (R325). -/
def State.resetFunction (s : State) : State :=
  (s.modUsb fun u => { u with
    address := 0
    remoteWake := false
    testMode := none
    streams := u.streams.map (·.stopped) }).clearMbx0

/-- A bus reset: the function returns to the default state, at high speed where the host answers its handshake, which is free here,
else at full speed (R299, R325; log 52). -/
def execUsbBusReset (s : State) : Host.Outcome State Fault Refusal :=
  if !s.usb.pullup || s.usb.fence.isSome || s.usb.state == 0 then .next s
  else
    let speed := 1 + b2n (Config.highSpeedHost s.freeCount)
    let s := ({ s with freeCount := s.freeCount + 1 }).resetFunction.leaveSuspend.modUsb fun u => { u with state := 2, speed := speed }
    .next (((s.bump nUSB 14 0 16).log 0x40 nUSB 0 1).raise 26)

/-- VBUS_DET falls: pull-up and PPE1 to PPE4 are released, and the effects of R325 follow with event 26 (R326). -/
def execVbusLost (s : State) : Host.Outcome State Fault Refusal :=
  if !s.usb.vbus then .next s
  else
    let s := (s.modUsb fun u => { u with vbus := false }).resetFunction.leaveSuspend.dropUsb
    .next ((s.log 0x40 nUSB 0 2).raise 26)

/-! ### Suspension (R316 to R319) -/

/-- A stream stopped by a suspension: its halves are discarded, and what was copied counts as skipped. -/
def State.suspendStream (s : State) (e : Nat) : State :=
  let x := nth {} s.usb.streams e
  let n := b2n x.copying.isSome + b2n x.waiting.isSome
  (s.bumpBy nUSB 13 (16 * e) 16 n).modStream e fun x => { x with
    copying := none
    waiting := none
    sending := none
    swapped := none
    delay := 0
    out := none
    skipped := satAdd 16 x.skipped n }

/-- 3 ms of bus idle: the function and the hub are suspended, event 24 is raised, and under follow host a running drill
stops at the next capture line (R316, Table US-5). -/
def execUsbSuspend (s : State) : Host.Outcome State Fault Refusal :=
  if !s.usb.pullup || s.usb.state == 0 || s.usb.suspended || s.usb.fence.isSome then .next s
  else
    let stop := !s.flag nUSB 0 1 && s.drill.mode == 1
    let s := s.each [0, 1] State.suspendStream
    let s := s.modUsb fun u => { u with
      suspended := true
      before := u.state
      state := 5
      suspendedAt := s.tm.now
      stoppedDrill := stop }
    let s := ((s.modEv fun e => { e with wake := false }).bump nUSB 14 16 16).raise 24
    .next (if stop then s.setRun (some { ticket := none, start := false, named := none }) else s)

/-- Resume signalling ends (R317). -/
def execUsbResume (s : State) : Host.Outcome State Fault Refusal := .next s.leaveSuspend

/-- An event of wake_mask raised while the function is suspended drives resume signalling for 2 ms, no earlier than 5 ms
after the start of bus idle, which is 2 ms after the suspension (R318). -/
def execRemoteWake (s : State) : Host.Outcome State Fault Refusal :=
  if s.usb.suspended && s.usb.remoteWake && s.ev.wake && !s.usb.resuming then
    .next ((s.at (s.usb.suspendedAt + ticksMs 2)).modUsb fun u => { u with resuming := true })
  else .next s

/-! ### Event reports and replies (R302; 13 R486; 02 R66) -/

/-- The bytes of a report (R302). -/
def State.reportBytes (s : State) : List Byte := leBytes 8 s.ev.ep3Acc ++ leBytes 6 s.tm.period ++ leBytes 2 s.ev.ep3Seq

/-- An IN token on EP3: a report that was not acknowledged is offered again unchanged; a new one is formed while the
accumulator is nonzero and coalesce_us has passed since the previous report (13 R486). -/
def execEp3Report (s : State) : Host.Outcome State Fault Refusal :=
  if !s.usbUp then .next s
  else match s.ev.ep3Report with
    | some (_, bs) => .next (s.modUsb fun u => { u with out := bs })
    | none =>
      let due := match s.ev.ep3Last with
        | some t => t + s.coalesce ≤ s.tm.now
        | none => true
      if s.ev.ep3Acc = 0 || !due then .next s
      else
        let bs := s.reportBytes
        .next ((s.modEv fun e => { e with
          ep3Report := some (e.ep3Seq, bs)
          ep3Mask := e.ep3Acc
          ep3Seq := (e.ep3Seq + 1) % 65536
          ep3Last := some s.tm.now }).modUsb fun u => { u with out := bs })

/-- The host acknowledges the report: the events that it carried leave the accumulator (13 R486; log 53). -/
def execEp3ReportAck (s : State) : Host.Outcome State Fault Refusal :=
  if s.ev.ep3Report.isNone then .next s
  else .next (s.modEv fun e => { e with
    ep3Report := none
    ep3Acc := e.ep3Acc &&& ((2 ^ 64 - 1) ^^^ e.ep3Mask)
    ep3Mask := 0 })

/-- The host reads the oldest reply of MBX0 (02 R66). -/
def execEp2ReplyRead (s : State) : Host.Outcome State Fault Refusal :=
  match (nth {} s.mb.chans 0).replies with
  | r :: _ => if s.usbUp then .next ((s.modUsb fun u => { u with out := r.bytes }).collect 0) else .next s
  | [] => .next s

/-- A bulk transfer ended with a short packet: bulk_abandoned counts it, and a reply or EP6 data stay queued (R327). -/
def State.abandonBulk (s : State) (ep : BulkEp) : State :=
  let s := match ep with
    | .ep1 => s
    | .ep2 => s.modUsb fun u => { u with out := [] }
    | .ep6 => s.modAlm fun a => { a with ep6Out := [] }
  (s.bump nUSB 15 0 16).log 0x40 nUSB 0 4

/-- A hard or unresolved plot fault in a bulk transfer (R327). -/
def execBulkTransferFault (ep : BulkEp) (s : State) : Host.Outcome State Fault Refusal :=
  .next (if s.usbUp then s.abandonBulk ep else s)

/-! ### The streams (R308 to R314; 14 Table HW-2) -/

/-- layout_id as the prefix shows it: 0 under header v1. -/
def State.prefixLayout (s : State) (l : Nat) : Nat := if s.boot.legacy then 0 else l

/-- An eligible sheaf that is published but not sent (Table US-4, skipped). -/
def State.skipSheaf (s : State) (e : Nat) : State :=
  (s.bump nUSB 13 (16 * e) 16).modStream e fun x => { x with skipped := satAdd 16 x.skipped 1 }

/-- A copy abandoned: its sheaf is published and not sent (R311; 07 Table PM-8). -/
def State.abandonCopy (s : State) (e : Nat) : State :=
  if (nth {} s.usb.streams e).copying.isSome then (s.skipSheaf e).modStream e fun x => { x with copying := none } else s

/-- The sheaf just published taken by stream e: the endpoint begins to copy its range, and a delivery that waits, or a copy that is
not done, is discarded (R309, R311, R312). Without a running stream it counts as skipped after a first delivery (log 54). -/
def State.streamTake (s : State) (e : Nat) : State :=
  let c := s.streamCfg e
  let x := nth {} s.usb.streams e
  if !c.enable || s.sheaf.lastPeriod % c.every != 0 then s
  else if s.usbUp && x.alt != 0 then
    let s := (if x.waiting.isSome then s.skipSheaf e else s).abandonCopy e
    let layout := match nth none s.sheaf.buffers s.sheaf.index with
      | some b => b.layout
      | none => 0
    let d : Delivery :=
      { period := s.sheaf.lastPeriod, layout := s.prefixLayout layout, chunks := c.chunks, k := c.k
        src := usbRing + s.sheaf.index * s.reg nSHEAF 2 + c.offset, len := c.length }
    s.modStream e fun x => { x with waiting := none, copying := some d }
  else if x.lastLayout.isSome then s.skipSheaf e
  else s

/-- The bytes of chunk i of a delivery. -/
def Delivery.chunk (d : Delivery) (i : Nat) : List Byte := (d.bytes.drop (i * d.k)).take (if i + 1 = d.chunks then d.bytes.length else d.k)

/-- The transfer of chunk i: the stream prefix of Table US-4 and the chunk (R310). -/
def Delivery.transfer (d : Delivery) (i : Nat) : List Byte :=
  leBytes 6 d.period ++ leBytes 1 i ++ leBytes 1 d.chunks ++ leBytes 4 d.layout ++ leBytes 2 d.skipped ++ leBytes 1 d.flags
    ++ [0] ++ d.chunk i

/-- Harrow's draws for the chunk transfers of a copied delivery (14 R493). -/
def State.drawChunks (s : State) (e : Nat) (d : Delivery) : State × Delivery :=
  (List.range d.chunks).foldl (fun (s, d) i =>
    let (s, ps) := s.drawUnit (2 + e) 0 (some i) (8 * (d.transfer i).length)
    (s, { d with picks := d.picks ++ ps.map fun p => ⟨i, p.slot, p.cls, p.bit⟩ })) (s, d)

/-- Virtual address in holding 3 of the half of the allocation that stream e fills next (R305, R312). -/
def State.halfAt (s : State) (e : Nat) : Nat :=
  let (f, n) := nth (0, 0) s.mem.pool (3 + e)
  512 * f + 512 * (if (nth {} s.usb.streams e).half then n / 2 else 0)

/-- A delivery copied from the ring into a half of the allocation, through holding 3 (R311). -/
def State.copyRange (s : State) (e : Nat) (d : Delivery) : State × Reach :=
  match s.access .usb [⟨.read, d.src, d.len⟩] with
  | (s, .done) => s.store .usb [(s.halfAt e, s.virtRead 3 d.src d.len)]
  | r => r

/-- The copy of a sheaf's range into a half of the allocation is complete: the delivery waits (R311, R312). On a soft fault the copy
goes on after it; a hard one abandons the delivery. -/
def execStreamCopyComplete (ep : Fin 2) (s : State) : Host.Outcome State Fault Refusal :=
  let e := ep.val
  match (nth {} s.usb.streams e).copying with
  | some d =>
    match s.copyRange e d with
    | (s, .done) =>
      let (s, d) := s.drawChunks e { d with bytes := s.virtRead 3 (s.halfAt e) d.len }
      .next (s.modStream e fun x => { x with copying := none, waiting := some d, half := !x.half })
    | (s, .waits) => .next s
    | (s, .ends) => .next (s.abandonCopy e)
  | none => .next s

/-- Whether an address lies in the allocation of an endpoint. -/
def State.inPool (s : State) (ep v : Nat) : Bool :=
  let (f, n) := nth (0, 0) s.mem.pool (ep - 1)
  512 * f ≤ v && v < 512 * (f + n)

/-- The transfer that uses an address of holding 3 is abandoned, and the endpoint goes on (07 Table PM-8). -/
def State.endTransfer (s : State) (v : Nat) : State :=
  let reads (d : Delivery) : Bool := d.src ≤ v && v < d.src + d.len
  let s := s.each [0, 1] fun s e => if s.inPool (4 + e) v || (nth {} s.usb.streams e).copying.any reads then s.abandonCopy e else s
  if s.inPool 1 v then s.abandonBulk .ep1 else if s.inPool 2 v then s.abandonBulk .ep2 else if s.inPool 6 v then s.abandonBulk .ep6 else s

/-- flags of the stream prefix (Table US-4). -/
def State.prefixFlags (s : State) (e : Nat) (x : Stream) (d : Delivery) : Nat :=
  let harrow := (List.range 4).any fun k => s.windowOpen k && bits (s.hwReg k 0) 0 4 == 2 + e && bitAt (s.hwReg k 1) 0
  b2n (x.lastLayout.any (· != d.layout)) + 2 * b2n x.fresh + 4 * b2n harrow

/-- The delivery that may start next: one held back whose exchange is due, else the one that waits. -/
def Stream.next (x : Stream) : Option Delivery :=
  match x.swapped with
  | some (d, true) => some d
  | _ => x.waiting

/-- A delivery taken out of its half to be sent: its prefix is fixed. -/
def State.startDelivery (s : State) (e : Nat) (d : Delivery) : State :=
  let x := nth {} s.usb.streams e
  let d := { d with skipped := x.skipped, flags := s.prefixFlags e x d }
  s.modStream e fun x => { x with
    sending := some (d, 0)
    waiting := (match x.swapped with | some (_, true) => x.waiting | _ => none)
    swapped := (match x.swapped with | some (_, true) => none | some (h, false) => some (h, true) | none => none)
    skipped := 0
    fresh := false
    lastLayout := some d.layout }

/-- The start of a delivery at an IN token: it is not started while the setting is too small (R314); a delay selected by
Harrow holds it, and a reorder holds it back until the next delivery has been sent (14 Table HW-2). -/
def State.tryStart (s : State) (e : Nat) : State :=
  let x := nth {} s.usb.streams e
  match x.sending, x.next with
  | none, some d =>
    if altCapacity x.alt < 16 + d.k then s
    else match x.swapped, d.picks.find? (fun p => p.cls == 3 && !s.spent p.slot) with
      | none, some p =>
        (s.injected p.slot).modStream e fun x => { x with
          waiting := none
          swapped := some ({ d with picks := d.picks.filter (·.cls != 3) }, false) }
      | _, _ =>
        let ps := d.picks.filter fun p => p.cls == 4 && !s.spent p.slot
        let held := ps.foldl (fun n p => n + bits (s.hwReg p.slot 4) 0 8) 0
        let s := ps.foldl (fun s p => s.injected p.slot) s
        (s.startDelivery e d).modStream e fun x => { x with delay := held }
  | _, _ => s

/-- A transfer as packets of 1 024 bytes, the last one short, each with the number of its data PID: for n packets DATA(n - 1) down to
DATA0 (R310). -/
def packetsOf (bs : List Byte) : List (Nat × List Byte) :=
  let n := max 1 (ceilDiv bs.length 1024)
  (List.range n).map fun i => (n - 1 - i, (bs.drop (1024 * i)).take 1024)

/-- A micro-frame without data: silence in native mode, a zero-length packet in legacy mode; silent_mframes counts it
(R313, R330). -/
def State.silent (s : State) (e : Nat) : State :=
  (s.bump nUSB 12 (16 * e) 16).modStream e fun x => { x with out := if s.boot.legacy then some (packetsOf []) else none }

/-- Past chunk i of a delivery: the next chunk, or after the last one the delivery has been sent. -/
def State.advanceDelivery (s : State) (e : Nat) (d : Delivery) (i : Nat) : State :=
  if i + 1 < d.chunks then s.modStream e fun x => { x with sending := some (d, i + 1) }
  else (if d.whole then s.bump nUSB (7 + 4 * e) 0 32 else s).modStream e fun x => { x with sending := none }

/-- Chunk i of a delivery goes out, or is dropped by Harrow. -/
def State.sendChunk (s : State) (e : Nat) (d : Delivery) (i : Nat) : State :=
  let ps := d.picks.filter fun p => p.chunk == i && !s.spent p.slot
  match ps.find? (·.cls == 0) with
  | some p => ((s.injected p.slot).silent e).advanceDelivery e { d with whole := false } i
  | none =>
    let flips := ps.filter fun p => p.cls == 1 || p.cls == 2
    let bytes := flips.foldl (fun bs p => flipBit bs p.bit) (d.transfer i)
    let s := flips.foldl (fun s p => s.injected p.slot) s
    (s.modStream e fun x => { x with out := some (packetsOf bytes) }).advanceDelivery e d i

/-- One micro-frame of EP4 or EP5: the next chunk, or silence (R311 to R314). -/
def execIsoInToken (ep : Fin 2) (s : State) : Host.Outcome State Fault Refusal :=
  let e := ep.val
  if !s.usbUp || (nth {} s.usb.streams e).alt = 0 then .next s
  else
    let s := s.tryStart e
    let x := nth {} s.usb.streams e
    match x.sending with
    | none => .next (s.silent e)
    | some (d, i) =>
      if x.delay != 0 then .next ((s.silent e).modStream e fun x => { x with delay := x.delay - 1 })
      else if altCapacity x.alt < 16 + d.k then
        -- the host has selected a smaller setting in the middle of a delivery: it sends nothing more (R314)
        .next (((s.silent e).skipSheaf e).modStream e fun x => { x with sending := none })
      else .next (s.sendChunk e d i)

/-! ### Control requests (R299, R300) -/

/-- The answer to a control request: an acknowledgement or STALL. -/
def State.controlAck (s : State) (ok : Bool) : State := s.modUsb fun u => { u with ack := ok }

/-- The host selects an alternate setting; setting 0 discards both halves (R314; 09, Collisions). At full speed only
setting 0 exists (Table US-1). -/
def execSetInterface (ep : Fin 2) (alt : Fin 4) (s : State) : Host.Outcome State Fault Refusal :=
  let e := ep.val
  if !s.usbUp then .next s
  else if (e == 1 && alt.val == 3) || (s.usb.speed != 2 && alt.val != 0) then .next (s.controlAck false)
  else .next ((s.modStream e fun x =>
    if alt.val = 0 then x.stopped else { x with alt := alt.val, fresh := true }).controlAck true)

/-- A byte of a descriptor that the spec does not give (log 52). -/
abbrev openByte (n : Nat) : Byte := Config.descriptorByte n

/-- The device descriptor of the function (Table US-1): bcdUSB 2.00, class 0, one configuration, the product and the firmware's
version; no string but the serial number. The vendor ID and the number of the string are free (log 52). -/
def State.deviceDescriptor (s : State) : List Byte :=
  [18, 1] ++ leBytes 2 0x0200 ++ [0, 0, 0, 64, openByte 8, openByte 9] ++ leBytes 2 0x6440 ++ leBytes 2 (s.fwWord / 256)
    ++ [0, 0, openByte 16, 1]

/-- An endpoint descriptor. -/
def endpointBytes (addr attr packet : Nat) (interval : Byte) : List Byte :=
  [7, 5] ++ leBytes 1 addr ++ leBytes 1 attr ++ leBytes 2 packet ++ [interval]

/-- An interface descriptor of the function: its class is free (log 52). -/
def interfaceBytes (n alt endpoints : Nat) : List Byte :=
  [9, 4] ++ leBytes 1 n ++ leBytes 1 alt ++ leBytes 1 endpoints ++ [openByte (32 + 3 * n), openByte (33 + 3 * n), openByte (34 + 3 * n), 0]

/-- An isochronous interface with its alternate settings: setting k carries k packets of 1 024 bytes (Table US-2). -/
def isoInterface (n addr top : Nat) : List Byte :=
  interfaceBytes n 0 0 ++ (List.range top).flatMap fun k =>
    interfaceBytes n (k + 1) 1 ++ endpointBytes addr (1 + 4 * bits (openByte 48).toNat 2 4) (1024 + 2048 * k) 1

/-- A configuration descriptor with what follows it: self-powered, with remote wake-up, bMaxPower 0 (Table US-1). -/
def configurationBytes (type interfaces : Nat) (body : List Byte) : List Byte :=
  [9] ++ leBytes 1 type ++ leBytes 2 (9 + body.length) ++ leBytes 1 interfaces ++ [1, 0, 0xE0, 0] ++ body

/-- The configuration of the function at high or at full speed (Tables US-1, US-2). At full speed EP4 and EP5 have only setting 0,
and a bulk packet has 64 bytes (PRESUMED, log 52). -/
def functionConfiguration (type : Nat) (high : Bool) : List Byte :=
  let bulk := if high then 512 else 64
  configurationBytes type 3 (interfaceBytes 0 0 4 ++ endpointBytes 0x01 2 bulk (openByte 49) ++ endpointBytes 0x82 2 bulk (openByte 49)
    ++ endpointBytes 0x83 3 16 1 ++ endpointBytes 0x86 2 bulk (openByte 49)
    ++ isoInterface 1 0x84 (if high then 3 else 0) ++ isoInterface 2 0x85 (if high then 2 else 0))

/-- A descriptor of the function by its type: device, configuration, device qualifier and other speed configuration; none, among them
BOS (Table US-1). -/
def State.functionDescriptor (s : State) (type : Nat) : Option (List Byte) :=
  match type with
  | 1 => some s.deviceDescriptor
  | 2 => some (functionConfiguration 2 (s.usb.speed == 2))
  | 6 => some ([10, 6] ++ leBytes 2 0x0200 ++ [0, 0, 0, 64, 1, 0])
  | 7 => some (functionConfiguration 7 (s.usb.speed != 2))
  | _ => none

/-- An upper-case hexadecimal digit. -/
def hexDigit (n : Nat) : Byte := BitVec.ofNat 8 (if n < 10 then 48 + n else 55 + n)

/-- The serial string descriptor: the 16 digits of serial_number, most significant first (Table US-1). -/
def State.serialString (s : State) : List Byte :=
  [34, 3] ++ (List.range 16).flatMap fun i => [hexDigit (bits s.boot.serial (4 * (15 - i)) 4), 0]

/-- The answer to GET_DESCRIPTOR. -/
def State.sendDescriptor (s : State) (bs : List Byte) : State := (s.modUsb fun u => { u with out := bs }).controlAck true

/-- A standard request to the function; vendor and class requests are answered with STALL (Table US-1). -/
def execUsbControlRequest (q : UsbRequest) (s : State) : Host.Outcome State Fault Refusal :=
  let st := s.usb.state
  if st < 2 || 4 < st || s.usb.fence.isSome then .next s
  else .next (match q with
    | .setAddress a =>
      if st = 4 then s.controlAck false
      else (s.modUsb fun u => { u with address := a.toNat, state := if a == 0 then 2 else 3 }).controlAck true
    | .setConfiguration n =>
      if st = 2 || 1 < n.toNat then s.controlAck false
      else (s.modUsb fun u => { u with state := 3 + n.toNat, streams := u.streams.map (·.stopped) }).controlAck true
    | .setRemoteWake on => (s.modUsb fun u => { u with remoteWake := on }).controlAck true
    | .setTestMode t => if t = .forceEnable then s.controlAck false else (s.modUsb fun u => { u with testMode := some t }).controlAck true
    | .getDeviceDescriptor => s.sendDescriptor s.deviceDescriptor
    | .getSerialString => s.sendDescriptor s.serialString
    | .getDescriptor t => match s.functionDescriptor t.toNat with
      | some bs => s.sendDescriptor bs
      | none => s.controlAck false
    | .vendorOrClass => s.controlAck false)

/-! ### The embedded hub (R320 to R324) -/

/-- The hub is attached and its unit is not fenced. -/
def State.hubUp (s : State) : Bool := s.usb.pullup && s.usb.fence.isNone

/-- allow_power of a port; with GANG high that of HUBPORT1 governs all four (R324). -/
def State.allowPower (s : State) (p : Nat) : Bool := s.flag (nHUBPORT (if s.boot.gang then 1 else p + 1)) 0 0

/-- PPE of a port: power is requested for it, or with GANG high for any port, and is allowed (R320, R324). -/
def State.ppeWanted (s : State) (p : Nat) : Bool :=
  let fences := if s.boot.gang then s.usb.ports.any (·.fence.isSome) else (nth {} s.usb.ports p).fence.isSome
  let asked := if s.boot.gang then s.usb.ports.any (·.requested) else (nth {} s.usb.ports p).requested
  s.hubUp && !fences && asked && s.allowPower p

/-- A device on a port is gone: a connect-status change counts and raises event 28 (R322). -/
def State.disconnect (s : State) (p : Nat) : State :=
  let x := nth {} s.usb.ports p
  if 2 ≤ x.state && x.state ≤ 4 then
    ((s.modHub p fun x => { x with state := 1, speed := 0, conChange := true }).bump (nHUBPORT (p + 1)) 2 16 16).raise 28
  else s

/-- PPE outputs and port states brought to what is requested and allowed; a port that is not allowed power any more reports no
connection (R324). -/
def State.settleHub (s : State) : State :=
  let s := s.each (List.range 4) fun s p => if (nth {} s.usb.ports p).requested && !s.ppeWanted p then s.disconnect p else s
  let want := (List.range 4).map s.ppeWanted
  s.modUsb fun u => { u with ports := u.ports.zipIdx.map fun (x, p) =>
    let on := nth false want p
    let state := if on && x.requested then (if x.state == 0 || x.state == 5 then 1 else x.state)
      else if x.state == 5 then 5 else 0
    { x with ppe := on, state } }

/-- The host sets PORT_POWER; a global over-current is over with it (R320, R321, R323, R324). -/
def execSetPortPower (port : Fin 5) (s : State) : Host.Outcome State Fault Refusal :=
  if !s.hubUp then .next s
  else if port.val = 4 then
    .next (s.modUsb fun u => { u with port5 := true, state := if u.port5 then u.state else 1, ack := true })
  else .next ((((s.modHub port.val fun x => { x with requested := true, state := if x.state == 5 then 0 else x.state }).modUsb fun u =>
      { u with hubOc := false, hubOcChange := u.hubOcChange || u.hubOc }).settleHub).controlAck true)

/-- The host clears PORT_POWER: on port 5 the function releases its pull-up and keeps running (R323). -/
def execClearPortPower (port : Fin 5) (s : State) : Host.Outcome State Fault Refusal :=
  if !s.hubUp then .next s
  else if port.val = 4 then
    .next ((s.resetFunction.modUsb fun u => { u with port5 := false, state := 0, suspended := false, resuming := false }).controlAck true)
  else .next (((s.modHub port.val fun x => { x with requested := false, state := if x.state == 5 then 5 else 0 }).settleHub).controlAck true)

/-- A buffered split transaction is dropped (R299; 09, Collisions). -/
def execClearTtBuffer (s : State) : Host.Outcome State Fault Refusal :=
  if s.hubUp then .next ((s.modUsb fun u => { u with tt := false }).controlAck true) else .next s

/-- The transaction translator is reset (R299). -/
def execResetTt (s : State) : Host.Outcome State Fault Refusal :=
  if s.hubUp then .next ((s.modUsb fun u => { u with tt := false }).controlAck true) else .next s

/-- An over-current: the affected ports lose their power and their device, and report it; with GANG high all four do, and the hub
reports it as global (R320, R321). -/
def State.overCurrent (s : State) (p : Nat) : State :=
  let s := s.each (if s.boot.gang then List.range 4 else [p]) fun s i =>
    (s.disconnect i).modHub i fun x => { x with requested := false, ppe := false, state := 5, ocChange := true }
  let s := if s.boot.gang then s.modUsb fun u => { u with hubOc := true, hubOcChange := true } else s
  ((s.bump (nHUBPORT (p + 1)) 2 0 16).log 0x40 (nHUBPORT (p + 1)) 0 3).raise 27

/-- An OCI input: its level is shown, and once it has been high for 8 ms without a break it is an over-current (R321, R333). -/
def execHubOverCurrent (oci : OciChange) (s : State) : Host.Outcome State Fault Refusal :=
  let p := oci.port.val
  match oci.event with
  | .rises => .next (s.modHub p fun x => if x.oci then x else { x with oci := true, ociSince := s.tm.now })
  | .falls => .next (s.modHub p fun x => { x with oci := false })
  | .held =>
    let x := nth {} s.usb.ports p
    if !s.hubUp || !x.oci then .next s else .next ((s.at (x.ociSince + ticksMs 8)).overCurrent p)

/-- A connect-status change on a powered port raises event 28 and counts (R322). The transaction translator drops the
split transaction of a device that is removed. -/
def execHubConnectChange (port : Fin 4) (connected : Bool) (speed : Fin 3) (s : State) : Host.Outcome State Fault Refusal :=
  let p := port.val
  let x := nth {} s.usb.ports p
  if !s.hubUp || !x.ppe || x.state = 0 || x.state = 5 || connected == decide (x.state != 1) then .next s
  else if connected then
    .next (((s.modHub p fun x => { x with state := 2, speed := speed.val, conChange := true }).bump (nHUBPORT (p + 1)) 2 16 16).raise 28)
  else .next ((s.modUsb fun u => { u with tt := u.tt || (x.state == 3 && x.speed != 2) }).disconnect p)

/-- What a request to the hub makes of a port, with the change bits that it sets or clears (R299). -/
def hubState (q : HubRequest) (x : HubPort) : HubPort :=
  match q with
  | .portReset => if 2 ≤ x.state && x.state ≤ 4 then { x with state := 3, rsChange := true } else x
  | .portEnable => if x.state = 2 then { x with state := 3 } else x
  | .portDisable => if x.state = 3 || x.state = 4 then { x with state := 2 } else x
  | .portSuspend => if x.state = 3 then { x with state := 4 } else x
  | .portResume => if x.state = 4 then { x with state := 3, suChange := true } else x
  | .testMode t => { x with test := some t }
  | .clearOverCurrentChange => { x with ocChange := false }
  | .clearConnectionChange => { x with conChange := false }
  | .clearSuspendChange => { x with suChange := false }
  | .clearResetChange => { x with rsChange := false }
  | .clearHubOverCurrentChange | .getPortStatus | .getHubStatus | .getHubDescriptor | .getDeviceDescriptor | .getConfiguration
  | .statusChange | .getTtState | .stopTt => x

/-- wPortStatus and wPortChange of a port: connection, enable, suspend, over-current, power, low and high speed and test, as the hub
class places them. -/
def HubPort.status (x : HubPort) : List Byte :=
  let attached := 2 ≤ x.state && x.state ≤ 4
  leBytes 2 (b2n attached + 2 * b2n (x.state == 3 || x.state == 4) + 4 * b2n (x.state == 4) + 8 * b2n (x.state == 5)
      + 256 * b2n x.requested + 512 * b2n (attached && x.speed == 0) + 1024 * b2n (attached && x.speed == 2) + 2048 * b2n x.test.isSome)
    ++ leBytes 2 (b2n x.conChange + 4 * b2n x.suChange + 8 * b2n x.ocChange + 16 * b2n x.rsChange)

/-- Whether a port has a change to report. -/
def HubPort.changed (x : HubPort) : Bool := x.conChange || x.suChange || x.ocChange || x.rsChange

/-- The bitmap of the hub's status endpoint: bit 0 the hub, bit n port n (Table US-1). -/
def State.hubChanges (s : State) : Nat :=
  b2n s.usb.hubOcChange + 2 * ofLsb (s.usb.ports.map (·.changed))

/-- The hub's class descriptor (Table US-1). -/
def State.hubDescriptor (s : State) : List Byte :=
  [9, 0x29, 5] ++ leBytes 2 (4 + (if s.boot.gang then 0 else 1 + 8)) ++ [10, openByte 64, 0x20, 0xFF]

/-- The hub's device descriptor: the hub class, one TT, and the vendor ID of the function (Table US-1). -/
def State.hubDevice (s : State) : List Byte :=
  [18, 1] ++ leBytes 2 0x0200 ++ [9, 0] ++ leBytes 1 (b2n (s.usb.speed == 2)) ++ [64, openByte 8, openByte 9, openByte 65, openByte 66, openByte 67, openByte 68, 0, 0, 0, 1]

/-- The hub's configuration: one interface with its status endpoint. -/
def hubConfiguration : List Byte :=
  configurationBytes 2 1 ([9, 4, 0, 0, 1, 9, 0, 0, 0] ++ endpointBytes (0x80 + bits (openByte 69).toNat 0 4) 3 1 (openByte 70))

/-- The bytes that the hub answers a request with. -/
def State.hubAnswer (s : State) (p : Nat) (q : HubRequest) : Option (List Byte) :=
  match q with
  | .getPortStatus => some (nth {} s.usb.ports p).status
  | .getHubStatus => some (leBytes 2 (2 * b2n s.usb.hubOc) ++ leBytes 2 (2 * b2n s.usb.hubOcChange))
  | .getHubDescriptor => some s.hubDescriptor
  | .getDeviceDescriptor => some s.hubDevice
  | .getConfiguration => some hubConfiguration
  | .statusChange => if s.hubChanges = 0 then none else some (leBytes 1 s.hubChanges)
  | _ => none

/-- Get_TT_State and Stop_TT are answered with STALL (Table US-1). -/
def hubAcks (q : HubRequest) : Bool := q != .getTtState && q != .stopTt

/-- A request to the hub other than port power or TT clearing, or an IN token on its status endpoint, which NAKs while nothing has
changed (R299, R301, R320 to R322). -/
def execHubClassRequest (port : Fin 4) (q : HubRequest) (s : State) : Host.Outcome State Fault Refusal :=
  let p := port.val
  if !s.hubUp then .next s
  else
    let s := s.modHub p (hubState q)
    let s := if q = .clearHubOverCurrentChange then s.modUsb fun u => { u with hubOcChange := false } else s
    let s := match s.hubAnswer p q with
      | some bs => s.modUsb fun u => { u with out := bs }
      | none => s
    .next (s.controlAck (hubAcks q))

/-! ### Failure, and Harrow's delays -/

/-- A failure of the controller, a PHY or the hub core takes the device to L2 (01 Table AR-7). -/
def execUsbFailure (s : State) : Host.Outcome State Fault Refusal := .next (s.fail 11 fun f => { f with usb := true })

/-- A delay injected by a slot ends: the held frame or reply that is due first is delivered (14 Table HW-2). A stopped
SCK resumes, and its entry completes late or is aborted by the rows of the drill. -/
def execHarrowDelayExpiry (slot : Fin 4) (s : State) : Host.Outcome State Fault Refusal :=
  let fs := s.hw.heldFrames.filter fun h => h.slot == slot.val && h.due.isSome
  let rs := s.hw.heldReplies.filter fun h => h.slot == slot.val
  let sendFrame (h : HeldFrame) : State :=
    ((s.at (h.due.getD 0)).modHw fun w => { w with heldFrames := w.heldFrames.erase h }).deliverSent h.source h.frame
  let sendReply (h : HeldReply) : State :=
    ((s.at h.due).modHw fun w => { w with heldReplies := w.heldReplies.erase h }).queueReply h.ch h.reply
  match fs.head?, rs.head? with
  | some f, some r => .next (if f.due.getD 0 ≤ r.due then sendFrame f else sendReply r)
  | some f, none => .next (sendFrame f)
  | none, some r => .next (sendReply r)
  | none, none => .next s

end Sys2Proof.Machine
end

