-- ==== Sys2Proof/Machine/AlmOps.lean ====
section
/-! DEFINITION. The Almanac's memory: records as bytes, the commit of one record, the counters region, the scan and the
header region (13 R467 to R476, R554, R555). -/

namespace Sys2Proof.Machine

/-! ### Records as bytes (R468 to R470) -/

/-- The sequence after another: 0 and 0xFFFFFFFF are skipped (R470). -/
def nextSequence (q : Nat) : Nat := if 0xFFFFFFFE ≤ q then 1 else q + 1

/-- The 64 bytes of a record (Table AL-2). -/
def AlmRec.bytes (r : AlmRec) (seq : Nat) (copied : Bool) : List Byte :=
  let b := leBytes 1 r.type ++ leBytes 1 (r.cls + 4 * b2n r.rtc + 8 * b2n copied + 16 * b2n r.summary) ++ leBytes 2 r.source
    ++ leBytes 4 seq ++ leBytes 8 r.stamp ++ leBytes 2 r.index ++ leBytes 2 r.merged ++ leBytes 6 r.period
    ++ leBytes 2 r.code ++ slice r.detail 0 32
  b ++ leBytes 4 (crc32 b)

/-- Bytes of the Almanac written. -/
def State.almWrite (s : State) (a : Nat) (bs : List Byte) : State :=
  s.modAlm fun m => { m with bytes := Memory.writeList almEmpty m.bytes a bs }

/-! ### The counters region (R555) -/

/-- The bad-slot bitmap: 3 968 bits. -/
def badBitmap (bad : List Nat) : List Byte :=
  (List.range 496).map fun j => BitVec.ofNat 8 (ofLsb ((List.range 8).map fun i => bad.contains (8 * j + i)))

/-- A counters copy of 2 KiB. -/
def countersCopy (a : Alm) (count : Nat) : List Byte :=
  let b := leBytes 4 count ++ leBytes 4 a.nextSeq ++ leBytes 4 a.clearSeq ++ leBytes 4 a.backupReported
    ++ leBytes 4 a.powerUps ++ leBytes 4 a.written ++ List.replicate 8 0 ++ badBitmap a.bad ++ List.replicate 1516 0
  b ++ leBytes 4 (crc32 b)

/-- Address of a counters copy. -/
def copyAddr (c : Nat) : Nat := 0x3F000 + 0x800 * c

/-- A save, which writes the copy that was not saved last. -/
def State.saveCounters (s : State) : State :=
  let n := (s.alm.saveCount + 1) % 2 ^ 32
  let c := 1 - s.alm.copy
  (s.almWrite (copyAddr c) (countersCopy s.alm n)).modAlm fun a => { a with saveCount := n, copy := c }

/-- A counters copy as stored, where its CRC matches. -/
def counterCopy (m : Memory) (c : Nat) : Option (List Byte) :=
  let b := Memory.readList almEmpty m (copyAddr c) 2048
  if leAt b 2044 4 == crc32 (b.take 2044) then some b else none

/-- The copy that the JN6440 uses: the valid one with the higher save_count. -/
def usedCopy (m : Memory) : Option (Nat × List Byte) :=
  match counterCopy m 0, counterCopy m 1 with
  | some a, some b => if seqBefore (leAt a 0 4) (leAt b 0 4) then some (1, b) else some (0, a)
  | some a, none => some (0, a)
  | none, some b => some (1, b)
  | none, none => none

/-! ### Writing one record (R475, R476) -/

/-- The first slot of a region from a start that is not marked bad. -/
def goodSlot (bad : List Nat) (region start n : Nat) : Nat :=
  match (List.range n).find? fun i => !bad.contains (badIndex region ((start + i) % n)) with
  | some i => (start + i) % n
  | none => start

/-- The next free slot of the first-fault zone: blank or cleared, and good. -/
def freeFirst (a : Alm) : Option Nat :=
  findBelow 256 fun i =>
    let b := almSlot a.bytes (slotAddr 1 i)
    !a.bad.contains (badIndex 1 i) && (slotBlank b || (slotValid b && !firstSlotUsed a i))

/-- A slot whose write failed twice: marked, with event 54 and write_failures; what it holds is free. -/
def State.markBad (s : State) (region i : Nat) : State :=
  let n := s.freeCount
  let s := { s with freeCount := n + 64 }.almWrite (slotAddr region i) ((List.range 64).map fun k => Config.slotByte (n + k))
  ((s.modAlm fun a => { a with bad := if a.bad.contains (badIndex region i) then a.bad else a.bad ++ [badIndex region i] }).bump nALMANAC 6 16 16).raise 54

/-- The ALMANAC record of a bad slot. -/
def badRecord (s : State) (region i : Nat) : AlmRec :=
  { type := 0xA0, cls := clFault, source := nALMANAC, index := 0, code := 1, period := s.tm.period, stamp := s.tm.now,
    detail := leBytes 4 i ++ leBytes 1 region }

/-- Whether a record is to be copied to the first-fault zone. -/
def AlmRec.first (r : AlmRec) : Bool := r.cls != clInfo && !r.summary

/-- The copy of a record in the first-fault zone, or first_overflow where there is no free slot (R475). A slot that
cannot be written is marked, and the next free one is taken. -/
def State.copyFirst (s : State) (r : AlmRec) (seq : Nat) (zoneOk : Bool) : State :=
  let fill (s : State) : State :=
    match freeFirst s.alm with
    | some i => s.almWrite (slotAddr 1 i) (r.bytes seq true)
    | none => (s.bump nALMANAC 8 0 16).modAlm fun a => { a with firstFull := true }
  let s := match freeFirst s.alm, zoneOk with
    | some i, false => fill ((s.markBad 1 i).modAlm fun a => { a with queue := badRecord s 1 i :: a.queue })
    | _, _ => fill s
  s.modAlm fun a => { a with firstFull := a.firstFull || (freeFirst a).isNone }

/-- A record written to the ring and, where it belongs there, to the first-fault zone; its sequence is the next one, EP6
takes a copy, and the counters are saved (R470, R475, R476, R482; log 55). -/
def State.writeRecord (s : State) (r : AlmRec) (zoneOk : Bool) : State :=
  let i := goodSlot s.alm.bad 2 s.alm.ringNext 3584
  let seq := s.alm.nextSeq
  let bs := r.bytes seq (r.first && (freeFirst s.alm).isSome)
  let s := (s.almWrite (slotAddr 2 i) bs).modAlm fun a => { a with
    ringNext := (i + 1) % 3584
    nextSeq := nextSequence seq
    written := satAdd 32 a.written 1 }
  let s := if i = 0 then (s.bump nALMANAC 8 16 16).raise 53 else s
  let s := s.bump nALMANAC 5 0 32
  let s := if r.first then s.copyFirst r seq zoneOk else s
  let s := if s.fld nALMANAC 0 0 2 != 0 then s.stream6 bs else s
  s.saveCounters

/-! ### The scan (R471, R480) -/

/-- The sequences of the valid slots of a region, with their slots. -/
def validSeqs (m : Memory) (region : Nat) : List (Nat × Nat) :=
  (List.range (regionSlots region)).filterMap fun i =>
    let b := almSlot m (slotAddr region i)
    if !slotBlank b && slotValid b then some (slotSeq b, i) else none

/-- The entry with the highest sequence. -/
def newestOf (l : List (Nat × Nat)) : Option (Nat × Nat) :=
  l.foldl (fun o x => match o with
    | some y => if seqBefore y.1 x.1 then some x else some y
    | none => some x) none

/-- Torn slots of a region: neither blank nor valid, and not marked bad. -/
def tornSlots (a : Alm) (region : Nat) : Nat :=
  ((List.range (regionSlots region)).filter fun i =>
    let b := almSlot a.bytes (slotAddr region i)
    !slotBlank b && !slotValid b && !a.bad.contains (badIndex region i)).length

/-- The sequence of the last CLEAR_FIRST record in the ring, 0 for none (R480). -/
def lastClear (m : Memory) : Nat :=
  match newestOf ((validSeqs m 2).filter fun x => (nth 0 (almSlot m (slotAddr 2 x.2)) 0).toNat == 0x91) with
  | some x => x.1
  | none => 0

/-- The slots that a bitmap marks. -/
def marked (b : List Byte) : List Nat := (List.range 3968).filter fun i => bitAt (nth 0 b (32 + i / 8)).toNat (i % 8)

/-- The controller's registers after a scan of its memory. -/
def Alm.scanned (a : Alm) (powerUp : Bool) : Alm :=
  let ring := newestOf (validSeqs a.bytes 2)
  let all := newestOf (validSeqs a.bytes 2 ++ validSeqs a.bytes 1)
  let c := usedCopy a.bytes
  let b := (c.map (·.2)).getD []
  let a : Alm := { a with
    scanDone := true
    nextSeq := (match all with
      | some x => nextSequence x.1
      | none => if c.isSome && leAt b 4 4 != 0 then leAt b 4 4 else 1)
    ringNext := (match ring with
      | some x => (x.2 + 1) % 3584
      | none => 0)
    clearSeq := if c.isSome then leAt b 8 4 else lastClear a.bytes
    backupReported := leAt b 12 4
    powerUps := satAdd 32 (leAt b 16 4) (b2n powerUp)
    written := leAt b 20 4
    saveCount := leAt b 0 4
    copy := (c.map (·.1)).getD 1
    bad := if c.isSome then marked b else [] }
  { a with firstFull := (freeFirst a).isNone }

/-- Slots of the backup-alarm area: the series goes on from the highest valid record once the backup domain has lost its
state (R470). -/
def Backup.scanned (k : Backup) (m : Memory) : Backup :=
  if k.nextSeq != 0 then k
  else match newestOf (validSeqs m 3) with
    | some x => { k with nextSeq := nextSequence x.1, slot := (x.2 + 1) % 128 }
    | none => { k with nextSeq := 1, slot := 0 }

/-! ### The header region (R554) -/

/-- The region written where it is blank, as a steward start does. -/
def State.writeHeader (s : State) : State :=
  if slotBlank (Memory.readList almEmpty s.alm.bytes 0 16) then
    s.almWrite 0 ([1, 0, 0, 0] ++ leBytes 2 0x6440 ++ leBytes 2 s.boot.silicon ++ leBytes 8 s.boot.serial ++ List.replicate 4080 0)
  else s

end Sys2Proof.Machine
end

