-- ==== Sys2Proof/Machine/Restart.lean ====
section
/-! DEFINITION. POWER records, an entry into FALLOW abandoned, and restarts of the steward (10 R378; 11 R403; 12 R453; 13 Table AL-3;
14 R497). -/

namespace Sys2Proof.Machine

/-! ### POWER records (13 Table AL-3) -/

/-- A POWER record: its detail holds vin_10mv, vsys_mv, vbak_mv and the junction temperature, which is a free value. -/
def State.powerLog (s : State) (code : Nat) : State :=
  let n := s.freeCount
  ({ s with freeCount := n + 2 }).log 0x06 nPOWER 0 code
    (leBytes 2 s.pw.vin10mv ++ leBytes 2 s.pw.vsysMv ++ leBytes 2 s.pw.vbakMv ++ [Config.junctionByte n, Config.junctionByte (n + 1)])

/-! ### FALLOW abandoned (11 R403; 10 R378) -/

/-- A pending entry abandoned: event 34 is raised and the Almanac records it. A request that has no reply yet is answered
ABORTED, and a lead with an agreement sends FALLOW_ABORT (R378, R403). -/
def State.abandonFallow (s : State) : State :=
  match s.pw.fallow with
  | none => s
  | some f =>
    let s := s.modPw fun p => { p with fallow := none }
    let s := match f.proposal with
      | some id => s.command .fallowAbort 0 (leBytes 1 id)
      | none => s
    (((s.completeOpt f.ticket stAborted).powerLog 7).raise 34)

/-! ### Restarts of the steward (12 R453, Table CK-4; 13 R474; 14 R497, Table HW-4) -/

/-- What every start of the steward ends: merging windows, Harrow's episodes and consents, a staging. -/
def State.stewardEnds (s : State) : State :=
  ((s.endEpisodes 4).closeAllWindows.modHw fun h => { h with consents := [] }).modUpd fun u => { u with staging := none }

/-- The steward restarts from the boot ROM after a watchdog expiry, or because a further part failed: requests, reply
caches and queued replies are lost, and the shadow is discarded; the drill runs on (12 R453, R457, Table CK-4). The
readiness time is 60 ms later. -/
def State.restartSteward (s : State) (cause : Nat) : State :=
  let s := s.stewardEnds.abandonFallow
  let s := s.modMb fun m => { m with
    chans := List.replicate 4 {}
    shadow := none
    commit := none
    legacy := []
    compatNext := none
    serving := 0
    servingChan := 0
    run := m.run.bind fun r => if r.ticket.isNone then some r else none }
  let s := s.modBoot fun b => { b with
    phase := .rom
    kind := .watchdog
    cause
    bootCount := satAdd 32 b.bootCount 1
    readyAt := s.tm.now + ticksMs 60 }
  (s.modYoke fun y => { y with forwards := [] }).modUpd fun u => { u with swap := none, swapLine := none, marked := [] }

/-- The steward goes down while the firmware runs, by a watchdog expiry or an uncorrectable error in B00: it restarts, and the level is
L2 meanwhile, or L1 with the drill stopped (01 Table AR-7). -/
def State.stewardDown (s : State) : State :=
  let stopped := s.drill.mode == 0
  (s.restartSteward 3).fail 13 fun f => { f with steward := true, stewardL1 := stopped }

end Sys2Proof.Machine
end

