-- ==== Sys2Proof/Machine/ThrProg.lean ====
section
/-! DEFINITION. Thresher programs: the layout of an instruction, which of them an iteration runs, and the static check
of a whole program (08 R274 to R276, R281). -/

namespace Sys2Proof.Machine

/-- An instruction (Table TH-6). -/
structure ThrInstr where
  op : Nat
  flags : Nat
  dst : Nat
  a : Nat
  b : Nat
  c : Nat
  imm16 : Nat
  imm32 : Nat
  deriving DecidableEq, Repr

/-- An instruction from its 16 bytes. -/
def thrInstrOf (bs : List Byte) : ThrInstr :=
  { op := leAt bs 0 1, flags := leAt bs 1 1, dst := leAt bs 2 2, a := leAt bs 4 2, b := leAt bs 6 2, c := leAt bs 8 2
    imm16 := leAt bs 10 2, imm32 := leAt bs 12 4 }

/-- The instructions of a PROGRAM object. -/
def State.program (s : State) (n : Nat) (o : Obj) : List ThrInstr :=
  (List.range o.entries).map fun i => thrInstrOf (s.objBytes n o (64 + 16 * i) 16)

/-- END, which also stands beyond the last instruction. -/
def thrEnd : ThrInstr := ⟨0, 0, 0xFFFF, 0xFFFF, 0xFFFF, 0xFFFF, 0, 0⟩

/-- The object ID and the view of a handle (R274). -/
def handleId (h : Nat) : Nat := h % 64
def handleView (h : Nat) : Nat := h / 256 % 4

/-- Whether a handle is none, or has its reserved bits zero. -/
def handleOk (h : Nat) : Bool := h == 0xFFFF || (h / 64 % 4 == 0 && h / 1024 == 0)

/-- The objects that a program names, with its own ID (R290). -/
def namedIds (prog : Nat) (l : List ThrInstr) : List Nat :=
  prog :: l.flatMap fun i =>
    ([i.dst, i.a, i.b, i.c].filter (· != 0xFFFF)).map handleId ++ (if i.op == 0x0B then [i.imm16 % 64] else [])

/-- The opcodes of Table TH-4. -/
def thrOpcode (op : Nat) : Bool := op ≤ 0x0B || (0x10 ≤ op && op ≤ 0x14)

/-! ### Which instruction runs next (R274, R277) -/

/-- Whether the iteration in progress is the last. -/
def Job.lastRound (j : Job) : Bool := j.count != 0 && j.iteration + 1 == j.count

/-- Whether an instruction runs in the iteration in progress; END always does. -/
def Job.runs (j : Job) (i : ThrInstr) : Bool :=
  i.op == 0 || ((!bitAt i.flags 0 || j.iteration == 0) && (!bitAt i.flags 1 || j.lastRound) && (!j.skipping || bitAt i.flags 1))

/-- The index of the next instruction that runs, from an index on. -/
def Job.next (j : Job) (l : List ThrInstr) (pc : Nat) : Nat :=
  pc + ((l.drop pc).takeWhile fun i => !j.runs i).length

/-- The program of a context's job. -/
def State.jobProgram (s : State) (n : Nat) : List ThrInstr :=
  match (s.ctx n).job.bind fun j => (s.ctx n).obj j.program with
  | some o => s.program n o
  | none => []

/-- The instruction that context n runs now: it holds the engine, no save of its state is under way, and its job stands at it. -/
def State.current (s : State) (n : Nat) : Option (Job × ThrInstr) :=
  if s.thr.running == some n && (s.ctx n).parking.isNone then (s.ctx n).job.map fun j => (j, (s.jobProgram n).getD j.pc thrEnd) else none

/-- The context stands at the next instruction of its program; a job that was told to end does so here, between two
instructions (R287). -/
def State.advance (s : State) (n : Nat) : State :=
  match (s.ctx n).job with
  | none => s
  | some j =>
    let pc := j.next (s.jobProgram n) (j.pc + 1)
    let s := s.modCtx n fun c => { c with instr := pc % 256, job := some { j with pc } }
    match j.ending with
    | some r => s.endJob n r
    | none => s

/-! ### The static check (R275) -/

/-- What the check knows of an object. -/
structure Sym where
  id : Nat
  type : Nat
  ring : Nat
  n : Nat
  limbs : Nat
  comps : Nat
  ntt : Bool
  bad : Bool
  capacity : Nat
  entries : Nat
  /-- Limbs of the object's RING; 0 where it is not loaded. -/
  ringLimbs : Nat
  deriving DecidableEq, Repr

/-- The objects of a context as the check begins. -/
def State.symbols (s : State) (n : Nat) : List Sym :=
  ((s.ctx n).objects.filter (·.complete)).map fun o =>
    let g := ((s.ctx n).loaded o.ring).filter (·.type == 1)
    { id := o.id
      type := o.type
      ring := o.ring
      n := (g.map fun g => 2 ^ s.ringLog n g).getD 0
      limbs := o.limbs
      comps := o.components
      ntt := bitAt o.flags 1
      bad := bitAt o.flags 0
      capacity := o.capacity
      entries := o.entries
      ringLimbs := (g.map (·.limbs)).getD 0 }

/-- A check's outcome: a value, or the reason of Table R275. -/
abbrev Chk (α : Type) := Except Nat α

def need (ok : Bool) (reason : Nat) : Chk Unit := if ok then .ok () else .error reason

/-- The object of a handle. -/
def symOf (env : List Sym) (h : Nat) : Chk Sym :=
  match (if h == 0xFFFF then none else env.find? (·.id == handleId h)) with
  | some o => .ok o
  | none => .error 2

/-- The object of a handle whose RING is still loaded. -/
def ringed (env : List Sym) (h : Nat) : Chk Sym := do
  let o ← symOf env h
  need (o.ringLimbs != 0) 2
  return o

/-- An object that is no polynomial, named whole: a view is a component alone as a polynomial (R274; log 104). -/
def wholeOf (env : List Sym) (h type : Nat) : Chk Sym := do
  let o ← symOf env h
  need (o.type == type && handleView h == 0) 3
  return o

/-- A polynomial operand: its object with the component count that its view leaves. -/
def polyOf (env : List Sym) (h : Nat) : Chk Sym := do
  let o ← ringed env h
  need (polyType o.type) 3
  need (handleView h ≤ o.comps) 7
  need (!o.bad) 8
  return if handleView h = 0 then o else { o with comps := 1 }

/-- Two operands share ring, limbs and domain. -/
def sameShape (x y : Sym) : Chk Unit := do
  need (x.ring == y.ring && x.n == y.n) 4
  need (x.limbs == y.limbs) 5
  need (x.ntt == y.ntt) 6

/-- A result written to dst: its type, ring, component count and room; the environment after it. -/
def putSym (env : List Sym) (h : Nat) (ring n limbs comps : Nat) (ntt : Bool) : Chk (List Sym) := do
  let d ← ringed env h
  need (polyType d.type) 3
  need (d.ring == ring) 4
  need (limbs ≤ d.ringLimbs) 5
  if handleView h = 0 then
    need (d.type == 5 || comps == 1) 7
    need (comps * limbs * n * 8 ≤ d.capacity) 11
    return env.map fun o => if o.id == d.id then { o with limbs, comps, ntt } else o
  else
    need (comps == 1 && handleView h ≤ d.comps) 7
    need (d.limbs == limbs) 5
    need (d.ntt == ntt) 6
    return env

/-- dst is none of the operands (R270). -/
def apart (i : ThrInstr) (hs : List Nat) : Chk Unit := need (hs.all fun h => handleId h != handleId i.dst) 10

/-- A pool entry added to an object (R280). -/
def poolFits (env : List Sym) (x : Sym) (h : Nat) : Chk Unit := do
  let p ← wholeOf env h 7
  need (!p.bad) 8
  need (p.ring == x.ring) 4
  need (x.limbs ≤ p.limbs) 5
  need (p.ntt == x.ntt) 6
  need (x.comps == 2) 7

/-- The fields and slots of a FEATURE_MAP (R276). Its bytes 6 and 7 are not looked at (DESIGN CHOICE, log 95). -/
def State.mapOk (s : State) (n : Nat) (o : Obj) (ringN : Nat) : Bool :=
  let h := s.objBytes n o 64 8
  let fs := s.sheaf.layout.fields
  leAt h 0 4 == s.sheaf.layout.id && leAt h 4 1 ≤ 1 &&
    (List.range o.entries).all fun i =>
      let e := s.objBytes n o (72 + 8 * i) 8
      leAt e 2 2 < ringN && (match fs[leAt e 0 2]? with
        | some f => 1 ≤ f.valueType && f.valueType ≤ 0x14
        | none => false)

/-- One instruction checked: the environment after it, or the reason of the failure. -/
def State.checkInstr (s : State) (n : Nat) (env : List Sym) (i : ThrInstr) : Chk (List Sym) := do
  need (thrOpcode i.op && i.flags < 4 && [i.dst, i.a, i.b, i.c].all handleOk) 1
  match i.op with
  | 0x00 => return env
  | 0x01 | 0x04 =>
    let x ← polyOf env i.a
    let y ← polyOf env i.b
    sameShape x y
    need x.ntt 6
    let square := i.op == 1 && x.comps == 2 && y.comps == 2
    need (y.comps == 1 || square) 7
    if square then apart i [i.a, i.b]
    if i.op == 4 then
      let d ← polyOf env i.dst
      sameShape d x
      need (d.comps == x.comps) 7
      return env
    else putSym env i.dst x.ring x.n x.limbs (if square then 3 else x.comps) true
  | 0x02 | 0x03 =>
    let x ← polyOf env i.a
    let y ← polyOf env i.b
    sameShape x y
    need (y.comps == x.comps || y.comps == 1) 7
    putSym env i.dst x.ring x.n x.limbs x.comps x.ntt
  | 0x05 | 0x06 =>
    let x ← polyOf env i.a
    need (x.ntt == (i.op == 6)) 6
    putSym env i.dst x.ring x.n x.limbs x.comps (i.op == 5)
  | 0x07 =>
    let x ← polyOf env i.a
    need (i.imm32 % 2 == 1 && i.imm32 < 2 * x.n) 9
    putSym env i.dst x.ring x.n x.limbs x.comps x.ntt
  | 0x08 =>
    let x ← polyOf env i.a
    apart i [i.a]
    let d ← ringed env i.dst
    need (d.n == x.n) 4
    need (!x.ntt) 6
    need (x.comps == 1) 7
    putSym env i.dst d.ring x.n d.limbs 1 false
  | 0x09 =>
    let x ← polyOf env i.a
    need (2 ≤ x.limbs) 5
    need (!x.ntt) 6
    putSym env i.dst x.ring x.n (x.limbs - 1) x.comps false
  | 0x0A =>
    let x ← polyOf env i.a
    apart i [i.a]
    need (!x.ntt) 6
    need (x.comps == 1) 7
    need (i.imm32 < x.limbs) 9
    putSym env i.dst x.ring x.n x.limbs 1 false
  | 0x0B =>
    let x ← polyOf env i.a
    let b ← wholeOf env i.b 10
    let k ← wholeOf env i.c 3
    let sc ← symOf env i.imm16
    need (x.type == 5) 3
    need (!k.bad && !b.bad) 8
    need (b.ring == x.ring && k.ring == x.ring) 4
    need (i.imm32 ≤ 31 && handleOk i.imm16) 9
    need (i.imm32 + 1 ≤ x.limbs && b.limbs == x.limbs && k.limbs == x.limbs && x.limbs ≤ k.entries) 5
    need (x.ntt && k.ntt) 6
    need (x.comps == 2 && b.entries == i.imm32 + 1) 7
    apart i [i.a, i.b, i.c, i.imm16]
    need (5 * x.limbs * x.n * 8 ≤ sc.capacity) 11
    putSym env i.dst x.ring x.n (x.limbs - i.imm32) 2 true
  | 0x10 =>
    let _ ← wholeOf env i.a 9
    let d ← ringed env i.dst
    need (d.type == 6) 3
    match (s.ctx n).loaded (handleId i.a) with
    | none => .error 2
    | some o =>
      need (s.mapOk n o d.n) 12
      let x := nTHRCTX n
      need (s.flag x 3 0 && s.mapped (6 + n) .read (s.reg x 2) (8 * s.reg nSHEAF 2)) 14
      putSym env i.dst d.ring d.n d.limbs 1 (leAt (s.objBytes n o 68 1) 0 1 == 1)
  | 0x11 =>
    let d ← polyOf env i.dst
    need (d.type == 5) 3
    poolFits env d i.a
    return env
  | 0x12 =>
    let x ← polyOf env i.a
    need (x.type == 5) 3
    if i.b != 0xFFFF then poolFits env x i.b
    let d ← ringed env i.dst
    need (d.type == 5 && handleView i.dst == 0 && handleView i.a == 0) 3
    let l := bits i.imm32 0 8
    let c := bits i.imm32 8 2
    need (1 ≤ l && 2 ≤ c && i.imm32 / 2 ^ 17 == 0 && bits i.imm32 10 6 == 0) 9
    putSym env i.dst d.ring d.n l c (bitAt i.imm32 16)
  | 0x13 =>
    let d ← symOf env i.dst
    need (polyType d.type) 3
    need (handleView i.dst ≤ d.comps) 7
    return env.map fun o => if o.id == d.id then { o with bad := false } else o
  | _ =>
    let x ← polyOf env i.a
    need (1 ≤ i.imm32 && i.imm32 < x.limbs) 9
    putSym env i.dst x.ring x.n i.imm32 x.comps x.ntt

/-- The instructions from index k on. -/
def State.checkFrom (s : State) (n : Nat) : List Sym → Nat → List ThrInstr → Option (Nat × Nat)
  | _, _, [] => none
  | env, k, i :: l =>
    match s.checkInstr n env i with
    | .ok env => s.checkFrom n env (k + 1) l
    | .error r => some (k, r)

/-- The first failure of a program: instruction index and reason (R275). -/
def State.checkProgram (s : State) (n : Nat) (l : List ThrInstr) : Option (Nat × Nat) :=
  match s.checkFrom n (s.symbols n) 0 l with
  | some f => some f
  | none => if (l.getLast?.map (·.op)) == some 0 then none else some (l.length, 13)

end Sys2Proof.Machine
end

