-- ==== Sys2Proof/Machine/Thresher.lean ====
section
/-! DEFINITION. The Thresher: its kernels as instructions of a running job, the schedule of samples, the verbs and the
sharing of the engine (08). -/

namespace Sys2Proof.Machine

/-! ### Operands and results -/

/-- A polynomial operand at run time: its object, log2 n, its limbs, and the components that its view selects. -/
structure Operand where
  obj : Obj
  k : Nat
  ls : List Limb
  comps : List Comp

/-- The operand that a handle names. -/
def State.operand (s : State) (n h : Nat) : Option Operand :=
  if h == 0xFFFF then none
  else ((s.ctx n).loaded (handleId h)).bind fun o => (s.ringFor n o).map fun (k, ls) =>
    let all := s.compsAt n o 64 o.components o.limbs (2 ^ k)
    { obj := o, k, ls, comps := if handleView h = 0 then all else (all.drop (handleView h - 1)).take 1 }

/-! ### What an instruction leaves (R270, R271, R291) -/

/-- The result of a polynomial kernel in dst: one component where the handle has a view, else the whole object with its components,
limb count and flags in the header (R270); a failed residue check sets the poisoned flag (R271). -/
def State.polyResult (s : State) (n h : Nat) (cs : List Comp) (limbs k flags : Nat) (ok : Bool := true) : Option KernelResult :=
  ((s.ctx n).loaded (handleId h)).map fun o =>
    let bad (f : Nat) : Nat := if ok then f else f ||| 1
    if handleView h = 0 then
      let o := { o with components := cs.length, limbs, dataLen := cs.length * limbs * 2 ^ k * 8, flags := bad flags }
      { writes := [(o.vaddr + 64, compBytes cs), (o.vaddr, o.header)], objs := [o], ok }
    else
      let o := { o with flags := bad o.flags }
      { writes := (o.vaddr + 64 + (handleView h - 1) * limbs * 2 ^ k * 8, compBytes cs) :: (if ok then [] else [(o.vaddr, o.header)])
        objs := [o], ok }

/-- The flags that a kernel leaves in dst: poisoned and SLOT as they were, and the domain. -/
def State.flagsOf (s : State) (n h : Nat) (ntt : Bool) : Nat :=
  ((((s.ctx n).loaded (handleId h)).map (·.flags)).getD 0 &&& 5) + 2 * b2n ntt

/-- A polynomial kernel's result. -/
def State.polyOut (s : State) (n h : Nat) (cs : List Comp) (limbs k : Nat) (ntt : Bool) (ok : Bool := true) : Option KernelResult :=
  s.polyResult n h cs limbs k (s.flagsOf n h ntt) ok

/-- An object that an instruction changed: in the object table, and for a pool its entries left. -/
def State.takeObj (s : State) (n : Nat) (o : Obj) : State :=
  let s := s.putObj n o
  if o.type == 7 then s.modCtx n fun c => { c with poolLeft := o.entries - o.used } else s

/-- A failed residue check: integrity_faults counts, event 39 is raised, and the job ends with reason 5 (R271). -/
def State.poisoned (s : State) (n : Nat) : State :=
  (((s.bump nTHRESHER 4 0 16).bump (nTHRCTX n) 11 0 32).raise 39).endJob n 5

/-- The result of an instruction written: a soft fault suspends the context, which writes on from there; a hard one ends the job
(R291; 07 R242). -/
def State.finish (s : State) (n : Nat) (r : KernelResult) (next : State → State) : State :=
  match s.store (thrAgent n) r.writes with
  | (s, .done) =>
    let s := (r.objs.foldl (fun s o => s.takeObj n o) s).modCtx n fun c => { c with job := c.job.map fun j => { j with result := none } }
    if r.ok then next s else s.poisoned n
  | (s, .waits) => (s.modCtx n fun c => { c with job := c.job.map fun j => { j with result := some r } }).suspendCtx n
  | (s, .ends) => s.endJob n 4

/-- An instruction: its operands are read whole, then its result is written (DESIGN CHOICE, log 101: the interleaving of a kernel's
reads and writes is not stated). -/
def State.perform (s : State) (n : Nat) (j : Job) (reads : List Piece) (result : Option KernelResult) (next : State → State) : State :=
  match j.result with
  | some r => s.finish n r next
  | none => match s.access (thrAgent n) reads with
    | (t, .done) => match result with
      | some r => t.finish n r next
      | none => s
    | (t, .waits) => t.suspendCtx n
    | (t, .ends) => t.endJob n 4

/-- What an operand's handle reads: the header and the data of its object, or one component. -/
def State.operandParts (s : State) (n h : Nat) : List Piece :=
  match (if h == 0xFFFF then none else (s.ctx n).loaded (handleId h)) with
  | none => []
  | some o =>
    if handleView h = 0 then [⟨.read, o.vaddr, 64 + o.dataLen⟩]
    else
      let len := o.limbs * 2 ^ (((s.ringFor n o).map (·.1)).getD 0) * 8
      [⟨.read, o.vaddr + 64 + (handleView h - 1) * len, len⟩]

/-- The operands that an instruction reads. -/
def State.instrParts (s : State) (n : Nat) (i : ThrInstr) : List Piece := [i.a, i.b, i.c].flatMap (s.operandParts n)

/-- The current instruction of context n, where its job stands at an opcode. -/
def State.service (s : State) (n op : Nat) (f : Job → ThrInstr → State) : State :=
  match s.current n with
  | some (j, i) => if i.op = op then f j i else s
  | none => s

/-- A kernel as the current instruction of context n: the job goes on to the next instruction. -/
def State.kernel (s : State) (n op : Nat) (f : ThrInstr → Option KernelResult) : State :=
  s.service n op fun j i => s.perform n j (s.instrParts n i) (f i) (·.advance n)

/-- A hardened kernel over two operands (R271). -/
def State.hardened (s : State) (n op : Nat) (u : Option Upset) (f : List Limb → List Comp → List Comp → List (List (List LastOp))) : State :=
  s.kernel n op fun i =>
    match s.operand n i.a, s.operand n i.b with
    | some x, some y =>
      let (cs, ok) := harden x.ls (2 ^ x.k) (f x.ls x.comps y.comps) (u.map fun v => (v.element, v.mask.toNat))
      s.polyOut n i.dst cs x.obj.limbs x.k (bitAt x.obj.flags 1) ok
    | _, _ => none

/-! ### The kernels (Table TH-4) -/

def execEmul (c : Fin 4) (upset : Option Upset) (s : State) : Host.Outcome State Fault Refusal :=
  .next (s.hardened c.val 0x01 upset emulOps)

def execEadd (c : Fin 4) (upset : Option Upset) (s : State) : Host.Outcome State Fault Refusal :=
  .next (s.hardened c.val 0x02 upset eaddOps)

def execEsub (c : Fin 4) (s : State) : Host.Outcome State Fault Refusal :=
  .next (s.kernel c.val 0x03 fun i => match s.operand c.val i.a, s.operand c.val i.b with
    | some x, some y => s.polyOut c.val i.dst (esubK x.ls x.comps y.comps) x.obj.limbs x.k (bitAt x.obj.flags 1)
    | _, _ => none)

/-- dst is an operand too. -/
def execEmac (c : Fin 4) (s : State) : Host.Outcome State Fault Refusal :=
  let n := c.val
  .next (s.service n 0x04 fun j i =>
    s.perform n j (s.instrParts n i ++ s.operandParts n i.dst)
      (match s.operand n i.a, s.operand n i.b, s.operand n i.dst with
        | some x, some y, some d => s.polyOut n i.dst (emacK x.ls d.comps x.comps y.comps) x.obj.limbs x.k true
        | _, _, _ => none) (·.advance n))

def execNtt (c : Fin 4) (s : State) : Host.Outcome State Fault Refusal :=
  .next (s.kernel c.val 0x05 fun i => (s.operand c.val i.a).bind fun x =>
    s.polyOut c.val i.dst (nttK x.ls x.k x.comps) x.obj.limbs x.k true)

def execIntt (c : Fin 4) (s : State) : Host.Outcome State Fault Refusal :=
  .next (s.kernel c.val 0x06 fun i => (s.operand c.val i.a).bind fun x =>
    s.polyOut c.val i.dst (inttK x.ls x.k x.comps) x.obj.limbs x.k false)

def execAutomorph (c : Fin 4) (s : State) : Host.Outcome State Fault Refusal :=
  .next (s.kernel c.val 0x07 fun i => (s.operand c.val i.a).bind fun x =>
    let ntt := bitAt x.obj.flags 1
    s.polyOut c.val i.dst (automorphK x.ls x.k i.imm32 ntt x.comps) x.obj.limbs x.k ntt)

def execBaseconv (c : Fin 4) (s : State) : Host.Outcome State Fault Refusal :=
  .next (s.kernel c.val 0x08 fun i => match s.operand c.val i.a, ((s.ctx c.val).loaded (handleId i.dst)).bind fun o => (s.ringFor c.val o).map fun r => (o, r.2) with
    | some x, some (d, ls) => s.polyOut c.val i.dst [baseconvK x.ls ls (2 ^ x.k) (x.comps.headD [])] d.limbs x.k false
    | _, _ => none)

def execRescale (c : Fin 4) (s : State) : Host.Outcome State Fault Refusal :=
  .next (s.kernel c.val 0x09 fun i => (s.operand c.val i.a).bind fun x =>
    s.polyOut c.val i.dst (x.comps.map (rescaleComp x.ls)) (x.obj.limbs - 1) x.k false)

def execDecomp (c : Fin 4) (s : State) : Host.Outcome State Fault Refusal :=
  .next (s.kernel c.val 0x0A fun i => (s.operand c.val i.a).bind fun x =>
    s.polyOut c.val i.dst [decompK x.ls i.imm32 (x.comps.headD [])] x.obj.limbs x.k false)

/-- The scratch object's data area after POLYEVAL: free bytes from a count of free values (log 46). -/
def State.scratchWrite (s : State) (n h limbs k : Nat) : List (Nat × List Byte) :=
  (((s.ctx n).loaded (handleId h)).map fun o =>
    (o.vaddr + 64, (List.range (5 * limbs * 2 ^ k * 8)).map fun i => Config.scratchByte (s.freeCount + i))).toList

def execPolyeval (c : Fin 4) (upset : Option Upset) (s : State) : Host.Outcome State Fault Refusal :=
  let n := c.val
  .next (s.kernel n 0x0B fun i =>
    match s.operand n i.a, (s.ctx n).loaded (handleId i.b), (s.ctx n).loaded (handleId i.c) with
    | some x, some b, some key =>
      let coeffs := (List.range b.entries).map fun e => s.words n b (64 + e * b.limbs * 8) b.limbs
      let digits := (List.range key.entries).map fun e => s.compsAt n key (64 + e * 2 * key.limbs * 2 ^ x.k * 8) 2 key.limbs (2 ^ x.k)
      let e := polyevalK x.ls x.k i.imm32 x.comps coeffs digits upset
      (s.polyOut n i.dst e.r (x.obj.limbs - i.imm32) x.k true e.ok).map fun r =>
        { r with writes := s.scratchWrite n i.imm16 x.obj.limbs x.k ++ r.writes }
    | _, _, _ => none)

/-! ### FEATURE (R276, R277) -/

/-- A value of a field as an integer. -/
def fieldInt (f : SheafField) (x : Nat) : Int := if f.valueType / 16 = 1 then signedOf (8 * f.size) x else x

/-- Where the sheaf that a sample reads lies in the context's sheaf area: its header and its body (R276). -/
def State.featurePart (s : State) (n : Nat) (j : Job) : Option Piece :=
  j.sheaf.bind fun p =>
    (findBelow 8 fun i => (nth none s.sheaf.buffers i).any fun b => b.period == p).map fun i =>
      ⟨.read, s.reg (nTHRCTX n) 2 + i * s.reg nSHEAF 2, 64 + j.layout.bodySize⟩

/-- The buffer of the sheaf that a sample reads, where its header carries the expected period (R276). -/
def State.featureBuffer (s : State) (n : Nat) (j : Job) : Option (List Byte) :=
  (s.featurePart n j).bind fun x =>
    let bs := s.virtRead (6 + n) x.vaddr x.len
    if j.sheaf == some (leAt bs 16 6) then some bs else none

/-- The features of a map: the result of every entry (slot and exact product), or none where the sample is skipped. -/
def State.features (s : State) (n : Nat) (j : Job) (m : Obj) (bs : List Byte) : Option (List (Nat × Int)) :=
  let maxAge := leAt (s.objBytes n m 69 1) 0 1
  (List.range m.entries).foldr (fun i acc =>
    let e := s.objBytes n m (72 + 8 * i) 8
    match acc, j.layout.fields[leAt e 0 2]? with
    | some l, some f =>
      let at' := 64 + f.offset
      let v := leAt bs at' f.size
      let st := leAt bs (at' + (if f.size = 8 then 8 else 4)) 1
      let age := leAt bs (at' + (if f.size = 8 then 9 else 5)) 1
      if st = 2 || st = 3 || st = 4 || (st = 1 && maxAge < age) then none
      else some ((leAt e 2 2, fieldInt f v * signedOf 32 (leAt e 4 4)) :: l)
    | _, _ => none) (some [])

/-- One limb of the plaintext. -/
def featureRow (l : Limb) (n : Nat) (fs : List (Nat × Int)) : Row :=
  fs.foldl (fun r (i, v) => updAt r i fun _ => l.store (v % l.q).toNat) (List.replicate n 0)

/-- The sample skipped: no instruction after the FEATURE runs but final-only ones in the last iteration (R277). -/
def State.skipSample (s : State) (n : Nat) : State :=
  (s.modCtx n fun c => { c with skipped := c.skipped + 1, job := c.job.map fun j => { j with skipping := true } }).advance n

/-- The result of a FEATURE whose sample is not skipped: the plaintext, with its domain and its SLOT flag (R276). -/
def State.featureResult (s : State) (n : Nat) (i : ThrInstr) (m d : Obj) (fs : List (Nat × Int)) : Option KernelResult :=
  (s.ringFor n d).bind fun (k, ls) =>
    let slot := leAt (s.objBytes n m 68 1) 0 1 == 1
    s.polyResult n i.dst [ls.map fun l => featureRow l (2 ^ k) fs] d.limbs k ((d.flags &&& 1) + 6 * b2n slot)

/-- The sheaf and the map read: the job ends where the layout changed, the sample is skipped, or its plaintext is written. -/
def State.feature (s : State) (n : Nat) (j : Job) (i : ThrInstr) (m d : Obj) : State :=
  match s.featureBuffer n j with
  | none => s.skipSample n
  | some bs =>
    if leAt bs 12 4 != leAt (s.objBytes n m 64 4) 0 4 then s.endJob n 3
    else match (s.features n j m bs).bind (s.featureResult n i m d) with
      | none => s.skipSample n
      | some r => s.finish n r (·.advance n)

def execFeature (c : Fin 4) (s : State) : Host.Outcome State Fault Refusal :=
  let n := c.val
  .next (s.service n 0x10 fun j i =>
    match (s.ctx n).loaded (handleId i.a), (s.ctx n).loaded (handleId i.dst) with
    | some m, some d =>
      match j.result with
      | some r => s.finish n r (·.advance n)
      | none => match s.access (thrAgent n) (s.operandParts n i.a ++ (s.featurePart n j).toList) with
        | (t, .done) => t.feature n j i m d
        | (t, .waits) => t.suspendCtx n
        | (t, .ends) => t.endJob n 4
    | _, _ => s)

/-! ### RERAND and HANDOFF (R280, R281) -/

/-- Event 38 and a wait: for a pool (state 6) or for a hand-off (state 5). A job told to end does so here (R287, R290). -/
def State.waitFor (s : State) (n st : Nat) : State :=
  match (s.ctx n).job.bind (·.ending) with
  | some r => s.endJob n r
  | none => ((s.modCtx n fun c => { c with
      poolLeft := if st = 6 then 0 else c.poolLeft
      job := c.job.map fun j => { j with waitSince := s.tm.now } }).raise 38).parkCtx n st

/-- The next unused entry of a pool that dst can take: of its ring and domain, with as many limbs at least. A pool refilled with
another kind has none (R280; log 104). -/
def Obj.offers (p : Obj) (d : Obj) : Bool :=
  p.type == 7 && p.used < p.entries && p.ring == d.ring && d.limbs ≤ p.limbs && bitAt p.flags 1 == bitAt d.flags 1

/-- The bytes of the next unused entry of a pool. -/
def State.entryPart (p d : Obj) (k : Nat) : Piece :=
  ⟨.read, p.vaddr + 64 + p.used * 2 * p.limbs * 2 ^ k * 8, if d.limbs = 0 then 0 else 2 * p.limbs * 2 ^ k * 8⟩

/-- What RERAND reads: dst, and an entry of the pool. -/
def State.rerandParts (s : State) (n h pool : Nat) : List Piece :=
  s.operandParts n h ++ (match s.operand n h, (s.ctx n).loaded (handleId pool) with
    | some d, some p => [State.entryPart p d.obj d.k]
    | _, _ => [])

/-- The next unused entry of a pool added to an object; none where no entry remains. -/
def State.rerand (s : State) (n h pool : Nat) : Option KernelResult :=
  match s.operand n h, (s.ctx n).loaded (handleId pool) with
  | some d, some p =>
    if p.offers d.obj then
      let size := 2 ^ d.k
      let entry := (s.compsAt n p (64 + p.used * 2 * p.limbs * size * 8) 2 p.limbs size).map (·.take d.obj.limbs)
      let cs := (d.comps.zip entry).map fun (x, y) => addComp d.ls x y
      (s.polyOut n h cs d.obj.limbs d.k (bitAt d.obj.flags 1)).map fun r => { r with objs := r.objs ++ [{ p with used := p.used + 1 }] }
    else none
  | _, _ => none

/-- RERAND of an object, with what follows; without an entry the context waits for a pool. -/
def State.rerandThen (s : State) (n : Nat) (j : Job) (h pool : Nat) (next : State → State) : State :=
  if j.result.isNone && (s.rerand n h pool).isNone then s.waitFor n 6
  else s.perform n j (s.rerandParts n h pool) (s.rerand n h pool) next

def execRerand (c : Fin 4) (s : State) : Host.Outcome State Fault Refusal :=
  let n := c.val
  .next (s.service n 0x11 fun j i => s.rerandThen n j i.dst i.a (·.advance n))

/-- The hand-off itself: its sequence number, state 5 and event 38 (R281). -/
def State.handOff (s : State) (n : Nat) : State :=
  (s.modCtx n fun c => { c with
    handoff := (c.handoff + 1) % 65536
    job := c.job.map fun j => { j with returned := [] } }).waitFor n 5

def execHandoff (c : Fin 4) (s : State) : Host.Outcome State Fault Refusal :=
  let n := c.val
  .next (s.service n 0x12 fun j i =>
    if i.b == 0xFFFF then s.handOff n else s.rerandThen n j i.a i.b (·.handOff n))

/-! ### ZERO, DROP, END -/

/-- ZERO of a whole object, or of one component of it; the poisoned flag is cleared (Table TH-4). -/
def State.zeroResult (s : State) (n h : Nat) : Option KernelResult :=
  ((s.ctx n).loaded (handleId h)).map fun o =>
    let len := if handleView h = 0 then o.dataLen else o.limbs * 2 ^ (((s.ringFor n o).map (·.1)).getD 0) * 8
    let at' := if handleView h = 0 then 0 else (handleView h - 1) * len
    let o := { o with flags := o.flags &&& 6 }
    { writes := [(o.vaddr + 64 + at', List.replicate len 0), (o.vaddr, o.header)], objs := [o], ok := true }

def execZero (c : Fin 4) (s : State) : Host.Outcome State Fault Refusal :=
  .next (s.kernel c.val 0x13 fun i => s.zeroResult c.val i.dst)

def execDrop (c : Fin 4) (s : State) : Host.Outcome State Fault Refusal :=
  .next (s.kernel c.val 0x14 fun i => (s.operand c.val i.a).bind fun x =>
    s.polyOut c.val i.dst (x.comps.map (·.take i.imm32)) i.imm32 x.k (bitAt x.obj.flags 1))

/-- The iteration ends: the job waits for its next sample, or ends once sample_count samples have been run or skipped
(R269, R285; log 47). -/
def execEndIteration (c : Fin 4) (s : State) : Host.Outcome State Fault Refusal :=
  let n := c.val
  .next (s.service n 0x00 fun j _ =>
    let s := s.modCtx n fun c => { c with done := if j.skipping then c.done else c.done + 1 }
    if j.lastRound then s.endJob n 0
    else
      let j := { j with iteration := j.iteration + 1, skipping := false, sheaf := none }
      (s.modCtx n fun c => { c with job := some { j with pc := j.next (s.jobProgram n) 0 } }).parkCtx n 3)

/-! ### Samples (R278, R279) -/

/-- A capture line for one context: the first sample's period is fixed, and a due sample makes the context ready or
counts an overrun. `pub` is the period of the sheaf published at this line. -/
def State.sampleDue (s : State) (pub : Option Nat) (n : Nat) : State :=
  match (s.ctx n).job with
  | none => s
  | some j =>
    let first := j.first.getD s.tm.period
    let d := periodsFrom first s.tm.period
    let s := s.modCtx n fun c => { c with job := some { j with first := some first } }
    if 2 ^ 47 ≤ d || d % j.every != 0 then s
    else if (s.ctx n).state == 3 then
      s.modCtx n fun c => { c with
        state := 1
        lastPeriod := s.tm.period
        instr := j.pc % 256
        job := some { j with first := some first, sheaf := pub } }
    else s.modCtx n fun c => { c with overruns := c.overruns + 1 }

/-- Every context at a capture line. -/
def State.samples (s : State) (pub : Option Nat) : State := (s.each (List.range 4) (·.sampleDue pub ·)).dispatch

/-! ### Sharing the engine (R287 to R289) -/

/-- A pre-emption point: a job told to end ends, and a context of higher priority pre-empts (R287, R288, R290). -/
def execPreemptionPoint (s : State) : Host.Outcome State Fault Refusal :=
  match s.thr.running with
  | none => .next s.dispatch
  | some n =>
    if (s.ctx n).parking.isSome then .next s
    else match (s.ctx n).job.bind (·.ending) with
      | some r => .next (s.endJob n r)
      | none => match s.nextCtx n with
        | some m =>
          if s.priority n < s.priority m then
            .next ((((s.bump nTHRESHER 3 0 32).bump (nTHRCTX n) 10 0 32).raise 37).parkCtx n 1)
          else .next s
        | none => .next s

/-- A slice of 2 ms ends: another eligible context of the same priority, or of a higher one, takes the engine; where there is none the
current one goes on with a new slice (R286, R289). -/
def execTimeSliceExpiry (s : State) : Host.Outcome State Fault Refusal :=
  match s.thr.running with
  | none => .next s
  | some n =>
    if (s.ctx n).parking.isSome then .next s
    else
      let s := s.at (s.thr.sliceFrom + ticksMs 2)
      match s.nextCtx n with
      | some m =>
        if s.priority n ≤ s.priority m then .next (s.parkCtx n 1) else .next (s.modThr fun t => { t with sliceFrom := s.tm.now })
      | none => .next (s.modThr fun t => { t with sliceFrom := s.tm.now })

def execLaneIdleGate (s : State) : Host.Outcome State Fault Refusal :=
  .next (if s.thr.running.isNone && s.flag nTHRESHER 0 0 then (s.at (s.thr.idleSince + ticksMs 1)).modThr fun t => { t with gated := true } else s)

/-- A wait for a hand-off or a pool that has lasted handoff_timeout_ms ends the job (R282). -/
def execHandoffTimeout (c : Fin 4) (s : State) : Host.Outcome State Fault Refusal :=
  let n := c.val
  match (s.ctx n).job with
  | some j =>
    .next (if (s.ctx n).state == 5 || (s.ctx n).state == 6 then
        (s.at (j.waitSince + ticksMs (s.fld (nTHRCTX n) 3 16 16))).endJob n 7
      else s)
  | none => .next s

/-- An uncorrectable error in the Thresher control or the twiddle store: every job ends with reason 6 and the level
drops to L2 (R292; 01 Table AR-7). -/
def execThresherControlError (s : State) : Host.Outcome State Fault Refusal :=
  if s.boot.legacy || !s.flag nTHRESHER 0 0 then .next s
  else .next (s.fail 12 fun f => { f with thr := true })

/-! ### THR_LOAD (R260, R262, R283, R284) -/

/-- The pool that a waiting context asks for (R280). -/
def State.awaitedPool (s : State) (n : Nat) : Option Nat :=
  if (s.ctx n).state == 6 then
    (s.ctx n).job.map fun j =>
      let i := (s.jobProgram n).getD j.pc thrEnd
      handleId (if i.op = 0x11 then i.a else i.b)
  else none

/-- Whether an ID may not be loaded or unloaded: the program of a busy context names it (R290). -/
def State.idBusy (s : State) (n id : Nat) (refill : Bool) : Bool :=
  match (s.ctx n).job with
  | some j => (namedIds j.program (s.jobProgram n)).contains id && !(refill && s.awaitedPool n == some id)
  | none => false

/-- The channel whose inline load of an ID is in progress (R283). -/
def State.loadOwner (s : State) (n id : Nat) : Option Channel :=
  match (s.ctx n).obj id with
  | some o => if o.complete || o.lastChunk + ticksS 10 ≤ s.tm.now then none else o.owner
  | none => none

/-- Whether context n is fenced. -/
def State.ctxFenced (s : State) (n : Nat) : Bool := s.fenced (nTHRCTX n)

/-- The reply of THR_LOAD. -/
def loadReply (n : Nat) (o : Obj) : List Byte :=
  leBytes 1 n ++ leBytes 1 o.id ++ leBytes 1 (if o.complete then o.type else 0) ++ leBytes 1 (b2n o.complete)
    ++ leBytes 4 o.received ++ leBytes 4 (if o.complete && o.type == 7 then o.entries else 0)

/-- The status of a type tag (R260): 0 where it may be loaded. -/
def tagStatus (t : Nat) : Nat := if 0x80 ≤ t && t ≤ 0x8F then stDenied else if 1 ≤ t && t ≤ 10 then 0 else stField

/-- The last byte of an object has arrived: it is checked and becomes usable, or its ID is freed (R262, R264). -/
def State.finishLoad (s : State) (n id vaddr received : Nat) : State × Answer :=
  let o := { objOf id vaddr (s.virtRead (6 + n) vaddr 64) with received }
  let st := if tagStatus o.type != 0 then tagStatus o.type
    else if !s.objOk n o then stField
    else if o.type == 1 then s.ringStatus n o else 0
  if st != 0 then (s.dropObj n id, .done st [])
  else
    let awaited := s.awaitedPool n == some id
    let o := { o with complete := true }
    let s := s.putObj n o
    let s := s.ite (o.type == 7) fun s => s.modCtx n fun c => { c with poolLeft := o.entries }
    let s := s.ite (awaited && o.type == 7) fun s => (s.modCtx n fun c => { c with state := 1 }).dispatch
    (s, .done stOk (loadReply n o))

/-- Bytes that the steward writes into a context's space, through its own holding (R290); false where a hard fault ends the verb
(07 Table PM-8). -/
def State.stewardWrite (s : State) (n v : Nat) (bs : List Byte) : State × Bool :=
  match s.firmware .steward (6 + n) [⟨.write, v, bs.length⟩] with
  | (s, true) => (s.virtWrite (6 + n) v bs, true)
  | x => x

/-- One inline chunk (R283, R284). A first chunk of fewer than 5 bytes does not reach the type tag, which is read as 0: BAD_FIELD
(DESIGN CHOICE, log 95). -/
def State.loadChunk (s : State) (r : Req) : State × Answer :=
  let n := pf r 0 1
  let id := pf r 2 1
  let data := r.payload.drop 16
  let off := pf r 8 4
  let old := (s.ctx n).obj id
  let fresh := match old with
    | some o => o.complete || (s.loadOwner n id).isNone
    | none => true
  let received := if fresh then 0 else (old.map (·.received)).getD 0
  let vaddr := if fresh || off = 0 then pf r 4 4 else (old.map (·.vaddr)).getD 0
  let restart := fresh && off != 0 && (old.any fun o => !o.complete && o.received == off)
  if off != received && !restart then (s, .done stField [])
  else if fresh && !restart && tagStatus (leAt data 4 1) != 0 then (s, .done (tagStatus (leAt data 4 1)) [])
  else
    let vaddr := if restart then (old.map (·.vaddr)).getD 0 else vaddr
    if !s.mapped (6 + n) .write (vaddr + off) data.length then (s.dropObj n id, .done stField [])
    else match s.stewardWrite n (vaddr + off) data with
    | (s, false) => (s, .done stFault [])
    | (s, true) =>
      let got := off + data.length
      if pf r 3 1 = 1 then s.finishLoad n id vaddr got
      else
        let o := { objOf id vaddr (s.virtRead (6 + n) vaddr 64) with received := got, owner := some r.ch, lastChunk := s.tm.now }
        (s.putObj n o, .done stOk (loadReply n o))

/-- An object from the flash object store, copied by the storage port. While SS0 is busy or the port is fenced the request waits (05
R178, R187). Where the object's space is not mapped its ID is freed (R262). -/
def State.loadStore (s : State) (r : Req) : State × Answer :=
  let n := pf r 0 1
  let vaddr := pf r 4 4
  let at' := 0x900000 + pf r 8 4
  let len := pf r 12 4
  if s.selectWaits 0 then (s, .hold)
  else if s.fld (nCSP 8) 7 16 9 * 0x100000 < at' + len || len < 64 then (s, .done stField [])
  else
    let bs := s.nor at' len
    if tagStatus (leAt bs 4 1) != 0 then (s, .done (tagStatus (leAt bs 4 1)) [])
    else if !s.mapped (6 + n) .write vaddr len then (s.dropObj n (pf r 2 1), .done stField [])
    else match s.firmware .storage (6 + n) [⟨.write, vaddr, len⟩] with
    | (s, false) => (s, .done stFault [])
    | (s, true) => (s.virtWrite (6 + n) vaddr bs).finishLoad n (pf r 2 1) vaddr len

/-- An object created from its header, with zeroed data. -/
def State.allocate (s : State) (r : Req) : State × Answer :=
  let n := pf r 0 1
  let vaddr := pf r 4 4
  let h := slice r.payload 16 64
  let len := leAt h 12 4
  if tagStatus (leAt h 4 1) != 0 then (s, .done (tagStatus (leAt h 4 1)) [])
  else if !s.mapped (6 + n) .write vaddr (64 + len) then (s.dropObj n (pf r 2 1), .done stField [])
  else match s.stewardWrite n vaddr (h ++ List.replicate len 0) with
  | (s, false) => (s, .done stFault [])
  | (s, true) => s.finishLoad n (pf r 2 1) vaddr (64 + len)

/-- An object unloaded. -/
def State.unload (s : State) (r : Req) : State × Answer :=
  let n := pf r 0 1
  match (s.ctx n).obj (pf r 2 1) with
  | none => (s, .done stField [])
  | some o => (s.dropObj n o.id, .done stOk (loadReply n { o with complete := false, received := 0 }))

/-- THR_LOAD with any op. -/
def State.thrLoad (s : State) (r : Req) : State :=
  let op := pf r 1 1
  let len := r.length.toNat
  s.serve 0x20 r (match op with
      | 0 => 16 ≤ len && len == 16 + pf r 12 4
      | 3 => len == 80
      | _ => len == 16)
    (fun s => [noNoun r, (pf r 0 1 < 4, stNoNoun),
      (!s.ctxFenced (pf r 0 1) && !s.idBusy (pf r 0 1) (pf r 2 1) (op ≤ 1), stBusy),
      (op != 0 || (match s.loadOwner (pf r 0 1) (pf r 2 1) with | some c => c == r.ch | none => true), stBusy),
      (op ≤ 3 && pf r 2 1 < 64 && pf r 3 1 ≤ 1 && (op == 2 || pf r 4 4 % 256 == 0), stField)])
    fun s _ => match op with
      | 0 => s.loadChunk r
      | 1 => s.loadStore r
      | 2 => s.unload r
      | _ => s.allocate r

def execThrLoadInlineChunk (r : Req) (s : State) : Host.Outcome State Fault Refusal := .next (s.thrLoad r)
def execThrLoadFromStore (r : Req) (s : State) : Host.Outcome State Fault Refusal := .next (s.thrLoad r)
def execThrUnload (r : Req) (s : State) : Host.Outcome State Fault Refusal := .next (s.thrLoad r)
def execThrAllocate (r : Req) (s : State) : Host.Outcome State Fault Refusal := .next (s.thrLoad r)

/-- An inline load with no chunk for 10 s belongs to no channel any more; what arrived stays (R283). -/
def execThrLoadOwnerTimeout (c : Fin 4) (id : Fin 64) (s : State) : Host.Outcome State Fault Refusal :=
  match (s.ctx c.val).obj id.val with
  | some o =>
    .next (if !o.complete && o.owner.isSome then (s.at (o.lastChunk + ticksS 10)).putObj c.val { o with owner := none } else s)
  | none => .next s

/-! ### THR_SUBMIT, THR_CANCEL, THR_STATUS, THR_RETURN -/

/-- What the static check reads: the program, and every loaded RING and FEATURE_MAP of the context. -/
def Ctx.checkParts (c : Ctx) (o : Obj) : List Piece :=
  (o :: c.objects.filter fun x => x.complete && (x.type == 1 || x.type == 9)).map fun x => ⟨.read, x.vaddr, 64 + x.dataLen⟩

def execThrSubmit (r : Req) (s : State) : Host.Outcome State Fault Refusal :=
  let n := pf r 0 1
  let named := pf r 1 1 == 1
  .next (s.serve 0x21 r (r.length.toNat == 18)
    (fun s => [noNoun r, (n < 4, stNoNoun), s.heldRoom r,
      (!s.ctxFenced n && (s.ctx n).job.isNone, stBusy),
      (pf r 1 1 ≤ 1 && pz r 3 1 && pz r 6 2 && 1 ≤ pf r 4 2 && (!named || s.namedOk (pf r 12 6))
        && (((s.ctx n).loaded (pf r 2 1)).any fun o => o.type == 8), stField)])
    fun s t =>
      match (s.ctx n).loaded (pf r 2 1) with
      | none => (s, .done stField [])
      | some o =>
        match s.firmware .steward (6 + n) ((s.ctx n).checkParts o) with
        | (s, false) => (s, .done stFault [])
        | (s, true) =>
        let l := s.program n o
        match s.checkProgram n l with
        | some (k, reason) => (s, .done stField (leBytes 2 k ++ leBytes 2 reason))
        | none =>
          let number := (s.ctx n).jobNumber % (2 ^ 32 - 1) + 1
          let j : Job :=
            { ticket := some t, number, program := o.id, every := pf r 4 2, count := pf r 8 4
              first := if named then some (pf r 12 6) else none
              pc := 0, iteration := 0, sheaf := none, skipping := false, waitSince := 0, ending := none
              returned := [], layout := s.sheaf.layout }
          let j := { j with pc := j.next l 0 }
          let s := s.modCtx n fun c => { c with
            state := 3, job := some j, jobNumber := number, done := 0, skipped := 0, overruns := 0, instr := j.pc % 256 }
          (s, .accept (leBytes 1 n ++ [0] ++ leBytes 4 number)))

/-- A job number that is neither 0 nor the job's is refused (log 48). -/
def execThrCancel (r : Req) (s : State) : Host.Outcome State Fault Refusal :=
  let n := pf r 0 1
  .next (s.serve 0x22 r (r.length.toNat == 8)
    (fun s => [noNoun r, (n < 4, stNoNoun), (!s.ctxFenced n, stBusy),
      (pz r 1 3 && (pf r 4 4 == 0 || ((s.ctx n).job.any fun j => j.number == pf r 4 4)), stField)])
    fun s _ => (s.stopJob n 1, .done stOk []))

def execThrStatus (r : Req) (s : State) : Host.Outcome State Fault Refusal :=
  let n := pf r 0 1
  let id := pf r 1 1
  let off := pf r 4 4
  let len := pf r 8 2
  let size (o : Obj) : Nat := if o.complete then 64 + o.dataLen else o.received
  .next (s.serve 0x23 r (r.length.toNat == 10 && s.fits r (32 + min len 4046))
    (fun s => [noNoun r, (n < 4, stNoNoun), (!s.ctxFenced n, stBusy),
      (pz r 2 2 && len ≤ 4046 && (id == 0xFF || (match (s.ctx n).obj id with | some o => off + len ≤ size o | none => false)), stField)])
    fun s _ =>
      let c := s.ctx n
      let o := if id == 0xFF then none else c.obj id
      match s.firmware .steward (6 + n) (o.map fun o => ⟨.read, o.vaddr + off, len⟩).toList with
      | (s, false) => (s, .done stFault [])
      | (s, true) =>
      let bs := match o with | some o => s.objBytes n o off len | none => []
      (s, .done stOk (leBytes 1 n ++ leBytes 1 c.state ++ leBytes 2 c.instr ++ leBytes 4 c.jobNumber ++ leBytes 4 c.done
        ++ leBytes 4 c.skipped ++ leBytes 4 c.overruns ++ leBytes 2 c.handoff ++ leBytes 1 ((o.map (·.flags)).getD 0) ++ [0]
        ++ leBytes 4 off ++ leBytes 4 bs.length ++ bs)))

/-- The replacement checked under R262 and against the instruction (R281), and written to dst. -/
def State.takeReturn (s : State) (n : Nat) (j : Job) (bs : List Byte) : Option State :=
  let i := (s.jobProgram n).getD j.pc thrEnd
  ((s.ctx n).loaded (handleId i.dst)).bind fun d =>
    let o := { objOf d.id d.vaddr bs with received := bs.length, capacity := d.capacity }
    let t := s.virtWrite (6 + n) d.vaddr bs
    let fit := bs.length ≤ 64 + d.capacity && leAt bs 16 4 ≤ d.capacity && o.type == 5 && o.ring == d.ring && o.limbs == bits i.imm32 0 8
      && o.components == bits i.imm32 8 2 && bitAt o.flags 1 == bitAt i.imm32 16
    if fit && t.objOk n { o with capacity := leAt bs 16 4 } then
      some (t.putObj n { o with complete := true })
    else none

/-- Where a replacement is written. -/
def State.returnPart (s : State) (n : Nat) (j : Job) (bs : List Byte) : Option Piece :=
  ((s.ctx n).loaded (handleId ((s.jobProgram n).getD j.pc thrEnd).dst)).map fun d => ⟨.write, d.vaddr, min bs.length (64 + d.capacity)⟩

def execThrReturn (r : Req) (s : State) : Host.Outcome State Fault Refusal :=
  let n := pf r 0 1
  let data := r.payload.drop 8
  .next (s.serve 0x24 r (8 ≤ r.length.toNat)
    (fun s => [noNoun r, (n < 4, stNoNoun), (!s.ctxFenced n, stBusy),
      (pf r 1 1 ≤ 1 && (s.ctx n).state == 5 && pf r 2 2 == (s.ctx n).handoff
        && ((s.ctx n).job.any fun j => j.returned.length == pf r 4 4), stField)])
    fun s _ =>
      match (s.ctx n).job with
      | none => (s, .done stField [])
      | some j =>
        let bs := j.returned ++ data
        if pf r 1 1 = 0 then
          (s.modCtx n fun c => { c with job := some { j with returned := bs } }, .done stOk (leBytes 4 bs.length))
        else match s.firmware .steward (6 + n) (s.returnPart n j bs).toList with
          | (s, false) => (s, .done stFault [])
          | (s, true) =>
          match s.takeReturn n j bs with
          | none => (s.modCtx n fun c => { c with job := some { j with returned := [] } }, .done stField [])
          | some s =>
            let pc := j.next (s.jobProgram n) (j.pc + 1)
            let s := s.modCtx n fun c => { c with state := 1, instr := pc % 256, job := some { j with pc, returned := [] } }
            (s.dispatch, .done stOk (leBytes 4 bs.length)))

end Sys2Proof.Machine
end

