-- ==== Sys2Proof/Machine/Faults.lean ====
section
/-! DEFINITION. Banks, ECC, plot faults and their resolution, and the USB buffer pool (07). -/

namespace Sys2Proof.Machine

/-! ### Banks (R230 to R232) -/

/-- A bank brought towards ON; a bank that has failed to wake stays as it is until POR or RESET_N (R250). -/
def State.wakeBank (s : State) (k : Nat) : State :=
  if (s.bank k).failed then s else s.modSram k fun b => { b with waking := true }

/-- Whether a holding maps a plot of a bank. -/
def State.holdingMaps (s : State) (h k : Nat) : Bool :=
  (List.range 64).any fun r =>
    let g := regionOf s.reg r
    g.count != 0 && g.holding == h && g.phys < 16 * (k + 1) && 16 * k < g.phys + g.count

/-- A pool bank: one of the four from pool_base_bank (R253). -/
def State.poolBank (s : State) (k : Nat) : Bool :=
  let b := s.fld nPLOTMAP 0 24 6
  b != 0 && b ≤ k && k < b + 4

/-- Whether a bank is pinned (R231). -/
def State.pinned (s : State) (k : Nat) : Bool :=
  k < 4 || (s.flag nPLOTMAP 0 0 && (s.holdingMaps 1 k || s.holdingMaps 2 k)) || (s.poolBank k && s.flag nUSB 0 0)
    || bitAt (s.reg64 nPLOTMAP 2) k

/-- A bank brought to RETAINED or OFF. -/
def State.gateBank (s : State) (k : Nat) (st : BankState) : State :=
  let b := s.bank k
  let s := s.ite (st == .off) (·.wipeBank k)
  if b.state == .off && st == .retained then s else s.modSram k fun b => { b with state := st }

/-- POWER requests whose banks have all reached their state are answered (R428); a bank that failed to wake is not
waited for (R250, log 49). -/
def State.settlePower (s : State) : State :=
  s.pw.powers.foldl (fun s (t, mask, st) =>
    let all := (List.range 64).all fun k => !bitAt mask k || (s.bank k).failed || (s.bank k).state == st || (st == .retained && (s.bank k).state == .off)
    if all then
      (s.modPw fun p => { p with powers := p.powers.filter (·.1 != t) }).complete t stOk
        (leBytes 20 s.domains ++ leBytes 8 (s.bankMap (·.state == .retained)) ++ leBytes 8 (s.bankMap (·.failed)))
    else s) s

/-! ### What an agent loses by a hard fault (Table PM-8) -/

/-- The verb being served completes with FAULT. -/
def State.failServed (s : State) : State :=
  match s.underWay with
  | some h => s.complete ⟨h.req.ch, h.id⟩ stFault
  | none => s

/-- A slave transaction that reads the element underruns (05 R171). -/
def State.starveSlave (s : State) (v : Nat) : State :=
  s.each (List.range 8) fun s k => s.modPort k fun c => match c.slave with
    | some t => match t.buffer with
      | some b => if s.bufferAt b ≤ v && v < s.bufferAt b + s.reg nSHEAF 2 then { c with slave := some { t with starved := true } } else c
      | none => c
    | none => c

/-- The operation of an agent ends (Table PM-8). -/
def State.endOperation (s : State) (a : Agent) (v : Nat) : State :=
  match a with
  | .drill => s.drillFault
  | .assembler => s.assemblerFault
  | .slaveReader => s.starveSlave v
  | .mirrorCopy => s
  | .usb => s.endTransfer v
  | .yoke =>
    if s.isLead then
      let k := (v - s.reg nYOKE 1) / 8192 + 1
      if s.reg nYOKE 1 ≤ v && k ≤ 7 then s.modPos k (·.giveUp) else s
    else s
  | .storage | .steward => s.failServed
  | .thr n => s.endJob n.val 4

/-- An uncorrectable error in B00 takes the steward down as a watchdog expiry does (01 Table AR-7; log 105). -/
def State.stewardB00 (s : State) (a : Agent) (bank : Option Nat) (kind : Nat) : State :=
  if a == .steward && kind == 5 && bank == some 0 && s.lev.firmware && s.boot.phase != .romService then s.stewardDown else s

/-! ### Taking a fault (R242, R246, R247) -/

/-- An agent suspended on a soft fault: a context leaves the engine (R248). -/
def State.suspend (s : State) (a : Agent) : State :=
  match a with
  | .thr n => if (s.ctx n.val).job.isSome then s.suspendCtx n.val else s
  | _ => s

/-- A fault of a kind at an element: the agent is suspended, or its operation ends (R242 to R247). -/
def State.takeFault (s : State) (a : Agent) (dir : Access) (v index kind : Nat) : State :=
  let bank := s.faultBank a v
  match s.noteFault a dir v index kind with
  | (s, true) => (s.stewardB00 a bank kind).endOperation a v
  | (s, false) => s.suspend a

/-- A word found to hold an uncorrectable error; in the steward's copy of the Syntax table it makes a new generation (03 R114). -/
def State.foundBad (s : State) (w : Nat) : State :=
  let s := s.modMem fun m => { m with eccBad := if m.eccBad.contains w then m.eccBad else m.eccBad ++ [w] }
  if Config.tableWord w && w < 0x40000 then s.newTable else s

/-- The kind of the first check that an element fails, with what the row says of the device or the data. -/
def State.faultKind (s : State) (a : Agent) (dir : Access) (v : Nat) (ext : ExtCause) : Option Nat :=
  match s.pieceFault a ⟨dir, elementAt a v, elementOf a⟩ with
  | some (_, k) => some k
  | none => match ext, (s.translate (holdingOf a) dir v).bind bankOfAddr with
    | .timeout, none => some 4
    | .ecc, _ => some 5
    | _, _ => none

/-- An element access of an agent meets the first failing check of Table PM-6; where it passes them all, the element is accessed. An
agent that is suspended makes no access. -/
def execPlotFault (agent : Agent) (dir : Access) (vaddr : BitVec 32) (index : Nat) (ext : ExtCause) (s : State) :
    Host.Outcome State Fault Refusal :=
  if s.suspended agent then .next s
  else
    let v := vaddr.toNat
    let s := match ext, (s.translate (holdingOf agent) dir v).filter (· < 0x400000) with
      | .ecc, some p => s.foundBad (p - p % 8)
      | _, _ => s
    match s.faultKind agent dir v ext with
    | some k => .next (s.takeFault agent dir v index k)
    | none => .next (s.accessed agent [⟨dir, elementAt agent v, elementOf agent⟩])

/-! ### Resolution (R243 to R245, R249) -/

/-- Faults stay queued while the steward restarts (R249). -/
def State.restarting (s : State) : Bool := !s.ready && s.boot.phase != .romService

/-- A soft fault resolved: it counts, event 40 is raised, and the agent replays (R243). -/
def State.resolve (s : State) (c : Cursor) (lost : Bool) : State :=
  let s := s.noteResolved c lost
  match c.agent with
  | .thr n => s.resumeCtx n.val
  | .mirrorCopy => s.refreshMirror
  | .yoke => s.takeWaiting
  | _ => s

/-- The select that a cursor's element lies in. -/
def State.cursorSelect (s : State) (c : Cursor) : Nat := (s.translate (holdingOf c.agent) c.dir c.vaddr).getD 0 / 0x10000000 - 2

/-- The instant from which the storage devices are out of their last reset pulse (05 R180, R187). -/
def State.rstEnd (s : State) : Nat := (s.csp8.rstAt.map (· + ticksUs 10)).getD 0

/-- A fault on a bank that does not wake is declared unresolved, and its operation ends (R250). -/
def State.giveUp (s : State) (c : Cursor) : State := ((s.bump nPLOTMAP 10 16 16).unresolved c).endOperation c.agent c.vaddr

/-- The steward takes the fault at the head of the queue: a bank that is not ON starts to wake, unless it has failed; where the bank
is ON the agent replays; and so it does after a time-out once the device has recovered (R243 to R245, R250). -/
def execFaultResolve (s : State) : Host.Outcome State Fault Refusal :=
  if s.restarting then .next s
  else match s.mem.faults with
    | [] => .next s
    | c :: _ =>
      match (if c.kind = 3 then c.bank else none) with
      | some k => .next (if (s.bank k).state == .on then s.resolve c c.contentLost else if (s.bank k).failed then s.giveUp c else s.wakeBank k)
      | none => .next (if s.selectWaits (s.cursorSelect c) then s else (s.at s.rstEnd).resolve c false)

/-- A POWER request that waited for a wake is carried out after the replays: once no cursor of the bank is left. A bank pinned
meanwhile stays ON (R232, Table PM-9; log 102). -/
def State.carryPower (s : State) (k : Nat) : State :=
  match (s.bank k).gateTo with
  | some st =>
    if (s.bank k).waking || (s.mem.faults ++ s.mem.cursors).any (·.bank == some k) then s
    else (s.modSram k fun b => { b with gateTo := none }).ite (!s.pinned k) (·.gateBank k st)
  | none => s

/-- Every POWER request that waits for replays, at a capture line. -/
def State.carryPowers (s : State) : State := (s.each (List.range 64) State.carryPower).settlePower

/-- The record of a bank that failed or lost its contents where no cursor waits for it: the steward's own (R250). -/
def State.bankCursor (s : State) (k : Nat) : Cursor :=
  { agent := .steward, dir := .read, vaddr := k * 0x10000, index := 0, kind := 3, count := 0, bank := some k
    contentLost := false, resolved := false, time := s.tm.now }

/-- The faults that wait for a bank. -/
def State.waitingFor (s : State) (k : Nat) : List Cursor := s.mem.faults.filter fun c => c.kind == 3 && c.bank == some k

/-- The faults of a bank that lost its contents are marked so, and the loss counts and is recorded (R244). -/
def State.loseContent (s : State) (k : Nat) : State :=
  match (s.waitingFor k).head? with
  | none => s
  | some c =>
    let s := (s.bump nPLOTMAP 11 16 16).faultRecord { c with contentLost := true }
    s.modMem fun m => { m with faults := m.faults.map fun c => if c.kind == 3 && c.bank == some k then { c with contentLost := true } else c }

/-- A waking bank is ON, zero-filled if it was OFF; every fault on it is resolved, in the queue's order, unless the steward restarts
(R243, R244, R249). -/
def execBankWakeComplete (b : Fin 64) (s : State) : Host.Outcome State Fault Refusal :=
  let k := b.val
  if !(s.bank k).waking then .next s
  else
    let s := (s.ite ((s.bank k).state == .off) (·.loseContent k)).bankOn k
    if s.restarting then .next s
    else .next ((((s.waitingFor k).foldl (fun s c => s.resolve c c.contentLost) s).carryPower k).settlePower)

/-- No power-good within 10 µs of a wake: the bank has failed, the Almanac records it, and its faults are unresolved once the steward
runs (R249, R250). -/
def execBankWakeTimeout (b : Fin 64) (s : State) : Host.Outcome State Fault Refusal :=
  let k := b.val
  if !(s.bank k).waking then .next s
  else
    let s := s.modSram k fun b => { b with waking := false, failed := true, gateTo := none }
    let s := s.ite (s.waitingFor k).isEmpty fun s => s.faultRecord (s.bankCursor k)
    if s.restarting then .next s
    else .next (((s.waitingFor k).foldl State.giveUp s).settlePower)

/-- An unpinned bank in ON that has had no access for bank_idle_ms is moved to RETAINED (R232, R249). -/
def execBankIdleGate (b : Fin 64) (s : State) : Host.Outcome State Fault Refusal :=
  let k := b.val
  let x := s.bank k
  .next (if s.flag nPLOTMAP 0 1 && x.state == .on && !s.pinned k && !s.restarting && s.clocked then
      (s.at (x.lastAccess + ticksMs (s.fld nPLOTMAP 0 8 8))).gateBank k .retained
    else s)

/-! ### ECC (R227 to R229) -/

/-- One word found by a scrub: false for a correctable error, true for an uncorrectable one. -/
def State.scrubWord (s : State) (a : Nat) (bad : Bool) : State :=
  if (s.bank (a / 0x10000)).state != .on then s
  else if bad then (((s.foundBad a).bump nPLOTMAP 12 16 16).log 0x21 nPLOTMAP 0 0 (leBytes 4 a ++ [0])).raise 43
  else (s.modMem fun m => { m with eccOne := m.eccOne.filter (· != a) }).bump nPLOTMAP 12 0 16 |>.raise 42

/-- Each scrub interval the steward reads every word of every bank in ON: the errors that it finds, with the words that the state
holds as uncorrectable or with a single-bit error. -/
def execEccScrub (found : List (BitVec 22 × Bool)) (s : State) : Host.Outcome State Fault Refusal :=
  if s.fld nPLOTMAP 0 16 8 = 0 || !s.clocked then .next s
  else
    let new := found.map fun (a, b) => (a.toNat - a.toNat % 8, b)
    let old := (s.mem.eccBad.map fun w => (w, true)) ++ s.mem.eccOne.map fun w => (w, false)
    .next ((new ++ old.filter fun x => !(new.any fun y => y.1 == x.1)).foldl (fun s (a, b) => s.scrubWord a b) s)

/-! ### CARVE (R253 to R256) -/

/-- Whether an endpoint is enabled in the applied USB set: EP1 to EP3 and EP6 with the function, EP4 and EP5 with their
stream (09 Table US-6; log 50). -/
def State.epEnabled (s : State) (e : Nat) : Bool :=
  s.flag nUSB 0 0 && (if e = 4 then s.flag nUSB 4 0 else if e = 5 then s.flag nUSB 8 0 else true)

/-- The reply of CARVE. -/
def State.carveReply (s : State) (e : Nat) : List Byte :=
  let (f, n) := if e = 0 then (0, 0) else nth (0, 0) s.mem.pool (e - 1)
  leBytes 1 e ++ [0] ++ leBytes 2 f ++ leBytes 2 n ++ leBytes 2 (freeGranules s.mem.pool) ++ leBytes 2 (largestRun s.mem.pool)
    ++ [0, 0] ++ leBytes 4 (512 * f)

/-- A holding remapped: its translations are replaced (R238, R255). -/
def State.emptyCache (s : State) (h : Nat) : State := s.modMem fun m => { m with caches := updAt m.caches h fun _ => [] }

/-- An endpoint's allocation replaced. -/
def State.setPool (s : State) (e : Nat) (a : Nat × Nat) : State := s.modMem fun m => { m with pool := updAt m.pool (e - 1) fun _ => a }

/-- CARVE with any op. -/
def State.carve (s : State) (r : Req) : State :=
  let op := pf r 0 1
  let e := pf r 1 1
  let n := pf r 2 2
  s.serve 0x08 r (r.length.toNat == 8)
    (fun s =>
      let a := nth (0, 0) s.mem.pool (e - 1)
      [noNoun r, s.heldRoom r, s.noFallow, (op == 2 || !(1 ≤ e && e ≤ 6 && s.epEnabled e), stBusy),
       (op ≤ 2 && pz r 4 4 && e ≤ 6 && (e != 0 || op == 2) && (if op = 0 then 1 ≤ n && n ≤ 496 else n == 0)
         && s.fld nPLOTMAP 0 24 6 != 0
         && (match op with
           | 0 => a.2 == 0 && (lowestRun s.mem.pool n).isSome
           | 1 => a.2 != 0
           | _ => true), stField)])
    fun s _ =>
      let s := match op with
        | 0 => (s.setPool e ((lowestRun s.mem.pool n).getD 0, n)).emptyCache 3
        | 1 => (s.setPool e (0, 0)).emptyCache 3
        | _ => s
      (s, .done stOk (s.carveReply e))

def execCarveAllocate (r : Req) (s : State) : Host.Outcome State Fault Refusal := .next (s.carve r)
def execCarveRelease (r : Req) (s : State) : Host.Outcome State Fault Refusal := .next (s.carve r)
def execCarveQuery (r : Req) (s : State) : Host.Outcome State Fault Refusal := .next (s.carve r)

end Sys2Proof.Machine
end

