-- ==== Sys2Proof/Machine/Storage.lean ====
section
/-! DEFINITION. The storage port CSP8: writes gathered into NOR programs, their commands, polling and completion, time-outs and the
reset pulse (05 R174 to R182, R187). -/

namespace Sys2Proof.Machine

/-! ### The fields of an access in progress (R182) -/

/-- The CSP8 words that an access to a select runs under: W0, and words m to m + 2. -/
def State.storeCfg (s : State) (sel : Nat) : List Nat :=
  [s.reg (nCSP 8) 0, s.reg (nCSP 8) (4 + 4 * sel), s.reg (nCSP 8) (5 + 4 * sel), s.reg (nCSP 8) (6 + 4 * sel)]

/-- A field of such words: word 0 is W0, word 1 the word m. -/
def cfgField (c : List Nat) (word lo w : Nat) : Nat := bits (nth 0 c word) lo w

/-- The page of a NOR offset under the fields of an access (R177). -/
def pageOf (c : List Nat) (a : Nat) : Nat := a / 2 ^ cfgField c 3 8 4

/-- The physical address of an offset in a select's window (R176). -/
def windowAddr (sel a : Nat) : Nat := 0x20000000 + sel * 0x10000000 + a

/-- The bytes of an opcode on the wire: in 8D-8D-8D the opcode and its inverse (R175). -/
def opcodeBytes (c : List Nat) (op : Nat) : List Byte :=
  if cfgField c 1 2 3 = 7 then leBytes 1 op ++ leBytes 1 (op ^^^ 0xFF) else leBytes 1 op

/-- The bytes that program a page: wren_cmd, then program_cmd with the address, most significant byte first, and the data (R175,
R177; log 100). -/
def programBytes (c : List Nat) (addr : Nat) (data : List Byte) : List Byte :=
  let n := if cfgField c 1 2 3 = 7 || cfgField c 2 28 1 = 1 then 4 else 3
  opcodeBytes c (cfgField c 3 0 8) ++ opcodeBytes c (cfgField c 2 8 8) ++ (leBytes n addr).reverse ++ data

/-- Whether a status byte shows the device busy: the bit of busy_bit at the polarity of busy_polarity (R177). -/
def showsBusy (c : List Nat) (status : Nat) : Bool := bitAt status (cfgField c 2 24 3) == (cfgField c 2 27 1 == 1)

/-- The status byte that a ready device gives: only the busy bit of the byte polled last is known to differ. -/
def readyStatus (c : List Nat) (last : Nat) : Nat :=
  if showsBusy c last then last ^^^ 2 ^ cfgField c 2 24 3 else last

/-! ### Programs (R177, R178) -/

/-- A program sent on a select: its commands go out and the device is busy; behind one that runs, or at a fenced port, it waits (R178,
R187). -/
def State.sendProgram (s : State) (sel : Nat) (p : Program) : State :=
  let s := s.modPw fun p => { p with csp8Gated := false }
  if s.selectWaits sel then s.modCsp8 fun c => { c with queue := updAt c.queue sel fun q => q ++ [p] }
  else
    (s.modCsp8 fun c => { c with
      busy := updAt c.busy sel fun _ => some { p with since := s.tm.now, polled := s.tm.now }
      sent := updAt c.sent sel fun _ => programBytes p.cfg p.addr p.data
      lastAccess := s.tm.now }).bump (nCSP 8) 2 0 32

/-- The gathered page of a select closed: its program command is sent (R177). -/
def State.closeGather (s : State) (sel : Nat) : State :=
  match nth none s.csp8.gather sel with
  | none => s
  | some g =>
    (s.modCsp8 fun c => { c with gather := updAt c.gather sel fun _ => none }).sendProgram sel
      { agent := g.agent, addr := g.first, data := g.data, since := 0, polled := 0, cfg := g.cfg }

/-- One byte of a write taken into the page being gathered, which closes at its boundary and at a break in the addresses. -/
def State.gatherByte (s : State) (a : Agent) (sel off : Nat) (b : Byte) : State :=
  let joins := match nth none s.csp8.gather sel with
    | some g => g.agent == a && off == g.first + g.data.length && pageOf g.cfg off == pageOf g.cfg g.first
    | none => false
  if joins then
    s.modCsp8 fun c => { c with gather := updAt c.gather sel fun g => g.map fun g => { g with data := g.data ++ [b], last := s.tm.now } }
  else
    let s := s.closeGather sel
    s.modCsp8 fun c => { c with gather := updAt c.gather sel fun _ => some ⟨a, off, [b], s.tm.now, s.storeCfg sel⟩ }

/-- A write into a NOR window (R177). Its agent stalls from its first write until the busy bit clears: while a program of its own is
sent or waits it writes nothing, and the row comes again. At a fenced port the write waits (R187). -/
def execNorWindowWrite (agent : Agent) (sel : Fin 2) (offset : BitVec 28) (data : List Byte) (s : State) :
    Host.Outcome State Fault Refusal :=
  let k := sel.val
  let ok := s.kindOf k == 1 && s.flag (nCSP 8) (4 + 4 * k) 5 && !s.writing agent && !s.suspended agent
    && s.mapped (holdingOf agent) .write (windowAddr k offset.toNat) data.length
  .next (if ok then data.zipIdx.foldl (fun s (b, i) => s.gatherByte agent k (offset.toNat + i) b) s else s)

/-- 1 µs with no further write ends the gathering (R177). -/
def execNorGatherEnd (sel : Fin 2) (s : State) : Host.Outcome State Fault Refusal :=
  match nth none s.csp8.gather sel.val with
  | some g => .next ((s.at (g.last + ticksUs 1)).closeGather sel.val)
  | none => .next s

/-- One byte of a finished program: an erased byte takes the data, any other is as the device defines it (R177, log 4). -/
def State.programByte (s : State) (sel a : Nat) (b : Byte) : State :=
  let old := Memory.read flashEmpty (if sel = 0 then s.mem.nor else s.mem.psram) a
  if old = flashEmpty then s.storeWrite sel a [b]
  else
    let (v, s) := s.freeByte
    s.storeWrite sel a [v]

/-- The next program of a select starts (R178). -/
def State.nextProgram (s : State) (sel : Nat) : State :=
  match nth [] s.csp8.queue sel with
  | p :: rest =>
    if s.selectWaits sel then s else (s.modCsp8 fun c => { c with queue := updAt c.queue sel fun _ => rest }).sendProgram sel p
  | [] => s

/-- RST_N pulsed low for 10 µs from now where rst_on_fault is set (R180, R187). -/
def State.pulseRst (s : State) (c : List Nat) : State :=
  if cfgField c 0 7 1 = 1 then s.modCsp8 fun c => { c with rstAt := some s.tm.now } else s

/-- A fenced port with no program on the wire: its reset begins with the pulse of RST_N (R187). -/
def State.resetStorage (s : State) : State :=
  if s.csp8.fence.isSome && s.csp8.busy.all (·.isNone) then s.pulseRst [s.reg (nCSP 8) 0] else s

/-- Requests to load from the object store that waited for the port are carried out (R178, R187). -/
def State.resumeLoads (s : State) : State :=
  if s.selectWaits 0 then s
  else (s.mb.chans.flatMap fun c => c.held.filter fun h => h.verb == 0x20 && pf h.req 1 1 == 1).foldl (fun s h =>
    match s.loadStore h.req with
    | (s, .done st p) => s.complete ⟨h.req.ch, h.id⟩ st p
    | (s, _) => s) s

/-- The select stands ready again: the next program starts, and what stalled proceeds. -/
def State.freeSelect (s : State) (sel : Nat) : State :=
  ((s.modCsp8 fun c => { c with busy := updAt c.busy sel fun _ => none, lastAccess := s.tm.now }).nextProgram sel).resetStorage.resumeLoads

/-- A status poll: status_cmd is sent poll_us after the last one, and the byte read is kept (R177). -/
def State.poll (s : State) (sel : Nat) (p : Program) (status : Nat) : State :=
  let s := s.at (p.polled + ticksUs (cfgField p.cfg 0 0 7))
  s.modCsp8 fun c => { c with
    busy := updAt c.busy sel fun _ => some { p with polled := s.tm.now }
    status := updAt c.status sel fun _ => status
    sent := updAt c.sent sel fun _ => opcodeBytes p.cfg (cfgField p.cfg 2 16 8)
    lastAccess := s.tm.now }

/-- The page of a program that has ended is programmed, and the select is ready. -/
def State.finishProgram (s : State) (sel : Nat) (p : Program) : State :=
  (p.data.zipIdx.foldl (fun s (b, i) => s.programByte sel (p.addr + i) b) s).freeSelect sel

/-- A status poll; one that shows ready ends the program (R177). -/
def execNorStatusPoll (sel : Fin 2) (status : Byte) (s : State) : Host.Outcome State Fault Refusal :=
  match nth none s.csp8.busy sel.val with
  | none => .next s
  | some p =>
    let t := s.poll sel.val p status.toNat
    .next (if showsBusy p.cfg status.toNat then t else t.finishProgram sel.val p)

/-- The poll that shows the busy bit clear: the page is programmed and stalled accesses proceed (R177, R178). -/
def execNorProgramDone (sel : Fin 2) (s : State) : Host.Outcome State Fault Refusal :=
  match nth none s.csp8.busy sel.val with
  | none => .next s
  | some p => .next ((s.poll sel.val p (readyStatus p.cfg (nth 0 s.csp8.status sel.val))).finishProgram sel.val p)

/-! ### Time-outs (R180) -/

/-- An external-memory time-out of an agent (R180, 07 R241): a soft fault, unless the agent is suspended already. -/
def State.storageFault (s : State) (a : Agent) (dir : Access) (v index : Nat) : State :=
  if s.suspended a then s else s.takeFault a dir v index 4

/-- n bytes of a device left as the device defines it (R177, log 4). -/
def State.spoil (s : State) (sel a n : Nat) : State :=
  (List.range n).foldl (fun s i =>
    let (v, s) := s.freeByte
    s.storeWrite sel (a + i) [v]) s

/-- The storage port stopped by a pulse of RST_N: programs on the wire leave their pages as the device defines it, and what
waits is lost (14 R517). -/
def State.stopStorage (s : State) : State :=
  let s := s.each [0, 1] fun s k => match nth none s.csp8.busy k with
    | some p => s.spoil k p.addr p.data.length
    | none => s
  s.modCsp8 fun c => { fence := c.fence, lastAccess := s.tm.now, rstAt := some s.tm.now }

/-- A program stays busy beyond program_timeout_ms: RST_N is pulsed where rst_on_fault is set, the time-out counts, event 12 is
raised, and the writing agent takes a soft fault. The page holds what the device left in it; the program is not retried (R180). -/
def execProgramTimeout (sel : Fin 2) (s : State) : Host.Outcome State Fault Refusal :=
  let k := sel.val
  match nth none s.csp8.busy k with
  | none => .next s
  | some p =>
    let s := (s.at (p.since + ticksMs (cfgField p.cfg 3 12 8))).pulseRst p.cfg
    let s := s.spoil k p.addr p.data.length
    let s := ((s.bump (nCSP 8) 3 16 16).log 0x12 (nCSP 8) k 6).raise 12
    -- the next program starts once the device is out of the pulse
    .next (((s.at s.rstEnd).freeSelect k).storageFault p.agent .write (windowAddr k p.addr) 0)

/-- A write that waits at a select is given up: its agent replays it (07 R242). -/
def State.dropWrites (s : State) (a : Agent) (sel : Nat) : State :=
  s.modCsp8 fun c => { c with
    gather := updAt c.gather sel fun g => g.filter (·.agent != a)
    queue := updAt c.queue sel fun q => q.filter (·.agent != a) }

/-- A missing strobe, or an access that waits longer than timeout_us while the device is not busy (R180, R187). -/
def execExternalAccessTimeout (agent : Agent) (sel : Fin 2) (vaddr : BitVec 32) (index : Nat) (dir : Access) (s : State) :
    Host.Outcome State Fault Refusal :=
  let k := sel.val
  let here := match s.translate (holdingOf agent) dir vaddr.toNat with
    | some p => p / 0x10000000 == 2 + k
    | none => false
  if here && (nth none s.csp8.busy k).isNone && !s.suspended agent then
    let s := (s.bump (nCSP 8) 3 0 16).log 0x12 (nCSP 8) k 5
    .next ((s.dropWrites agent k).storageFault agent dir vaddr.toNat index)
  else .next s

/-- 1 ms with no access and no program running: CSP8 is gated in DOZE (11 R399). -/
def execCsp8IdleGate (s : State) : Host.Outcome State Fault Refusal :=
  .next (if s.dozing && s.csp8.busy.all (·.isNone) && s.csp8.gather.all (·.isNone) then
      (s.at (s.csp8.lastAccess + ticksMs 1)).modPw fun p => { p with csp8Gated := true }
    else s)

end Sys2Proof.Machine
end

