-- ==== Sys2Proof/Machine/Reset.lean ====
section
/-! DEFINITION. What resets, stops of switching and steward restarts leave, and the operations on ports and requests that
they share with FALLOW, DETACH and the RC fallback (01 Table AR-7; 11 R389 to R402; 12 R442, R450 to R453). -/

namespace Sys2Proof.Machine

/-! ### Ports and entries -/

/-- Bits of an entry's frame that SCK has clocked by now (05 R157). -/
def State.bitsClocked (s : State) (f e : Nat) : Nat :=
  let p := s.profile f e
  min p.frameBits ((s.tm.now - (s.launchAt f e + p.lead)) * 8 / (3 * max 1 p.div))

/-- A running entry aborted as at a deadline (12 R442; 11 Table PW-9); one that has not started is skipped. -/
def State.cutEntry (s : State) (f e : Nat) : State :=
  let ph := (s.entry f e).phase
  if ph == .running || ph == .wireDone || ph == .waiting then
    let s := if entType s.reg f e == 1 && ph == .running then
        (s.abortPort f e (s.bitsClocked f e)).abortSelections f e (s.bitsClocked f e)
      else s
    let s := s.modEntry (entIx f e) fun r => { r with
      phase := if ph == .waiting then .skipped else .aborted
      lastEnd := if ph == .waiting then r.lastEnd else 0
      lastOutcome := if ph == .waiting then 4 else 3
      waitStart := false }
    if ph == .waiting then s else s.missDeadline f e
  else s

/-- Every entry of the period in progress cut off, and recovery frames stopped: a chain stays held (04 R133). -/
def State.cutEntries (s : State) : State :=
  let s := (usedEntries s.reg).foldl (fun s (f, e) => s.cutEntry f e) s
  { s with csp := s.csp.map fun c => { c with chain := c.chain.map fun h => { h with since := none } } }

/-- The sheaf of the period in progress is not published, and nothing is counted (12 R442; 11 R422). -/
def State.dropPeriod (s : State) : State :=
  (s.modDrill fun d => { d with polled := false }).modSheaf fun h => { h with assembly := none }

/-! ### Requests -/

/-- Every held or accepted request completed with a status, in the order of the channels (14 R508). -/
def State.completeAll (s : State) (status : Nat) : State :=
  s.each (List.range 4) fun s ch => (nth {} s.mb.chans ch).held.foldl (fun s h => s.complete ⟨h.req.ch, h.id⟩ status) s

/-! ### Resets of the whole device (12 Table CK-4) -/

/-- The Almanac controller across a reset: after a stop of switching its queue is lost; else its queue is kept, and its
records commit before the scan that follows (13 R472). -/
def Alm.afterReset (a : Alm) (power : Bool) : Alm :=
  if power then { bytes := a.bytes, saveCount := a.saveCount, copy := a.copy }
  else { a with
    windows := []
    queue := a.queue.map fun r => { r with ticket := none }
    before := a.queue.length
    scanDone := false
    ep6 := []
    ep6Open := false
    ep6Out := [] }

/-- The power block across a reset: supplies, pins, the RTC and the backup domain stay. -/
def State.powerAfterReset (s : State) (power : Bool) : Pw :=
  { vin10mv := s.pw.vin10mv
    vsysMv := s.pw.vsysMv
    vbakMv := s.pw.vbakMv
    vresMv := s.pw.vresMv
    vddioOk := s.pw.vddioOk
    vddio1v8 := s.pw.vddio1v8
    rtc := s.rtcNow
    rtcValid := s.pw.rtcValid
    prsntHigh := s.pw.prsntHigh
    prsntMet := s.pw.prsntMet && !power
    backup := s.pw.backup
    almLost := s.pw.almLost
    aonWakeMask := s.pw.aonWakeMask
    aonRtcAlarm := s.pw.aonRtcAlarm
    aonAlmEnable := s.pw.aonAlmEnable
    aonAlmHigh := s.pw.aonAlmHigh }

/-- The device held in reset: what Table CK-4 does not keep is at its reset value. Flash, the Almanac, the backup domain,
the RTC and the seal stay; a PSRAM keeps its contents unless power was lost (logs 51, 57). -/
def State.resetDevice (s : State) (power : Bool) (cause : Nat) : State :=
  let s := s.stopStorage
  { ({} : State) with
    pending := s.pending
    alm := s.alm.afterReset power
    mem := { nor := s.mem.nor, psram := if power && s.kindOf 1 == 2 then [] else s.mem.psram }
    clk := { aonRuns := s.clk.aonRuns }
    boot :=
      { phase := .held
        cause
        bootCount := if power then 0 else s.boot.bootCount
        serial := s.boot.serial
        silicon := s.boot.silicon
        romVersion := s.boot.romVersion
        service := s.boot.service
        testEn := s.boot.testEn }
    hw := { sealed := s.hw.sealed }
    pw := s.powerAfterReset power
    usb := { vbus := s.usb.vbus, ports := s.usb.ports.map fun p => { oci := p.oci } }
    freeCount := s.freeCount }

/-- Banks that failed to wake stay failed across a reset that is no POR and no RESET_N (07 R250). -/
def State.keepFailed (o s : State) : State :=
  s.modMem fun m => { m with banks := m.banks.zipIdx.map fun (b, k) =>
    if (o.bank k).failed then { b with state := (o.bank k).state, failed := true } else b }

/-- The backup domain loses its state: the RTC stops and alm_enable is cleared until the applied set is restored
(11 R411). Its record series goes on from the scan (13 R470). -/
def State.loseBackup (s : State) : State :=
  s.modPw fun p => { p with
    rtcValid := false
    rtc := s.rtcNow
    almLost := true
    aonAlmEnable := 0
    aonRtcAlarm := 0
    backup := { nextSeq := 0 } }

/-- VBAK keeps the backup domain (11 R411). -/
def State.backupAlive (s : State) : Bool := 1900 ≤ s.pw.vbakMv

/-- The record of a fall to L0, or to no level, by a row of Table AR-7, written before the queue is lost (01 R44). -/
def State.lastLevel (s : State) (row : Nat) : State :=
  let r : AlmRec := { type := 0x01, cls := clFault, source := nSYS, index := 0, code := row, period := s.tm.period,
                      stamp := s.tm.now, detail := leBytes 1 s.lev.level ++ [0] }
  if s.pw.state == .run && s.alm.scanDone then s.writeRecord r true else s

/-- Switching stops: BACKUP at L0, or OFF without VBAK (11 Table PW-1; 01 Table AR-7). -/
def State.stopSwitching (s : State) : State :=
  let t := (s.resetDevice true 1).modLev fun l => { l with level := 0 }
  let t := t.modBoot fun b => { b with phase := .off }
  if s.backupAlive then t.modPw fun p => { p with state := .backup }
  else t.loseBackup.modPw fun p => { p with state := .off }

/-- Power returns: the device is held until the release of POR (12 Table CK-6). -/
def State.powerUp (s : State) : State :=
  (((s.modPw fun p => { p with state := .run, ovStop := false, thermalStop := false }).modBoot fun b =>
    { b with phase := .held, cause := 1 }).modLev fun l => { l with level := 1 })

/-- The release of POR, RESET_N or the detach cycle: the straps are sampled, the timebase starts at 0 on the RC, and the
mailboxes are due 55.5 ms later; boot_count counts this start (12 R452, R459; 02 R62). -/
def State.release (s : State) (p : Straps) : State :=
  let s := s.modBoot fun b => { b with
    phase := .rom
    kind := .reset
    bootCount := satAdd 32 b.bootCount 1
    readyAt := ticksUs 55500
    readyFrom := none
    legacy := p.legacy
    ykLead := p.ykLead
    twa := p.twa.toNat
    gang := p.gang
    service := p.service
    testEn := p.testEn }
  ((s.modMb fun m => { m with v2 := !p.legacy }).modTm fun t => { t with now := 0 }).modYoke fun y =>
    { y with repeating := !p.legacy }

end Sys2Proof.Machine
end

