-- ==== Sys2Proof/Machine/Almanac.lean ====
section
/-! DEFINITION. The Almanac's commands: its verbs, the commit of records, the scan, merging windows and EP6; and the
coalescing of INT_N (13 R470 to R482, R487). -/

namespace Sys2Proof.Machine

/-! ### ALMANAC_READ (R479) -/

/-- Units of a region: blocks of regions 0 and 4, slots of the others (Table AL-4). -/
def almUnits (region : Nat) : Nat := if region = 0 || region = 4 then 64 else regionSlots region

/-- The 64 bytes of a unit. -/
def State.almUnit (s : State) (region i : Nat) : List Byte :=
  almSlot s.alm.bytes (if region = 0 then 64 * i else if region = 4 then 0x3F000 + 64 * i else slotAddr region i)

/-- The valid records of a region, ascending by sequence; cleared ones of the first-fault zone do not count. -/
def State.almRecords (s : State) (region : Nat) : List (Nat × Nat) :=
  let l := (validSeqs s.alm.bytes region).filter fun x => region != 1 || firstSlotUsed s.alm x.2
  match newestOf l with
  | none => []
  | some n => l.mergeSort fun a b => (n.1 + 2 ^ 32 - b.1) % 2 ^ 32 ≤ (n.1 + 2 ^ 32 - a.1) % 2 ^ 32

/-- What a read returns: its units, the gap flag, next_start and the newest sequence. -/
structure AlmAnswer where
  units : List (List Byte)
  gap : Bool
  next : Nat
  newest : Nat
  deriving DecidableEq, Repr

def State.almRead (s : State) (region mode count start : Nat) : AlmAnswer :=
  let recs := s.almRecords region
  let newest := if region = 0 || region = 4 then 0 else (recs.getLast?.map (·.1)).getD 0
  if mode = 0 then
    let n := min count (almUnits region - start)
    { units := (List.range n).map fun i => s.almUnit region (start + i), gap := false, next := start + n, newest }
  else
    let l := (recs.filter fun x => !seqBefore x.1 start).take count
    { units := l.map fun x => s.almUnit region x.2
      gap := recs.head?.any fun x => seqBefore start x.1
      next := (l.getLast?.map fun x => nextSequence x.1).getD start
      newest }

/-- Step 11 of ALMANAC_READ. -/
def almReadOk (r : Req) : Bool :=
  let region := pf r 0 1
  let mode := pf r 1 1
  region ≤ 4 && mode ≤ 1 && (mode == 0 || (1 ≤ region && region ≤ 3)) && 1 ≤ pf r 2 2 && pf r 2 2 ≤ 63
    && (mode == 1 || pf r 4 4 < almUnits region)

def execAlmanacRead (r : Req) (s : State) : Host.Outcome State Fault Refusal :=
  let a := s.almRead (pf r 0 1) (pf r 1 1) (pf r 2 2) (pf r 4 4)
  .next (s.serve 0x10 r (r.length.toNat == 8 && (!almReadOk r || s.fits r (16 + 64 * a.units.length)))
    (fun _ => [noNoun r, (almReadOk r, stField)])
    fun s _ => (s, .done stOk (leBytes 1 (pf r 0 1) ++ leBytes 1 a.units.length ++ leBytes 1 (b2n a.gap) ++ [0] ++ leBytes 4 a.next
      ++ leBytes 4 a.newest ++ [0, 0, 0, 0] ++ a.units.flatten)))

/-! ### ALMANAC_MARK and ALMANAC_CLEAR_FIRST (R480, R481) -/

/-- Fewer than 48 queue entries are occupied. -/
def State.queueRoom (s : State) : Check := (s.alm.queue.length < 48, stBusy)

/-- The record of a request, which waits for its commit. -/
def State.requestRecord (s : State) (t : Ticket) (type index code : Nat) (detail : List Byte) : AlmRec :=
  { type, cls := clInfo, source := nALMANAC, index, code, period := s.tm.period, stamp := s.tm.now, detail, ticket := some t }

/-- An immediate verb, whose one reply follows the commit of its record (02 Table MB-6, R63): it is none of the 8 requests of R65,
and they do not stop it. -/
def execAlmanacMark (r : Req) (s : State) : Host.Outcome State Fault Refusal :=
  .next (s.serve 0x11 r (r.length.toNat == 36)
    (fun s => [noNoun r, s.queueRoom, (pf r 2 1 ≤ 1 && pz r 3 1, stField)])
    fun s t =>
      let s := s.ite (pf r 2 1 == 1) (·.raise 63)
      (s.enqueue (s.requestRecord t 0x90 r.ch.val (pf r 0 2) (slice r.payload 4 32)), .hold))

def execAlmanacClearFirst (r : Req) (s : State) : Host.Outcome State Fault Refusal :=
  .next (s.serve 0x12 r (r.length.toNat == 4)
    (fun s => [noNoun r, (s.boot.service, stLocked), s.heldRoom r, s.queueRoom,
      (pf r 0 2 == firstUsed s.alm && pz r 2 2, stField)])
    fun s t => (s.enqueue (s.requestRecord t 0x91 0 0 (leBytes 2 (firstUsed s.alm))), .hold))

/-! ### ALMANAC_RECORD_COMMIT (R471, R472, R475, R476, R480) -/

/-- The first-fault zone emptied: its sequence bound is stored, and its 256 slots are written blank (R480). -/
def State.clearZone (s : State) (seq : Nat) : State :=
  s.modAlm fun a => { a with
    clearSeq := seq
    bytes := Memory.clearRange a.bytes (slotAddr 1 0) 16384
    firstFull := false }

/-- What follows a record's commit: a request's reply, and switching stops after the record of a thermal shutdown (R480,
R481, R484). -/
def State.afterCommit (s : State) (r : AlmRec) (seq : Nat) : State :=
  let s := if r.type = 0x91 then (s.clearZone seq).saveCounters else s
  let s := s.completeOpt r.ticket stOk (leBytes 4 seq)
  -- the DETACH record is committed: the reply follows (11 R424)
  let s := if r.type = 0x07 && r.code = 1 && s.pw.detach == .recording then
      (s.modPw fun p => { p with detach := .replied, detachAt := s.tm.now }).completeOpt s.pw.detachTicket stOk (leBytes 6 s.pw.detachPeriod ++ [0, 0])
    else s
  if r.type = 0x06 && r.code = 5 && s.pw.thermalPending then (s.lastLevel 4).stopSwitching.modPw fun p => { p with thermalStop := true } else s

/-- The controller commits the record at the head of its queue, once the scan is done, or before it the records that a
reset left there. A slot whose second read-back fails too is marked, and the record goes to the next good slot before an
ALMANAC record with code 1 (R476). -/
def execAlmanacRecordCommit (ring zone : ReadBack) (s : State) : Host.Outcome State Fault Refusal :=
  match s.alm.queue with
  | r :: rest =>
    if s.pw.state != .run || s.boot.phase == .off || (!s.alm.scanDone && s.alm.before = 0) then .next s
    else if !ring.first && !ring.second then
      let i := goodSlot s.alm.bad 2 s.alm.ringNext 3584
      let b := badRecord s 2 i
      .next ((s.markBad 2 i).modAlm fun a => { a with queue := r :: b :: rest, ringNext := (i + 1) % 3584, before := if a.before = 0 then 0 else a.before + 1 })
    else
      let seq := s.alm.nextSeq
      let s := s.modAlm fun a => { a with queue := rest, before := a.before - 1 }
      .next (((s.writeRecord r (zone.first || zone.second)).tellDrops).afterCommit r seq)
  | [] => .next s

/-- A record that was discarded is told by a code-3 record as soon as an entry is free (R473). -/
def execRecordDrop (s : State) : Host.Outcome State Fault Refusal := .next s.tellDrops

/-- A merging window closes 1 s after it opened (R474). -/
def execMergeWindowClose (key : MergeKey) (s : State) : Host.Outcome State Fault Refusal :=
  match s.alm.windows.find? (·.key == key) with
  | some w =>
    let s := s.at (w.opened + ticksS 1)
    .next (s.closeWindow w (w.opened + ticksS 1))
  | none => .next s

/-- The scan after a release: next_sequence, ring_next and clear_sequence are set, and torn slots are recorded (R471). -/
def execAlmanacScanDone (s : State) : Host.Outcome State Fault Refusal :=
  if s.alm.scanDone || s.alm.before != 0 || !s.clocked then .next s
  else
    let s := s.modAlm fun a => a.scanned (s.boot.kind == .reset && s.boot.cause == 1)
    let s := s.modBackup fun k => k.scanned s.alm.bytes
    let ring := tornSlots s.alm 2
    let zone := tornSlots s.alm 1
    let s := if ring + zone = 0 then s else s.log 0xA0 nALMANAC 0 2 (leBytes 4 ring ++ leBytes 4 zone)
    .next s.saveCounters

/-! ### EP6 (R482) -/

/-- The host collects up to eight entries of EP6: a 512-byte packet. -/
def execEp6Read (s : State) : Host.Outcome State Fault Refusal :=
  if !s.usbUp then .next s
  else .next (s.modAlm fun a => { a with ep6Out := (a.ep6.take 8).flatten, ep6 := a.ep6.drop 8 })

/-- No record has been committed for 1 ms: the transfer ends with a short packet. -/
def execEp6TransferEnd (s : State) : Host.Outcome State Fault Refusal :=
  if s.alm.ep6Open then .next ((s.at (s.alm.ep6Last + ticksMs 1)).modAlm fun a => { a with ep6Open := false }) else .next s

/-! ### INT_N (R487) -/

/-- coalesce_us after its last release INT_N may be asserted again. -/
def execIntNCoalesceExpiry (s : State) : Host.Outcome State Fault Refusal :=
  match s.ev.intRelease with
  | some t => .next (s.at (t + s.coalesce)).settleInt
  | none => .next s

end Sys2Proof.Machine
end

