-- ==== Sys2Proof/Machine/Harrow.lean ====
section
/-! DEFINITION. Harrow: consent, starting and ending episodes, the seal, and the TEST_EN pin (14 R497 to R502, R556, R557;
15 R530). -/

namespace Sys2Proof.Machine

/-! ### HARROW_ARM (R497, R501, R557) -/

/-- One draw of the consent generator; arm_id is its low 16 bits. -/
def execHarrowArm (r : Req) (s : State) : Host.Outcome State Fault Refusal :=
  .next (s.serve 0x40 r (r.length.toNat == 0)
    (fun s => [noNoun r, (!s.hw.sealed, stLocked)])
    fun s _ =>
      let x := lfsrStep s.hw.consentGen
      let id := x % 65536
      let c : Consent := { ch := r.ch, id, at' := s.tm.now }
      (s.modHw fun h => { h with consentGen := x, consents := (h.consents.filter (·.ch != r.ch)) ++ [c] },
        .done stOk (leBytes 2 id ++ leBytes 2 1000)))

/-- A consent that was not used lapses 1 000 ms after its reply (R497). -/
def execConsentExpiry (ch : Channel) (s : State) : Host.Outcome State Fault Refusal :=
  match s.hw.consents.find? (·.ch == ch) with
  | some c => .next ((s.at (c.at' + ticksMs 1000)).modHw fun h => { h with consents := h.consents.filter (·.ch != ch) })
  | none => .next s

/-! ### HARROW_SET (R497, R499, R556) -/

/-- The slots of a mask. -/
def slotsOf (mask : Nat) : List Nat := (List.range 4).filter (bitAt mask)

/-- The consent that a HARROW_SET names: the last one of its channel, open for 1 000 ms (R497). -/
def State.consentFor (s : State) (r : Req) : Bool := s.openConsents.any fun c => c.ch == r.ch && c.id == pf r 2 2

/-- The classes that Table HW-1 allows a target. -/
def State.classAllowed (s : State) (target cls : Nat) : Bool :=
  if target < 5 then cls ≤ 4 else target == 5 && (if s.isMember then cls == 0 || cls == 1 || cls == 2 || cls == 4 else cls ≤ 4)

/-- start_period and period_count of a slot. -/
def State.startPeriod (s : State) (e : Nat) : Nat := s.hwReg e 5 + 2 ^ 32 * bits (s.hwReg e 6) 0 16
def State.periodCount (s : State) (e : Nat) : Nat := bits (s.hwReg e 6) 16 16

/-- R499 for one slot. -/
def State.slotStarts (s : State) (e : Nat) : Bool :=
  s.classAllowed (bits (s.hwReg e 0) 0 4) (bits (s.hwReg e 0) 4 4)
    && (s.startPeriod e == 0 || s.namedOk (s.startPeriod e))
    && (s.boot.testEn || s.periodCount e != 0 || bits (s.hwReg e 4) 8 16 != 0)

/-- The period at which a slot's window opens. -/
def State.opensAt (s : State) (e : Nat) : Nat :=
  if s.startPeriod e != 0 then s.startPeriod e else if s.tm.lineSeen then addPeriod s.tm.period 1 else 0

/-- The episode of slot e starts (R493, R502): the slot is pending, its generator is loaded, the episode is counted, its
record of code 1 is queued and event 55 raised. -/
def State.startSlot (s : State) (ch e : Nat) : State :=
  let seed := s.hwReg e 7
  let x := lfsrLoad (if seed = 0 then s.tm.now % 2 ^ 32 else seed)
  let s := (s.modEpisode e fun p =>
    { p with state := 1, endReason := 0, consented := !s.boot.testEn, startedBy := ch, lastPeriod := 0, count := 0, lfsr := x,
             first := s.opensAt e }).bump nHARROW 3 0 32
  (s.log 0x60 nHARROW e 1 (harrowDetail s e false 0)).raise 55

/-- The episodes of the named slots start; their windows open at their capture lines. -/
def State.startSlots (s : State) (ch : Nat) (slots : List Nat) : State := s.each slots fun s e => s.startSlot ch e

def execHarrowSet (r : Req) (s : State) : Host.Outcome State Fault Refusal :=
  let slots := slotsOf (pf r 0 1)
  .next (s.serve 0x41 r (r.length.toNat == 4)
    (fun s => [noNoun r,
      (!s.hw.sealed && (s.boot.testEn || s.consentFor r), stLocked),
      (slots.all fun e => (nth {} s.hw.episodes e).state != 1 && (nth {} s.hw.episodes e).state != 2, stBusy),
      (pf r 0 1 < 16 && pz r 1 1 && slots.all s.slotStarts, stField)])
    fun s _ =>
      let s := if s.boot.testEn then s
        else (s.modHw fun h => { h with consents := h.consents.filter (·.ch != r.ch) }).log 0x60 nHARROW 0 3
          (leBytes 1 (pf r 0 1) ++ [0, 0] ++ leBytes 1 r.ch.val ++ leBytes 2 (pf r 2 2))
      let first := slots.foldl (fun (o : Option Nat) e => match o with
        | some p => if periodsFrom s.tm.period (s.opensAt e) < periodsFrom s.tm.period p then some (s.opensAt e) else some p
        | none => some (s.opensAt e)) none
      (s.startSlots r.ch.val slots, .done stOk (leBytes 1 (pf r 0 1) ++ [0] ++ leBytes 6 (first.getD 0))))

/-! ### HARROW_DISARM (R500, R502) -/

/-- The slots of a mask whose episodes are pending or active. -/
def State.runningSlots (s : State) (mask : Nat) : List Nat :=
  (slotsOf mask).filter fun e => (nth {} s.hw.episodes e).state == 1 || (nth {} s.hw.episodes e).state == 2

/-- Episodes of a mask ended, and the reply: the slots ended and sealed (Table HW-3). -/
def State.disarm (s : State) (mask reason : Nat) : State × Answer :=
  let l := s.runningSlots mask
  let t := s.each l fun s e => s.endEpisode e reason
  (t, .done stOk (leBytes 1 (ofLsb ((List.range 4).map l.contains)) ++ leBytes 1 (b2n t.hw.sealed)))

/-- The seal set: every episode ends, the one-time seal is written, a HARROW_SEAL record is queued and a new table is
taken; with the seal already set nothing happens (R500). -/
def State.sealHarrow (s : State) : State × Answer :=
  if s.hw.sealed then (s, .done stOk [0, 1])
  else
    let (s, a) := (s.modHw fun h => { h with sealed := true, consents := [] }).disarm 15 6
    ((s.log 0x61 nHARROW 0 0).newTable, a)

/-- The three forms of HARROW_DISARM, by byte 0 of the request: slots, all, or the seal (Table HW-3). Bytes that belong to
another form are not looked at: slot_mask for all and for the seal, bytes 4 to 11 but for the seal (DESIGN CHOICE, log 95). -/
def State.harrowDisarm (s : State) (r : Req) : State :=
  let op := pf r 0 1
  s.serve 0x42 r (r.length.toNat == 12 || (r.length.toNat == 4 && op < 2))
    (fun s => [noNoun r,
      (op != 2 || s.boot.service, stLocked),
      (op ≤ 2 && pz r 2 2 && (op != 0 || pf r 1 1 < 16) && (op != 2 || pf r 4 8 == s.boot.serial), stField)])
    fun s _ => match op with
      | 0 => s.disarm (pf r 1 1) 3
      | 1 => s.disarm 15 3
      | _ => s.sealHarrow

def execHarrowDisarmSlots (r : Req) (s : State) : Host.Outcome State Fault Refusal := .next (s.harrowDisarm r)
def execHarrowDisarmAll (r : Req) (s : State) : Host.Outcome State Fault Refusal := .next (s.harrowDisarm r)
def execHarrowSeal (r : Req) (s : State) : Host.Outcome State Fault Refusal := .next (s.harrowDisarm r)

/-! ### Windows (R494, R496, R498, R502) -/

/-- The window of slot e opens at its capture line (R494). -/
def State.openWindow (s : State) (e : Nat) : State :=
  s.modEpisode e fun p => { p with state := 2, first := s.tm.period }

/-- At a capture line: episodes started without consent end while TEST_EN is low (R498), and windows open (R494). -/
def State.harrowLine (s : State) (previous : Nat) : State :=
  let s := s.each (List.range 4) fun s e =>
    if !s.boot.testEn && !(nth {} s.hw.episodes e).consented then s.endEpisodeAt e 5 previous else s
  let s := s.each (List.range 4) fun s e =>
    let p := nth {} s.hw.episodes e
    if p.state == 1 && p.first == s.tm.period then s.openWindow e else s
  s.modHw fun h => { h with activeNow := s.harrowActive }

/-- After period_count periods the episode ends (R494, Table HW-4). One that has made count_limit injections ended with the
last of them. -/
def execHarrowWindowClose (slot : Fin 4) (s : State) : Host.Outcome State Fault Refusal :=
  let e := slot.val
  let p := nth {} s.hw.episodes e
  if p.state == 2 && !s.windowOpen e then .next (s.endEpisodeAt e 1 (addPeriod p.first (s.periodCount e - 1))) else .next s

/-- TEST_EN changes its level (R452, R530): episodes end at the next capture line (R498). -/
def execTestEnChange (high : Bool) (s : State) : Host.Outcome State Fault Refusal :=
  .next (s.modBoot fun b => { b with testEn := high })

end Sys2Proof.Machine
end

