-- ==== Sys2Proof/Machine/Clocks.lean ====
section
/-! DEFINITION. The reference sources, holdover, failover and the RC fallback; CK_AON and the timebase at a wake
(12 R432 to R449). -/

namespace Sys2Proof.Machine

/-- The number of a source, as active_source has it. -/
def srcCode : Source → Nat
  | .crystal => 0 | .refin => 1 | .yoke => 2

/-- The sources that the device may use, in the order of Table CK-3 (R433). -/
def State.sourceOrder (s : State) : List Nat := if s.isMember then [2, 0, 1] else [0, 1]

/-- A source's qualification set or cleared (R432). -/
def Clk.qualify (c : Clk) (src : Nat) (ok : Bool) : Clk :=
  match src with
  | 0 => { c with xtalOk := ok }
  | 1 => { c with refinOk := ok }
  | 2 => { c with yokeOk := ok }
  | _ => c

/-- A CLOCK record: its detail names the sources before and after, a byte each. -/
def State.clockLog (s : State) (code before after : Nat) : State := s.log 0x05 nCLOCK 0 code (leBytes 1 before ++ leBytes 1 after)

/-- The source that failover takes in holdover, once it is qualified: with auto_failover the first of the order that is
not the lost one, without it the lost one alone (Table CK-3). -/
def State.failoverTo (s : State) : Option Nat :=
  match s.clk.lost with
  | none => none
  | some l =>
    if s.flag nCLOCK 0 3 then s.sourceOrder.find? fun x => x != l && s.sourceOk x
    else if s.sourceOk l then some l else none

/-- In holdover without a switch under way, a switch to the source that failover takes begins (R441). -/
def State.tryFailover (s : State) : State :=
  if s.clk.holdover.isSome && s.clk.switching.isNone && s.clk.relocking.isNone then
    s.modClk fun c => { c with switching := s.failoverTo }
  else s

/-- A hitless re-reference to a source begins (R434, R441, R444). -/
def State.rereference (s : State) (src : Nat) : State :=
  if s.clk.locked && s.clk.active < 3 && s.clk.active != src && s.clk.holdover.isNone && s.clk.switching.isNone && s.sourceOk src then
    s.modClk fun c => { c with switching := some src }
  else s

/-- The reference in use is lost: event 59, ref_loss_count, a record and holdover (R439, R440). With a switch under way
the loss is that of its new source, and the limit of 10 ms counts from the first loss (12, Collisions). -/
def execReferenceLost (s : State) : Host.Outcome State Fault Refusal :=
  if !s.clocked || !s.clk.locked || 3 ≤ s.clk.active || (s.clk.holdover.isSome && s.clk.switching.isNone) then .next s
  else
    let src := s.clk.switching.getD s.clk.active
    let s := ((s.bump nCLOCK 2 0 16).clockLog 1 src src).raise 59
    let s := s.modClk fun c => { c.qualify src false with
      holdover := some (c.holdover.getD s.tm.now)
      lost := some (c.lost.getD src)
      switching := none }
    .next s.tryFailover

/-- The PLL leaves its lock window with its reference present: holdover, and a relock to the same source (R445). -/
def execPllUnlock (s : State) : Host.Outcome State Fault Refusal :=
  if !s.clocked || !s.clk.locked || 3 ≤ s.clk.active || s.clk.holdover.isSome || s.clk.switching.isSome then .next s
  else
    let s := ((s.bump nCLOCK 2 16 16).clockLog 2 s.clk.active s.clk.active).raise 60
    .next (s.modClk fun c => { c with holdover := some s.tm.now, unlocked := true, relocking := some c.active })

/-- The receivers that CK_SENT and CK_CSP serve stop with their clocks: they hold no lock, no trigger and no slave
transaction (Table CK-2). -/
def State.stopReceivers (s : State) : State :=
  { s with
    sent := s.sent.map fun c => { c with locked := false, prevCal := none, trigger := none }
    csp := s.csp.map fun c => { c with slave := none } }

/-- The entry to the RC fallback (R442; Table AR-7): a held chain keeps its select. A source that is qualified already is
the first that qualifies, and the relock to it begins (R443). -/
def State.enterRc (s : State) : State :=
  let from' := s.clk.active
  let s := s.cutEntries.dropPeriod
  let s := s.ite (s.drill.mode == 1) (·.modDrill fun d => { d with mode := 2 })
  let s := s.stopReceivers.modClk fun c => { c with
    active := 3
    holdover := none
    lost := none
    switching := none
    relocking := s.sourceOrder.find? fun x => s.sourceOk x
    unlocked := false }
  let s := s.modYoke fun y => { y with markersOn := false }
  (s.clockLog 4 from' 3).fail 6 fun f => { f with rc := true }

/-- 10 ms of holdover with no source qualified: the RC fallback (R441). A PLL that has not relocked by then has lost its
source, and goes to an alternate if one is qualified (R445). -/
def execHoldoverExpiry (s : State) : Host.Outcome State Fault Refusal :=
  match s.clk.holdover with
  | none => .next s
  | some t =>
    if s.clk.switching.isSome then .next s
    else
      let s := s.at (t + ticksMs 10)
      if s.clk.unlocked then
        let s := (s.modClk fun c => { c.qualify c.active false with unlocked := false, relocking := none, lost := some c.active }).tryFailover
        .next (if s.clk.switching.isSome then s else s.enterRc)
      else .next s.enterRc

/-- A source qualifies (R432). Before the first lock the PLL locks to the first that does; on the RC it relocks to the
first in the order of Table CK-3; in holdover failover may take it (R433, R441, R443). -/
def execSourceQualified (src : Source) (s : State) : Host.Outcome State Fault Refusal :=
  let n := srcCode src
  if !s.clocked || (n == 2 && !s.isMember) then .next s
  else
    let s := s.modClk fun c => c.qualify n true
    if !s.clk.bootLocked || s.clk.active == 3 then
      .next (if s.clk.relocking.isSome then s else s.modClk fun c => { c with relocking := s.sourceOrder.find? fun x => s.sourceOk x })
    else .next s.tryFailover

/-- A hitless re-reference is complete: CLOCK record 3 (R441). -/
def execSourceSwitchComplete (s : State) : Host.Outcome State Fault Refusal :=
  match s.clk.switching with
  | none => .next s
  | some n =>
    let from' := s.clk.active
    .next ((s.modClk fun c => { c with active := n, switching := none, holdover := none, lost := none, unlocked := false }).clockLog 3 from' n)

/-- The PLL has locked: at boot or at a wake for the first time (R433), from the RC (R443), or again to its own source
after an unlock (R445). The last two are recorded, and leaving the RC brings the level back. -/
def execRelockComplete (s : State) : Host.Outcome State Fault Refusal :=
  match s.clk.relocking with
  | none => .next s
  | some n =>
    let first := !s.clk.bootLocked
    let from' := s.clk.active
    let s := s.modClk fun c => { c with
      active := n
      locked := true
      bootLocked := true
      relocking := none
      holdover := none
      lost := none
      unlocked := false }
    let s := if first then s else s.clockLog 5 from' n
    .next (if s.lev.fail.rc then s.fail 6 fun f => { f with rc := false } else s)

/-- root_source has qualified for 1 s and auto_failover is 1: the device switches back to it (R444). -/
def execSwitchBack (s : State) : Host.Outcome State Fault Refusal :=
  .next (if s.flag nCLOCK 0 3 then s.rereference (s.fld nCLOCK 0 0 2) else s)

/-- No source has qualified by 20 ms: the PLL locks to the RC, 15.5 ms after the release, and the level is L1 (R435). -/
def execNoReferenceAtBoot (s : State) : Host.Outcome State Fault Refusal :=
  if !s.clocked || s.clk.bootLocked || s.clk.relocking.isSome then .next s
  else
    let s := if s.boot.kind == .reset && s.boot.phase == .rom then s.at (ticksUs 15500) else s
    .next ((s.modClk fun c => { c with active := 3, locked := true, bootLocked := true }).fail 6 fun f => { f with rc := true })

/-! ### CK_AON (R447 to R449) -/

/-- The error of CK_AON in 0.01 ppm that a run of 32 768 cycles in so many ticks shows, to the nearest unit. -/
def aonError (ticks : Nat) : Int :=
  let num : Int := (120000000 - (ticks : Int)) * 100000000
  (2 * num + ticks) / (2 * ticks)

/-- The mean of the last eight runs, to the nearest unit; 0 where there is none. -/
def aonMean (runs : List Int) : Int :=
  let n : Int := runs.length
  if runs.isEmpty then 0 else (2 * runs.foldl (· + ·) 0 + n) / (2 * n)

/-- A run of 32 768 CK_AON cycles in RUN or DOZE (R447); the RTC has counted at that rate since it was last taken. -/
def execAonCalibrationRun (ticks : Nat) (s : State) : Host.Outcome State Fault Refusal :=
  if ticks = 0 || !s.clocked || s.pw.waking then .next s
  else
    let s := s.ite s.pw.rtcValid fun s => s.modPw fun p => { p with rtc := (p.rtc + (s.tm.now - p.rtcAt) * 32768 / ticks) % 2 ^ 64, rtcAt := s.tm.now }
    .next (s.modClk fun c => { c with aonRuns := lastN 8 (c.aonRuns ++ [aonError ticks]) })

/-- Ticks that n cycles of CK_AON stand for: round(n × 3 662.109375 / (1 + aon_offset × 10⁻⁸)) (R448). -/
def aonTicks (n : Nat) (offset : Int) : Nat :=
  let den := (100000000 + offset).toNat
  (2 * n * 366210937500 + den) / (2 * den)

/-- After a wake, once the PLL has locked, the timebase is loaded; the first capture line falls on the grid that goes on
from the entry line, at least 1 ms after lock, with its period number (R409, R448, R449). A joined member's line comes
from the lead's markers. -/
def execTimebaseRealign (cycles : Nat) (s : State) : Host.Outcome State Fault Refusal :=
  match s.pw.wake with
  | some w =>
    if !s.pw.waking || !s.clk.bootLocked then .next s
    else
      let off := aonMean s.clk.aonRuns
      let now := (w.now + aonTicks cycles off) % 2 ^ 64
      let k := max 1 (ceilDiv (now + ticksMs 1 - w.now) (max 1 w.ticks))
      let s := s.modClk fun c => { c with aonOffset := off }
      let s := s.modTm fun t => { t with
        now
        lineSeen := true
        period := addPeriod w.period (k - 1)
        lineAt := some (w.now + k * w.ticks)
        linePeriod := some (addPeriod w.period k) }
      .next (s.modPw fun p => { p with
        waking := false
        rtc := if p.rtcValid then (p.rtc + cycles) % 2 ^ 64 else p.rtc
        rtcAt := now })
  | none => .next s

end Sys2Proof.Machine
end

