-- ==== Sys2Proof/Machine/Lines.lean ====
section
/-! DEFINITION. Where the next capture line falls (01 R16, R17, R24, R25, Table AR-2; 10 R344; 12 R449, R461). -/

namespace Sys2Proof.Machine

/-- The sync latency λ (01 R24). -/
def State.syncLatency (s : State) : Nat := if s.isLead && s.fld nYOKE 0 16 7 != 0 then 1224 else 24

/-- A capture line: its instant, whether it is a free-run line, whether the considered edge is held as early, and the
edge carried into the next period. -/
structure LineEnd where
  at' : Nat
  freeRun : Bool
  early : Bool
  carry : Option Nat
  deriving DecidableEq, Repr

/-- Table AR-2: the line that ends the period begun at C, under SYNC_IN. -/
def syncLine (c n lat : Nat) (free : Bool) (edge : Option Nat) : LineEnd :=
  match edge with
  | none => ⟨if free then c + n else c + 2 * n, true, false, none⟩
  | some e =>
    let p := e + lat
    if p < c + n then ⟨c + n, false, true, none⟩
    else if free then (if p = c + n then ⟨c + n, false, false, none⟩ else ⟨c + n, true, false, some e⟩)
    else if p ≤ c + 2 * n then ⟨p, false, false, none⟩
    else ⟨c + 2 * n, true, false, some e⟩

/-- The capture line that ends the period in progress: a given one, the first one at timebase 15 000, the one that SYNC_IN
gives, or the period's length after the last. -/
def State.nextLine (s : State) : LineEnd :=
  let n := s.periodTicks
  match s.tm.lineAt with
  | some t => ⟨t, false, false, none⟩
  | none =>
    if !s.tm.lineSeen then ⟨15000, false, false, none⟩
    else if s.fld nPERIOD 0 16 2 == 2 then syncLine s.tm.capture n s.syncLatency s.tm.freeRun s.tm.edge
    else ⟨s.tm.capture + n, false, false, none⟩

/-- The period number that the next line carries (01 R17). -/
def State.nextPeriod (s : State) : Nat :=
  match s.tm.linePeriod with
  | some p => p
  | none => if s.tm.lineSeen then addPeriod s.tm.period 1 else s.tm.period

/-- A rising edge on SYNC_IN: the considered edge of the period, counted where it will be held as early, or an extra one
(01 R24, R25). The capture line follows SYNC_IN while the steward restarts too, since the drill runs on. -/
def execSyncInEdge (t : Stamp) (s : State) : Host.Outcome State Fault Refusal :=
  if s.fld nPERIOD 0 16 2 != 2 || !s.clocked then .next s
  else
    let s := s.at t.toNat
    match s.tm.edge with
    | some _ => .next (s.bump nPERIOD 6 0 16)
    | none =>
      let s := s.modTm fun m => { m with edge := some t.toNat }
      .next (if s.tm.lineSeen && s.nextLine.early then (s.bump nPERIOD 5 0 16).modTm fun m => { m with earlyCount := m.earlyCount + 1 } else s)

end Sys2Proof.Machine
end

