-- ==== Sys2Proof/Machine/YokeLead.lean ====
section
/-! DEFINITION. The yoke link as the lead drives it: markers and command frames, acknowledgements, joins and ranging,
the classification of segments, lost and quarantined members, forwarded requests, and YOKE_CTL (10 R334 to R359, R360 to
R364, R367, R376, R378, R383). -/

namespace Sys2Proof.Machine

/-! ### The link -/

/-- The link could transmit: the level is L3, the yoke exists and is enabled and without failure, the PLL is locked to a source, and
the outputs are released (R334; 01 Table AR-6; 11 R420; 12 R442). -/
def State.yokeUp (s : State) : Bool :=
  s.lev.level == 3 && !s.boot.legacy && s.flag nYOKE 0 0 && s.clocked && s.clk.locked && s.clk.active < 3 && s.pw.prsntMet && !s.lev.fail.yoke

/-- The link transmits: it is not fenced either. -/
def State.yokeRuns (s : State) : Bool := s.yokeUp && s.yoke.fence.isNone

/-- A YOKE record (13 Table AL-3). -/
def State.yokeLog (s : State) (position code : Nat) : State := s.log 0x50 nYOKE position code

/-- A position is joined. -/
def State.isJoined (s : State) (k : Nat) : Bool := (s.pos k).state == 3 || (s.pos k).state == 4

/-! ### Forwarded requests (R357 to R359) -/

/-- The next fragment of the first request forwarded to a position, while none is on its way. -/
def State.pump (s : State) (k : Nat) : State :=
  if s.yoke.commands.any fun c => c.kind == .mbx && c.dest == k then s
  else match s.yoke.forwards.find? (·.position == k) with
    | some f =>
      if f.left.isEmpty then s
      else
        let g := { f with left := f.left.drop 64 }
        (s.modYoke fun y => { y with forwards := y.forwards.map fun x => if x == f then g else x }).command .mbx k (f.left.take 64)
    | none => s

/-- A request put behind those already forwarded to its position. -/
def State.forward (s : State) (ticket : Option Ticket) (k : Nat) (message : List Byte) : State :=
  (s.modYoke fun y => { y with forwards := y.forwards ++ [⟨ticket, k, leAt message 2 2, message⟩] }).pump k

/-- The forwarded requests of a position completed with a status. -/
def State.dropForwards (s : State) (k status : Nat) : State :=
  let fs := s.yoke.forwards.filter (·.position == k)
  let s := s.modYoke fun y => { y with forwards := y.forwards.filter (·.position != k) }
  fs.foldl (fun s f => s.completeOpt f.ticket status) (s.modPos k fun p => { p with reply := [], sectionRead := none })

/-! ### Fallow agreement (R378, R379) -/

/-- Every member has accepted: FALLOW_COMMIT names P_c, at least 8 periods later and 10 ms after the checks, and the FALLOW
verb is answered with it (R378; 11 R402). -/
def State.fixEntry (s : State) : State :=
  match s.pw.fallow with
  | some f =>
    match f.proposal with
    | some id =>
      if f.committed then s
      else
        let pc := addPeriod s.tm.period (max 8 (ceilDiv (f.earliest - s.tm.capture) (max 1 s.periodTicks)))
        let s := s.modPw fun p => { p with fallow := some { f with committed := true, entry := some pc, ticket := none } }
        (s.command .fallowCommit 0 (leBytes 1 id ++ leBytes 6 pc)).completeOpt f.ticket stOk (leBytes 6 pc ++ [0, 0])
    | none => s
  | none => s

/-- P_c of a device that is alone: the first capture line at least 10 ms after the checks; the reply carries it (11 R402). -/
def State.fixAlone (s : State) : State :=
  match s.pw.fallow with
  | some f =>
    if f.proposal.isSome || f.entry.isSome then s
    else
      let pc := addPeriod s.tm.period (max 1 (ceilDiv (f.earliest - s.tm.capture) (max 1 s.periodTicks)))
      (s.modPw fun p => { p with fallow := some { f with entry := some pc, ticket := none } }).completeOpt f.ticket stOk (leBytes 6 pc ++ [0, 0])
  | none => s

/-- A REFUSE or a wake claim aborts the agreement before its commit point. -/
def State.refuseFallow (s : State) : State :=
  match s.pw.fallow with
  | some f => if f.proposal.isSome && !f.pointSent then s.abandonFallow else s
  | none => s

/-! ### Acknowledgements (R346, R354 to R356, R362) -/

/-- t_ta of a RANGE exchange, by which the echo starts 2 000 ns after the join window opens (R346). -/
def State.rangeDelay (s : State) : Nat := joinOpen s.reg + 11000

/-- Eight exchanges begin. -/
def State.startRanging (s : State) (k : Nat) : State :=
  (s.modPos k fun p => { p with rangeLeft := 8, rangeSum := 0 }).command .range k (leBytes 4 s.rangeDelay)

/-- A member is joined: event 29 and a YOKE record; its layout decides between joined and layout mismatch (R362, R364). -/
def State.joinDone (s : State) (k : Nat) : State :=
  if (s.pos k).state != 2 then s.modPos k fun p => { p with rerange := false }
  else
    let expected := s.reg nYOKE (12 + 4 * (k - 1))
    let s := s.modPos k fun p => { p with
      state := if p.layoutId == expected then 3 else 4
      edgeRun := 0
      rejects := []
      offsets := [] }
    (s.yokeLog k 1).raise 29

/-- What follows when every destination has acknowledged a command. -/
def State.commandDone (s : State) (c : Command) : State :=
  let s := s.completeOpt c.ticket stOk (leBytes 1 2 ++ leBytes 1 c.dest ++ [0, 0])
  match c.kind with
  | .joinAccept => if (s.pos c.dest).state == 2 then s.startRanging c.dest else s
  | .setDelay => s.joinDone c.dest
  | .trim => s.modPos c.dest fun p => { p with delayQ := ((p.delayQ : Int) + signedOf 16 (leAt c.payload 0 2)).toNat }
  | .mbx => s.pump c.dest
  | .release => s.modPos c.dest fun p => { p with state := s.unjoinedState c.dest }
  | .fallowPropose => s.fixEntry
  | _ => s

/-- Commands without an open destination leave the queue. -/
def State.settleCommands (s : State) : State :=
  let done := s.yoke.commands.filter fun c => c.open'.isEmpty
  done.foldl (·.commandDone ·) (s.modYoke fun y => { y with commands := y.commands.filter fun c => !c.open'.isEmpty })

/-- A position no longer joined: what was on its way to it is dropped. -/
def State.unjoin (s : State) (k state : Nat) : State :=
  let gone := s.yoke.commands.filter fun c => c.dest == k
  let s := s.modPos k fun p => { p with
    state
    edgeRun := 0
    rejects := []
    offsets := []
    rangeLeft := 0
    rerange := false
    segment := none }
  let s := s.modYoke fun y => { y with
    commands := (y.commands.filter (·.dest != k)).map fun c => { c with open' := c.open'.filter (· != k) } }
  let s := gone.foldl (fun s c => s.completeOpt c.ticket stTimeout) s
  (s.dropForwards k stTimeout).settleCommands

/-- Position k acknowledges a seq; an answer of REFUSE ends an agreement. -/
def State.acknowledge (s : State) (k seq answer : Nat) (busy : Bool) : State :=
  match s.yoke.commands.find? fun c => c.seq == seq && c.open'.contains k with
  | none => s
  | some c =>
    if busy && c.kind == .mbx then
      s.modYoke fun y => { y with commands := y.commands.map fun d =>
        if d == c then { d with sent := d.sent - 1, notBefore := s.tm.lines + 8 } else d }
    else if c.kind == .fallowPropose && answer == 2 then s.refuseFallow
    else
      let d := { c with open' := c.open'.filter (· != k) }
      (s.modYoke fun y => { y with commands := y.commands.map fun x => if x == c then d else x }).settleCommands

/-! ### The command frame of a period (R338, R354; 14 Table HW-2) -/

/-- How often a frame is sent: four times, a RELEASE to a lost member once (R354, R356). -/
def State.sendings (s : State) (c : Command) : Nat := if c.kind == .release && (s.pos c.dest).state == 6 then 1 else 4

/-- Whether a frame may go out now. -/
def State.maySend (s : State) (c : Command) : Bool := c.sent < s.sendings c && c.notBefore ≤ s.tm.lines

/-- The frame that follows the marker: one that is sent again comes before any other (R354). -/
def State.nextCommand (s : State) : Option Command :=
  match s.yoke.commands.find? fun c => 0 < c.sent && s.maySend c with
  | some c => some c
  | none => s.yoke.commands.find? s.maySend

/-- A sending counted. -/
def State.countSending (s : State) (c : Command) : State :=
  let s := s.ite (0 < c.sent) (·.bump nYOKE 7 16 16)
  s.modYoke fun y => { y with commands := y.commands.map fun d => if d == c then { d with sent := d.sent + 1 } else d }

/-- The frame put after the marker, with what Harrow makes of it. -/
def State.sendCommand (s : State) : State :=
  let s := s.modYoke fun y => { y with cmdOut := [] }
  match s.hw.heldCmd with
  | some (bs, line) =>
    if line ≤ s.tm.lines then (s.modHw fun h => { h with heldCmd := none }).modYoke fun y => { y with cmdOut := bs } else s
  | none =>
    match s.nextCommand with
    | none => s
    | some c =>
      let s := s.countSending c
      let bs := c.bytes
      -- the symbols of the frame are no bits of the unit (14 Table HW-2)
      let (s, ps) := s.drawUnit 5 0 (some c.dest) (8 * bs.length)
      if ps.any (·.cls == 0) then ps.foldl (fun s p => if p.cls == 0 then s.injected p.slot else s) s
      else
        let (s, bs) := ps.foldl (fun (s, bs) p =>
          if p.cls == 1 || p.cls == 2 then (s.injected p.slot, flipBit bs p.bit) else (s, bs)) (s, bs)
        match ps.find? (·.cls == 4), ps.find? (·.cls == 3) with
        | some p, _ =>
          (s.injected p.slot).modHw fun h => { h with heldCmd := some (framed bs, s.tm.lines + bits (s.hwReg p.slot 4) 0 8) }
        | none, some p =>
          -- exchanged with the frame of the next period, where there is one
          match s.yoke.commands.find? fun d => d.seq != c.seq && s.maySend d with
          | some d =>
            ((s.injected p.slot).countSending d).modYoke (fun y => { y with cmdOut := framed d.bytes })
              |>.modHw fun h => { h with heldCmd := some (framed bs, s.tm.lines + 1) }
          | none => s.modYoke fun y => { y with cmdOut := framed bs }
        | none, none => s.modYoke fun y => { y with cmdOut := framed bs }

/-! ### MARKER_SEND (R337, R338, R360, R378, R383) -/

/-- The bytes of a marker after its symbol. -/
def markerBytes (hop flags period : Nat) : List Byte :=
  let b := leBytes 1 hop ++ leBytes 1 flags ++ leBytes 6 period
  b ++ leBytes 1 (crc8Marker b)

/-- K28.5 and K28.7 as the symbol byte of Table YK-2. -/
def markerSymbol (point : Bool) : Byte := if point then 0xFC else 0xBC

/-- A join or ranging is in progress. -/
def State.joining (s : State) : Bool := s.yoke.positions.any fun p => p.state == 2 || p.rerange

/-- The marker of a line carries the beacon flag (R360). -/
def State.beaconDue (s : State) (line : Nat) : Bool :=
  s.flag nYOKE 0 1 && s.joined.length < 7 && !s.joining
    && (match s.yoke.lastBeacon with | some t => t + ticksMs 4 ≤ line | none => true)

/-- The marker of a line carries the rediscovery flag: every 100 ms from a wake, while a planned position is unjoined
(R383). -/
def State.rediscoveryDue (s : State) (line : Nat) : Bool :=
  match s.yoke.lastRediscovery with
  | some t => t + ticksMs 100 ≤ line && (planOf s.reg).any fun (k, _) => !s.isJoined k
  | none => false

/-- The line's marker is the commit point of an agreement. -/
def State.commitPoint (s : State) : Bool :=
  match s.pw.fallow with
  | some f => f.committed && f.entry == some s.nextPeriod
  | none => false

/-- The lead sends the marker of the next capture line 10 000 ns before it, and one command frame (R337, R338). A DETACH or
an emergency detach stops the markers (11 R424, Table PW-9). -/
def execMarkerSend (s : State) : Host.Outcome State Fault Refusal :=
  if !s.isLead || !s.yokeRuns || !(s.pw.detach == .none || s.pw.detach == .accepted) then .next s
  else
    let line := s.nextLine.at'
    let s := s.at (line - 1200)
    let redisc := s.rediscoveryDue line
    let beacon := s.beaconDue line || redisc
    let point := s.commitPoint
    let bs := markerSymbol point :: markerBytes 0 (b2n beacon + 2 * b2n redisc) s.nextPeriod
    let s := s.modYoke fun y => { y with
      markersOn := true
      out := bs
      beacon
      lastBeacon := if beacon then some line else y.lastBeacon
      lastRediscovery := if redisc then some line else y.lastRediscovery }
    let s := if point then s.modPw fun p => { p with fallow := p.fallow.map fun f => { f with pointSent := true } } else s
    .next s.sendCommand

/-! ### Joins (R361, R362) -/

/-- A join request is heard in the join window of a beacon period. A position that is not planned is only recorded; one
join is handled at a time. -/
def execJoinRequestReceived (position : Fin 7) (serial : BitVec 64) (crcOk : Bool) (s : State) : Host.Outcome State Fault Refusal :=
  let k := position.val + 1
  if !s.isLead || !s.yokeRuns || !s.yoke.beacon then .next s
  else
    let s := s.modPw fun p => { p with dnRxIdle := false }
    if !crcOk then .next (s.bump nYOKE 7 0 16)
    else if !s.planned k then .next (s.modPos k fun p => { p with state := 8, serial := serial.toNat })
    else if s.joining then .next s
    else
      let s := (s.unjoin k 2).modPos k fun p => { p with serial := serial.toNat, delayQ := 0 }
      .next (s.command .joinAccept k (leBytes 8 serial.toNat ++ (grantOf s.reg s.nextPeriod).bytes))

/-! ### Segments (R341, R346, R350 to R353, R358, R364, R376) -/

/-- The hop delay that ranging gives: half the mean of eight round trips, in 0.25 ns units. -/
def rangedDelay (sum : Nat) : Nat := sum / 4

/-- One echo: after the eighth D_k is set, unless a hop delay above 400 ns refuses the join (R346). -/
def State.takeEcho (s : State) (k : Nat) (roundTrip : Int) : State :=
  let s := s.modPos k fun p => { p with rangeLeft := p.rangeLeft - 1, rangeSum := p.rangeSum + roundTrip.toNat }
  let p := s.pos k
  if 0 < p.rangeLeft then s.command .range k (leBytes 4 s.rangeDelay)
  else
    let d := rangedDelay p.rangeSum
    let before := if k ≤ 1 then 0 else (s.pos (k - 1)).delayQ
    if p.state == 2 && before + 1600 < d then s.unjoin k (s.unjoinedState k)
    else (s.modPos k fun p => { p with delayQ := d }).command .setDelay k (leBytes 4 d)

/-- The SHEAF section of a member's table as a layout, where its CRC holds (03 Table SX-8, R101). -/
def parseLayout (b : List Byte) : Option Layout :=
  let n := leAt b 16 2
  let size := 32 * (n + 1)
  if b.length = size + 8 && leAt b 0 1 = 0x60 && leAt b (size + 4) 4 = crc32 (b.take size) then
    some {
      id := leAt b 4 4
      bodySize := leAt b 12 4
      stack := leAt b 18 1
      fields := (List.range n).map fun i =>
        let r := slice b (32 * (i + 1)) 32
        { valueType := leAt r 6 1, size := leAt r 7 1, offset := leAt r 8 4, noun := leAt r 20 2, source := leAt r 22 2,
          unit := leAt r 24 1, scale := leAt r 25 1, flags := leAt r 26 1, device := leAt r 27 1, sched := leAt r 28 4,
          entry := 0 } }
  else none

/-- A DESCRIBE that the lead sends to a member (02 Table MB-7). -/
def describeMessage (tag offset len : Nat) : List Byte :=
  [0x4A, 0x02] ++ leBytes 2 tag ++ [0x01, 0] ++ [0, 0, 0, 0] ++ leBytes 2 8 ++ leBytes 4 0
    ++ leBytes 4 offset ++ leBytes 2 len ++ [0, 0]

/-- The lead reads the SHEAF section of a member whose layout is not the expected one and is not cached (R364): first the
table's header, then the section. -/
def State.readSection (s : State) (k : Nat) : State :=
  let p := s.pos k
  if p.state != 4 || p.cached.any (·.id == p.layoutId) || s.yoke.forwards.any (·.position == k) then s
  else
    let tag := 0xFF00 + s.yoke.seq % 256
    match p.sectionRead with
    | some (off, size, got) =>
      if size = 0 then s.forward none k (describeMessage tag 0 512)
      else s.forward none k (describeMessage tag (off + got.length) (min 4000 (size - got.length)))
    | none => (s.modPos k fun p => { p with sectionRead := some (0, 0, []) }).forward none k (describeMessage tag 0 512)

/-- A reply to the lead's own DESCRIBE: the sectionReads place from the header's directory, or its next bytes. -/
def State.takeSection (s : State) (k : Nat) (reply : List Byte) : State :=
  let body := reply.drop 26
  let status := leAt reply 16 2
  match (s.pos k).sectionRead with
  | none => s
  | some (off, size, got) =>
    if status != 0 then s.modPos k fun p => { p with sectionRead := none }
    else if size = 0 then
      match ((List.range (leAt body 10 1)).map fun i => 28 + 12 * i).find? fun a => leAt body a 1 = 2 with
      | some a => s.modPos k fun p => { p with sectionRead := some (leAt body (a + 4) 4, leAt body (a + 8) 4, []) }
      | none => s.modPos k fun p => { p with sectionRead := none }
    else
      let got := got ++ body
      if size ≤ got.length then
        s.modPos k fun p => { p with sectionRead := none, cached := match parseLayout (got.take size) with
          | some l => some l
          | none => p.cached }
      else s.modPos k fun p => { p with sectionRead := some (off, size, got) }

/-- A reply that has arrived in full: REPLY_DONE, and the request of its tag that waits for it (R358, R359). -/
def State.replyArrived (s : State) (k : Nat) (reply : List Byte) : State :=
  let s := (s.modPos k fun p => { p with reply := [] }).command .replyDone k []
  let answers (f : Forward) : Bool := f.position == k && f.tag == leAt reply 2 2 && f.left.isEmpty
  match s.yoke.forwards.find? answers with
  | none => s
  | some f =>
    let s := s.modYoke fun y => { y with forwards := y.forwards.eraseP answers }
    let s := match f.ticket with
      | some t => s.complete t stOk (leBytes 1 0 ++ leBytes 1 k ++ [0, 0] ++ reply)
      | none => s.takeSection k reply
    s.pump k

/-- A reply fragment (R358): taken where it follows what the lead holds; an offset beyond it, with a fragment or without, is asked
for again. Once the lead holds a reply, nothing is taken until its REPLY_DONE is acknowledged. -/
def State.takeFragment (s : State) (k offset : Nat) (fragment : List Byte) : State :=
  let have' := (s.pos k).reply
  if s.yoke.commands.any fun c => c.kind == .replyDone && c.dest == k then s
  else if have'.length < offset then
    (if s.yoke.commands.any fun c => c.kind == .replyResend && c.dest == k then s
     else s.command .replyResend k (leBytes 2 have'.length))
  else if fragment.isEmpty || offset < have'.length then s
  else
    let r := have' ++ fragment
    if 18 ≤ r.length && 18 + leAt r 10 2 ≤ r.length then s.replyArrived k r else s.modPos k fun p => { p with reply := r }

/-- What the header of an accepted segment tells (Table YK-4): acknowledgement, claim, leaving, events, layout and need. -/
def State.takeHeader (s : State) (k : Nat) (g : Segment) : State :=
  let fl := g.flags.toNat
  let expected := s.reg nYOKE (12 + 4 * (k - 1))
  let s := s.modPos k fun p => { p with
    layoutId := g.layoutId.toNat
    need := g.need.toNat
    events := p.events ||| g.events.toNat
    state := if p.state == 3 || p.state == 4 || p.state == 7 then (if g.layoutId.toNat == expected then 3 else 4) else p.state }
  let s := if bitAt fl 1 then s.refuseFallow else s
  let s := if bitAt fl 0 then s.acknowledge k g.ackSeq.toNat g.answer.toNat (bitAt fl 3) else s
  (s.takeFragment k g.replyOffset.toNat g.fragment).readSection k

/-- A member's edge hit: three in a row raise event 31 and start re-ranging (R351). -/
def State.edgeHit (s : State) (k : Nat) : State :=
  let s := (s.bump nYOKE 6 0 16).modPos k fun p => { p with edgeRun := p.edgeRun + 1 }
  if (s.pos k).edgeRun < 3 then s
  else (((s.modPos k fun p => { p with edgeRun := 0, rerange := true }).yokeLog k 3).raise 31).startRanging k

/-- A reject: eight within 64 periods raise event 32 and quarantine the member (R352). -/
def State.reject (s : State) (k : Nat) : State :=
  let s := (s.bump nYOKE 6 16 16).modPos k fun p => { p with
    segment := some (2, [])
    edgeRun := 0
    rejects := (p.rejects.filter fun l => s.tm.lines < l + 64) ++ [s.tm.lines] }
  if (s.pos k).rejects.length < 8 then s
  else (((((s.unjoin k 5).bump nYOKE 8 16 16).yokeLog k 4).raise 32).command .quarantine k [])

/-- A segment merged into the segment area (R376); one without a body is a merged header alone. -/
def State.mergeSegment (s : State) (k cls : Nat) (g : Segment) : State :=
  if bitAt g.flags.toNat 4 then s.modPos k fun p => { p with segment := some (4, []) } else s.mergeBody k cls g.body

/-- Whether every byte of a segment that starts at offset e passes the window of its position at the lead's DN RX (R342): start
symbol, header, body, fragment, CRC and end symbol, a byte each 100 ns. -/
def State.passes (s : State) (k : Nat) (e : Int) (g : Segment) : Bool :=
  let last := e + 100 * (30 + g.body.length + g.fragment.length : Nat)
  decide (2 * last ≤ 2 * (((planOf s.reg).find? (·.1 == k)).elim 0 (·.2) + 94 : Nat) * 100 + balkOf s.reg)

/-- Whether an echo passes the join window, which opens 2 000 ns before an echo without delay (R342, R346). -/
def echoPasses (e : Int) : Bool := -2000 ≤ e && e + 2000 + 3000 ≤ 12000

/-- A joined member's segment by its start offset (Table YK-5). -/
def State.classify (s : State) (k : Nat) (e : Int) (g : Segment) : State :=
  let b := balkOf s.reg
  if b < 2 * e.natAbs then s.reject k
  else if !g.crcOk then (s.bump nYOKE 7 0 16).modPos k fun p => { p with segment := some (3, []) }
  else
    let hit := b < 8 * e.natAbs
    let s := s.modPos k fun p => { p with lastOffset := e, offsets := p.offsets ++ [e] }
    let s := s.mergeSegment k (b2n hit) g
    let s := if hit then s.edgeHit k else s.modPos k fun p => { p with edgeRun := 0 }
    s.takeHeader k g

/-- What a member forwards to the lead in any header: its layout, its need and its events (Table YK-4). -/
def Position.header (p : Position) (g : Segment) : Position :=
  { p with layoutId := g.layoutId.toNat, need := g.need.toNat, events := p.events ||| g.events.toNat }

/-- A segment at the lead's DN RX. `start` is its start offset e in ns; none where no start symbol lies inside the window;
for an echo it is the round trip less t_ta. Bytes outside the window are discarded, so that a segment that exceeds it fails its CRC
(R342). A leaving member becomes unjoined (R365). -/
def execSegmentReceived (position : Fin 7) (start : Option Int) (g : Segment) (s : State) : Host.Outcome State Fault Refusal :=
  let k := position.val + 1
  let p := s.pos k
  if !s.isLead || !s.yokeRuns then .next s
  else
    let s := s.modPw fun p => { p with dnRxIdle := false }
    match start with
    | none => .next (if p.state == 3 || p.state == 4 then s.reject k else s)
    | some e =>
      let echo := 0 < p.rangeLeft && bitAt g.flags.toNat 0 && (s.yoke.commands.any fun c => c.kind == .range && c.dest == k && c.seq == g.ackSeq.toNat)
      if echo then
        if !g.crcOk || !echoPasses e then .next (s.bump nYOKE 7 0 16)
        else .next (((s.modPos k (·.header g)).acknowledge k g.ackSeq.toNat 0 false).takeEcho k e)
      else if !s.planned k || (p.state != 3 && p.state != 4 && p.state != 7 && balkOf s.reg < 2 * e.natAbs) then .next s
      else if p.state == 3 || p.state == 4 || p.state == 7 then
        let g := { g with crcOk := g.crcOk && s.passes k e g }
        let s := s.classify k e g
        .next (if g.crcOk && bitAt g.flags.toNat 2 then s.unjoin k (s.unjoinedState k) else s)
      else if g.crcOk then
        let s := s.modPos k (·.header g)
        .next (if bitAt g.flags.toNat 0 then s.acknowledge k g.ackSeq.toNat g.answer.toNat (bitAt g.flags.toNat 3) else s)
      else .next (s.bump nYOKE 7 0 16)

/-! ### Trim, lost members (R348, R356) -/

/-- The correction in 0.25 ns units for a mean offset: half of it, to the nearest unit (R348). -/
def trimOf (offsets : List Int) : Int :=
  let n : Int := offsets.length
  (4 * offsets.foldl (· + ·) 0 + n) / (2 * n)

/-- The end of a 64-period run: TRIM to every member whose mean offset exceeds 4 ns. -/
def execTrimRunEnd (s : State) : Host.Outcome State Fault Refusal :=
  if !s.isLead then .next s
  else .next (s.each s.joined fun s k =>
    let l := (s.pos k).offsets
    let sum := l.foldl (· + ·) 0
    let s := s.modPos k fun p => { p with offsets := [] }
    if 4 * l.length < sum.natAbs then s.command .trim k (leBytes 2 (ofSigned 16 (trimOf l))) else s)

/-- A destination that did not acknowledge the fourth sending is lost (R356). -/
def execMemberLost (position : Fin 7) (s : State) : Host.Outcome State Fault Refusal :=
  let k := position.val + 1
  if s.isLead && (s.pos k).state != 6 && s.yoke.commands.any (fun c => c.open'.contains k && 4 ≤ c.sent) then
    .next ((((s.unjoin k 6).bump nYOKE 8 0 16).yokeLog k 2).raise 30)
  else .next s

/-- Every 64 periods RELEASE goes to each lost position until it is acknowledged (R356). -/
def execReleaseRetryTimer (s : State) : Host.Outcome State Fault Refusal :=
  if !s.isLead then .next s
  else .next (s.each (((List.range 7).map (· + 1)).filter fun k => (s.pos k).state == 6) fun s k =>
    (s.modYoke fun y => { y with commands := y.commands.filter fun c => !(c.kind == .release && c.dest == k) }).command .release k [])

/-! ### YOKE_CTL in a lead (R359) -/

/-- The shared checks of YOKE_CTL: a lead serves ops 0 to 3 and a member op 4; ops 0, 2 and 3 name a joined position. -/
def yokeCtl (op : Nat) (lead : Bool) (r : Req) (s : State) (run : State → Ticket → State × Answer) : State :=
  let lenOk := if op = 0 then 5 ≤ r.length.toNat && r.length.toNat ≤ 4068 else r.length.toNat == 4
  let k := pf r 1 1
  s.serve 0x30 r lenOk
    (fun s => [noNoun r, s.heldRoom r, (s.yoke.fence.isNone, stBusy),
      (pf r 0 1 == op && pz r 2 2 && (if lead then s.isLead else s.isMember)
        && (if op = 1 || op = 4 then k == 0 && (lead || s.yoke.linkState == 5) else 1 ≤ k && k ≤ 7 && s.isJoined k), stField)])
    run

def execYokeCtlForward (r : Req) (s : State) : Host.Outcome State Fault Refusal :=
  .next (yokeCtl 0 true r s fun s t => (s.forward (some t) (pf r 1 1) (r.payload.drop 4), .hold))

/-- One entry of the status reply (Table YK-7). -/
def positionEntry (p : Position) : List Byte :=
  leBytes 1 p.state ++ [0] ++ leBytes 2 (p.delayQ / 4) ++ leBytes 2 (ofSigned 16 p.lastOffset) ++ [0, 0] ++ leBytes 4 p.layoutId
    ++ leBytes 4 p.need ++ leBytes 8 p.events

def execYokeCtlStatus (r : Req) (s : State) : Host.Outcome State Fault Refusal :=
  .next (yokeCtl 1 true r s fun s _ =>
    (s.modYoke fun y => { y with positions := y.positions.map fun p => { p with events := 0 } },
      .done stOk ([1, 0, 0, 0] ++ s.yoke.positions.flatMap positionEntry)))

def execYokeCtlRelease (r : Req) (s : State) : Host.Outcome State Fault Refusal :=
  .next (yokeCtl 2 true r s fun s t => (s.command .release (pf r 1 1) [] 0 (some t), .hold))

def execYokeCtlRerange (r : Req) (s : State) : Host.Outcome State Fault Refusal :=
  .next (yokeCtl 3 true r s fun s _ =>
    ((s.modPos (pf r 1 1) fun p => { p with rerange := true }).startRanging (pf r 1 1), .done stOk (leBytes 1 3 ++ leBytes 1 (pf r 1 1) ++ [0, 0])))

end Sys2Proof.Machine
end

