-- ==== Sys2Proof/Machine/YokeMember.lean ====
section
/-! DEFINITION. The yoke link in a member: markers and repeating, command frames, segments, join requests, forwarding,
leaving, and running as an orphan (10 R335, R339, R341 to R346, R355, R358, R361 to R368, R378 to R380). -/

namespace Sys2Proof.Machine

/-! ### Membership -/

/-- The number that the wiring gives the member: the hop count it receives plus 1 (R335). -/
def State.ownNumber (s : State) : Nat := match s.yoke.hop with
  | some h => h + 1
  | none => 0xFF

/-- Whether the member seeks a join (Table YK-10). -/
def State.seeks (s : State) : Bool := s.flag nYOKE 0 0 && s.flag nYOKE 0 1 && s.pw.detach == .none && !s.boot.legacy

/-- A new table where the member's position changes (03 Table SX-10). -/
def State.moveTo (s : State) (position : Nat) : State :=
  let same := s.yoke.position == position
  let s := s.modYoke fun y => { y with position }
  if same || !s.ready then s else s.newTable

/-- The member is no longer joined: its D_k is 0 until it is ranged again, and a request to leave is answered (R363, R365). -/
def State.dropOut (s : State) : State :=
  let t := s.yoke.leaveTicket
  let s := s.moveTo 0xFF
  let s := s.modYoke fun y => { y with
    linkState := if s.seeks then 3 else 0
    partingQ := y.delayQ
    delayQ := 0
    trim := 0
    grant := none
    echo := none
    leaving := false
    claim := false
    agreed := none
    cutoffPassed := false
    leaveTicket := none
    beacons := 0
    attempts := 0
    txOff := 0
    rxBuf := [] }
  (s.completeOpt t stOk [4, 0, 0, 0]).fixAlone

/-- A joined member begins to leave: its next segment carries flag [2] (R365). -/
def State.startLeaving (s : State) (ticket : Option Ticket) : State :=
  if s.yoke.linkState == 5 || s.yoke.linkState == 4 then s.modYoke fun y => { y with leaving := true, leaveTicket := ticket }
  else s.completeOpt ticket stOk [4, 0, 0, 0]

def execYokeCtlLeave (r : Req) (s : State) : Host.Outcome State Fault Refusal :=
  .next (yokeCtl 4 false r s fun s t => (s.startLeaving (some t), .hold))

/-! ### Markers (R335, R344, R361, R366, R368) -/

/-- The distance in ticks from a marker's arrival to the capture line: 10 000 ns − D_k (R344). -/
def lineTicks (delayQ : Nat) : Nat := (40000 - delayQ) * 3 / 100

/-- Whether the member repeats what it hears on UP RX out of DN TX (R335); a fenced one does until the next period boundary (R365). -/
def State.repeats (s : State) : Bool := s.isMember && s.yokeUp && s.yoke.repeating

/-- A marker arrives: it is repeated with its hop incremented, it places the capture line, and its hop gives the position.
A changed hop makes the member leave and rejoin; an orphan seeks again (R335, R344, R366, R368). -/
def execMarkerReceived (m : Marker) (t : Stamp) (s : State) : Host.Outcome State Fault Refusal :=
  -- a fenced member repeats until the next period boundary (R365)
  if !s.isMember || !s.yokeUp || (s.yoke.fence.isSome && !s.yoke.repeating) then .next s
  else
    let s := s.at t.toNat
    let s := if s.yoke.repeating then s.modYoke fun y => { y with
        out := markerSymbol m.commitPoint :: markerBytes ((m.hop.toNat + 1) % 256) m.flags.toNat m.period.toNat
        cmdOut := [] } else s
    if !m.crcOk then .next s
    else
      let h := m.hop.toNat
      let beacon := bitAt m.flags.toNat 0
      let moved := s.yoke.hop.any (· != h)
      let s := if moved && (s.yoke.linkState == 4 || s.yoke.linkState == 5) then s.dropOut else s
      let s := s.modYoke fun y => { y with
        hop := some h
        markerSeen := t.toNat
        markerPeriod := m.period.toNat
        beacon
        beacons := y.beacons + b2n beacon
        orphan := false
        scanning := false
        linkState := if y.linkState == 6 || (y.linkState == 0 && s.seeks) then 3 else y.linkState
        agreed := if m.commitPoint then y.agreed.map fun (id, d, ms, p, _) => (id, d, ms, p, some m.period.toNat) else y.agreed }
      let joined := s.yoke.linkState == 4 || s.yoke.linkState == 5
      .next (s.modTm fun x => { x with
        lineAt := some (t.toNat + lineTicks s.yoke.delayQ)
        linePeriod := if joined then some m.period.toNat else none })

/-- No marker for 250 ms, or for 250 ms after the mailboxes became ready: an orphan. Without a crystal it falls to
L1 on the RC (R368; 12 R436, R466; Table AR-7). -/
def execOrphanTimeout (s : State) : Host.Outcome State Fault Refusal :=
  if !s.isMember || !s.flag nYOKE 0 0 || s.yoke.orphan || !s.ready || s.pw.state != .run then .next s
  else
    let s := (s.at (max s.yoke.markerSeen (s.boot.readyFrom.getD 0) + ticksMs 250)).dropOut
    let s := (((s.modYoke fun y => { y with orphan := true, linkState := 6 }).yokeLog s.ownNumber 5).raise 33)
    let s := s.modTm fun x => { x with linePeriod := none }
    if s.clk.xtalOk then .next s
    else
      let s := s.fail 8 fun f => { f with orphan := true }
      .next (if s.clk.active < 3 then s.enterRc else s)

/-! ### Command frames (R339, R355, Table YK-3) -/

/-- A frame is addressed to this member: its own number, or every joined member. -/
def State.frameForMe (s : State) (f : Frame) : Bool :=
  f.crcOk && s.yoke.hop.isSome && (f.dest.toNat == s.ownNumber || (f.dest == 0xFF && s.yoke.linkState == 5))

/-- The seq remembered and acknowledged with an answer. -/
def State.executedFrame (s : State) (f : Frame) (answer : Nat) : State :=
  s.modYoke fun y => { y with
    executed := lastN 8 (y.executed ++ [(f.seq.toNat, answer)])
    ack := some f.seq.toNat
    answer
    busy := false }

/-- A frame heard on UP RX goes out of DN TX again as it came (R335); its CRC does not hold where the row says so. -/
def State.repeatFrame (s : State) (kind : CmdKind) (f : Frame) (payload : List Byte) : State :=
  if !s.repeats then s
  else
    let b := frameBody kind f.dest.toNat f.seq.toNat payload
    s.modYoke fun y => { y with cmdOut := framed (b ++ leBytes 4 (if f.crcOk then crc32 b else Config.damagedCrc b)) }

/-- A frame is repeated; one that passes its CRC is executed once, and a seq of the last eight is acknowledged again with its answer
(R335, R339, R355). -/
def State.frame (s : State) (kind : CmdKind) (f : Frame) (payload : List Byte) (run : State → State × Nat) : State :=
  let s := s.repeatFrame kind f payload
  if !s.isMember || !s.yokeRuns || !s.frameForMe f then s
  else match s.yoke.executed.find? (·.1 == f.seq.toNat) with
    | some (q, a) => s.modYoke fun y => { y with ack := some q, answer := a, busy := false }
    | none => let (s, a) := run s; s.executedFrame f a

/-- The length of the message that begins a buffer, where its header is complete. -/
def messageLength (b : List Byte) : Option Nat := if b.length < 16 then none else some (16 + leAt b 10 2)

/-- An MBX fragment: a full channel acknowledges it as busy; the last byte of a request puts it on MBX3 (R357, R358). -/
def execMbx (f : Frame) (fragment : List Byte) (s : State) : Host.Outcome State Fault Refusal :=
  let fresh := !(s.yoke.executed.any (·.1 == f.seq.toNat))
  if s.isMember && s.yokeRuns && s.frameForMe f && fresh && !s.accepts 3 then
    .next ((s.repeatFrame .mbx f fragment).modYoke fun y => { y with ack := some f.seq.toNat, answer := 0, busy := true })
  else
    .next (s.frame .mbx f fragment fun s =>
      let b := s.yoke.rxBuf ++ fragment
      match messageLength b with
      | some n =>
        if n ≤ b.length then ((s.modYoke fun y => { y with rxBuf := [] }).modChan 3 fun c => { c with rx := c.rx ++ [b.take n] }, 0)
        else (s.modYoke fun y => { y with rxBuf := b }, 0)
      | none => (s.modYoke fun y => { y with rxBuf := b }, 0))

/-- JOIN_ACCEPT names the member by its serial number: it takes the lead's period number and the grant (R362, R17). -/
def execJoinAccept (f : Frame) (serial : BitVec 64) (g : GrantPlan) (s : State) : Host.Outcome State Fault Refusal :=
  let payload := leBytes 8 serial.toNat ++ (Grant.ofPlan g).bytes
  if serial.toNat != s.boot.serial then .next (s.repeatFrame .joinAccept f payload)
  else .next (s.frame .joinAccept f payload fun s =>
    ((s.modYoke fun y => { y with linkState := if y.linkState == 3 then 4 else y.linkState, grant := some (Grant.ofPlan g) }).modTm fun x =>
      { x with linePeriod := if x.lineAt.isSome then some s.yoke.markerPeriod else x.linePeriod }, 0))

/-- RANGE: an echo t_ta after the frame (R346). -/
def execRange (f : Frame) (tTaNs : BitVec 32) (s : State) : Host.Outcome State Fault Refusal :=
  .next (s.frame .range f (leBytes 4 tTaNs.toNat) fun s => (s.modYoke fun y => { y with echo := some tTaNs.toNat }, 0))

/-- SET_DELAY: D_k; a joining member is joined with it, and its table takes a new generation (R344, Table YK-8). -/
def execSetDelay (f : Frame) (d : BitVec 32) (s : State) : Host.Outcome State Fault Refusal :=
  .next (s.frame .setDelay f (leBytes 4 d.toNat) fun s =>
    let s := s.modYoke fun y => { y with delayQ := d.toNat, linkState := if y.linkState == 4 then 5 else y.linkState }
    let s := if s.yoke.linkState == 5 then s.moveTo s.ownNumber else s
    (if s.lev.fail.orphan then s.fail 8 fun x => { x with orphan := false } else s, 0))

/-- TRIM: added to D_k at the next capture line (R348). -/
def execTrim (f : Frame) (correction : BitVec 16) (s : State) : Host.Outcome State Fault Refusal :=
  .next (s.frame .trim f (leBytes 2 correction.toNat) fun s => (s.modYoke fun y => { y with trim := y.trim + correction.toInt }, 0))

/-- GRANT: recorded until its apply period (R370). -/
def execGrant (f : Frame) (g : GrantPlan) (s : State) : Host.Outcome State Fault Refusal :=
  .next (s.frame .grant f (Grant.ofPlan g).bytes fun s => (s.modYoke fun y => { y with grant := some (Grant.ofPlan g) }, 0))

/-- QUARANTINE: the member stops sending segments and becomes unjoined (R352). -/
def execQuarantine (f : Frame) (s : State) : Host.Outcome State Fault Refusal := .next (s.frame .quarantine f [] fun s => (s.dropOut, 0))

/-- RELEASE: the member leaves and rejoins (R356). -/
def execRelease (f : Frame) (s : State) : Host.Outcome State Fault Refusal := .next (s.frame .release f [] fun s => (s.dropOut, 0))

/-- REPLY_RESEND: the reply goes on from the offset that the lead missed (R358). -/
def execReplyResend (f : Frame) (offset : BitVec 16) (s : State) : Host.Outcome State Fault Refusal :=
  .next (s.frame .replyResend f (leBytes 2 offset.toNat) fun s => (s.modYoke fun y => { y with txOff := offset.toNat }, 0))

/-- REPLY_DONE: the lead holds the whole reply, and the member discards it (R358). -/
def execReplyDone (f : Frame) (s : State) : Host.Outcome State Fault Refusal :=
  .next (s.frame .replyDone f [] fun s => ((s.collect 3).modYoke fun y => { y with txOff := 0 }, 0))

/-- What refuses a FALLOW with BUSY: a shadow, a pending COMMIT, a fenced unit, a staging or a swap, a DETACH (11 R401). -/
def State.fallowBusy (s : State) : Bool :=
  s.mb.shadow.isSome || s.mb.commit.isSome || s.anyFence || s.upd.staging.isSome || s.upd.swap.isSome || s.pw.detach != .none
    || s.pw.fallow.isSome

/-- FALLOW_PROPOSE is answered ACCEPT, or REFUSE where the verb would be refused (R378; 11 R401). -/
def execFallowPropose (f : Frame) (id : Byte) (deep : Bool) (sleepMs : BitVec 32) (s : State) : Host.Outcome State Fault Refusal :=
  .next (s.frame .fallowPropose f (leBytes 1 id.toNat ++ leBytes 1 (b2n deep) ++ leBytes 4 sleepMs.toNat) fun s =>
    if s.fallowBusy then (s, 2)
    else (s.modYoke fun y => { y with
      agreed := some (id.toNat, deep, sleepMs.toNat, s.tm.period, none)
      cutoffPassed := false
      claim := false
      latched := none }, 1))

/-- FALLOW_COMMIT names P_c (R378). -/
def execFallowCommit (f : Frame) (id : Byte) (pc : Period) (s : State) : Host.Outcome State Fault Refusal :=
  .next (s.frame .fallowCommit f (leBytes 1 id.toNat ++ leBytes 6 pc.toNat) fun s => (s.modYoke fun y => { y with
    agreed := match y.agreed with
      | some (i, d, ms, p, o) => if i == id.toNat then some (i, d, ms, p, some pc.toNat) else some (i, d, ms, p, o)
      | none => none }, 0))

/-- FALLOW_ABORT drops the agreement that it names (R378). -/
def execFallowAbort (f : Frame) (id : Byte) (s : State) : Host.Outcome State Fault Refusal :=
  .next (s.frame .fallowAbort f (leBytes 1 id.toNat) fun s => (s.modYoke fun y => { y with
    agreed := y.agreed.filter (·.1 != id.toNat)
    claim := false
    cutoffPassed := false }, 0))

/-- An ACCEPT lapses after 256 periods without FALLOW_COMMIT (R378). -/
def execAcceptLapse (s : State) : Host.Outcome State Fault Refusal :=
  match s.yoke.agreed with
  | some (_, _, _, p, none) =>
    .next (if 256 ≤ periodsFrom p s.tm.period then s.modYoke fun y => { y with agreed := none, claim := false } else s)
  | _ => .next s

/-- No marker for P_c within 1 µs of its expected arrival: the member enters at the line that it expects (R380). -/
def execCommitMarkerMissing (s : State) : Host.Outcome State Fault Refusal :=
  match s.yoke.agreed with
  | some (_, _, _, _, some pc) =>
    .next (if s.tm.lineAt.isNone && s.tm.lineSeen && addPeriod s.tm.period 1 == pc then s.modTm fun x => { x with
      lineAt := some (x.capture + s.periodTicks)
      linePeriod := some pc } else s)
  | _ => .next s

/-! ### SEGMENT_SEND (R341, R346, R365, R379; 14 Table HW-2) -/

/-- Whether a body was assembled for the period and fits the grant (R341, R343). -/
def State.hasBody (s : State) : Bool :=
  match s.sheaf.assembly, s.yoke.applied with
  | some a, some g => a.done && s.yoke.linkState == 5 && decide (s.sheaf.layout.bodySize ≤ (nth (0, 0) g.slots (s.ownNumber - 1)).2)
  | _, _ => false

/-- Where the body lies in the buffer that the assembler has written. -/
def State.bodyPiece (s : State) : Piece := ⟨.read, s.bufferAt s.nextBuffer + headerSize s.boot.legacy, s.sheaf.layout.bodySize⟩

/-- The body of the assembled buffer, read through holding 4 (R343). A fault truncates it before the faulting element, and the segment
with it: false (R387). -/
def State.readBody (s : State) : State × List Byte × Bool :=
  let x := s.bodyPiece
  match s.access .yoke [x] with
  | (t, .done) => (t, t.virtRead 4 x.vaddr x.len, true)
  | (t, _) => (t, s.virtRead 4 x.vaddr ((s.firstFault .yoke 0 0 [x]).elim 0 fun f => f.vaddr - x.vaddr), false)

/-- The next fragment of the reply at the head of MBX3's queue, with its offset (R358). -/
def State.replyFragment (s : State) : Nat × List Byte :=
  match (nth {} s.mb.chans 3).replies.head? with
  | some r => (s.yoke.txOff, (r.bytes.drop s.yoke.txOff).take 64)
  | none => (0, [])

/-- Events raised since the previous segment, masked by yoke_forward. -/
def State.forwardedEvents (s : State) : Nat := s.ev.up &&& s.reg64 nEVENTS 8

/-- The header of a segment (Table YK-4): `body` says that a body follows, and the fragment has an offset and a length. -/
def State.segmentHeader (s : State) (body : Bool) (off len : Nat) : List Byte :=
  let y := s.yoke
  let flags := b2n y.ack.isSome + 2 * b2n y.claim + 4 * b2n y.leaving + 8 * b2n y.busy + 16 * b2n (!body)
  leBytes 1 s.ownNumber ++ leBytes 1 flags ++ leBytes 2 (y.ack.getD 0) ++ leBytes 1 y.answer ++ leBytes 1 len
    ++ leBytes 2 off ++ leBytes 4 s.sheaf.layout.id ++ leBytes 4 (needOf s.reg s.sheaf.layout) ++ leBytes 8 s.forwardedEvents

/-- The bytes of a segment between its start and end symbols (Table YK-4), and whether it is whole: one whose body is truncated ends
there (R387). An echo is a header alone. -/
def State.segmentBytes (s : State) (echo : Bool) : State × List Byte × Bool :=
  let (off, frag) := if echo then (0, []) else s.replyFragment
  let h := s.segmentHeader (!echo && s.hasBody) off frag.length
  let (s, body, whole) := if !echo && s.hasBody then s.readBody else (s, [], true)
  let b := h ++ body ++ frag
  if whole then (s, b ++ leBytes 4 (crc32 b), true) else (s, h ++ body, false)

/-- The D_k with which the member transmits. -/
def State.sendQ (s : State) : Nat := if s.yoke.linkState == 4 || s.yoke.linkState == 5 then s.yoke.delayQ else s.yoke.partingQ

/-- The instant at which the first symbol leaves UP TX: for an echo t_ta after the RANGE frame, which follows the marker
by 1 000 ns; else s_k − D_k after the capture line. -/
def State.segmentAt (s : State) : Nat :=
  match s.yoke.echo, s.yoke.applied with
  | some t, _ => s.yoke.markerSeen + nsTicks (t + 1000)
  | none, some g => s.tm.capture + transmitTicks g s.ownNumber s.sendQ
  | none, none => s.tm.now

/-- Whether an instant, in units of 0.25 ns after the capture line, lies inside position j's window as a point of delay d sees it, or
inside the join window (R340, R342). -/
def insideWindow (limitNs : Nat) (g : Grant) (d : Int) (j : Nat) (at' : Int) : Bool :=
  let b : Int := g.balkNs
  let (st, n) := nth (0, 0) g.slots (j - 1)
  let lo : Int := 4 * st - 2 * b - d
  let hi : Int := 4 * (st + (n + 94) * 100) + 2 * b - d
  let first : Int := (g.slots.filter (·.1 != 0)).foldl (fun (m : Int) x => min m x.1) (limitNs - 1000 + g.balkNs)
  let jo : Int := 4 * (first - b - 12000) - d
  ((n != 0 || st != 0) && lo ≤ at' && at' ≤ hi) || (jo ≤ at' && at' ≤ jo + 48000)

/-- The bytes of the member's own segment that leave inside its window, when it starts so many ns late (R342). -/
def State.ownWindow (s : State) (late : Nat) (bs : List Byte) : List Byte :=
  match s.yoke.applied with
  | none => bs
  | some g =>
    let st : Nat := (nth (0, 0) g.slots (s.ownNumber - 1)).1
    (bs.zipIdx.filter fun (_, i) => insideWindow (ticksNs s.limit) g s.sendQ s.ownNumber (4 * (st + late + 100 * i) - s.sendQ)).map (·.1)

/-- A joined member may still transmit while it leaves with its link disabled (R365). -/
def State.mayTransmit (s : State) : Bool :=
  s.lev.level == 3 && !s.boot.legacy && s.clocked && decide (s.clk.active < 3) && s.pw.prsntMet

/-- A member sends its segment: joined or joining in its slot, an echo after RANGE, and one more to acknowledge a frame that
made it leave (R339, R341). Harrow may drop, corrupt or delay it. -/
def execSegmentSend (s : State) : Host.Outcome State Fault Refusal :=
  let may := s.yoke.linkState == 4 || s.yoke.linkState == 5 || s.yoke.ack.isSome
  if !s.isMember || (s.yoke.fence.isSome && !s.yoke.leaving) || !s.mayTransmit || !may then .next s
  else
    let s := s.at s.segmentAt
    let echo := s.yoke.echo.isSome
    let (s, bs, whole) := s.segmentBytes echo
    let (off, frag) := if echo then (0, []) else s.replyFragment
    let (s, ps) := s.drawUnit 5 0 none (8 * bs.length)
    let drop := ps.any (·.cls == 0)
    let (s, bs, late) := ps.foldl (fun (s, bs, late) p =>
      if p.cls == 0 then (s.injected p.slot, bs, late)
      else if drop then (s, bs, late)
      else if p.cls == 1 || p.cls == 2 then (s.injected p.slot, flipBit bs p.bit, late)
      else if p.cls == 4 then (s.injected p.slot, bs, late + 10 * bits (s.hwReg p.slot 4) 0 8)
      else (s, bs, late)) (s, bs, 0)
    let bs := if whole then framed bs else 0xFB :: bs
    let out := if echo then bs else s.ownWindow late bs
    let leaves := s.yoke.leaving && !echo
    let cutoff := match s.yoke.agreed with
      | some (_, _, _, _, some pc) => addPeriod s.tm.period 1 == pc
      | _ => false
    let s := s.modYoke fun y => { y with
      segment := if drop then [] else out
      segmentDelay := late
      ack := none
      answer := 0
      busy := false
      claim := false
      echo := none
      txOff := off + frag.length
      cutoffPassed := y.cutoffPassed || (cutoff && !echo) }
    let s := s.modEv fun e => { e with up := 0 }
    .next (if leaves then s.dropOut else s)

/-! ### JOIN_REQUEST_SEND (R361, R363) -/

/-- The beacon, counted from 1, in which the next attempt goes: the (r + 1)-th one, then number 2 × (position − 1) + 1 of each
later group of 16. -/
def State.joinBeacon (s : State) : Nat :=
  if s.yoke.attempts = 0 then Config.backoff s.boot.serial s.tm.now % 16 + 1
  else 16 * s.yoke.attempts + 2 * (s.ownNumber - 1) + 1

/-- An unjoined member sends its join request 2 000 ns after the join window opens; the sender of the command vouches that the
beacon in progress is the chosen one, which the count of beacons heard bounds for later attempts. -/
def execJoinRequestSend (s : State) : Host.Outcome State Fault Refusal :=
  if !s.isMember || !s.yokeRuns || !s.ready || s.yoke.linkState != 3 || !s.yoke.beacon || 7 < s.ownNumber
      || (s.yoke.attempts != 0 && s.yoke.beacons != s.joinBeacon) then .next s
  else
    let s := s.at (s.tm.capture + nsTicks (joinOpen s.reg + 2000))
    let b := leBytes 1 s.ownNumber ++ List.replicate 7 0 ++ leBytes 4 s.sheaf.layout.id
      ++ leBytes 4 (needOf s.reg s.sheaf.layout) ++ leBytes 8 0 ++ leBytes 8 s.boot.serial
    .next (s.modYoke fun y => { y with segment := framed (b ++ leBytes 4 (crc32 b)), segmentDelay := 0, attempts := y.attempts + 1 })

/-! ### DN_RX_FORWARD (R335, R342) -/

/-- Traffic on DN RX: only the bytes inside the window pass; a byte takes 100 ns. A signal powers domain 117 again (11
R399). -/
def execDnRxForward (position : Fin 7) (atNs : Int) (bytes : List Byte) (s : State) : Host.Outcome State Fault Refusal :=
  let s := s.modPw fun p => { p with dnRxIdle := false }
  if !s.repeats then .next s
  else match s.yoke.applied with
    | none => .next (s.modYoke fun y => { y with upOut := [] })
    | some g =>
      let keep := bytes.zipIdx.filter fun (_, i) => insideWindow (ticksNs s.limit) g s.yoke.delayQ (position.val + 1) (4 * (atNs + 100 * i))
      .next (s.modYoke fun y => { y with upOut := keep.map (·.1) })

/-- No signal on DN RX for 250 ms: domain 117 is gated (11 R399, Table PW-4). -/
def execDnRxIdle (s : State) : Host.Outcome State Fault Refusal :=
  .next (if s.clocked then s.modPw fun p => { p with dnRxIdle := true } else s)

/-- A yoke PHY failure takes the device to L2 (01 Table AR-7); in legacy mode there is no yoke link. -/
def execYokePhyFailure (s : State) : Host.Outcome State Fault Refusal :=
  .next (if s.boot.legacy || !s.clocked then s else s.fail 12 fun f => { f with yoke := true })

end Sys2Proof.Machine
end

