-- ==== Sys2Proof/Machine/Apply.lean ====
section
/-! DEFINITION. What the application of a checked set does beyond replacing words: the new layout and epoch, and what each
unit does when its fields change (02 R72, R77, R79; 03 R110, R114; 09 R307; 10 R365, R370; 11 R429, R430; 12 R434; 14
R508). -/

namespace Sys2Proof.Machine

/-- Words of a table put into the applied set. -/
def State.putWords (s : State) (words : Tab) (keys : List Nat) : State :=
  keys.foldl (fun s k => s.setReg (k / 1024) (k % 1024) (Tab.get resetWord words k)) s

/-- An enable bit that the new set clears. -/
def clears (o s : State) (noun word bit : Nat) : Bool := o.flag noun word bit && !s.flag noun word bit

/-- An enable bit that the new set changes. -/
def toggles (o s : State) (noun word bit : Nat) : Bool := o.flag noun word bit != s.flag noun word bit

/-! ### The set as a whole -/

/-- worst_case_end and min_slack of every furrow (04 Table DR-2). -/
def State.measureFurrows (s : State) : State :=
  s.modDrill fun d => { d with
    worstEnd := (List.range 9).map (worstEndOf s.reg)
    minSlack := (List.range 9).map (minSlackOf s.reg s.limit) }

/-- The layout of the applied set comes into force; the next sheaf assembled is the first of its epoch (03 R110; 04 Table
DR-3). -/
def State.takeLayout (s : State) : State :=
  let l := s.layoutFor s.reg
  s.modSheaf fun h => { h with layout := l, ticks := assemblyTicks l, newEpoch := true }

/-! ### Units -/

/-- The regions of a holding in a set. -/
def regionsOf (w : Words) (h : Nat) : List Region := ((List.range 64).map (regionOf w)).filter fun g => g.count != 0 && g.holding == h

/-- Translations of a changed mapping leave the caches: of a holding whose regions change, and of the holdings that the steward maps
anew (07 R238). -/
def State.applyMap (o s : State) : State :=
  s.modMem fun m => { m with caches := m.caches.zipIdx.map fun (l, h) =>
    if l.isEmpty || (h != 0 && h != 3 && h != 5 && h < 10 && regionsOf o.reg h == regionsOf s.reg h) then l else [] }

/-- The capture source changed: the line at which SYNC_IN becomes the source is a synchronised line (01 R24). -/
def State.applyPeriod (o s : State) : State :=
  if o.fld nPERIOD 0 16 2 != s.fld nPERIOD 0 16 2 then s.modTm fun t => { t with edge := none, freeRun := false } else s

/-- A port under a new set: a held chain is of the old one (04 R134), and a port turned off ends its slave transaction. -/
def CspPort.newSet (c : CspPort) (off : Bool) : CspPort :=
  { c with
    chain := c.chain.map fun h => { h with old := true }
    slave := if off then none else c.slave }

/-- A SENT channel under a new set: one whose enable changes starts afresh. Where its words change, a frame in flight keeps the old ones,
and where its tick does, the first calibration pulse after it has no previous one (06, Collisions). -/
def SentChan.newSet (c : SentChan) (o s : State) (k : Nat) : SentChan :=
  if toggles o s (nSENT k) 0 0 then { fence := c.fence, lastEnd := s.tm.now, cal := c.cal }
  else if (List.range 3).all fun i => o.reg (nSENT k) i == s.reg (nSENT k) i then c
  else
    { c with
      old := some (s.tm.now, c.prevCal, (List.range 3).map (o.reg (nSENT k)))
      prevCal := if sentTick o.reg k == sentTick s.reg k then c.prevCal else none }

/-- Ports, receivers and edge inputs; a disabled bank holds no open interval. -/
def State.applyInputs (o s : State) : State :=
  { s with
    csp := s.csp.zipIdx.map fun (c, k) => c.newSet (clears o s (nCSP k) 0 0)
    sent := s.sent.zipIdx.map fun (c, k) => c.newSet o s k
    edge := s.edge.zipIdx.map fun (i, k) => if clears o s (nEDGE (k / 8)) 0 (k % 8) then { i with since := none } else i }

/-- A stream allocation that the new set needs larger is carved anew, and the old run is released (09 R307). At a start the
endpoints take theirs in ascending number instead (R306). -/
def State.recarve (s : State) : State :=
  if !s.ready then s
  else match carveStreams s.mem.pool (streamNeed (s.streamCfg 0)) (streamNeed (s.streamCfg 1)) with
    | some pool => s.modMem fun m => { m with pool }
    | none => s

/-- USB: a cleared enable releases the pull-up; hub power follows allow_power. -/
def State.applyUsb (o s : State) : State :=
  let s := if clears o s nUSB 0 0 then s.dropUsb else s
  s.recarve.settleHub

/-- A cleared enable of the Thresher ends every job with reason 2 (08 R295). -/
def State.applyThresher (o s : State) : State := if clears o s nTHRESHER 0 0 then s.endJobs 2 else s.dispatch

/-- The yoke link: an enable of 0 stops a lead's markers and its forwarded requests, and makes a member leave; a position
that is no longer planned is no longer joined (10 R365, Table YK-10; 14 R508). -/
def State.applyYoke (o s : State) : State :=
  if s.boot.legacy then s
  else if s.isLead then
    let off := clears o s nYOKE 0 0
    let s := s.each ((List.range 7).map (· + 1)) fun s k =>
      let p := s.pos k
      if off then (s.dropForwards k stAborted).unjoin k (s.unjoinedState k)
      else if !s.planned k && o.planned k then s.unjoin k 0
      else if s.planned k && (p.state == 0 || p.state == 8) then s.modPos k fun p => { p with state := 1 }
      else if p.state == 3 || p.state == 4 then
        s.modPos k fun p => { p with state := if p.layoutId == s.reg nYOKE (12 + 4 * (k - 1)) then 3 else 4 }
      else s
    if off then s.modYoke fun y => { y with markersOn := false } else s
  else if clears o s nYOKE 0 0 then s.startLeaving none
  else if s.yoke.linkState == 0 && s.seeks then s.modYoke fun y => { y with linkState := 3, beacons := 0, attempts := 0 }
  else s

/-- The settings copied to domains 152 and 153 (11 R429). Under framing v1 rtc_alarm is armed only by its low word (R430). -/
def State.copyAon (s : State) : State :=
  s.modPw fun p => { p with
    aonWakeMask := s.fld nPOWER 9 0 11
    aonRtcAlarm := if p.rtcDisarmed then 0 else s.reg64 nPOWER 16
    aonAlmEnable := s.fld nPOWER 18 0 4
    aonAlmHigh := s.fld nPOWER 18 4 4
    almLost := false }

/-- The RTC loaded (11 Table PW-11, R430). -/
def State.loadRtc (s : State) : State :=
  s.modPw fun p => { p with rtc := s.reg64 nPOWER 14, rtcAt := s.tm.now, rtcValid := true }

/-- POWER: rtc_load where the set changes it, and the copies; `low` names the word written under framing v1. -/
def State.applyPower (o s : State) (v1Word : Option Nat) : State :=
  let s := match v1Word with
    | some w =>
      if w = 14 then s.loadRtc
      else s.modPw fun p => { p with rtcDisarmed := if w = 17 then true else if w = 16 then false else p.rtcDisarmed }
    | none => if o.reg64 nPOWER 14 != s.reg64 nPOWER 14 then s.loadRtc else s
  s.copyAon

/-- CLOCK: another root_source is taken hitlessly (12 R434, R441). -/
def State.applyClock (o s : State) : State :=
  let n := s.fld nCLOCK 0 0 2
  if o.fld nCLOCK 0 0 2 != n then s.rereference n else s

/-- Every unit after a change of the applied words. -/
def State.applyUnits (o s : State) (v1Word : Option Nat) : State :=
  let s := State.applyMap o s
  let s := State.applyPeriod o s
  let s := State.applyInputs o s
  let s := State.applyUsb o s
  let s := State.applyThresher o s
  let s := State.applyYoke o s
  let s := State.applyPower o s v1Word
  (State.applyClock o s).settleInt

/-- A set applied: its words, the layout, the epoch and the units; the table takes a new generation (02 R72, R77; 03 R114). A
halt after a hard fault ends (01 Table AR-7). -/
def State.applySet (s : State) (words : Tab) (keys : List Nat) (epoch : Nat) : State :=
  let o := s
  let s := ((s.putWords words keys).takeLayout.modMb fun m => { m with epoch }).measureFurrows
  let s := State.applyUnits o s none
  let s := if s.ready then s.newTable else s
  if s.lev.fail.drill then (s.modDrill fun d => { d with dead := false }).fail 10 fun f => { f with drill := false } else s

/-- One word applied under framing v1 (01 R48): the same, with an epoch that advances (02 R72). -/
def State.applyWord (s : State) (key value : Nat) : State :=
  let o := s
  let s := (((s.setReg (key / 1024) (key % 1024) value).takeLayout).modMb fun m => { m with epoch := nextEpoch m.epoch }).measureFurrows
  let s := State.applyUnits o s (if key / 1024 = nPOWER then some (key % 1024) else none)
  if s.ready then s.newTable else s

end Sys2Proof.Machine
end

