-- ==== Sys2Proof/Machine/Sha256.lean ====
section
/-! DEFINITION. SHA-256 (FIPS 180-4), by which the boot ROM and the steward firmware check an image (12 R455 to R457). The
constants are computed from the primes as the standard defines them. -/

namespace Sys2Proof.Machine

/-- The first n primes found above those already listed, by trial division; `fuel` numbers are tried. -/
def primesFrom : Nat → Nat → List Nat → List Nat
  | 0, _, ps => ps
  | fuel + 1, c, ps => primesFrom fuel (c + 1) (if ps.all (c % · != 0) then ps ++ [c] else ps)

/-- The 64 primes below 312. -/
def shaPrimes : List Nat := primesFrom 310 2 []

/-- The greatest r below 2^bits, added to `r`, whose k-th power is at most n. -/
def rootBelow (k n : Nat) : Nat → Nat → Nat
  | 0, r => r
  | b + 1, r => rootBelow k n b (if (r + 2 ^ b) ^ k ≤ n then r + 2 ^ b else r)

/-- The first 32 bits of the fractional part of the k-th root of p. -/
def rootFraction (k p : Nat) : Nat := rootBelow k (p * 2 ^ (32 * k)) 38 0 % 2 ^ 32

/-- The initial hash value, from square roots of the first eight primes. -/
def shaStart : List Nat := (shaPrimes.take 8).map (rootFraction 2)

/-- The constant of each of the 64 rounds, from cube roots. -/
def shaConstants : List Nat := shaPrimes.map (rootFraction 3)

/-- The exclusive or of a word turned right by two amounts and turned or shifted right by a third. -/
def mix (x a b c : Nat) (turn : Bool) : Nat :=
  let y := x * (2 ^ 32 + 1)
  (y >>> a) % 2 ^ 32 ^^^ (y >>> b) % 2 ^ 32 ^^^ (if turn then (y >>> c) % 2 ^ 32 else x >>> c)

/-- The rounds of one block. `w` holds the sixteen words of the schedule from the present round on, `v` the working variables
a to h; each round takes one word and adds one to the end. -/
def shaRounds : List Nat → List Nat → List Nat → List Nat
  | [], _, v => v
  | k :: ks, w, v =>
    let x (i : Nat) := nth 0 v i
    let y (i : Nat) := nth 0 w i
    let choice := (x 4 &&& x 5) ||| ((2 ^ 32 - 1 - x 4) &&& x 6)
    let majority := (x 0 &&& (x 1 ||| x 2)) ||| (x 1 &&& x 2)
    let t := x 7 + mix (x 4) 6 11 25 true + choice + k + y 0
    let next := (y 0 + mix (y 1) 7 18 3 false + y 9 + mix (y 14) 17 19 10 false) % 2 ^ 32
    shaRounds ks (w.drop 1 ++ [next])
      ([(t + mix (x 0) 2 13 22 true + majority) % 2 ^ 32] ++ v.take 3 ++ [(x 3 + t) % 2 ^ 32] ++ (v.drop 4).take 3)

/-- The sixteen words of a block, most significant byte first. -/
def shaWords (bs : List Byte) : List Nat := (List.range 16).map fun i => ofLe (slice bs (4 * i) 4).reverse

/-- The hash value after n blocks. -/
def shaBlocks (h : List Nat) : Nat → List Byte → List Nat
  | 0, _ => h
  | n + 1, bs => shaBlocks (List.zipWith (fun a b => (a + b) % 2 ^ 32) h (shaRounds shaConstants (shaWords bs) h)) n (bs.drop 64)

/-- The SHA-256 hash of a message, as 32 bytes: a bit 1, zeros to 8 bytes short of a whole block, and the length in bits. -/
def sha256 (bs : List Byte) : List Byte :=
  let blocks := (bs.length + 72) / 64
  let padded := slice (bs ++ [0x80]) 0 (64 * blocks - 8) ++ (leBytes 8 (8 * bs.length)).reverse
  (shaBlocks shaStart blocks padded).flatMap fun x => (leBytes 4 x).reverse

end Sys2Proof.Machine
end

