-- ==== Sys2Proof/Machine/Boot.lean ====
section
/-! DEFINITION. Starts of the steward: the slot state and the images, the boot ROM's choice, the autostart set, the moment at
which the mailboxes become ready, the watchdog, RESET_N, and the autostart START (12 R450 to R466; 14 R509, R518 to R520; 11
R418; 05 R185). -/

namespace Sys2Proof.Machine

/-! ### Slot state (14 R509) -/

/-- A slot state copy (Table HW-7). -/
structure SlotState where
  active : Nat := 1
  trial : Bool := false
  stateA : Nat := 0
  stateB : Nat := 0
  deriving DecidableEq, Repr

def SlotState.get (x : SlotState) (slot : Nat) : Nat := if slot = 1 then x.stateA else x.stateB

def SlotState.set (x : SlotState) (slot v : Nat) : SlotState := if slot = 1 then { x with stateA := v } else { x with stateB := v }

/-- Offset of copy 0 or 1. -/
def slotCopyAt (i : Nat) : Nat := 0x1000 * i

/-- A copy as stored, with its sequence number, where its magic is correct and its CRC matches. -/
def State.slotCopy (s : State) (i : Nat) : Option (Nat × SlotState) :=
  let b := s.nor (slotCopyAt i) 64
  if b.take 4 == [0x4A, 0x4E, 0x53, 0x4C] && leAt b 60 4 == crc32 (slice b 8 52) then
    some (leAt b 4 4, { active := leAt b 8 1, trial := leAt b 9 1 == 1, stateA := leAt b 10 1, stateB := leAt b 11 1 })
  else none

/-- The valid copy with the higher sequence number, and the place and sequence of the next save. -/
def State.slotChoice (s : State) : Option SlotState × Nat × Nat :=
  match s.slotCopy 0, s.slotCopy 1 with
  | some (a, x), some (b, y) => if a ≤ b then (some y, 0, b + 1) else (some x, 1, a + 1)
  | some (a, x), none => (some x, 1, a + 1)
  | none, some (b, y) => (some y, 0, b + 1)
  | none, none => (none, 0, 1)

/-- The slot state in force; where it is blank or unreadable slot A is active (12 R456). -/
def State.slotState (s : State) : SlotState := s.slotChoice.1.getD {}

/-- Offset of an image slot: 1 slot A, 2 slot B (05 Table CS-7). -/
def imageAt (slot : Nat) : Nat := if slot = 2 then 0x500000 else 0x100000

/-- build_id of a slot's image header, 0 where there is no header. -/
def State.buildIdOf (s : State) (slot : Nat) : Nat :=
  let h := s.nor (imageAt slot) 12
  if h.take 4 == [0x4A, 0x4E, 0x46, 0x57] then leAt h 8 4 else 0

/-- The 64 bytes of a copy. -/
def slotBytes' (seq : Nat) (x : SlotState) (idA idB : Nat) : List Byte :=
  let b := leBytes 1 x.active ++ leBytes 1 (b2n x.trial) ++ leBytes 1 x.stateA ++ leBytes 1 x.stateB ++ leBytes 4 idA ++ leBytes 4 idB
    ++ List.replicate 40 0xFF
  [0x4A, 0x4E, 0x53, 0x4C] ++ leBytes 4 seq ++ b ++ leBytes 4 (crc32 b)

/-- The slot state saved: the copy with the older sequence number is erased and written. -/
def State.saveSlots (s : State) (x : SlotState) : State :=
  let (_, i, seq) := s.slotChoice
  let bs := slotBytes' (seq % 2 ^ 32) x (s.buildIdOf 1) (s.buildIdOf 2)
  s.modMem fun m => { m with nor := Memory.writeList flashEmpty (Memory.clearRange m.nor (slotCopyAt i) 0x1000) (slotCopyAt i) bs }

/-! ### Images (R455, R456) -/

/-- The checks of R456 on the image of a slot, as the codes of a BOOT_IMAGE record (13 Table AL-3): 0 where all hold. -/
def State.imageCode (s : State) (slot : Nat) : Nat :=
  let h := s.nor (imageAt slot) 256
  let boot := leAt h 12 4
  let len := leAt h 16 4
  if h.take 5 != [0x4A, 0x4E, 0x46, 0x57, 0x01] then 1
  else if boot < 1024 || 90112 < boot || 0x400000 < len || len < 256 + boot then 2
  else if s.boot.romVersion < leAt h 21 1 then 3
  else if slice h 32 32 != sha256 (s.nor (imageAt slot + 256) boot) then 4
  else if !Config.signatureOk (slice h 0 128) (slice h 128 64) then 5
  else 0

/-- A BOOT_IMAGE record. -/
def State.imageLog (s : State) (slot code part : Nat) : State := s.log 0x03 nSYS slot code (leBytes 1 part)

/-- The slots that the boot ROM tries, in order (R453, R456, R457; 14 R520). -/
def State.bootOrder (s : State) : List Nat :=
  let a := if s.slotState.active = 2 then 2 else 1
  let first := if s.upd.trialFailed then 3 - a
    else if s.boot.kind == .watchdog && s.boot.runningFrom != 0 then s.boot.runningFrom else a
  [first, 3 - first].filter fun x => !s.boot.excluded.contains x

/-- The first slot whose image passes; each that fails is recorded, and under a swap the new slot's failure is kept for the
reply (R456; 14 R519). -/
def State.tryImages (s : State) : List Nat → State × Option Nat
  | [] => (s, none)
  | x :: rest =>
    let code := s.imageCode x
    if code = 0 then (s, some x)
    else
      let new := match s.upd.swap with
        | some (_, slot, _) => slot == x && s.upd.result.isNone
        | none => false
      let s := s.ite new fun s => s.modUpd fun u => { u with result := some code }
      (s.imageLog x code 0).tryImages rest

/-- The RESET record of a start. -/
def State.resetRecord (s : State) : State :=
  s.log 0x02 nSYS 0 s.boot.cause (leBytes 4 s.boot.bootCount ++ leBytes 1 s.boot.runningFrom ++ s.fwBytes)

/-- The boot ROM verifies once the PLL is locked, to a source or to the RC, and starts the first image that passes; with
none it runs ROM service at L1 (R2; R435, R456, R458). -/
def execBootImageVerify (s : State) : Host.Outcome State Fault Refusal :=
  if s.boot.phase != .rom || s.boot.kind == .wake || !s.clocked || !s.clk.bootLocked then .next s
  else match s.tryImages s.bootOrder with
    | (s, some x) =>
      let h := s.nor (imageAt x) 12
      .next (s.modBoot fun b => { b with
        phase := .verified
        runningFrom := x
        fwVersion := leAt h 7 1 + 2 ^ 8 * leAt h 6 1 + 2 ^ 16 * leAt h 5 1
        buildId := leAt h 8 4 }).resetRecord
    | (s, none) =>
      let s := s.modBoot fun b => { b with phase := .romService, runningFrom := 0 }
      .next (s.resetRecord.fail 9 fun f => { f with rom := true })

/-- A further part fails its hash: the slot and the part are recorded, the slot is excluded until the next POR, RESET_N or
detach cycle, and the steward restarts from the boot ROM (R457); while the mailboxes are not ready the pull-up is off (09 R303). -/
def execFurtherPartFail (part : Fin 16) (s : State) : Host.Outcome State Fault Refusal :=
  if !s.firmwareRuns then .next s
  else
    let x := s.boot.runningFrom
    let failed := s.slotState.trial && s.slotState.active == x
    let new : Bool := match s.upd.swap with
      | some (_, slot, _) => slot == x && s.upd.result.isNone && s.boot.phase == .verified
      | none => false
    let s := s.imageLog x 6 part.val
    let starting := s.boot.phase == .verified
    let s := if starting then s.modBoot fun b => { b with phase := .rom, bootCount := satAdd 32 b.bootCount 1 }
      else s.dropUsb.restartSteward s.boot.cause
    let s := s.modBoot fun b => { b with excluded := if b.excluded.contains x then b.excluded else b.excluded ++ [x] }
    .next (s.modUpd fun u => { u with trialFailed := u.trialFailed || failed, result := if new then some 6 else u.result })

/-! ### The watchdog (R453) -/

/-- 400 ms without service: event 58. -/
def execWatchdogPrewarning (s : State) : Host.Outcome State Fault Refusal :=
  .next (if s.firmwareRuns && s.clocked then s.raise 58 else s)

/-- 500 ms without service: the steward restarts from the slot that it was running, or under a trial from the other one first
(R453; 14 R520). The level is L2 meanwhile, L1 with the drill stopped (01 Table AR-7). -/
def execWatchdogExpiry (s : State) : Host.Outcome State Fault Refusal :=
  if !s.firmwareRuns || !s.clocked then .next s
  else
    let failed := s.slotState.trial && s.slotState.active == s.boot.runningFrom
    let first := s.boot.phase == .verified && (s.boot.kind == .reset || s.boot.kind == .deepWake)
    let s := s.log 0x04 nSYS 0 0 (match s.underWay with | some h => leBytes 1 h.verb ++ leBytes 1 h.req.ch.val | none => [0, 0])
    let kind := s.boot.kind
    let s := s.modUpd fun u => { u with trialFailed := u.trialFailed || failed }
    -- before the first set was applied the start remains one from reset (12, Collisions)
    if first then .next ((s.restartSteward 3).modBoot fun b => { b with kind }) else .next s.stewardDown

/-! ### The autostart set (R464, R465; 05 R185; 10 R374) -/

/-- The items of an autostart copy: each a noun with a STAGE item (log 32). -/
def parseItems : Nat → List Byte → List (Nat × Nat × Nat)
  | 0, _ => []
  | k + 1, b =>
    let n := leAt b 6 2
    if b.length < 8 || n = 0 || b.length < 8 + 8 * n then []
    else
      ((stagePairs (b.drop 8) n).zipIdx.map fun ((m, v), i) => (regKey (leAt b 0 2) (leAt b 4 2 + i), m, v))
        ++ parseItems k (b.drop (8 + 8 * n))

/-- The words that items give, over the reset values. As a STAGE does, an item writes RWS bits alone: what a copy holds for any
other bit, or for a noun that the mode has not, is not taken (00 R9, R11). -/
def itemWords (legacy : Bool) (items : List (Nat × Nat × Nat)) : Tab :=
  items.foldl (fun t (k, m, v) =>
    let m := m &&& ((findNoun legacy (k / 1024)).elim 0 fun n => rwsMask n (k % 1024))
    let cur := Tab.get resetWord t k
    Tab.set resetWord t k ((cur &&& (0xFFFFFFFF ^^^ m)) ||| (v &&& m))) []

/-- The cached sections that follow the items, each with its position. -/
def parseSections : Nat → List Byte → List (Nat × Layout)
  | 0, _ => []
  | n + 1, b =>
    let size := 32 * (leAt b 16 2 + 1) + 8
    match parseLayout (b.take size) with
    | some l => (leAt b 28 4, l) :: parseSections n (b.drop size)
    | none => []

/-- The valid autostart copy with the higher sequence number: its items, and the sections after them. -/
def State.autostartSet (s : State) : Option (Tab × List (Nat × Layout)) :=
  let i := match s.copySeq 0, s.copySeq 1 with
    | some a, some b => some (if a ≤ b then 1 else 0)
    | some _, none => some 0
    | none, some _ => some 1
    | none, none => none
  i.map fun i =>
    let n := leAt (s.nor (copyAt i) 20) 8 4
    (itemWords s.boot.legacy (parseItems n (s.nor (copyAt i + 20) n)), parseSections 7 (s.nor (copyAt i + 20 + n) (65516 - n)))

/-- The source that root_source names where the reset values are applied (R465). -/
def State.bootSource (s : State) : Nat := if s.clk.active = 3 then 0 else s.clk.active

/-- The reset values applied, with root_source at the source in use. -/
def State.applyReset (s : State) : State :=
  let k := regKey nCLOCK 0
  let v := resetWord k - bits (resetWord k) 0 2 + s.bootSource
  s.applySet (Tab.set resetWord [] k v) [k] 1

/-- The autostart set checked and applied as epoch 1, or the reset values. A set that fails is recorded, with event 61
(R464). -/
def State.applyAutostart (s : State) : State :=
  let k := regKey nCLOCK 0
  -- the source in use stands for the applied root_source, against which R86 reads (12 R434)
  let base := s.setReg nCLOCK 0 (s.reg nCLOCK 0 - s.fld nCLOCK 0 0 2 + s.bootSource)
  match base.autostartSet with
  | none => base.applyReset
  | some (words, sections) =>
    let base := if base.isLead then sections.foldl (fun s (k, l) => s.modPos k fun p => { p with cached := some l }) base else base
    match base.checkSet (fun n w => Tab.get resetWord words (regKey n w)) false with
    | none => base.applySet words (words.map (·.1) ++ [k]) 1
    | some f => (base.applyReset.log 0x71 f.noun 0 0 f.detail).raise 61

/-! ### Mailboxes ready (R460) -/

/-- The backup-alarm report: counters set, event 50 raised once, the last sequence stored, the counters of the backup domain
cleared (11 R417, R418). -/
def State.reportBackup (s : State) : State :=
  let k := s.pw.backup
  let s := (s.bumpBy nPOWER 19 0 16 k.total).bumpBy nPOWER 19 16 16 k.aborted
  let s := s.ite (k.total != 0) (·.raise 50)
  let s := if k.lastSeq = 0 then s else (s.modAlm fun a => { a with backupReported := k.lastSeq }).saveCounters
  s.modPw fun p => { p with backup := { nextSeq := k.nextSeq, slot := k.slot } }

/-- The minimum of each endpoint (09 Table US-3). -/
def State.poolMinimum (s : State) (e : Nat) : Nat :=
  match e with
  | 1 | 2 => 8
  | 3 => 1
  | 6 => 2
  | _ => streamNeed (s.streamCfg (e - 4))

/-- Every endpoint without an allocation takes its minimum from the lowest free run (09 R306). -/
def State.allocatePool (s : State) : State :=
  if s.fld nPLOTMAP 0 24 6 = 0 then s
  else s.each [1, 2, 3, 4, 5, 6] fun s e =>
    let n := s.poolMinimum e
    if (nth (0, 0) s.mem.pool (e - 1)).2 != 0 || n = 0 then s
    else match lowestRun s.mem.pool n with
      | some g => s.setPool e (g, n)
      | none => s

/-- The framing in force as the mailboxes open: v2 in native mode, in legacy mode the one that compat selects (01 R47). -/
def State.takeFraming (s : State) : State := s.modMb fun m => { m with v2 := s.framing, compatNext := none }

/-- What every start of the steward ends with: a new table, the consent generator and the pool (03 Table SX-10; 14 R557; 09
R306). -/
def State.startWork (s : State) : State :=
  let s := s.writeHeader.allocatePool.modBoot fun b => { b with rootSource := s.bootSource }
  (s.takeFraming.modHw fun h => { h with consentGen := lfsrLoad (s.tm.now % 2 ^ 32) }).modLev fun l => { l with generation := 1, firmware := true }

/-- The mailboxes open. -/
def State.openMailboxes (s : State) : State :=
  let s := s.modBoot fun b => { b with
    phase := .ready
    readyFrom := some (b.readyFrom.getD s.tm.now)
    readySince := s.tm.now }
  let s := s.modLev fun l => { l with
    level := s.levelNow
    since := if s.levelNow = l.level then l.since else s.tm.period }
  let s := s.ite (s.isMember && s.seeks && s.yoke.linkState == 0) (·.modYoke fun y => { y with linkState := 3, beacons := 0, attempts := 0 })
  s.settleInt

/-- The reply of a swap: Table HW-8's first bytes, then the version started and the period of the swap line (log 34). -/
def State.swapReply (s : State) (slot detail : Nat) : List Byte :=
  leBytes 1 slot ++ leBytes 1 (s.slotState.get slot) ++ leBytes 1 detail ++ [0] ++ s.fwBytes ++ [0] ++ leBytes 6 (s.upd.swapLine.getD 0) ++ [0, 0]

/-- The end of a swap: marked requests are answered SUPERSEDED, and UPDATE_SWAP is answered (14 R517 to R519). -/
def State.finishSwap (s : State) : State :=
  match s.upd.swap with
  | none => s
  | some (t, slot, _) =>
    let s := s.upd.marked.foldl (fun s (t, p) => s.complete t stSuperseded p) s
    let detail := s.upd.result.getD 0
    let reply (s : State) (st : Nat) : State := s.complete t st (s.swapReply slot detail)
    let s := if s.boot.runningFrom == slot then reply ((s.log 0x70 nSYS slot 2).raise 57) stOk
      else if detail = 7 then reply s stFault
      else reply ((s.saveSlots { (s.slotState.set slot 3) with active := s.boot.runningFrom, trial := false }).log 0x70 nSYS slot 3) stFault
    s.modUpd fun u => { u with swap := none, swapLine := none, marked := [], result := none }

/-- A trial image that failed: the firmware of the other slot makes itself active (14 R520). -/
def State.finishTrial (s : State) : State :=
  let x := s.slotState
  let s := if s.upd.trialFailed && x.trial && s.boot.runningFrom != x.active && s.boot.runningFrom != 0 then
      (((s.saveSlots { (x.set x.active 3) with active := s.boot.runningFrom, trial := false }).log 0x70 nSYS x.active 3)).raise 57
    else s
  s.modUpd fun u => { u with
    trialFailed := false
    trialSince := if s.slotState.trial && s.slotState.active == s.boot.runningFrom then some s.tm.now else none }

/-- The applied set failed the checks of the new firmware: the old slot is active again, and the steward restarts under it
(14 R518). -/
def State.revertSwap (s : State) : State :=
  let s := s.saveSlots { s.slotState with active := 3 - s.boot.runningFrom, trial := false }
  (s.modUpd fun u => { u with result := some 7 }).modBoot fun b => { b with phase := .rom, bootCount := satAdd 32 b.bootCount 1 }

/-- Start work is complete and the readiness time has passed: the mailboxes become ready (R460; 11 R406, R418). -/
def execMailboxesReady (s : State) : Host.Outcome State Fault Refusal :=
  if s.boot.phase != .verified || !s.clocked || !s.clk.bootLocked then .next s
  else
    let s := s.at s.boot.readyAt
    match s.boot.kind with
    | .wake => .next s.openMailboxes.reportBackup
    | .watchdog =>
      .next ((s.fail 13 fun f => { f with steward := false, stewardL1 := false }).startWork.openMailboxes.finishTrial)
    | .swap =>
      if s.upd.result.isNone && (s.checkSet s.reg false).isSome then .next s.revertSwap
      else .next s.startWork.openMailboxes.finishSwap.finishTrial
    | .reset | .deepWake =>
      let s := s.applyAutostart.startWork.openMailboxes
      let s := s.modBoot fun b => { b with autostart := s.flag nSYS 13 0 }
      .next s.reportBackup.finishSwap.finishTrial

/-! ### START by autostart (R466) -/

/-- Whether a member may start: joined, an orphan, or 1 s of markers without being joined (R363, R466). -/
def State.memberMayStart (s : State) : Bool :=
  !s.isMember || s.yoke.linkState == 5 || s.yoke.orphan || s.boot.readySince + ticksS 1 ≤ s.yoke.markerSeen

/-- With autostart_run, START takes effect at the coming capture line once it meets every condition of R466. -/
def execAutostartStart (s : State) : Host.Outcome State Fault Refusal :=
  if s.boot.autostart && s.ready && s.clocked && s.boot.readySince + ticksMs 60 ≤ s.nextLine.at' && s.pw.prsntMet
      && s.clk.active < 3 && s.memberMayStart && s.drill.mode == 0 then
    .next ((s.setRun (some { ticket := none, start := true, named := none })).modBoot fun b => { b with autostart := false })
  else .next s

/-! ### RESET_N and the releases (R450 to R452) -/

/-- RESET_N low for 10 µs, or the detach cycle's hold: the device is held in reset (R451). -/
def execResetNAssert (s : State) : Host.Outcome State Fault Refusal :=
  .next (if s.pw.state == .backup || s.pw.state == .off || s.boot.phase == .off then s else s.resetDevice false 2)

/-- The release of POR, RESET_N or the detach cycle (R452, R459); VDDIO_D holds the reset while it is missing (11 R396). -/
def execResetRelease (pins : Straps) (s : State) : Host.Outcome State Fault Refusal :=
  .next (if s.boot.phase == .held && s.pw.state == .run && s.bankOk 3 then s.release pins else s)

end Sys2Proof.Machine
end

