-- ==== Sys2Proof/Machine/Power.lean ====
section
/-! DEFINITION. The FALLOW, WAKE, DETACH and POWER verbs, entry into FALLOW and DEEP FALLOW, waking, and hot plug (11 R397 to
R410, R420 to R428; 10 R378 to R384; 08 R295; 14 R508). -/

namespace Sys2Proof.Machine

/-! ### Waking (11 R405 to R409; 10 R382 to R384) -/

/-- The steward starts afresh after DEEP FALLOW, or after a FALLOW whose retained state is lost: SRAM, requests and caches are
lost, reset_cause and the straps stay, and the yoke link keeps what it needs to resume (R407, R408). -/
def State.deepStart (s : State) : State :=
  let t := State.keepFailed s (s.resetDevice false s.boot.cause)
  let t := t.modBoot fun b => { b with
    phase := .rom
    kind := .deepWake
    bootCount := satAdd 32 s.boot.bootCount 1
    readyAt := 0
    readyFrom := s.boot.readyFrom
    excluded := s.boot.excluded
    legacy := s.boot.legacy
    ykLead := s.boot.ykLead
    twa := s.boot.twa
    gang := s.boot.gang }
  { t with
    tm := { now := s.tm.now, period := s.tm.period }
    mb := { t.mb with v2 := !s.boot.legacy }
    lev := { t.lev with since := s.tm.period % 2 ^ 32 }
    pw := { t.pw with
      rtcAt := s.tm.now
      wake := s.pw.wake
      waking := s.pw.waking
      resumedFrom := s.pw.resumedFrom
      lastWake := s.pw.lastWake }
    yoke :=
      { positions := s.yoke.positions.map fun p => { p with reply := [], sectionRead := none, segment := none, waiting := none }
        seq := s.yoke.seq
        lastRediscovery := s.yoke.lastRediscovery
        proposal := s.yoke.proposal
        out := s.yoke.out
        upOut := s.yoke.upOut
        position := s.yoke.position
        hop := s.yoke.hop
        linkState := s.yoke.linkState
        delayQ := s.yoke.delayQ
        applied := s.yoke.applied
        orphan := s.yoke.orphan
        repeating := s.yoke.repeating
        scanning := s.yoke.scanning } }

/-- The supply of a sleeping device comes back: resumed_from and last_wake_source are set, and the reference sources qualify
anew (Table PW-7, R409). -/
def State.wakeUp (s : State) (src : Nat) : State :=
  match s.pw.wake with
  | none => s
  | some w =>
    let s := s.modPw fun p => { p with
      state := .run
      waking := true
      resumedFrom := if w.deep then 2 else 1
      lastWake := src }
    let s := { s with clk := { aonRuns := s.clk.aonRuns, aonOffset := s.clk.aonOffset } }
    -- the lead's rediscovery markers count from its wake (10 R383)
    let s := s.modYoke fun y => { y with lastRediscovery := if s.isLead then some s.tm.now else y.lastRediscovery }
    if w.deep then s.deepStart else s.modBoot fun b => { b with phase := .rom, kind := .wake }

/-- Preamble of a lead, and burst of a member, on the yoke line as a wake starts (10 R382, R384). -/
def State.wakeSignal (s : State) : State :=
  if !s.flag nYOKE 0 0 || s.boot.legacy then s
  else s.modYoke fun y => if s.isLead then { y with out := [0x3C] } else { y with upOut := [0xFC] }

/-- A sleeping device wakes by a source of wake_mask. -/
def State.wakeBy (s : State) (src : Nat) : State :=
  let deep := s.pw.state == .deep
  (if deep then s else s.wakeSignal).wakeUp src

/-! ### The boot ROM's check of the retained state (R406, R407) -/

/-- 1 ms after a wake from FALLOW: the steward resumes, and a drill that ran at P_c starts at the first capture line; retained
state that fails its CRC makes it start afresh (Table PW-7, R407). -/
def execFallowResume (crcOk : Bool) (s : State) : Host.Outcome State Fault Refusal :=
  match s.pw.wake with
  | some w =>
    if s.boot.phase != .rom || s.boot.kind != .wake then .next s
    else if crcOk then
      let s := s.modBoot fun b => { b with phase := .verified, readyAt := s.tm.now }
      .next (if w.drillRan then s.modMb fun m => { m with run := some { ticket := none, start := true, named := none } } else s)
    else .next (s.deepStart.powerLog 8)
  | none => .next s

/-! ### Wake sources (Table PW-6; 10 R379) -/

/-- Whether a source of wake_mask is enabled and honoured in FALLOW or DEEP FALLOW; a signal on the yoke is armed whenever the
link is enabled. -/
def State.wakeArmed (s : State) (deep : Bool) (b : Nat) : Bool :=
  if b = 8 then !deep && s.flag nYOKE 0 0 && !s.boot.legacy else bitAt s.pw.aonWakeMask b && (b ≤ 6 || !deep)

/-- A wake source while an entry waits: a lone device and a lead before its commit point abandon it; after the commit point it
is latched (R403; 10 R379). -/
def State.wakePending (s : State) (b : Nat) : State :=
  match s.pw.fallow with
  | some f =>
    if f.pointSent then s.modPw fun p => { p with fallow := some { f with latched := f.latched <|> some b } } else s.abandonFallow
  | none => s

/-- A member's wake source during an agreement (10 Table YK-9). -/
def State.wakeAgreed (s : State) (b : Nat) : State :=
  match s.yoke.agreed with
  | some _ =>
    if s.yoke.answer == 1 then s.modYoke fun y => { y with answer := 2, agreed := none }
    else if s.yoke.cutoffPassed then s.modYoke fun y => { y with latched := y.latched <|> some b }
    else s.modYoke fun y => { y with claim := true }
  | none => s

/-- A source asserts: a sleeping device wakes; in RUN it acts on an entry that waits (R403, R405). -/
def State.wakeSource (s : State) (b : Nat) : State :=
  match s.pw.state with
  | .fallow => if s.wakeArmed false b then s.wakeBy b else s
  | .deep => if s.wakeArmed true b then s.wakeBy b else s
  | .run =>
    let s := match s.pw.fallow with
      | some f => if s.wakeArmed f.deep b then s.wakePending b else s
      | none => s
    match s.yoke.agreed with
    | some (_, deep, _) => if s.wakeArmed deep b then s.wakeAgreed b else s
    | none => s
  | _ => s

def execWakeSource (bit : Fin 11) (s : State) : Host.Outcome State Fault Refusal := .next (s.wakeSource bit.val)

/-- sleep_ms measured on CK_AON ends (R405). A member that entered by agreement opens its listen window instead (10 R382). -/
def execSleepTimerExpiry (s : State) : Host.Outcome State Fault Refusal :=
  match s.pw.wake with
  | some w =>
    if (s.pw.state != .fallow && s.pw.state != .deep) || w.sleepMs = 0 || w.agreed then .next s
    else .next ((if s.isLead then s.wakeSignal else s).wakeUp 0x1F)
  | none => .next s

/-- A sleeping member's listen window: with the preamble or rediscovery markers it resumes as joined with its stored D_k, else
it scans (10 R382, R383). -/
def execListenWindow (heard : Heard) (s : State) : Host.Outcome State Fault Refusal :=
  match s.pw.wake with
  | some w =>
    if (s.pw.state != .fallow && s.pw.state != .deep) || w.sleepMs = 0 || !w.agreed then .next s
    else match heard with
      | .nothing => .next ((s.dropOut.modYoke fun y => { y with scanning := true }).wakeUp 0x1F)
      | .preamble | .rediscovery => .next (s.wakeUp 0x1F)
  | none => .next s

/-- A K28.7 burst on the line in FALLOW: the device wakes and repeats it; a lead, once awake, sends the preamble (10 R384). -/
def execWakeBurstDetected (s : State) : Host.Outcome State Fault Refusal :=
  .next (if s.pw.state == .fallow && s.wakeArmed false 8 then s.wakeBy 8 else s)

/-! ### Entry (R402; 08 R295; 07 Table PM-9; 14 R508) -/

/-- A held chain shifts its recovery frame. -/
def State.recoverChain (s : State) (k : Nat) : State :=
  if (nth {} s.csp k).chain.isNone then s
  else (s.modPort k fun c => { c with chain := none, selects := 0 }).bump (nCSP k) 2 0 32

/-- A receiver without its clock and its domain. -/
def SentChan.idle (c : SentChan) : SentChan :=
  { fence := c.fence, good := c.good, message := c.message, absent := c.absent, lastEnd := c.lastEnd, cal := c.cal }

/-- An edge input without its domain. -/
def EdgeIn.idle (i : EdgeIn) : EdgeIn := { i with since := none }

/-- Contents of the banks that FALLOW does not retain are lost. -/
def State.wipeUnretained (s : State) : State :=
  let keep := s.reg64 nPOWER 10
  s.each ((List.range 64).filter fun k => 4 ≤ k && !bitAt keep k) State.wipeBank

/-- What an entry leaves of SRAM: in FALLOW the banks that are retained, in DEEP FALLOW nothing. No cursor is left to replay (R404). -/
def State.sleepMem (s : State) (deep : Bool) : State :=
  let s := s.modMem fun m => { m with cursors := [] }
  if deep then s.modMem fun m => { m with sram := [], eccBad := [], eccOne := [] } else s.wipeUnretained

/-- The entry at P_c, once its period is complete and its sheaf published: R402's steps 2 to 8. The Thresher's objects are cleared (08
Table TH-15). A source latched since the
commit point wakes the device at once, and in a member sends a wake request (R403; 10 Table YK-9). -/
def State.enterFallow (s : State) (deep : Bool) (sleepMs : Nat) (agreed : Bool) (latched : Option Nat) : State :=
  let ctx : WakeContext :=
    { deep, now := s.tm.now, period := s.tm.period, drillRan := s.drill.mode == 1, sleepMs, ticks := s.periodTicks, agreed }
  let s := ((s.endEpisodes 7).endJobs 2).each (List.range 4) State.clearObjects
  let s := (s.each (List.range 8) State.recoverChain).parkPorts.dropUsb
  let s := (s.completeAll stAborted).bump nPOWER 20 0 16
  let s := s.modPw fun p => { p with
    state := if deep then .deep else .fallow
    fallow := none
    hold := none
    powers := []
    rtc := s.rtcNow
    rtcAt := s.tm.now
    wake := some ctx }
  let s := s.modYoke fun y => { y with agreed := none, claim := false, cutoffPassed := false, latched := none, markersOn := false }
  let s := s.modDrill fun d => { d with mode := 0, polled := false, entries := List.replicate 288 {} }
  let s := s.modSheaf fun h => { h with assembly := none }
  let s : State := { s with sent := s.sent.map SentChan.idle, edge := s.edge.map EdgeIn.idle }
  let s := s.sleepMem deep
  match latched with
  | some b => s.wakeBy b
  | none => s

/-! ### FALLOW (R401 to R404; 10 R378, R381) -/

/-- The bits of wake_mask that a state honours. -/
def honoured (deep : Bool) : Nat := if deep then 0x7F else 0x7FF

/-- A FALLOW that has passed its checks. -/
def newFallow (t : Ticket) (deep : Bool) (ms earliest : Nat) : FallowPending :=
  { ticket := some t
    deep
    sleepMs := ms
    entry := none
    earliest
    proposal := none
    committed := false
    pointSent := false
    latched := none }

def execFallow (r : Req) (s : State) : Host.Outcome State Fault Refusal :=
  let deep := pf r 0 1 == 1
  let ms := pf r 4 4
  .next (s.serve 0x31 r (r.length.toNat == 8)
    (fun s => [noNoun r, s.heldRoom r, (!s.fallowBusy, stBusy),
      (pf r 0 1 ≤ 1 && pz r 1 3 && ms ≤ 86400000
        && !(ms == 0 && (s.fld nPOWER 9 0 11 &&& honoured deep == 0 || (s.isLead && !(planOf s.reg).isEmpty))), stField)])
    fun s t =>
      let f := newFallow t deep ms (s.tm.now + ticksMs 10)
      if s.isLead && !s.joined.isEmpty then
        let id := (s.yoke.proposal + 1) % 256
        let s := (s.modYoke fun y => { y with proposal := id }).modPw fun p => { p with fallow := some { f with proposal := some id } }
        (s.command .fallowPropose 0 (leBytes 1 id ++ leBytes 1 (b2n deep) ++ leBytes 4 ms), .hold)
      else
        let s := s.modPw fun p => { p with fallow := some f }
        if s.isMember && (s.yoke.linkState == 4 || s.yoke.linkState == 5) then (s.startLeaving none, .hold) else (s.fixAlone, .hold))

/-! ### WAKE (R427) -/

/-- Whether a fallow entry waits here. -/
def State.fallowWaits (s : State) : Bool := s.pw.fallow.isSome || s.yoke.agreed.isSome

/-- WAKE with either op: op 0 acts as a wake source without a bit; op 1 holds the domains on. -/
def State.wakeVerb (s : State) (r : Req) : State :=
  let op := pf r 0 1
  let ms := pf r 2 2
  s.serve 0x32 r (r.length.toNat == 4)
    (fun s => [noNoun r, s.heldRoom r, (op ≤ 1 && pz r 1 1 && (if op = 0 then ms == 0 else 1 ≤ ms && ms ≤ 60000), stField)])
    fun s _ =>
      if op = 0 then
        let reply := leBytes 1 (b2n !s.fallowWaits) ++ [0] ++ leBytes 6 s.tm.period
        ((s.wakePending 0x1F).wakeAgreed 0x1F, .done stOk reply)
      else (s.modPw fun p => { p with hold := some (s.tm.now + ticksMs ms) }, .done stOk ([0, 0] ++ leBytes 6 s.tm.period))

def execWakeCancel (r : Req) (s : State) : Host.Outcome State Fault Refusal := .next (s.wakeVerb r)
def execWakeHold (r : Req) (s : State) : Host.Outcome State Fault Refusal := .next (s.wakeVerb r)

/-- hold_ms runs out: DOZE gating resumes (R427). -/
def execWakeHoldExpiry (s : State) : Host.Outcome State Fault Refusal :=
  match s.pw.hold with
  | some t => .next ((s.at t).modPw fun p => { p with hold := none })
  | none => .next s

/-! ### POWER (R428, Table PW-10) -/

/-- The reply of POWER. -/
def State.powerReply (s : State) : List Byte :=
  leBytes 20 s.domains ++ leBytes 8 (s.bankMap (·.state == .retained)) ++ leBytes 8 (s.bankMap (·.failed))

/-- One bank of a POWER request: towards ON it wakes; otherwise it is gated, after a wake that is in progress (Table PM-9). -/
def State.moveBank (s : State) (k : Nat) (st : BankState) : State :=
  let b := s.bank k
  if st == .on then (s.modSram k fun b => { b with gateTo := none }).ite (b.state != .on) (·.wakeBank k)
  else if b.waking then s.modSram k fun b => { b with gateTo := some st }
  else s.gateBank k st

/-- POWER with either op. -/
def State.powerVerb (s : State) (r : Req) : State :=
  let op := pf r 0 1
  let mask := pf r 4 8
  let st := match pf r 1 1 with
    | 0 => BankState.on
    | 1 => .retained
    | _ => .off
  let banks := (List.range 64).filter (bitAt mask)
  s.serve 0x54 r (r.length.toNat == 12)
    (fun s => [noNoun r, s.heldRoom r, (op != 1 || s.noFallow.1, stBusy),
      (op != 1 || st == .on || banks.all fun k => !s.pinned k, stBusy),
      (op ≤ 1 && pf r 1 1 ≤ 2 && pz r 2 2, stField)])
    fun s t =>
      if op = 0 then (s, .done stOk s.powerReply)
      else
        let s := s.each banks fun s k => s.moveBank k st
        ((s.modPw fun p => { p with powers := p.powers ++ [(t, mask, st)] }).settlePower, .hold)

def execPowerQuery (r : Req) (s : State) : Host.Outcome State Fault Refusal := .next (s.powerVerb r)
def execPowerSetBanks (r : Req) (s : State) : Host.Outcome State Fault Refusal := .next (s.powerVerb r)

/-! ### DETACH (R424, R425; Table PW-9) -/

def execDetach (r : Req) (s : State) : Host.Outcome State Fault Refusal :=
  .next (s.serve 0x53 r (r.length.toNat == 0)
    (fun s => [noNoun r, s.heldRoom r, s.notDetached])
    fun s t =>
      let s := s.abandonFallow.modPw fun p => { p with
        detach := .accepted
        detachTicket := some t
        detachPeriod := addPeriod s.tm.period 1
        detachHigh := false }
      ((s.endEpisodes 7).endJobs 6, .hold))

/-- The capture line of p + 1: no entry launches, recovery frames run, a member leaves and a lead stops its markers. -/
def State.detachLine (s : State) : State :=
  if s.pw.detach != .accepted then s
  else
    let s := (s.modPw fun p => { p with detach := .parking }).modDrill fun d => { d with mode := 0, polled := false }
    let s := s.each (List.range 8) State.startRecovery
    let s := if s.isMember then (s.startLeaving none).modYoke fun y => { y with stopRepeating := true } else s.modYoke fun y => { y with markersOn := false }
    s.detachPark

/-- The reply has been collected, or 10 ms have passed: USB and the hub ports are released, the level becomes L1 and detaches
counts (R424). -/
def execDetachRelease (s : State) : Host.Outcome State Fault Refusal :=
  if s.pw.detach != .replied then .next s
  else
    let s := (s.modPw fun p => { p with detach := .held, detachAt := s.tm.now }).dropUsb.bump nPOWER 20 16 16
    .next (s.fail 14 fun f => { f with detach := true })

/-- The detach cycle, when the hold expires, or when PRSNT_N has returned low for 10 ms (R425). -/
def execDetachCycle (s : State) : Host.Outcome State Fault Refusal :=
  if s.pw.detach != .held && s.pw.detach != .emergency then .next s
  else
    let h := s.fld nPOWER 0 8 8
    if s.pw.detachHigh && !s.pw.prsntHigh then .next (State.keepFailed s (s.resetDevice false 5))
    else if h = 0 then .next s
    else .next (State.keepFailed s ((s.at (s.pw.detachAt + ticksS h)).resetDevice false 5))

/-- Entries of the period cut off by an emergency detach: those of guarded frames in mid-shift complete (Table PW-9). -/
def State.cutUnguarded (s : State) : State :=
  (usedEntries s.reg).foldl (fun s (f, e) =>
    if entType s.reg f e == 1 && entGuard s.reg f e && (s.entry f e).phase == .running then s else s.cutEntry f e) s

/-- A port at an emergency detach: what is shifting goes on, and all else parks. -/
def CspPort.finish (c : CspPort) : CspPort :=
  { c with
    selects := if c.active.isSome || c.chain.any (·.since.isSome) then c.selects else 0
    chain := c.chain.filter (·.since.isSome)
    slave := none }

/-- A channel whose trigger is let go. -/
def SentChan.untriggered (c : SentChan) : SentChan := { c with trigger := none }

/-- PRSNT_N high for 10 µs with prsnt_action 1: polling stops, guarded frames complete, the ports park, the sheaf of the period
is not published, and a DETACH record follows; a pending entry is abandoned, and a sleeping device wakes (R422). -/
def execEmergencyDetach (s : State) : Host.Outcome State Fault Refusal :=
  if !s.flag nPOWER 0 3 || !s.pw.prsntHigh || s.boot.phase == .off || s.boot.phase == .held
      || s.pw.state == .backup || s.pw.state == .off || s.pw.detach == .emergency then .next s
  else
    let s := if s.pw.state == .run then s.abandonFallow else s.wakeBy 6
    let s := (s.endEpisodes 7).dropUsb.cutUnguarded.dropPeriod
    let s := s.modDrill fun d => { d with mode := 0 }
    let s : State := { s with csp := s.csp.map CspPort.finish, sent := s.sent.map SentChan.untriggered }
    let s := s.modYoke fun y => { y with markersOn := false }
    let s := s.modPw fun p => { p with detach := .emergency, detachAt := s.tm.now, detachHigh := true }
    .next ((s.log 0x07 nPOWER 0 2).fail 14 fun f => { f with detach := true })

/-- PRSNT_N low for 10 ms without a break (R420). -/
def execPrsntSettled (s : State) : Host.Outcome State Fault Refusal :=
  .next (if s.pw.prsntHigh || !s.clocked then s else s.modPw fun p => { p with prsntMet := true })

/-- A change of PRSNT_N: event 52, and a wake source (R422, Table PW-6). -/
def execPrsntChange (high : Bool) (s : State) : Host.Outcome State Fault Refusal :=
  if s.pw.prsntHigh == high then .next s
  else
    let s := s.modPw fun p => { p with prsntHigh := high, detachHigh := p.detachHigh || (high && p.detach != .none) }
    if s.pw.state == .backup || s.pw.state == .off then .next s else .next ((s.wakeSource 6).raise 52)

end Sys2Proof.Machine
end

