-- ==== Sys2Proof/Machine/Supply.lean ====
section
/-! DEFINITION. The supplies: VIN, VSYS, the I/O banks, temperature, VBAK and the RTC; and the backup path of the ALM inputs
(11 R389 to R396, R411 to R419; 13 R470, R484; 01 Table AR-7). -/

namespace Sys2Proof.Machine

/-! ### VIN and VSYS (Table PW-1, R392) -/

/-- The device has power and is not held by a stop of switching. -/
def State.powered (s : State) : Bool := s.pw.state != .backup && s.pw.state != .off && s.boot.phase != .off

/-- VIN rises above 5.6 V: a POR, and after soft start its release with the straps sampled, or, while VDDIO_D is not valid, a reset that
lasts until it is (R389, R390, R396; 12 R459). -/
def execVinUvloRise (vin10mv vbakMv : BitVec 16) (pins : Straps) (s : State) : Host.Outcome State Fault Refusal :=
  if s.powered || s.pw.ovStop || s.pw.thermalStop then .next s
  else
    let s := s.modPw fun p => { p with vin10mv := vin10mv.toNat, vbakMv := vbakMv.toNat }
    let s := if s.backupAlive then s else s.loseBackup
    .next (if s.bankOk 3 then s.powerUp.release pins else s.powerUp)

/-- VIN falls below 5.8 V. -/
def execVinLowWarning (vin10mv : BitVec 16) (s : State) : Host.Outcome State Fault Refusal :=
  if !s.powered then .next s
  else
    let s := s.modPw fun p => { p with vin10mv := vin10mv.toNat, vinLow := true }
    .next (((s.bump nPOWER 21 0 16).powerLog 1).raise 44)

/-- VIN falls below 5.2 V: switching stops. -/
def execVinUndervoltage (vin10mv : BitVec 16) (s : State) : Host.Outcome State Fault Refusal :=
  .next (if s.powered then (s.lastLevel (if s.backupAlive then 1 else 2)).stopSwitching.modPw fun p => { p with vin10mv := vin10mv.toNat } else s)

/-- VIN rises above 41.5 V. -/
def execVinHighWarning (vin10mv : BitVec 16) (s : State) : Host.Outcome State Fault Refusal :=
  if !s.powered then .next s
  else
    let s := s.modPw fun p => { p with vin10mv := vin10mv.toNat, vinHigh := true }
    .next ((s.powerLog 2).raise 45)

/-- VIN rises above 43 V: switching stops within 2 µs. -/
def execVinOvervoltage (vin10mv : BitVec 16) (s : State) : Host.Outcome State Fault Refusal :=
  .next (if s.powered then (s.lastLevel 3).stopSwitching.modPw fun p => { p with vin10mv := vin10mv.toNat, ovStop := true } else s)

/-- VIN falls below 41.5 V after a stop at 43 V: a full power-up, whose release follows. -/
def execVinOvervoltageRecover (vin10mv : BitVec 16) (s : State) : Host.Outcome State Fault Refusal :=
  if s.powered || !s.pw.ovStop then .next s
  else
    let s := s.modPw fun p => { p with vin10mv := vin10mv.toNat, ovStop := false }
    .next (if s.pw.thermalStop then s else s.powerUp)

/-- More than 600 mA at the VSYS pins for 1 ms (R392). -/
def execVsysOverload (s : State) : Host.Outcome State Fault Refusal :=
  if !s.powered then .next s
  else .next ((((s.modPw fun p => { p with overload := true }).bump nPOWER 21 16 16).powerLog 3).raise 46)

/-- VSYS below 3.0 V for 100 µs: a POR (R392; 12 Table CK-4). -/
def execVsysCollapse (s : State) : Host.Outcome State Fault Refusal :=
  .next (if s.powered then (s.lastLevel 5).resetDevice true 1 else s)

/-! ### I/O banks (R395, R396) -/

/-- The units of a bank whose fault event is raised as its supply goes: enabled CSP ports, and SENT groups with an enabled
channel. -/
def State.bankFaults (s : State) (b : Nat) : List Nat :=
  if b < 2 then ((List.range 4).filter fun i => s.flag (nCSP (4 * b + i)) 0 0).map fun i => 4 + 4 * b + i
  else (List.range 3).filterMap fun g => if (List.range 8).any fun i => s.flag (nSENT (8 * g + i)) 0 0 then some (13 + g) else none

/-- What is in progress on the pins of a bank ends. -/
def State.floatBank (s : State) (b : Nat) : State :=
  if b < 2 then s.each ((List.range 4).map (4 * b + ·)) fun s k => s.modPort k fun c => { c with slave := none }
  else { s with sent := s.sent.map SentChan.idle, edge := s.edge.map EdgeIn.idle }

/-- A bank supply falls below its range; VDDIO_D holds the device in reset after a POWER record (R396). -/
def execBankSupplyLost (b : Fin 4) (s : State) : Host.Outcome State Fault Refusal :=
  let k := b.val
  if !s.bankOk k then .next s
  else
    let s := s.modPw fun p => { p with vddioOk := updAt p.vddioOk k fun _ => false }
    if !s.powered then .next s
    else if k = 3 then .next (((s.powerLog 9).log 0x01 nSYS 0 15 (leBytes 1 s.lev.level ++ [0])).resetDevice false 2)
    else .next ((s.bankFaults k).foldl State.raise (s.floatBank k))

/-- It returns, and its voltage is detected; the release from VDDIO_D's reset follows (R395, R396). -/
def execBankSupplyRestored (b : Fin 4) (is1v8 : Bool) (s : State) : Host.Outcome State Fault Refusal :=
  .next (s.modPw fun p => { p with
    vddioOk := updAt p.vddioOk b.val fun _ => true
    vddio1v8 := updAt p.vddio1v8 b.val fun _ => is1v8 })

/-! ### Temperature (13 R484) -/

/-- The junction rises through 125 °C. -/
def execThermalWarning (s : State) : Host.Outcome State Fault Refusal :=
  .next (if s.powered then (s.powerLog 4).raise 47 else s)

/-- 150 °C: event 48, and a POWER record at the head of the queue, after whose commit switching stops. -/
def execThermalShutdown (s : State) : Host.Outcome State Fault Refusal :=
  if !s.powered || s.pw.thermalPending then .next s
  else
    let t := s.powerLog 5
    let r := (t.alm.queue.drop s.alm.queue.length).head?
    let s : State := { s with freeCount := t.freeCount }
    let s := match r with
      | some r => s.modAlm fun a => { a with queue := r :: a.queue, before := if a.scanDone then a.before else a.before + 1 }
      | none => s.modAlm fun a => { a with
          queue := { type := 0x06, cls := clFault, source := nPOWER, index := 0, code := 5, period := s.tm.period, stamp := s.tm.now } :: a.queue
          before := if a.scanDone then a.before else a.before + 1 }
    .next ((s.modPw fun p => { p with thermalPending := true }).raise 48)

/-- The junction falls below the restart threshold: a full power-up, whose release follows (16 R542). -/
def execThermalRestart (s : State) : Host.Outcome State Fault Refusal :=
  if s.powered || !s.pw.thermalStop then .next s
  else
    let s := s.modPw fun p => { p with thermalStop := false }
    .next (if s.pw.ovStop then s else s.powerUp)

/-! ### VBAK and the RTC (R411, Table PW-6) -/

/-- VBAK measured, once a second in RUN and DOZE. -/
def execVbakMeasure (vbakMv vresMv : BitVec 16) (s : State) : Host.Outcome State Fault Refusal :=
  if !s.clocked then .next s
  else
    let low := vbakMv.toNat < 2200
    let s := s.modPw fun p => { p with vbakMv := vbakMv.toNat, vresMv := vresMv.toNat, cellLow := low }
    .next (if low then (s.powerLog 6).raise 49 else s)

/-- VBAK below 1.9 V: the backup domain loses its state. -/
def execBackupStateLost (s : State) : Host.Outcome State Fault Refusal :=
  let s := (s.modPw fun p => { p with vbakMv := min p.vbakMv 1899 }).loseBackup
  .next (if s.pw.state == .backup then s.modPw fun p => { p with state := .off } else s)

/-- The RTC equals rtc_alarm: event 51, and a wake source. In BACKUP there is no power to raise it. -/
def execRtcAlarm (s : State) : Host.Outcome State Fault Refusal :=
  if s.pw.aonRtcAlarm = 0 || !s.pw.rtcValid || !s.powered then .next s
  else if s.pw.state == .run then
    .next (((s.modPw fun p => { p with rtc := p.aonRtcAlarm, rtcAt := s.tm.now }).wakeSource 1).raise 51)
  else .next ((s.wakeSource 1).raise 51)

/-! ### Alarms (R414 to R419) -/

/-- The backup path handles alarms in FALLOW, DEEP FALLOW and BACKUP, and before the mailboxes are first ready (R415, R419). -/
def State.backupPath (s : State) : Bool :=
  match s.pw.state with
  | .run => !s.ready && s.boot.kind != .watchdog && s.boot.kind != .swap
  | .off => false
  | _ => true

/-- An alarm in the counters of the backup domain, which saturate (R415, R417). -/
def Backup.count (k : Backup) (i rtc : Nat) : Backup :=
  { k with
    counts := updAt k.counts i (satAdd 16 · 1)
    sinceRec := updAt k.sinceRec i (satAdd 16 · 1)
    total := satAdd 32 k.total 1
    saturated := k.saturated || 65535 ≤ nth 0 k.counts i || 0xFFFFFFFF ≤ k.total
    firstRtc := k.firstRtc <|> some rtc }

/-- A record is started where VBAK_RES allows it, and its hold-off begins (R415, R416). -/
def State.startBackup (s : State) (trigger : Nat) : State :=
  if 1950 ≤ s.pw.vresMv then s.modBackup fun k => { k with writing := some trigger, holdoff := true } else s

/-- An alarm of an enabled input, stamped with the RTC of its first edge (R414, R415, R419). -/
def execAlarmInput (k : Fin 4) (rtc : BitVec 64) (s : State) : Host.Outcome State Fault Refusal :=
  let i := k.val
  if !bitAt s.pw.aonAlmEnable i || s.pw.state == .off then .next s
  else if s.backupPath then
    let s := s.modBackup fun b => b.count i rtc.toNat
    let s := if s.pw.backup.holdoff then s else s.startBackup (2 ^ i)
    .next (s.wakeSource (2 + i))
  else
    let s := s.record { type := 0x80, cls := clAlarm, source := nPOWER, index := i, code := 0, period := s.tm.period,
                        stamp := s.tm.now, detail := leBytes 8 rtc.toNat }
    .next ((s.raise 50).wakeSource (2 + i))

/-- The payload of a backup-alarm record (Table PW-8). -/
def State.backupPayload (s : State) (trigger : Nat) (levels : Byte) : List Byte :=
  let k := s.pw.backup
  let absent := s.pw.state == .backup
  leBytes 1 trigger ++ [levels &&& 0x0F] ++ leBytes 1 (b2n k.abortedRec + 2 * b2n k.saturated + 4 * b2n absent) ++ [0]
    ++ k.sinceRec.flatMap (leBytes 2) ++ leBytes 4 k.total ++ leBytes 8 (k.firstRtc.getD 0) ++ leBytes 2 s.pw.vbakMv
    ++ leBytes 2 s.pw.vresMv ++ leBytes 2 k.aborted ++ List.replicate 10 0

/-- The 64 bytes of a backup-alarm record, stamped with the RTC. -/
def backupRecord (seq rtc : Nat) (payload : List Byte) : List Byte :=
  let b := leBytes 1 0x81 ++ leBytes 1 (clAlarm + 4) ++ leBytes 2 nPOWER ++ leBytes 4 seq ++ leBytes 8 rtc ++ leBytes 4 0 ++ payload
  b ++ leBytes 4 (crc32 b)

/-- A record that was started is complete: one entry of the ring of 128, in the series of the backup domain (R415; 13 R470). -/
def execBackupRecordWrite (s : State) : Host.Outcome State Fault Refusal :=
  match s.pw.backup.writing with
  | none => .next s
  | some trigger =>
    let k := s.pw.backup
    let i := goodSlot s.alm.bad 3 k.slot 128
    let bs := backupRecord k.nextSeq s.rtcNow (s.backupPayload trigger (Config.alarmLevels s.freeCount))
    let s : State := { s with freeCount := s.freeCount + 1 }
    .next ((s.almWrite (slotAddr 3 i) bs).modBackup fun k => { k with
      writing := none
      sinceRec := [0, 0, 0, 0]
      firstRtc := none
      abortedRec := false
      lastSeq := k.nextSeq
      nextSeq := nextSequence k.nextSeq
      slot := (i + 1) % 128 })

/-- VBAK_RES falls below 1.80 V before the sequence number and the CRC are written: the write is abandoned and its counts stay
(R416). The slot holds what was written of it, without a sequence number. -/
def execBackupWriteAbort (s : State) : Host.Outcome State Fault Refusal :=
  match s.pw.backup.writing with
  | none => .next s
  | some _ =>
    let i := goodSlot s.alm.bad 3 s.pw.backup.slot 128
    let n := s.freeCount
    let free (a k : Nat) : List Byte := (List.range k).map fun j => Config.slotByte (n + a + j)
    let s : State := { s with freeCount := n + 64 }
    let s := s.almWrite (slotAddr 3 i) (free 0 4 ++ [0, 0, 0, 0] ++ free 8 56)
    .next (s.modBackup fun k => { k with writing := none, aborted := satAdd 16 k.aborted 1, abortedRec := true })

/-- The hold-off of 250 ms ends: with a nonzero count a record is started (R415, R416). -/
def execAlarmHoldoffEnd (s : State) : Host.Outcome State Fault Refusal :=
  if !s.pw.backup.holdoff then .next s
  else
    let s := s.modBackup fun k => { k with holdoff := false }
    .next (if s.pw.backup.sinceRec.any (· != 0) && s.backupPath then s.startBackup 0 else s)

end Sys2Proof.Machine
end

