-- ==== Sys2Proof/Machine/UnitReset.lean ====
section
/-! DEFINITION. RESET_UNIT: which units it fences, the phases at capture lines, and the completion (14 R504 to R507; 05 R186,
R187, Table CS-8; 06 R222, R223; 08 R293; 09 R328, R329; 10 R385, R386). -/

namespace Sys2Proof.Machine

/-! ### Kinds of unit (14 Table HW-6) -/

/-- A resettable unit, by its noun. -/
inductive UnitOf where
  | csp (k : Nat)
  | csp8
  | sent (c : Nat)
  | edge (b : Nat)
  | twt (k : Nat)
  | usb
  | hub (p : Nat)
  | yoke
  | thresher
  | thrctx (n : Nat)
  deriving DecidableEq, Repr

/-- Table HW-6. -/
def unitOf (n : Nat) : Option UnitOf :=
  if nCSP 0 ≤ n && n ≤ nCSP 7 then some (.csp (n - nCSP 0))
  else if n = nCSP 8 then some .csp8
  else if nSENT 0 ≤ n && n ≤ nSENT 23 then some (.sent (n - nSENT 0))
  else if nEDGE 0 ≤ n && n ≤ nEDGE 3 then some (.edge (n - nEDGE 0))
  else if n = nTWT 0 || n = nTWT 1 then some (.twt (n - nTWT 0))
  else if n = nUSB then some .usb
  else if nHUBPORT 1 ≤ n && n ≤ nHUBPORT 4 then some (.hub (n - nHUBPORT 1))
  else if n = nYOKE then some .yoke
  else if n = nTHRESHER then some .thresher
  else if nTHRCTX 0 ≤ n && n ≤ nTHRCTX 3 then some (.thrctx (n - nTHRCTX 0))
  else none

/-- Ports that a HUBPORT reset takes: all four with GANG high (09 R329). -/
def State.hubGroup (s : State) (p : Nat) : List Nat := if s.boot.gang then [0, 1, 2, 3] else [p]

/-- The fence of a unit. -/
def State.fenceOf (s : State) (u : UnitOf) : Option Fence :=
  match u with
  | .csp k => (nth {} s.csp k).fence
  | .csp8 => s.csp8.fence
  | .sent c => (nth {} s.sent c).fence
  | .edge b => (nth {} s.banks b).fence
  | .twt k => (nth {} s.twt k).fence
  | .usb => s.usb.fence
  | .hub p => (nth {} s.usb.ports p).fence
  | .yoke => s.yoke.fence
  | .thresher => s.thr.fence
  | .thrctx n => (s.ctx n).fence

/-- The fence of a unit put up, changed or taken down. -/
def State.setFence (s : State) (u : UnitOf) (f : Option Fence) : State :=
  match u with
  | .csp k => s.modPort k fun c => { c with fence := f }
  | .csp8 => s.modCsp8 fun c => { c with fence := f }
  | .sent c => s.modSent c fun x => { x with fence := f }
  | .edge b => s.modBank b fun x => { x with fence := f }
  | .twt k => s.modTwt k fun x => { x with fence := f }
  | .usb => s.modUsb fun x => { x with fence := f }
  | .hub p => s.each (s.hubGroup p) fun s i => s.modHub i fun x => { x with fence := f }
  | .yoke => s.modYoke fun y => { y with fence := f }
  | .thresher => s.modThr fun t => { t with fence := f }
  | .thrctx n => s.modCtx n fun c => { c with fence := f }

/-! ### Requests that a reset ends (14 R506) -/

/-- Requests completed with a status, with how many were still open. -/
def State.endRequests (s : State) (ts : List Ticket) (status : Nat) : State × Nat :=
  ts.foldl (fun (s, n) t =>
    if (nth {} s.mb.chans t.ch.val).held.any (·.id == t.id) then (s.complete t status, n + 1) else (s, n)) (s, 0)

/-- The requests of a staging. -/
def Staging.tickets (g : Staging) : List Ticket := (g.op.map (·.1)).toList ++ g.chunks.map (·.1)

/-- A staging ended, its requests answered with a status (05 R187). -/
def State.endStaging (s : State) (status : Nat) : State × Nat :=
  match s.upd.staging with
  | none => (s, 0)
  | some g => (s.modUpd fun u => { u with staging := none }).endRequests g.tickets status

/-- A context's job ends with reason 8 at its next pre-emption point (08 R293). -/
def State.resetCtx (s : State) (n : Nat) : State × Nat := (s.stopJob n 8, b2n ((s.ctx n).job.any (·.ticket.isSome)))

/-- The tickets of requests that the yoke link works on: forwarded ones and YOKE_CTL commands. -/
def State.yokeTickets (s : State) : List Ticket :=
  s.yoke.forwards.filterMap (·.ticket) ++ s.yoke.commands.filterMap (·.ticket)

/-- Requests to load from the object store that wait for the storage port (05 R187). -/
def State.storeLoads (s : State) : List Ticket :=
  s.mb.chans.flatMap fun c => (c.held.filter fun h => h.verb == 0x20 && pf h.req 1 1 == 1).map fun h => ⟨h.req.ch, h.id⟩

/-- The requests that use CSP8 end with UNIT_RESET: a staging, loads from the object store, and a COMMIT that saves; the reset of the
port begins once no program is on the wire (05 R187). -/
def State.fenceStorage (s : State) : State × Nat :=
  let (s, n) := s.endStaging stUnitReset
  let (s, l) := s.endRequests s.storeLoads stUnitReset
  match s.mb.commit.filter (·.save.isSome) with
  | some c =>
    let (s, m) := (s.modMb fun b => { b with commit := none }).endRequests [c.ticket] stUnitReset
    (s.resetStorage, n + l + m)
  | none => (s.resetStorage, n + l)

/-- The agents of a unit, whose cursors its reset discards (07 Table PM-9). -/
def agentsOf : UnitOf → List Agent
  | .csp8 => [.storage]
  | .usb => [.usb]
  | .yoke => [.yoke]
  | .twt 1 => [.mirrorCopy]
  | .thresher => (List.finRange 4).map .thr
  | .thrctx n => ((List.finRange 4).filter (·.val == n)).map .thr
  | _ => []

/-- What acceptance does to a unit beyond its fence, with the requests it ends. -/
def State.fenceUnit (s : State) (u : UnitOf) : State × Nat :=
  let s := (agentsOf u).foldl State.dropCursors s
  match u with
  | .csp _ | .sent _ | .edge _ => (s, 0)
  | .csp8 => s.fenceStorage
  | .twt k => (s.modTwt k fun x => { x with acked := false, out := [], busyUntil := 0 }, 0)
  | .usb => (s.dropUsb.modUsb fun x => { x with out := [], stoppedDrill := false }, 0)
  | .hub p =>
    (s.each (s.hubGroup p) fun s i => (s.disconnect i).modHub i fun x => { x with ppe := false, state := 0 }, 0)
  | .yoke =>
    if s.isLead then
      let ts := s.yokeTickets
      let s := s.modYoke fun y => { y with
        markersOn := false
        forwards := []
        positions := y.positions.map fun p => { p with reply := [], sectionRead := none, waiting := none }
        commands := (y.commands.filter (·.kind != .mbx)).map fun c => { c with ticket := none } }
      s.endRequests ts stUnitReset
    else ((s.startLeaving none).modYoke fun y => { y with stopRepeating := true }, 0)
  | .thresher => (List.range 4).foldl (fun (s, m) n => let (s, k) := s.resetCtx n; (s, m + k)) (s, 0)
  | .thrctx n => s.resetCtx n

/-- Replies that a unit was producing and had not yet queued (R506): forwarded replies of which the lead has collected a part. -/
def State.partReplies (s : State) : UnitOf → Nat
  | .yoke => if s.isLead then (((List.range 7).map (· + 1)).filter fun k =>
      !(s.pos k).reply.isEmpty && (s.yoke.forwards.find? (·.position == k)).any (·.ticket.isSome)).length else 0
  | _ => 0

/-- A reset of this unit is stopped by a staging or a swap in progress (R507). RESET_UNIT of CSP8 ends a staging instead (05
R187). -/
def State.updateInProgress (s : State) (u : Option UnitOf) : Bool :=
  s.upd.swap.isSome || (s.upd.staging.isSome && u != some .csp8)

/-- RESET_UNIT: the unit is fenced from acceptance (R504 to R507). -/
def execResetUnit (r : Req) (s : State) : Host.Outcome State Fault Refusal :=
  let n := r.noun.toNat
  let u := unitOf n
  .next (s.serve 0x52 r (r.length.toNat == 0)
    (fun s => [((s.nounCheck r).1 && u.isSome, stNoNoun), s.heldRoom r, s.noFallow,
      (!s.fenced n && !s.updateInProgress u
        && !(s.mb.commit.any fun c => c.shadow.touched.any fun k => k / 1024 == n), stBusy)])
    fun s t => match u with
      | none => (s, .done stNoNoun [])
      | some u =>
        let f : Fence := { ticket := t, period := s.tm.period, since := s.tm.now, step := .fence }
        let discarded := s.partReplies u
        let (s, ended) := (s.setFence u (some f)).fenceUnit u
        (s.setFence u (some { f with ended, discarded }), .accept (leBytes 6 s.tm.period)))

/-! ### The phases of Table CS-8 at capture lines -/

/-- The reset phase of a SENT channel: the line is released, and what is held is cleared, a frame that Harrow holds too (06 R222). -/
def State.resetSent (s : State) (c : Nat) : State :=
  let s := s.modHw fun w => { w with heldFrames := w.heldFrames.filter (·.source != c) }
  (s.modSent c fun x => { fence := x.fence, lastEnd := s.tm.now }).clearCounts (nSENT c)

/-- An edge input cleared: its pin keeps its level. -/
def EdgeIn.cleared (i : EdgeIn) : EdgeIn := { seen := i.seen, level := i.level }

/-- The reset phase of an edge bank. -/
def State.resetEdge (s : State) (b : Nat) : State :=
  let s := s.each ((List.range 8).map (8 * b + ·)) fun s i => s.modEdge i (·.cleared)
  (s.modBank b fun x => { fence := x.fence }).clearCounts (nEDGE b)

/-- A fence one step on. -/
def Fence.at' (f : Fence) (step : FenceStep) : Option Fence := some { f with step }

/-- A port at a capture line: from its fence to the recovery frame of a held chain or to its reset, and from its reset to
running again (Table CS-8). A port reset by the line of its recovery frame resumes at the next. -/
def State.portLine (s : State) (k : Nat) : State :=
  match (nth {} s.csp k).fence with
  | none => s
  | some f => match f.step with
    | .fence =>
      if (nth {} s.csp k).chain.isSome then s.setFence (.csp k) (f.at' .recovery)
      else (s.setFence (.csp k) (f.at' .reset)).resetPort k
    | .reset => s.setFence (.csp k) (f.at' .resume)
    | _ => s

/-- A SENT channel or an edge bank at a capture line. -/
def State.inputLine (s : State) (u : UnitOf) (clear : State → State) : State :=
  match s.fenceOf u with
  | none => s
  | some f => match f.step with
    | .fence => clear (s.setFence u (f.at' .reset))
    | .reset => s.setFence u (f.at' .resume)
    | _ => s

/-- Every fenced input unit at a capture line. -/
def State.fenceLine (s : State) : State :=
  let s := s.each (List.range 8) State.portLine
  let s := s.each (List.range 24) fun s c => s.inputLine (.sent c) (·.resetSent c)
  s.each (List.range 4) fun s b => s.inputLine (.edge b) (·.resetEdge b)

/-! ### Completion (R505) -/

/-- Whether a unit is ready to run again: an input unit has reached its resume phase, the storage port has no program on the
wire, and no job still runs on the engine. -/
def State.resetDone (s : State) (u : UnitOf) (f : Fence) : Bool :=
  match u with
  | .csp _ | .sent _ | .edge _ => f.step == .resume
  | .csp8 => s.csp8.busy.all (·.isNone)
  | .thresher => (List.range 4).all fun n => (s.ctx n).job.isNone
  | .thrctx n => (s.ctx n).job.isNone
  | _ => true

/-- What the reset of a unit leaves, once its fence is down; the failures that a reset returns from are cleared (01 Table
AR-7). -/
def State.restoreUnit (s : State) (u : UnitOf) : State :=
  match u with
  | .csp _ | .sent _ | .edge _ => s
  | .csp8 => (((s.modCsp8 fun c => { c with status := [0, 0], lastAccess := s.tm.now }).nextProgram 0).nextProgram 1).resumeLoads
  | .twt k => s.modTwt k fun _ => {}
  | .usb => s.fail 11 fun f => { f with usb := false }
  | .hub _ => s.settleHub
  | .yoke =>
    let s := s.fail 12 fun f => { f with yoke := false }
    if s.isLead then s
    else
      let s := if s.yoke.linkState == 4 || s.yoke.linkState == 5 then s.dropOut else s
      s.modYoke fun y => { y with
        linkState := if s.seeks then 3 else 0
        beacons := 0
        attempts := 0
        repeating := true
        stopRepeating := false }
  | .thresher => (s.each (List.range 4) State.clearObjects).fail 12 fun f => { f with thr := false }
  | .thrctx n => (s.clearObjects n).dispatch

/-- When the reset of a unit ends at the earliest: a hub port keeps PPE low for 100 ms (09 R329); the storage port, once no program
runs, pulses RST_N and waits 100 µs (05 R187). -/
def State.resetEnd (s : State) (u : UnitOf) (f : Fence) : Nat := match u with
  | .hub _ => f.since + ticksMs 100
  | .csp8 => max f.since s.csp8.lastAccess + (if s.flag (nCSP 8) 0 7 then ticksUs 10 else 0) + ticksUs 100
  | _ => f.since

/-- A reset unit runs again: the completion with its counts, event 62 and a UNIT_RESET record (R505). -/
def execUnitResetComplete (noun : BitVec 16) (s : State) : Host.Outcome State Fault Refusal :=
  match unitOf noun.toNat with
  | none => .next s
  | some u => match s.fenceOf u with
    | none => .next s
    | some f =>
      if !s.resetDone u f then .next s
      else
        let s := ((s.at (s.resetEnd u f)).setFence u none).restoreUnit u
        let s := s.log 0x72 noun.toNat 0 stOk
        .next ((s.complete f.ticket stOk (leBytes 6 s.tm.period ++ leBytes 2 f.ended ++ leBytes 2 f.discarded)).raise 62)

end Sys2Proof.Machine
end

