-- ==== Sys2Proof/Machine/Update.lean ====
section
/-! DEFINITION. Firmware replacement: UPDATE_STAGE, UPDATE_SWAP, the swap line and the trial (14 R509 to R521). -/

namespace Sys2Proof.Machine

/-! ### Staging (R510 to R514, R516) -/

/-- The reply of UPDATE_STAGE (Table HW-8). -/
def State.stagingReply (s : State) (slot detail received : Nat) : List Byte :=
  leBytes 1 slot ++ leBytes 1 (s.slotState.get slot) ++ leBytes 1 detail ++ [0] ++ leBytes 4 received

/-- The slot that a begin names: 0 is the slot not running, or in ROM service the active one (R510, R516). -/
def State.beginSlot (s : State) (named : Nat) : Nat :=
  if named != 0 then named
  else if s.boot.runningFrom = 0 then (if s.slotState.active = 2 then 2 else 1) else 3 - s.boot.runningFrom

/-- The length of a request with its op: a chunk has 1 to 4 064 data bytes. -/
def stageLenOk (r : Req) : Bool :=
  if pf r 0 1 = 1 then 9 ≤ r.length.toNat && r.length.toNat ≤ 4072 else r.length.toNat == 8

/-- The checks of step 11 for each op; ops 1 to 3 need the channel's open staging. Bytes that belong to another op are not
looked at: byte 1 in ops 1 to 3, bytes 4 to 7 in ops 2 and 3 (DESIGN CHOICE, log 95). -/
def State.stageFieldOk (s : State) (r : Req) : Bool :=
  let n := pf r 4 4
  pz r 2 2 && match pf r 0 1 with
    | 0 => pf r 1 1 ≤ 2 && s.beginSlot (pf r 1 1) != s.boot.runningFrom && 1024 ≤ n && n ≤ 0x400000
    | 1 => s.upd.staging.any fun g => n == g.received && n + (r.length.toNat - 8) ≤ g.length
    | 2 => s.upd.staging.any fun g => g.received == g.length
    | 3 => s.upd.staging.isSome
    | _ => false

/-- A begin is refused while a staging is open; every op from a channel other than its owner; a finish while a begin or a finish
is under way. -/
def State.stageBusy (s : State) (r : Req) : Bool :=
  match s.upd.staging with
  | none => false
  | some g => pf r 0 1 == 0 || g.ch != r.ch || (pf r 0 1 == 2 && g.op.isSome)

/-- The execution of an accepted op. -/
def State.stageOp (s : State) (r : Req) (t : Ticket) : State × Answer :=
  match pf r 0 1, s.upd.staging with
  | 0, _ =>
    let slot := s.beginSlot (pf r 1 1)
    let s := s.saveSlots (s.slotState.set slot 1)
    let g : Staging := { ch := r.ch, slot, length := pf r 4 4, received := 0, lastRequest := s.tm.now, chunks := [], op := some (t, 0) }
    (s.modUpd fun u => { u with staging := some g }, .accept (s.stagingReply slot 0 0))
  | 1, some g =>
    let data := r.payload.drop 8
    let g := { g with received := g.received + data.length, lastRequest := s.tm.now, chunks := g.chunks ++ [(t, pf r 4 4, data)] }
    (s.modUpd fun u => { u with staging := some g }, .accept (s.stagingReply g.slot 0 g.received))
  | 2, some g =>
    (s.modUpd fun u => { u with staging := some { g with lastRequest := s.tm.now, op := some (t, 2) } }, .accept (s.stagingReply g.slot 0 g.received))
  | _, some g => ((s.endStaging stAborted).1, .accept (s.stagingReply g.slot 0 g.received))
  | _, none => (s, .done stField [])

/-- UPDATE_STAGE with any op. -/
def State.stageVerb (s : State) (r : Req) : State :=
  s.serve 0x50 r (stageLenOk r)
    (fun s => [noNoun r, s.heldRoom r, s.noFallow, (s.upd.swap.isNone && !s.stageBusy r, stBusy), (s.stageFieldOk r, stField)])
    fun s t => s.stageOp r t

def execUpdateStageBegin (r : Req) (s : State) : Host.Outcome State Fault Refusal := .next (s.stageVerb r)
def execUpdateStageChunk (r : Req) (s : State) : Host.Outcome State Fault Refusal := .next (s.stageVerb r)
def execUpdateStageFinish (r : Req) (s : State) : Host.Outcome State Fault Refusal := .next (s.stageVerb r)

/-- Abandon has nothing to wait for: its completion follows the ACCEPTED reply at once (R510; 02 R63). -/
def State.settleAbandon (s : State) (ch : Nat) : State :=
  match (nth {} s.mb.chans ch).held.find? fun h => h.verb == 0x50 && h.accepted && pf h.req 0 1 == 3 with
  | some h =>
    let c := (nth {} s.mb.chans ch).cache.find? (·.1 == h.id)
    s.complete ⟨h.req.ch, h.id⟩ stOk ((c.map (·.2.payload)).getD [])
  | none => s

def execUpdateStageAbandon (r : Req) (s : State) : Host.Outcome State Fault Refusal :=
  .next ((s.stageVerb r).settleAbandon r.ch.val)

/-- A staging with no request for 60 s is abandoned (R511). -/
def execStagingTimeout (s : State) : Host.Outcome State Fault Refusal :=
  match s.upd.staging with
  | some g => .next ((s.at (g.lastRequest + ticksS 60)).endStaging stAborted).1
  | none => .next s

/-! ### What the storage port and the steward complete (R511, R513, R514) -/

/-- The image area of a begin erased, in sectors of 4 KiB. -/
def State.eraseImage (s : State) (slot length : Nat) : State :=
  s.modMem fun m => { m with nor := Memory.clearRange m.nor (imageAt slot) (4096 * ceilDiv length 4096) }

/-- A chunk written. -/
def State.programChunk (s : State) (slot off : Nat) (data : List Byte) : State :=
  data.zipIdx.foldl (fun s (b, i) => s.programByte 0 (imageAt slot + off + i) b) s

/-- The code of a finished image: the checks of R456, and 6 where a further part fails its hash. -/
def State.finishCode (s : State) (g : Staging) : Nat :=
  let c := s.imageCode g.slot
  if c != 0 then c else if Config.partsOk (s.nor (imageAt g.slot) g.length) then 0 else 6

/-- The end of a finish. A success clears the exclusion of its slot (R514, R516). -/
def State.finishStaging (s : State) (t : Ticket) (g : Staging) : State :=
  let code := s.finishCode g
  let s := (s.modUpd fun u => { u with staging := none }).saveSlots (s.slotState.set g.slot (if code = 0 then 2 else 3))
  let reply := s.stagingReply g.slot code g.received
  if code = 0 then
    let s := s.modBoot fun b => { b with excluded := b.excluded.filter (· != g.slot) }
    ((s.log 0x70 nSYS g.slot 1).raise 56).complete t stOk reply
  else s.complete t stField reply

/-- A chunk failed to program: its completion is FAULT, later chunks complete with ABORTED, and bytes_received falls back (R513).
What the failed chunk left is taken as erased (log 61). -/
def State.failChunk (s : State) (t : Ticket) (off : Nat) (rest : List (Ticket × Nat × List Byte)) (g : Staging) : State :=
  let s := s.modUpd fun u => { u with staging := some { g with received := off, chunks := [] } }
  let s := s.complete t stFault (s.stagingReply g.slot 0 off)
  rest.foldl (fun s (t, _, _) => s.complete t stAborted (s.stagingReply g.slot 0 off)) s

/-- The oldest accepted op ends: an erase, the program of a chunk in offset order, or the verification of an image. A flash error
completes it with FAULT. While SS0 is busy or the port fenced it waits (05 R178). -/
def execUpdateStageCompletion (flashOk : Bool) (s : State) : Host.Outcome State Fault Refusal :=
  if s.selectWaits 0 then .next s
  else match s.upd.staging with
  | none => .next s
  | some g =>
    match g.op, g.chunks with
    | some (t, 0), _ =>
      if flashOk then
        let s := (s.eraseImage g.slot g.length).modUpd fun u => { u with staging := some { g with op := none } }
        .next (s.complete t stOk (s.stagingReply g.slot 0 g.received))
      else .next ((s.modUpd fun u => { u with staging := none }).complete t stFault (s.stagingReply g.slot 0 0))
    | _, (t, off, data) :: rest =>
      if flashOk then
        let s := (s.programChunk g.slot off data).modUpd fun u => { u with staging := some { g with chunks := rest } }
        .next (s.complete t stOk (s.stagingReply g.slot 0 g.received))
      else .next (s.failChunk t off rest g)
    | some (t, _), [] =>
      if flashOk then .next (s.finishStaging t g)
      else .next ((s.modUpd fun u => { u with staging := some { g with op := none } }).complete t stFault (s.stagingReply g.slot 0 g.received))
    | none, [] => .next s

/-! ### UPDATE_SWAP (R515 to R519) -/

/-- The slot that a swap starts: the one not running, or in ROM service one in state 2, slot A when both are. -/
def State.swapSlot (s : State) : Option Nat :=
  let x := s.slotState
  if s.boot.runningFrom = 0 then (if x.get 1 = 2 then some 1 else if x.get 2 = 2 then some 2 else none)
  else if x.get (3 - s.boot.runningFrom) = 2 then some (3 - s.boot.runningFrom) else none

/-- In ROM service there is no swap line: the steward restarts from the boot ROM at once (R516). -/
def State.romSwap (s : State) : State :=
  let s := s.modLev fun l => { l with fail := { l.fail with rom := false } }
  s.modBoot fun b => { b with
    phase := .rom
    kind := .reset
    cause := 4
    bootCount := satAdd 32 b.bootCount 1
    readyAt := s.tm.now }

def execUpdateSwap (r : Req) (s : State) : Host.Outcome State Fault Refusal :=
  .next (s.serve 0x51 r (r.length.toNat == 4)
    (fun s => [noNoun r, s.heldRoom r, s.noFallow, s.notDetached, (!s.anyFence && s.upd.staging.isNone && s.upd.swap.isNone, stBusy),
      (pf r 0 1 ≤ 1 && pz r 1 3 && s.swapSlot.isSome, stField)])
    fun s t =>
      match s.swapSlot with
      | none => (s, .done stField [])
      | some slot =>
        let trial := pf r 0 1 == 1
        let s := s.saveSlots { s.slotState with active := slot, trial }
        let s := s.modUpd fun u => { u with swap := some (t, slot, trial), result := none }
        (if s.boot.phase == .romService then s.romSwap else s, .hold))

/-! ### The swap line (Table HW-9, R517; 08 R294) -/

/-- A request that a two-wire target has received and the steward has not taken, as a command operand. -/
def parseReq (v2 : Bool) (ch : Channel) (b : List Byte) : Nat × Req :=
  let nat (off n : Nat) := leAt b off n
  if v2 then
    (nat 4 1, { ch, tag := BitVec.ofNat 16 (nat 2 2), flags := BitVec.ofNat 8 (nat 5 1), noun := BitVec.ofNat 16 (nat 6 2),
                index := BitVec.ofNat 16 (nat 8 2), length := BitVec.ofNat 16 (nat 10 2), epoch := BitVec.ofNat 32 (nat 12 4),
                payload := b.drop 16 })
  else
    (nat 2 1, { ch, tag := 0, flags := 0, noun := BitVec.ofNat 16 (nat 4 2), index := BitVec.ofNat 16 (nat 6 2),
                length := BitVec.ofNat 16 (nat 8 1), epoch := 0, payload := b.drop 12 })

/-- A request received and not taken, through steps 1 to 3 of 02 Table MB-4: a bad frame is discarded and counted, a repeat is
answered from the cache or the history, and a new one is held, to be marked (02 R56 to R58). -/
def State.holdFrame (s : State) (ch : Channel) (b : List Byte) : State :=
  if !frameOk s.mb.v2 b then s.bump nSYS 12 0 16
  else
    let (verb, r) := parseReq s.mb.v2 ch b
    let t := s.received verb r
    match (if s.mb.v2 then (nth {} t.mb.chans ch.val).history.find? (·.tag == r.tag.toNat) else none) with
    | some h => t.replay verb r h
    | none => s.entered verb r

/-- Requests received and not taken, in their order. -/
def State.holdReceived (s : State) (ch : Channel) : State :=
  let rx := (nth {} s.mb.chans ch.val).rx
  rx.foldl (fun s b => s.holdFrame ch b) (s.modChan ch.val fun c => { c with rx := [] })

/-- A Thresher job stopped by a swap: its completion is kept for the time after the swap (08 R294). -/
def State.parkJob (s : State) (n : Nat) : State :=
  let c := s.ctx n
  match c.job with
  | none => s
  | some j =>
    let s := match j.ticket with
      | some t => s.modUpd fun u => { u with marked := u.marked ++ [(t, jobReply n c j 9)] }
      | none => s
    (s.modCtx n fun c => { c with job := c.job.map fun j => { j with ticket := none } }).endJob n 9

/-- Every open request but the swap's own marked. -/
def State.markRequests (s : State) (own : Ticket) : State :=
  let held := (List.range 4).flatMap fun ch => (nth {} s.mb.chans ch).held.map fun h => (⟨h.req.ch, h.id⟩ : Ticket)
  s.modUpd fun u => { u with
    marked := u.marked ++ (held.filter fun t => t != own && !(u.marked.any fun m => m.1 == t)).map fun t => (t, []) }

/-- The swap line: the channels stop, what is open is marked, episodes and jobs end, CSP8 is pulsed, and the boot ROM takes the
new slot (R517). The shadow is discarded with a COMMIT that waits (02, Collisions). -/
def State.swapAtLine (s : State) : State :=
  match s.upd.swap with
  | none => s
  | some (t, _, _) =>
    if s.upd.swapLine.isSome || !s.ready then s
    else
      let s := [0, 1, 2, 3].foldl State.holdReceived s
      let s := s.stewardEnds
      let s := s.each (List.range 4) State.parkJob
      let s := (s.each (List.range 4) State.clearObjects).markRequests t
      let s := s.stopStorage.modYoke fun y => { y with forwards := [] }
      let s := s.modPw fun p => { p with powers := [] }
      let s := s.modMb fun m => { m with
        shadow := if m.commit.isSome then none else m.shadow
        commit := none
        legacy := []
        run := m.run.filter (·.ticket.isNone) }
      let s := s.modBoot fun b => { b with
        phase := .rom
        kind := .swap
        cause := 4
        bootCount := satAdd 32 b.bootCount 1
        readyAt := s.tm.now }
      s.modUpd fun u => { u with swapLine := some s.tm.period }

/-! ### The trial (R520) -/

/-- 60 s after the mailboxes became ready the steward clears trial. -/
def execTrialClear (s : State) : Host.Outcome State Fault Refusal :=
  match s.upd.trialSince with
  | some t =>
    if !s.ready || s.selectWaits 0 then .next s
    else .next (((s.at (t + ticksS 60)).saveSlots { s.slotState with trial := false }).modUpd fun u => { u with trialSince := none })
  | none => .next s

end Sys2Proof.Machine
end

