-- ==== Sys2Proof/Machine/Period.lean ====
section
/-! DEFINITION. The capture line: the period that ends is published or dropped, the number advances, grants, sets, START, STOP and
legacy writes take effect, and the entries of the new period begin (01 R16 to R24, R28 to R32, R48; 02 R77, R79; 04 R126, R131 to
R134, R137, R145 to R149; 05 R172, R186; 06 R204; 08 R279; 10 R348, R365, R370, R373; 11 R402; 14 R494, R498, R517). -/

namespace Sys2Proof.Machine

/-- Whether period q has come by period p: a named period that a jump of the number passed has come too. -/
def reached (q p : Nat) : Bool := decide (periodsFrom q p < 2 ^ 47)

/-! ### The period that ends (01 R28 to R32; 06 R218; 09 R309) -/

/-- The sheaf of the period published or dropped, and taken by the streams; the period of the sheaf published. -/
def State.endPeriod (s : State) : State × Option Nat :=
  let n := s.sheaf.published
  let s := s.endSheaf
  if s.sheaf.published = n then (s, none) else (s.each [0, 1] State.streamTake, some s.sheaf.lastPeriod)

/-! ### The line (01 R17, R24, R25; 10 R348, R365) -/

/-- A position without the segment of the period that ends. -/
def Position.noSegment (p : Position) : Position := { p with segment := none, waiting := none }

/-- The number advances, and what belongs to one period is cleared; a member takes its trim. -/
def State.beginLine (s : State) (e : LineEnd) (p : Nat) : State :=
  let s := s.modTm fun t => { t with
    lineSeen := true
    period := p
    capture := e.at'
    lines := t.lines + 1
    freeRun := e.freeRun
    edge := e.carry
    lineAt := none
    linePeriod := none }
  let s := s.modEv fun v => { v with inPeriod := 0 }
  let s := s.modDrill fun d => { d with abortedNow := 0, hardAt := d.hardAt.filter (· == s.tm.lines) }
  s.modYoke fun y => { y with
    positions := y.positions.map (·.noSegment)
    delayQ := ((y.delayQ : Int) + y.trim).toNat
    trim := 0
    repeating := y.repeating && !y.stopRepeating
    stopRepeating := false }

/-! ### Grants in a member (10 R370) -/

/-- A pending COMMIT checked again: where it now fails it is answered with that check's status, and the shadow stays open. -/
def State.recheckCommit (s : State) : State :=
  match s.mb.commit with
  | none => s
  | some c =>
    match (s.atApply c.named).checkSet (s.wordsWith c.shadow.words c.shadow.touched) false with
    | none => s
    | some f => ((s.modMb fun m => { m with commit := none }).complete c.ticket (reasonStatus f.reason) f.detail).raise 61

/-- A grant at its apply period: the lead's period and slot, with an epoch of their own. -/
def State.applyGrant (s : State) : State :=
  match s.yoke.grant with
  | none => s
  | some g =>
    if !reached g.apply s.tm.period then s
    else
      let s := s.modYoke fun y => { y with applied := some g, grant := none }
      let k := regKey nPERIOD 0
      let v := s.reg nPERIOD 0 - s.fld nPERIOD 0 0 13 + g.ticks / 1875 % 2 ^ 13
      (s.applySet (Tab.set resetWord [] k v) [k] (nextEpoch s.mb.epoch)).recheckCommit

/-! ### Sets, START, STOP and legacy writes (02 R77, R79; 04 R145 to R149; 01 R47, R48) -/

/-- Whether a checked set applies at the line that begins the period (02 R77). -/
def State.commitDue (s : State) (c : PendingCommit) : Bool :=
  match c.named with
  | some q => reached q s.tm.period
  | none => decide (c.ready ≤ s.tm.capture) && decide (c.notBefore ≤ s.tm.lines)

/-- The reply of a COMMIT that has applied (02 Table MB-7, R79). -/
def State.commitReply (s : State) : List Byte := leBytes 4 s.mb.epoch ++ leBytes 6 s.tm.period ++ [0, 0] ++ leBytes 4 s.sheaf.layout.id

/-- The framing that compat selects takes effect after the last reply now queued on a channel has been sent (01 R47). -/
def State.noteCompat (s : State) (ch : Nat) : State :=
  let v := s.framing
  if v == s.mb.v2 then s else s.modMb fun m => { m with compatNext := some (ch, (nth {} s.mb.chans ch).replies.length, v) }

/-- The write of a save at the line of its COMMIT, before the set applies: the copy carries the epoch applied so far (02 R80; 05
R185). -/
def State.saveSet (s : State) (c : PendingCommit) : State :=
  match c.save with
  | some ok => s.saveAutostart (s.wordsWith c.shadow.words c.shadow.touched) s.mb.epoch ok
  | none => s

/-- The checked set is saved, once the storage port is free (05 R178; log 96), where the COMMIT asks for it, and applies; the shadow ends, and the COMMIT is answered with the new
epoch. Where the write fails it is answered FAULT, nothing is applied, and the shadow stays open (R80). -/
def State.applyCommit (s : State) : State :=
  match s.mb.commit with
  | none => s
  | some c =>
    if !s.commitDue c || (c.save.isSome && s.selectWaits 0) then s
    else if c.save == some false then ((s.saveSet c).modMb fun m => { m with commit := none }).complete c.ticket stFault
    else
      let s := (s.saveSet c).applySet c.shadow.words c.shadow.touched (nextEpoch s.mb.epoch)
      let s := s.modMb fun m => { m with shadow := none, commit := none }
      (s.complete c.ticket stOk s.commitReply).noteCompat c.ticket.ch.val

/-- A position without the member's last body: its fields have been FRESH in no sheaf since START (01 R34). -/
def Position.forgetBody (p : Position) : Position := { p with lastBody := [], lastLine := 0, lastFields := [] }

/-- START takes effect: every held value is dropped, a member's too; a halt after a hard fault ends (04 R145; 01 Table AR-7). Without its clock
the drill waits halted (12 R442). -/
def State.startDrill (s : State) : State :=
  let s := s.modDrill fun d => { d with mode := if s.lev.fail.rc then 2 else 1, dead := false, hardAt := none }
  let s := (s.modSheaf fun h => { h with held := [] }).modTm fun t => { t with earlyCount := 0 }
  let s := s.modYoke fun y => { y with positions := y.positions.map (·.forgetBody) }
  if s.lev.fail.drill then s.fail 10 fun f => { f with drill := false } else s

/-- STOP takes effect (04 R146). -/
def State.stopDrill (s : State) : State := s.modDrill fun d => { d with mode := 0, hardAt := none }

/-- A pending START or STOP at its line. -/
def State.applyRun (s : State) : State :=
  match s.mb.run with
  | none => s
  | some r =>
    if !(r.named.all fun q => reached q s.tm.period) then s
    else
      let s := s.modMb fun m => { m with run := none }
      let s := if r.start then s.startDrill else s.stopDrill
      s.completeOpt r.ticket stOk (runReply s.tm.period)

/-- One write under framing v1 applied and answered (01 R48; 02 R83). -/
def State.applyLegacyWrite (s : State) (w : LegacyWrite) : State :=
  ((s.applyWord w.key w.value).complete w.ticket stOk [1, 0, 0, 0]).noteCompat w.ticket.ch.val

/-- Every write that waits under framing v1. -/
def State.applyLegacy (s : State) : State :=
  s.mb.legacy.foldl State.applyLegacyWrite (s.modMb fun m => { m with legacy := [] })

/-- A drill halted for lack of clock resumes once the PLL has relocked (12 R443). -/
def State.resumeDrill (s : State) : State :=
  if s.drill.mode == 2 && !s.lev.fail.rc then s.modDrill fun d => { d with mode := 1 } else s

/-! ### Recovery frames (04 R131, R133, R146) -/

/-- Fences move on, and every held chain shifts its recovery frame while there is a clock for it. -/
def State.beginRecovery (s : State) : State :=
  let s := s.fenceLine
  if s.lev.fail.rc then s
  else s.each (List.range 8) fun s k =>
    match (nth {} s.csp k).chain with
    | some h => if h.since.isNone then s.startRecovery k else s
    | none => s

/-! ### Entries (04 R126, R132, R134; 05 R172, R186; 10 R373) -/

/-- The unit of an entry is off or fenced, so that its fields are ABSENT (04 Table DR-5). -/
def State.unitGone (s : State) (f e : Nat) : Bool :=
  let t := entTarget s.reg f e
  if f < 8 then fencedOut (nth {} s.csp f).fence || !s.cspOn f
  else if entType s.reg f e == 4 then fencedOut (nth {} s.banks t).fence || !s.edgeBankOn t
  else fencedOut (nth {} s.sent t).fence || !s.sentOn t

/-- A held chain keeps an entry from running: the held entry; where a set has been applied since its abort, every entry of the new
furrow whose offset lies before the end of the recovery frame plus 12 ticks, scheduled in the period or not, and no other
(R132, R134). -/
def State.recovers (s : State) (f e : Nat) : Bool :=
  f < 8 && match (nth {} s.csp f).chain with
    | some h => if h.old then entOffset s.reg f e < h.ticks + 12 else h.entry == e
    | none => false

/-- An entry of a joined member that would end after the limit its grant leaves (10 R373). -/
def State.pastLimit (s : State) (f e : Nat) : Bool :=
  match memberLimit s.yoke s.sheaf.layout with
  | some l => s.isMember && l < entOffset s.reg f e + entDuration s.reg f e
  | none => false

/-- The TX buffer of an entry has not been read by the line (05 R172). -/
def State.txMissed (s : State) (f e : Nat) : Bool :=
  f < 8 && entType s.reg f e == 1 && (s.profile f e).txSource == 2 && !(s.entry f e).txReady

/-- Where an entry stands as its period begins. -/
def State.beginPhase (s : State) (f e : Nat) : EntryPhase :=
  if !s.drillOn || !entUsed s.reg f e then .notDue
  else if s.unitGone f e then .absent
  else if s.recovers f e then .skipped
  else if !entDue s.reg f e s.tm.period then .notDue
  else if s.pastLimit f e || s.txMissed f e then .skipped
  else .waiting

/-- The run-time state of an entry in a new period: nothing of the last one stays but its outcome, the end of the last period in
which it ran, and a TX buffer (01 R20; 04 Table DR-2). -/
def EntryRt.begun (r : EntryRt) (ph : EntryPhase) : EntryRt :=
  { phase := ph
    lastEnd := r.lastEnd
    lastOutcome := if ph == .absent then 5 else if ph == .skipped then 4 else r.lastOutcome
    tx := r.tx }

/-- Missed TX buffers reported by their ports (05 R172, R173). -/
def State.reportMissed (s : State) (missed : List (Nat × Nat)) : State :=
  missed.foldl (fun s (f, _) => (s.log 0x12 (nCSP f) 0 4).portFault f) s

/-- Event 61 and a COMMIT record while the applied set does not fit the grant (10 R373). -/
def State.reportUnfit (s : State) : State :=
  let f : Failure :=
    { reason := 2, noun := nYOKE, word := 0, required := needOf s.reg s.sheaf.layout
      available := (s.yoke.applied.map fun g => transmitTicks g s.yoke.position s.yoke.delayQ).getD 0 }
  (s.log 0x71 nYOKE 0 0 f.detail).raise 61

/-- Every entry begins its period afresh (01 R20; 04 R126). -/
def State.beginEntries (s : State) : State :=
  let es := usedEntries s.reg
  let missed := es.filter fun (f, e) => s.beginPhase f e == .skipped && !s.recovers f e && !s.pastLimit f e
  let unfit := s.drillOn && es.any fun (f, e) => s.pastLimit f e
  let rts := s.drill.entries.zipIdx.map fun (r, i) => r.begun (s.beginPhase (i / 32) (i % 32))
  let levels := (List.range 4).map fun b => s.bankBits b (·.level)
  let s := (s.modDrill fun d => { d with entries := rts, polled := d.mode == 1, spoiled := false }).modSheaf fun h => { h with levels }
  (s.reportMissed missed).ite unfit (·.reportUnfit)

/-- An edge carried into the period that will be held as early counts as one (01 R24, R25). -/
def State.countCarried (s : State) : State :=
  if s.tm.edge.isSome && s.nextLine.early then
    (s.bump nPERIOD 5 0 16).modTm fun m => { m with earlyCount := m.earlyCount + 1 }
  else s

/-! ### FALLOW at P_c (11 R402; 10 R378, R380) -/

/-- The entry into FALLOW or DEEP FALLOW at its period: of a device alone or a lead, or of a member that has agreed. It waits until no
fault is queued (07 Table PM-9). -/
def State.fallowLine (s : State) : State :=
  match s.pw.fallow, s.yoke.agreed with
  | some f, _ => if (f.entry.any fun q => reached q s.tm.period) && s.mem.faults.isEmpty then s.enterFallow f.deep f.sleepMs false f.latched else s
  | none, some (_, deep, ms, _, some q) => if reached q s.tm.period && s.mem.faults.isEmpty then s.enterFallow deep ms true s.yoke.latched else s
  | none, _ => s

/-! ### CAPTURE_LINE -/

/-- A capture line: nothing falls while the timebase does not count, or after a wake before it is realigned (01 R14, R17; 12
R449). What happens at one line follows the order of chapter 95. -/
def execCaptureLine (s : State) : Host.Outcome State Fault Refusal :=
  if !s.clocked || s.pw.waking then .next s
  else
    let e := s.nextLine
    let p := s.nextPeriod
    let previous := s.tm.period
    let (s, pub) := (s.at e.at').endPeriod
    let s := (s.beginLine e p).applyGrant.applyCommit.applyRun.applyLegacy
    let s := s.resumeDrill.beginRecovery.beginEntries.countCarried
    let s := (s.samples pub).carryPowers.detachLine.fallowLine
    .next ((s.swapAtLine.harrowLine previous).settleInt)

end Sys2Proof.Machine
end

