-- ==== Sys2Proof/Machine/Dispatch.lean ====
section
/-! DEFINITION. The effect of each command on everything but the queue: one arm per constructor of Instr. -/

namespace Sys2Proof.Machine

def exec (i : Instr) (s : State) : Host.Outcome State Fault Refusal :=
  match i with
  | .badFrame ch magic version => Sys2Proof.Machine.execBadFrame ch magic version s
  | .describe r => Sys2Proof.Machine.execDescribe r s
  | .get r => Sys2Proof.Machine.execGet r s
  | .stage r => Sys2Proof.Machine.execStage r s
  | .commit r checkTicks saveOk => Sys2Proof.Machine.execCommit r checkTicks saveOk s
  | .discard r => Sys2Proof.Machine.execDiscard r s
  | .start r => Sys2Proof.Machine.execStart r s
  | .stop r => Sys2Proof.Machine.execStop r s
  | .carveAllocate r => Sys2Proof.Machine.execCarveAllocate r s
  | .carveRelease r => Sys2Proof.Machine.execCarveRelease r s
  | .carveQuery r => Sys2Proof.Machine.execCarveQuery r s
  | .snap r reused => Sys2Proof.Machine.execSnap r reused s
  | .events r => Sys2Proof.Machine.execEvents r s
  | .almanacRead r => Sys2Proof.Machine.execAlmanacRead r s
  | .almanacMark r => Sys2Proof.Machine.execAlmanacMark r s
  | .almanacClearFirst r => Sys2Proof.Machine.execAlmanacClearFirst r s
  | .thrLoadInlineChunk r => Sys2Proof.Machine.execThrLoadInlineChunk r s
  | .thrLoadFromStore r => Sys2Proof.Machine.execThrLoadFromStore r s
  | .thrUnload r => Sys2Proof.Machine.execThrUnload r s
  | .thrAllocate r => Sys2Proof.Machine.execThrAllocate r s
  | .thrSubmit r => Sys2Proof.Machine.execThrSubmit r s
  | .thrCancel r => Sys2Proof.Machine.execThrCancel r s
  | .thrStatus r => Sys2Proof.Machine.execThrStatus r s
  | .thrReturn r => Sys2Proof.Machine.execThrReturn r s
  | .yokeCtlForward r => Sys2Proof.Machine.execYokeCtlForward r s
  | .yokeCtlStatus r => Sys2Proof.Machine.execYokeCtlStatus r s
  | .yokeCtlRelease r => Sys2Proof.Machine.execYokeCtlRelease r s
  | .yokeCtlRerange r => Sys2Proof.Machine.execYokeCtlRerange r s
  | .yokeCtlLeave r => Sys2Proof.Machine.execYokeCtlLeave r s
  | .fallow r => Sys2Proof.Machine.execFallow r s
  | .wakeCancel r => Sys2Proof.Machine.execWakeCancel r s
  | .wakeHold r => Sys2Proof.Machine.execWakeHold r s
  | .harrowArm r => Sys2Proof.Machine.execHarrowArm r s
  | .harrowSet r => Sys2Proof.Machine.execHarrowSet r s
  | .harrowDisarmSlots r => Sys2Proof.Machine.execHarrowDisarmSlots r s
  | .harrowDisarmAll r => Sys2Proof.Machine.execHarrowDisarmAll r s
  | .harrowSeal r => Sys2Proof.Machine.execHarrowSeal r s
  | .updateStageBegin r => Sys2Proof.Machine.execUpdateStageBegin r s
  | .updateStageChunk r => Sys2Proof.Machine.execUpdateStageChunk r s
  | .updateStageFinish r => Sys2Proof.Machine.execUpdateStageFinish r s
  | .updateStageAbandon r => Sys2Proof.Machine.execUpdateStageAbandon r s
  | .updateSwap r => Sys2Proof.Machine.execUpdateSwap r s
  | .resetUnit r => Sys2Proof.Machine.execResetUnit r s
  | .detach r => Sys2Proof.Machine.execDetach r s
  | .powerQuery r => Sys2Proof.Machine.execPowerQuery r s
  | .powerSetBanks r => Sys2Proof.Machine.execPowerSetBanks r s
  | .twtRequestWrite target data pec => Sys2Proof.Machine.execTwtRequestWrite target data pec s
  | .twtReplyRead target clocked pecClocked => Sys2Proof.Machine.execTwtReplyRead target clocked pecClocked s
  | .twtRegisterRead target pointer count => Sys2Proof.Machine.execTwtRegisterRead target pointer count s
  | .twtRegisterWrite target pointer data => Sys2Proof.Machine.execTwtRegisterWrite target pointer data s
  | .virtualTargetRead address pointer count => Sys2Proof.Machine.execVirtualTargetRead address pointer count s
  | .twtBusTimeout target => Sys2Proof.Machine.execTwtBusTimeout target s
  | .ep2ReplyRead => Sys2Proof.Machine.execEp2ReplyRead s
  | .shadowTimeout => Sys2Proof.Machine.execShadowTimeout s
  | .captureLine => Sys2Proof.Machine.execCaptureLine s
  | .syncInEdge t => Sys2Proof.Machine.execSyncInEdge t s
  | .recoveryFrameEnd port => Sys2Proof.Machine.execRecoveryFrameEnd port s
  | .entryLaunch furrow entry => Sys2Proof.Machine.execEntryLaunch furrow entry s
  | .entryComplete furrow entry sdi t => Sys2Proof.Machine.execEntryComplete furrow entry sdi t s
  | .deadlineAbort furrow entry clocked wireDone => Sys2Proof.Machine.execDeadlineAbort furrow entry clocked wireDone s
  | .startBitTimeout port entry => Sys2Proof.Machine.execStartBitTimeout port entry s
  | .assemblyStart => Sys2Proof.Machine.execAssemblyStart s
  | .assemblyComplete => Sys2Proof.Machine.execAssemblyComplete s
  | .txPrefetchComplete port entry => Sys2Proof.Machine.execTxPrefetchComplete port entry s
  | .drillHardFault assembler => Sys2Proof.Machine.execDrillHardFault assembler s
  | .slaveTransactionStart port => Sys2Proof.Machine.execSlaveTransactionStart port s
  | .slaveTransactionEnd port units starved => Sys2Proof.Machine.execSlaveTransactionEnd port units starved s
  | .norWindowWrite agent sel offset data => Sys2Proof.Machine.execNorWindowWrite agent sel offset data s
  | .norGatherEnd sel => Sys2Proof.Machine.execNorGatherEnd sel s
  | .norStatusPoll sel status => Sys2Proof.Machine.execNorStatusPoll sel status s
  | .norProgramDone sel => Sys2Proof.Machine.execNorProgramDone sel s
  | .programTimeout sel => Sys2Proof.Machine.execProgramTimeout sel s
  | .externalAccessTimeout agent sel vaddr index dir => Sys2Proof.Machine.execExternalAccessTimeout agent sel vaddr index dir s
  | .sentFrameEnd c pulses nextPulse syncEnd t => Sys2Proof.Machine.execSentFrameEnd c pulses nextPulse syncEnd t s
  | .sentAbsentTimeout c => Sys2Proof.Machine.execSentAbsentTimeout c s
  | .edgeSeen k level t => Sys2Proof.Machine.execEdgeSeen k level t s
  | .edgeAccept k => Sys2Proof.Machine.execEdgeAccept k s
  | .plotFault agent dir vaddr index ext => Sys2Proof.Machine.execPlotFault agent dir vaddr index ext s
  | .faultResolve => Sys2Proof.Machine.execFaultResolve s
  | .bankWakeComplete b => Sys2Proof.Machine.execBankWakeComplete b s
  | .bankWakeTimeout b => Sys2Proof.Machine.execBankWakeTimeout b s
  | .bankIdleGate b => Sys2Proof.Machine.execBankIdleGate b s
  | .eccScrub found => Sys2Proof.Machine.execEccScrub found s
  | .emul c upset => Sys2Proof.Machine.execEmul c upset s
  | .eadd c upset => Sys2Proof.Machine.execEadd c upset s
  | .esub c => Sys2Proof.Machine.execEsub c s
  | .emac c => Sys2Proof.Machine.execEmac c s
  | .ntt c => Sys2Proof.Machine.execNtt c s
  | .intt c => Sys2Proof.Machine.execIntt c s
  | .automorph c => Sys2Proof.Machine.execAutomorph c s
  | .baseconv c => Sys2Proof.Machine.execBaseconv c s
  | .rescale c => Sys2Proof.Machine.execRescale c s
  | .decomp c => Sys2Proof.Machine.execDecomp c s
  | .polyeval c upset => Sys2Proof.Machine.execPolyeval c upset s
  | .feature c => Sys2Proof.Machine.execFeature c s
  | .rerand c => Sys2Proof.Machine.execRerand c s
  | .handoff c => Sys2Proof.Machine.execHandoff c s
  | .zero c => Sys2Proof.Machine.execZero c s
  | .drop c => Sys2Proof.Machine.execDrop c s
  | .endIteration c => Sys2Proof.Machine.execEndIteration c s
  | .preemptionPoint => Sys2Proof.Machine.execPreemptionPoint s
  | .timeSliceExpiry => Sys2Proof.Machine.execTimeSliceExpiry s
  | .laneIdleGate => Sys2Proof.Machine.execLaneIdleGate s
  | .handoffTimeout c => Sys2Proof.Machine.execHandoffTimeout c s
  | .thrLoadOwnerTimeout c id => Sys2Proof.Machine.execThrLoadOwnerTimeout c id s
  | .markerSend => Sys2Proof.Machine.execMarkerSend s
  | .markerReceived m t => Sys2Proof.Machine.execMarkerReceived m t s
  | .mbx f fragment => Sys2Proof.Machine.execMbx f fragment s
  | .joinAccept f serial g => Sys2Proof.Machine.execJoinAccept f serial g s
  | .range f tTaNs => Sys2Proof.Machine.execRange f tTaNs s
  | .setDelay f d => Sys2Proof.Machine.execSetDelay f d s
  | .trim f correction => Sys2Proof.Machine.execTrim f correction s
  | .grant f g => Sys2Proof.Machine.execGrant f g s
  | .quarantine f => Sys2Proof.Machine.execQuarantine f s
  | .release f => Sys2Proof.Machine.execRelease f s
  | .replyResend f offset => Sys2Proof.Machine.execReplyResend f offset s
  | .replyDone f => Sys2Proof.Machine.execReplyDone f s
  | .fallowPropose f id deep sleepMs => Sys2Proof.Machine.execFallowPropose f id deep sleepMs s
  | .fallowCommit f id pc => Sys2Proof.Machine.execFallowCommit f id pc s
  | .fallowAbort f id => Sys2Proof.Machine.execFallowAbort f id s
  | .segmentSend => Sys2Proof.Machine.execSegmentSend s
  | .segmentReceived position start g => Sys2Proof.Machine.execSegmentReceived position start g s
  | .joinRequestSend => Sys2Proof.Machine.execJoinRequestSend s
  | .joinRequestReceived position serial crcOk => Sys2Proof.Machine.execJoinRequestReceived position serial crcOk s
  | .trimRunEnd => Sys2Proof.Machine.execTrimRunEnd s
  | .memberLost position => Sys2Proof.Machine.execMemberLost position s
  | .releaseRetryTimer => Sys2Proof.Machine.execReleaseRetryTimer s
  | .orphanTimeout => Sys2Proof.Machine.execOrphanTimeout s
  | .acceptLapse => Sys2Proof.Machine.execAcceptLapse s
  | .commitMarkerMissing => Sys2Proof.Machine.execCommitMarkerMissing s
  | .wakeBurstDetected => Sys2Proof.Machine.execWakeBurstDetected s
  | .listenWindow heard => Sys2Proof.Machine.execListenWindow heard s
  | .wakeSource bit => Sys2Proof.Machine.execWakeSource bit s
  | .sleepTimerExpiry => Sys2Proof.Machine.execSleepTimerExpiry s
  | .fallowResume crcOk => Sys2Proof.Machine.execFallowResume crcOk s
  | .vinUvloRise vin10mv vbakMv pins => Sys2Proof.Machine.execVinUvloRise vin10mv vbakMv pins s
  | .vinLowWarning vin10mv => Sys2Proof.Machine.execVinLowWarning vin10mv s
  | .vinUndervoltage vin10mv => Sys2Proof.Machine.execVinUndervoltage vin10mv s
  | .vinHighWarning vin10mv => Sys2Proof.Machine.execVinHighWarning vin10mv s
  | .vinOvervoltage vin10mv => Sys2Proof.Machine.execVinOvervoltage vin10mv s
  | .vinOvervoltageRecover vin10mv => Sys2Proof.Machine.execVinOvervoltageRecover vin10mv s
  | .vsysOverload => Sys2Proof.Machine.execVsysOverload s
  | .vsysCollapse => Sys2Proof.Machine.execVsysCollapse s
  | .bankSupplyLost b => Sys2Proof.Machine.execBankSupplyLost b s
  | .bankSupplyRestored b is1v8 => Sys2Proof.Machine.execBankSupplyRestored b is1v8 s
  | .thermalWarning => Sys2Proof.Machine.execThermalWarning s
  | .thermalShutdown => Sys2Proof.Machine.execThermalShutdown s
  | .thermalRestart => Sys2Proof.Machine.execThermalRestart s
  | .vbakMeasure vbakMv vresMv => Sys2Proof.Machine.execVbakMeasure vbakMv vresMv s
  | .alarmInput k rtc => Sys2Proof.Machine.execAlarmInput k rtc s
  | .backupRecordWrite => Sys2Proof.Machine.execBackupRecordWrite s
  | .alarmHoldoffEnd => Sys2Proof.Machine.execAlarmHoldoffEnd s
  | .backupWriteAbort => Sys2Proof.Machine.execBackupWriteAbort s
  | .prsntSettled => Sys2Proof.Machine.execPrsntSettled s
  | .emergencyDetach => Sys2Proof.Machine.execEmergencyDetach s
  | .detachRelease => Sys2Proof.Machine.execDetachRelease s
  | .detachCycle => Sys2Proof.Machine.execDetachCycle s
  | .resetNAssert => Sys2Proof.Machine.execResetNAssert s
  | .resetRelease pins => Sys2Proof.Machine.execResetRelease pins s
  | .watchdogPrewarning => Sys2Proof.Machine.execWatchdogPrewarning s
  | .watchdogExpiry => Sys2Proof.Machine.execWatchdogExpiry s
  | .bootImageVerify => Sys2Proof.Machine.execBootImageVerify s
  | .furtherPartFail part => Sys2Proof.Machine.execFurtherPartFail part s
  | .noReferenceAtBoot => Sys2Proof.Machine.execNoReferenceAtBoot s
  | .mailboxesReady => Sys2Proof.Machine.execMailboxesReady s
  | .autostartStart => Sys2Proof.Machine.execAutostartStart s
  | .almanacScanDone => Sys2Proof.Machine.execAlmanacScanDone s
  | .almanacRecordCommit ring zone => Sys2Proof.Machine.execAlmanacRecordCommit ring zone s
  | .mergeWindowClose key => Sys2Proof.Machine.execMergeWindowClose key s
  | .recordDrop => Sys2Proof.Machine.execRecordDrop s
  | .ep6TransferEnd => Sys2Proof.Machine.execEp6TransferEnd s
  | .intNCoalesceExpiry => Sys2Proof.Machine.execIntNCoalesceExpiry s
  | .referenceLost => Sys2Proof.Machine.execReferenceLost s
  | .holdoverExpiry => Sys2Proof.Machine.execHoldoverExpiry s
  | .sourceQualified src => Sys2Proof.Machine.execSourceQualified src s
  | .sourceSwitchComplete => Sys2Proof.Machine.execSourceSwitchComplete s
  | .relockComplete => Sys2Proof.Machine.execRelockComplete s
  | .switchBack => Sys2Proof.Machine.execSwitchBack s
  | .pllUnlock => Sys2Proof.Machine.execPllUnlock s
  | .aonCalibrationRun ticks => Sys2Proof.Machine.execAonCalibrationRun ticks s
  | .timebaseRealign cycles => Sys2Proof.Machine.execTimebaseRealign cycles s
  | .usbPullupEnable => Sys2Proof.Machine.execUsbPullupEnable s
  | .usbBusReset => Sys2Proof.Machine.execUsbBusReset s
  | .vbusLost => Sys2Proof.Machine.execVbusLost s
  | .usbSuspend => Sys2Proof.Machine.execUsbSuspend s
  | .usbResume => Sys2Proof.Machine.execUsbResume s
  | .remoteWake => Sys2Proof.Machine.execRemoteWake s
  | .ep3Report => Sys2Proof.Machine.execEp3Report s
  | .ep3ReportAck => Sys2Proof.Machine.execEp3ReportAck s
  | .streamCopyComplete ep => Sys2Proof.Machine.execStreamCopyComplete ep s
  | .isoInToken ep => Sys2Proof.Machine.execIsoInToken ep s
  | .setInterface ep alt => Sys2Proof.Machine.execSetInterface ep alt s
  | .usbControlRequest q => Sys2Proof.Machine.execUsbControlRequest q s
  | .setPortPower port => Sys2Proof.Machine.execSetPortPower port s
  | .clearPortPower port => Sys2Proof.Machine.execClearPortPower port s
  | .clearTtBuffer => Sys2Proof.Machine.execClearTtBuffer s
  | .resetTt => Sys2Proof.Machine.execResetTt s
  | .hubOverCurrent oci => Sys2Proof.Machine.execHubOverCurrent oci s
  | .hubConnectChange port connected speed => Sys2Proof.Machine.execHubConnectChange port connected speed s
  | .bulkTransferFault ep => Sys2Proof.Machine.execBulkTransferFault ep s
  | .unitResetComplete noun => Sys2Proof.Machine.execUnitResetComplete noun s
  | .stagingTimeout => Sys2Proof.Machine.execStagingTimeout s
  | .trialClear => Sys2Proof.Machine.execTrialClear s
  | .consentExpiry ch => Sys2Proof.Machine.execConsentExpiry ch s
  | .harrowWindowClose slot => Sys2Proof.Machine.execHarrowWindowClose slot s
  | .noSuchVerb verb r => Sys2Proof.Machine.execNoSuchVerb verb r s
  | .vbusDetected => Sys2Proof.Machine.execVbusDetected s
  | .backupStateLost => Sys2Proof.Machine.execBackupStateLost s
  | .rtcAlarm => Sys2Proof.Machine.execRtcAlarm s
  | .prsntChange high => Sys2Proof.Machine.execPrsntChange high s
  | .testEnChange high => Sys2Proof.Machine.execTestEnChange high s
  | .wakeHoldExpiry => Sys2Proof.Machine.execWakeHoldExpiry s
  | .csp8IdleGate => Sys2Proof.Machine.execCsp8IdleGate s
  | .dnRxIdle => Sys2Proof.Machine.execDnRxIdle s
  | .dnRxForward position atNs bytes => Sys2Proof.Machine.execDnRxForward position atNs bytes s
  | .ep6Read => Sys2Proof.Machine.execEp6Read s
  | .hubClassRequest port q => Sys2Proof.Machine.execHubClassRequest port q s
  | .usbFailure => Sys2Proof.Machine.execUsbFailure s
  | .yokePhyFailure => Sys2Proof.Machine.execYokePhyFailure s
  | .thresherControlError => Sys2Proof.Machine.execThresherControlError s
  | .harrowDelayExpiry slot => Sys2Proof.Machine.execHarrowDelayExpiry slot s
  | .updateStageCompletion flashOk => Sys2Proof.Machine.execUpdateStageCompletion flashOk s

end Sys2Proof.Machine
end

