-- ==== Sys2Proof/Machine/Step.lean ====
section
/-! DEFINITION. One step: the command at the front of the queue, or one tick of the timebase. -/

namespace Sys2Proof.Machine

/-- What an empty queue leaves: the timebase counts one tick where it counts at all (01 R14; log 1). -/
def State.idle (s : State) : State := if s.clocked then s.tick else s

/-- The command at the front is executed with the queue's rest. -/
def step (s : State) : Host.Outcome State Fault Refusal :=
  match s.pending with
  | [] => .next s.idle
  | c :: rest => exec c { s with pending := rest }

/-- The command that a word spells, put at the front of the queue; no word spells one (Sys2Proof/Decode.lean), and
the state is then unchanged. -/
def State.withFetchWord (s : State) (nbits w : Nat) : State :=
  match decodeTableWord nbits w with
  | some c => { s with pending := c :: s.pending }
  | none => s

end Sys2Proof.Machine
end

