-- ==== Sys2Proof/Safety.lean ====
section
/-! DEFINITION. What counts as a safe state, in the terms that statements use: the numbered things that the spec gives the
block are all there, and every memory and table stands in its canonical form. -/

namespace Sys2Proof.Machine

/-- The block's numbered things: four channels (02 R52), nine furrows of 32 entries as Drill lays them out (04 R122), eight
ports (05 R156), 24 SENT channels and 32 edge inputs in four banks (06), two two-wire targets with 64 virtual ones (06 R208,
R218), 64 SRAM banks (07 R226), two streams and four hub ports (09), seven positions (10), four episode slots (14) and four
contexts (08). -/
def State.shape (s : State) : Bool :=
  s.mb.chans.length == 4 && s.drill.entries.length == 288 && s.csp.length == 8 && s.sent.length == 24 && s.edge.length == 32
    && s.banks.length == 4 && s.twt.length == 2 && s.mirror.length == 64 && s.mem.banks.length == 64
    && s.usb.streams.length == 2 && s.usb.ports.length == 4 && s.yoke.positions.length == 7 && s.hw.episodes.length == 4
    && s.thr.ctxs.length == 4

/-- The memories and the tables of words stand in their canonical forms. -/
def State.canonical (s : State) : Bool :=
  Memory.wf sramEmpty s.mem.sram && Memory.wf flashEmpty s.mem.nor && Memory.wf flashEmpty s.mem.psram
    && Memory.wf almEmpty s.alm.bytes && Tab.wf resetWord s.cfg && Tab.wf (fun _ => 0) s.cnt

/-- The invariant of every step. -/
def State.Inv (s : State) : Prop := s.shape = true ∧ s.canonical = true

/-! ### Events -/

/-- Event k is pending (13, Events). -/
def State.has (s : State) (k : Nat) : Bool := bitAt s.ev.pending k

/-- Of the pending events only the named ones may differ. -/
def EventsOnly (ks : List Nat) (s t : State) : Prop := ∀ k, k ∉ ks → t.has k = s.has k

/-! ### Parts of the state -/

/-- The parts of the state, for saying what a command leaves alone. -/
inductive Part where
  /-- The waiting commands. -/
  | queue
  /-- The timebase and the period. -/
  | time
  /-- The channels: requests held, tags, replies. -/
  | requests
  /-- The applied epoch, the shadow, a pending COMMIT, START or STOP, and the framing. -/
  | shadow
  /-- The applied configuration words. -/
  | config
  /-- The counters. -/
  | counters
  /-- Pending events and their report. -/
  | events
  /-- The Almanac: its flash, queue and merging windows. -/
  | almanac
  /-- The run and its entries. -/
  | drill
  /-- The assembled sheaf and its buffers. -/
  | sheaf
  /-- The CSP ports 0 to 7. -/
  | ports
  /-- The storage port CSP8. -/
  | storage
  /-- The SENT channels. -/
  | sent
  /-- The edge inputs and their banks. -/
  | edges
  /-- The two-wire targets and their mirror. -/
  | twoWire
  /-- The bytes of SRAM. -/
  | sram
  /-- The bytes of the storage device on select 0. -/
  | nor
  /-- The bytes of the storage device on select 1. -/
  | psram
  /-- Bank states, plot faults and the plot pool. -/
  | fabric
  /-- Reference, lock and switching. -/
  | clock
  /-- Start phase, straps and identity. -/
  | boot
  /-- The service level and its causes. -/
  | level
  /-- Supplies, FALLOW, DETACH, RTC and backup. -/
  | power
  /-- The function, its streams and the hub. -/
  | usb
  /-- The yoke link. -/
  | yoke
  /-- The fault injector. -/
  | harrow
  /-- The seal of HARROW_SEAL. -/
  | seal
  /-- A staging and a swap. -/
  | update
  /-- The Thresher contexts. -/
  | thresher
  /-- The count of free values drawn (the model's own). -/
  | free
  deriving DecidableEq, Repr

/-- A part is the same in both states. -/
def Part.same (p : Part) (s t : State) : Prop :=
  match p with
  | .queue => t.pending = s.pending
  | .time => t.tm = s.tm
  | .requests => t.mb.chans = s.mb.chans ∧ t.mb.nextId = s.mb.nextId ∧ t.mb.serving = s.mb.serving ∧ t.mb.servingChan
    = s.mb.servingChan
  | .shadow => t.mb.epoch = s.mb.epoch ∧ t.mb.shadow = s.mb.shadow ∧ t.mb.commit = s.mb.commit ∧ t.mb.run = s.mb.run ∧
    t.mb.legacy = s.mb.legacy ∧ t.mb.v2 = s.mb.v2 ∧ t.mb.compatNext = s.mb.compatNext
  | .config => t.cfg = s.cfg
  | .counters => t.cnt = s.cnt
  | .events => t.ev = s.ev
  | .almanac => t.alm = s.alm
  | .drill => t.drill = s.drill
  | .sheaf => t.sheaf = s.sheaf
  | .ports => t.csp = s.csp
  | .storage => t.csp8 = s.csp8
  | .sent => t.sent = s.sent
  | .edges => t.edge = s.edge ∧ t.banks = s.banks
  | .twoWire => t.twt = s.twt ∧ t.mirror = s.mirror
  | .sram => t.mem.sram = s.mem.sram
  | .nor => t.mem.nor = s.mem.nor
  | .psram => t.mem.psram = s.mem.psram
  | .fabric => t.mem.banks = s.mem.banks ∧ t.mem.eccBad = s.mem.eccBad ∧ t.mem.faults = s.mem.faults ∧ t.mem.cursors =
    s.mem.cursors ∧ t.mem.lastHolding = s.mem.lastHolding ∧ t.mem.lastKind = s.mem.lastKind ∧ t.mem.lastResolved =
    s.mem.lastResolved ∧ t.mem.lastAttempts = s.mem.lastAttempts ∧ t.mem.lastLost = s.mem.lastLost ∧ t.mem.lastVaddr =
    s.mem.lastVaddr ∧ t.mem.lastTime = s.mem.lastTime ∧ t.mem.pool = s.mem.pool ∧ t.mem.eccOne = s.mem.eccOne ∧
    t.mem.caches = s.mem.caches
  | .clock => t.clk = s.clk
  | .boot => t.boot = s.boot
  | .level => t.lev = s.lev
  | .power => t.pw = s.pw
  | .usb => t.usb = s.usb
  | .yoke => t.yoke = s.yoke
  | .harrow => t.hw.episodes = s.hw.episodes ∧ t.hw.consentGen = s.hw.consentGen ∧ t.hw.consents = s.hw.consents ∧
    t.hw.selections = s.hw.selections ∧ t.hw.drawBase = s.hw.drawBase ∧ t.hw.heldFrames = s.hw.heldFrames ∧
    t.hw.heldReplies = s.hw.heldReplies ∧ t.hw.reorder = s.hw.reorder ∧ t.hw.heldCmd = s.hw.heldCmd ∧ t.hw.activeNow =
    s.hw.activeNow
  | .seal => t.hw.sealed = s.hw.sealed
  | .update => t.upd = s.upd
  | .thresher => t.thr = s.thr
  | .free => t.freeCount = s.freeCount

/-- All that a reset of the device may change: neither the waiting commands nor the seal. -/
def Part.device : List Part :=
  [.time, .requests, .shadow, .config, .counters, .events, .almanac, .drill, .sheaf, .ports, .storage, .sent, .edges,
   .twoWire, .sram, .nor, .psram, .fabric, .clock, .boot, .level, .power, .usb, .yoke, .harrow, .update, .thresher,
   .free]

/-- From s to t nothing changes but the named parts. -/
def Within (parts : List Part) (s t : State) : Prop := ∀ p, p ∉ parts → p.same s t

/-- The parts that a command may write, from its rules: it leaves every other part as it was. -/
def writes (i : Instr) : List Part :=
  match i with
  | .badFrame .. =>
    [.requests, .counters]
  | .describe .. | .get .. | .events .. | .almanacRead .. | .almanacMark .. | .almanacClearFirst .. | .harrowArm ..
  | .harrowSet .. | .noSuchVerb .. =>
    [.requests, .counters, .events, .almanac, .harrow]
  | .stage .. =>
    [.requests, .shadow, .config, .counters, .events, .almanac, .harrow]
  | .commit .. =>
    [.requests, .shadow, .counters, .events, .almanac, .yoke, .harrow]
  | .discard .. =>
    [.requests, .shadow, .counters, .events, .almanac, .harrow]
  | .start .. | .stop .. =>
    [.requests, .shadow, .counters, .events, .almanac, .boot, .harrow]
  | .carveAllocate .. | .carveRelease .. | .carveQuery .. =>
    [.requests, .counters, .events, .almanac, .fabric, .harrow]
  | .snap .. | .thrStatus .. =>
    [.requests, .counters, .events, .almanac, .storage, .sram, .fabric, .power, .harrow]
  | .thrLoadInlineChunk .. | .thrLoadFromStore .. | .thrUnload .. | .thrAllocate .. | .thrReturn .. =>
    [.requests, .counters, .events, .almanac, .storage, .sram, .nor, .psram, .fabric, .power, .harrow, .thresher]
  | .thrSubmit .. =>
    [.requests, .counters, .events, .almanac, .storage, .sram, .fabric, .power, .harrow, .thresher]
  | .thrCancel .. =>
    [.requests, .counters, .events, .almanac, .storage, .fabric, .power, .harrow, .thresher]
  | .yokeCtlForward .. | .yokeCtlStatus .. | .yokeCtlRelease .. | .yokeCtlRerange .. | .yokeCtlLeave .. =>
    [.requests, .counters, .events, .almanac, .yoke, .harrow]
  | .fallow .. | .joinRequestReceived .. | .memberLost .. =>
    [.requests, .counters, .events, .almanac, .power, .yoke, .harrow]
  | .wakeCancel .. | .wakeHold .. =>
    [.requests, .counters, .events, .almanac, .power, .yoke, .harrow, .free]
  | .harrowDisarmSlots .. | .harrowDisarmAll .. | .harrowSeal .. =>
    [.requests, .counters, .events, .almanac, .level, .harrow, .seal]
  | .updateStageBegin .. | .updateStageChunk .. | .updateStageFinish .. | .updateStageAbandon .. =>
    [.requests, .counters, .events, .almanac, .nor, .harrow, .update]
  | .updateSwap .. =>
    [.requests, .counters, .events, .almanac, .storage, .nor, .fabric, .boot, .level, .power, .usb, .harrow, .update,
     .thresher]
  | .resetUnit .. =>
    [.requests, .shadow, .counters, .events, .almanac, .ports, .storage, .sent, .edges, .twoWire, .fabric, .power,
     .usb, .yoke, .harrow, .update, .thresher]
  | .detach .. =>
    [.requests, .counters, .events, .almanac, .storage, .fabric, .power, .yoke, .harrow, .thresher, .free]
  | .powerQuery .. | .powerSetBanks .. =>
    [.requests, .counters, .events, .almanac, .sram, .fabric, .power, .harrow]
  | .twtRequestWrite .. | .twtRegisterWrite .. =>
    [.requests, .counters, .events, .twoWire]
  | .twtReplyRead .. | .twtRegisterRead .. | .virtualTargetRead .. =>
    [.requests, .shadow, .counters, .twoWire, .level]
  | .twtBusTimeout .. =>
    [.counters, .events, .twoWire]
  | .ep2ReplyRead =>
    [.requests, .shadow, .level, .usb]
  | .shadowTimeout =>
    [.time, .shadow]
  | .captureLine | .wakeBurstDetected | .listenWindow .. | .wakeSource .. | .sleepTimerExpiry | .fallowResume ..
  | .vinUndervoltage .. | .vinOvervoltage .. | .vsysCollapse | .bankSupplyLost .. | .alarmInput ..
  | .emergencyDetach | .detachCycle | .resetNAssert | .almanacRecordCommit .. | .rtcAlarm | .prsntChange .. =>
    Part.device
  | .syncInEdge .. =>
    [.time, .counters]
  | .recoveryFrameEnd .. =>
    [.time, .requests, .counters, .events, .almanac, .ports, .sent, .power, .harrow]
  | .entryLaunch .. =>
    [.time, .counters, .events, .almanac, .drill, .ports, .sent, .harrow]
  | .entryComplete .. =>
    [.time, .requests, .counters, .events, .almanac, .drill, .ports, .storage, .sent, .sram, .nor, .psram, .fabric,
     .level, .power, .usb, .harrow, .thresher]
  | .deadlineAbort .. =>
    [.time, .counters, .events, .almanac, .drill, .ports, .sent, .fabric, .harrow]
  | .startBitTimeout .. =>
    [.time, .requests, .counters, .events, .almanac, .drill, .ports, .storage, .sram, .nor, .psram, .fabric, .level,
     .power, .usb, .harrow, .thresher]
  | .assemblyStart =>
    [.time, .requests, .counters, .events, .almanac, .drill, .sheaf, .storage, .sent, .edges, .sram, .nor, .psram,
     .fabric, .level, .power, .usb, .yoke, .harrow, .thresher]
  | .assemblyComplete =>
    [.time, .requests, .counters, .events, .almanac, .drill, .sheaf, .storage, .sram, .nor, .psram, .fabric, .level,
     .power, .usb, .harrow, .thresher]
  | .txPrefetchComplete .. =>
    [.requests, .counters, .events, .almanac, .drill, .storage, .fabric, .level, .power, .usb, .harrow, .thresher]
  | .drillHardFault .. =>
    [.requests, .counters, .events, .almanac, .drill, .sheaf, .storage, .fabric, .level, .power, .usb, .harrow,
     .thresher]
  | .slaveTransactionStart .. =>
    [.ports]
  | .slaveTransactionEnd .. =>
    [.counters, .events, .almanac, .ports, .storage, .fabric, .power, .free]
  | .norWindowWrite .. =>
    [.counters, .storage, .power]
  | .norGatherEnd .. =>
    [.time, .counters, .storage, .power]
  | .norStatusPoll .. | .norProgramDone .. | .timeSliceExpiry =>
    [.time, .requests, .counters, .events, .almanac, .storage, .sram, .nor, .psram, .fabric, .power, .harrow,
     .thresher, .free]
  | .programTimeout .. =>
    [.time, .requests, .shadow, .counters, .events, .almanac, .drill, .sheaf, .ports, .storage, .sram, .nor, .psram,
     .fabric, .boot, .level, .power, .usb, .yoke, .harrow, .update, .thresher, .free]
  | .externalAccessTimeout .. | .plotFault .. =>
    [.requests, .shadow, .counters, .events, .almanac, .drill, .sheaf, .ports, .storage, .sram, .nor, .psram,
     .fabric, .boot, .level, .power, .usb, .yoke, .harrow, .update, .thresher, .free]
  | .sentFrameEnd .. =>
    [.time, .counters, .events, .almanac, .sent, .harrow]
  | .sentAbsentTimeout .. =>
    [.time, .counters, .events, .almanac, .sent]
  | .edgeSeen .. | .edgeAccept .. =>
    [.time, .counters, .events, .edges]
  | .faultResolve =>
    [.time, .requests, .counters, .events, .almanac, .drill, .sheaf, .ports, .storage, .twoWire, .sram, .nor, .psram,
     .fabric, .level, .power, .usb, .yoke, .harrow, .thresher, .free]
  | .bankWakeComplete .. =>
    [.requests, .counters, .events, .almanac, .storage, .twoWire, .sram, .nor, .psram, .fabric, .power, .yoke,
     .harrow, .thresher, .free]
  | .bankWakeTimeout .. =>
    [.requests, .counters, .events, .almanac, .drill, .sheaf, .ports, .storage, .fabric, .level, .power, .usb, .yoke,
     .harrow, .thresher]
  | .bankIdleGate .. =>
    [.time, .sram, .fabric]
  | .eccScrub .. =>
    [.counters, .events, .almanac, .fabric, .level]
  | .emul .. | .eadd .. | .esub .. | .emac .. | .ntt .. | .intt .. | .automorph .. | .baseconv .. | .rescale ..
  | .decomp .. | .polyeval .. | .feature .. | .rerand .. | .handoff .. | .zero .. | .drop .. | .endIteration ..
  | .preemptionPoint =>
    [.requests, .counters, .events, .almanac, .storage, .sram, .nor, .psram, .fabric, .power, .harrow, .thresher,
     .free]
  | .laneIdleGate =>
    [.time, .thresher]
  | .handoffTimeout .. =>
    [.time, .requests, .counters, .events, .almanac, .storage, .fabric, .power, .harrow, .thresher]
  | .thrLoadOwnerTimeout .. =>
    [.time, .requests, .counters, .events, .almanac, .harrow, .thresher]
  | .markerSend =>
    [.time, .counters, .events, .almanac, .power, .yoke, .harrow]
  | .markerReceived .. =>
    [.time, .requests, .counters, .events, .almanac, .level, .power, .yoke, .harrow]
  | .mbx .. =>
    [.requests, .yoke]
  | .joinAccept .. | .joinRequestSend =>
    [.time, .yoke]
  | .range .. | .trim .. | .grant .. | .replyResend .. | .fallowPropose .. | .fallowCommit .. | .fallowAbort ..
  | .trimRunEnd | .releaseRetryTimer | .acceptLapse =>
    [.yoke]
  | .setDelay .. =>
    [.requests, .counters, .events, .almanac, .storage, .fabric, .level, .power, .usb, .yoke, .harrow, .thresher]
  | .quarantine .. | .release .. =>
    [.requests, .counters, .events, .almanac, .level, .power, .yoke, .harrow]
  | .replyDone .. =>
    [.requests, .shadow, .level, .yoke]
  | .segmentSend =>
    [.time, .requests, .counters, .events, .almanac, .storage, .fabric, .level, .power, .yoke, .harrow]
  | .segmentReceived .. =>
    [.requests, .counters, .events, .almanac, .storage, .sram, .nor, .psram, .fabric, .power, .yoke, .harrow, .free]
  | .orphanTimeout | .holdoverExpiry =>
    [.time, .requests, .counters, .events, .almanac, .drill, .sheaf, .ports, .storage, .sent, .fabric, .clock,
     .level, .power, .usb, .yoke, .harrow, .thresher]
  | .commitMarkerMissing =>
    [.time]
  | .vinUvloRise .. =>
    [.time, .shadow, .boot, .level, .power, .yoke]
  | .vinLowWarning .. | .vinHighWarning .. | .vsysOverload | .thermalShutdown | .vbakMeasure .. =>
    [.counters, .events, .almanac, .power, .free]
  | .vinOvervoltageRecover .. | .thermalRestart =>
    [.boot, .level, .power]
  | .bankSupplyRestored .. | .alarmHoldoffEnd | .prsntSettled | .backupStateLost | .dnRxIdle =>
    [.power]
  | .thermalWarning =>
    [.counters, .events, .almanac, .free]
  | .backupRecordWrite | .backupWriteAbort =>
    [.almanac, .power, .free]
  | .detachRelease | .usbFailure | .yokePhyFailure | .thresherControlError =>
    [.requests, .counters, .events, .almanac, .storage, .fabric, .level, .power, .usb, .harrow, .thresher]
  | .resetRelease .. =>
    [.time, .shadow, .boot, .yoke]
  | .watchdogPrewarning =>
    [.counters, .events]
  | .watchdogExpiry =>
    [.requests, .shadow, .counters, .events, .almanac, .storage, .fabric, .boot, .level, .power, .usb, .yoke,
     .harrow, .update, .thresher, .free]
  | .bootImageVerify =>
    [.requests, .counters, .events, .almanac, .storage, .fabric, .boot, .level, .power, .usb, .harrow, .update,
     .thresher]
  | .furtherPartFail .. =>
    [.requests, .shadow, .counters, .events, .almanac, .boot, .power, .usb, .yoke, .harrow, .update, .free]
  | .noReferenceAtBoot =>
    [.time, .requests, .counters, .events, .almanac, .storage, .fabric, .clock, .level, .power, .usb, .harrow,
     .thresher]
  | .mailboxesReady =>
    [.time, .requests, .shadow, .config, .counters, .events, .almanac, .drill, .sheaf, .ports, .storage, .sent,
     .edges, .nor, .fabric, .clock, .boot, .level, .power, .usb, .yoke, .harrow, .update, .thresher]
  | .autostartStart =>
    [.time, .requests, .shadow, .counters, .events, .almanac, .boot, .harrow]
  | .almanacScanDone =>
    [.counters, .almanac, .power]
  | .mergeWindowClose .. =>
    [.time, .counters, .almanac]
  | .recordDrop | .ep6Read =>
    [.almanac]
  | .ep6TransferEnd =>
    [.time, .almanac]
  | .intNCoalesceExpiry =>
    [.time, .events]
  | .referenceLost | .pllUnlock =>
    [.counters, .events, .almanac, .clock]
  | .sourceQualified .. | .switchBack =>
    [.clock]
  | .sourceSwitchComplete =>
    [.counters, .almanac, .clock]
  | .relockComplete =>
    [.requests, .counters, .events, .almanac, .storage, .fabric, .clock, .level, .power, .usb, .harrow, .thresher]
  | .aonCalibrationRun .. =>
    [.clock, .power]
  | .timebaseRealign .. =>
    [.time, .clock, .power]
  | .usbPullupEnable | .remoteWake =>
    [.time, .usb]
  | .usbBusReset =>
    [.requests, .shadow, .counters, .events, .almanac, .usb, .harrow, .free]
  | .vbusLost | .usbSuspend | .usbResume =>
    [.requests, .shadow, .counters, .events, .almanac, .usb, .harrow]
  | .ep3Report =>
    [.events, .usb]
  | .ep3ReportAck =>
    [.events]
  | .streamCopyComplete .. =>
    [.counters, .events, .almanac, .storage, .sram, .nor, .psram, .fabric, .power, .usb, .harrow]
  | .isoInToken .. =>
    [.counters, .events, .almanac, .usb, .harrow]
  | .setInterface .. | .usbControlRequest .. | .clearTtBuffer | .resetTt | .vbusDetected | .hubClassRequest .. =>
    [.usb]
  | .setPortPower .. | .hubConnectChange .. =>
    [.counters, .events, .usb]
  | .clearPortPower .. =>
    [.requests, .counters, .events, .usb]
  | .hubOverCurrent .. =>
    [.time, .counters, .events, .almanac, .usb]
  | .bulkTransferFault .. =>
    [.counters, .almanac, .usb]
  | .unitResetComplete .. =>
    [.time, .requests, .counters, .events, .almanac, .ports, .storage, .sent, .edges, .twoWire, .sram, .nor, .psram,
     .fabric, .level, .power, .usb, .yoke, .harrow, .thresher]
  | .stagingTimeout =>
    [.time, .requests, .counters, .events, .almanac, .harrow, .update]
  | .trialClear =>
    [.time, .nor, .update]
  | .consentExpiry .. =>
    [.time, .harrow]
  | .harrowWindowClose .. =>
    [.counters, .events, .almanac, .harrow]
  | .testEnChange .. =>
    [.boot]
  | .wakeHoldExpiry | .csp8IdleGate =>
    [.time, .power]
  | .dnRxForward .. =>
    [.power, .yoke]
  | .harrowDelayExpiry .. =>
    [.time, .requests, .counters, .events, .almanac, .sent, .harrow]
  | .updateStageCompletion .. =>
    [.requests, .counters, .events, .almanac, .nor, .psram, .boot, .harrow, .update, .free]

/-! ### Requests and replies -/

/-- No Harrow window is open and no exchange of replies waits: a reply is sent as it is formed (14 R493, R495). -/
def State.quiet (s : State) : Bool := !s.harrowActive && s.hw.reorder.isEmpty

/-- A new request of verb v that its channel takes and that passes steps 1 to 6 of Table MB-4: framing v2, a channel that
accepts requests, a defined verb at its level, a payload of the length the header states, and a tag that the history does not
hold (02 R52, R56 to R58, R66). -/
structure Fresh (s : State) (v : Nat) (r : Req) : Prop where
  chans : s.mb.chans.length = 4
  framing : s.mb.v2 = true
  accepts : s.accepts r.ch.val = true
  head : firstFail (s.headChecks v r true) = none
  tag : (nth {} s.mb.chans r.ch.val).history.any (·.tag == r.tag.toNat) = false
  quiet : s.quiet = true

/-- From s to t the channel of r has queued one reply: to the request r of verb v, with a status and a payload. -/
def Answered (s t : State) (v : Nat) (r : Req) (status : Nat) (payload : List Byte) : Prop :=
  ∃ y, (nth {} t.mb.chans r.ch.val).replies = (nth {} s.mb.chans r.ch.val).replies ++ [y] ∧ y.verb = v ∧ y.tag = r.tag.toNat
    ∧ y.status = status ∧ y.payload = payload

/-- In t the request r of verb v is held without a reply: it is in its channel's list of held requests, and no reply has been
queued on the channel since s. -/
def HeldIn (s t : State) (v : Nat) (r : Req) : Prop :=
  (nth {} t.mb.chans r.ch.val).replies = (nth {} s.mb.chans r.ch.val).replies
    ∧ ⟨s.mb.nextId, v, r, false⟩ ∈ (nth {} t.mb.chans r.ch.val).held

/-! ### Accesses that pass -/

/-- An operation of an agent over these parts passes at once: the agent is not suspended, every check of 07 Table PM-6 holds for every
element, and the storage port does not make it wait (07 R241; 05 R178). -/
structure Passes (s : State) (a : Agent) (l : List Piece) : Prop where
  awake : s.suspended a = false
  clear : s.firstFault a 0 0 l = none
  flows : s.stalls a l = false

/-- An access of the firmware to parts of holding h passes every check (07 Table PM-8). -/
def FirmwarePasses (s : State) (a : Agent) (h : Nat) (l : List Piece) : Prop := s.firstFault a 0 0 (s.firmwareParts h l) = none

/-- The bytes of SRAM and of both storage devices are as they were: an access that passes moves a bank's idle interval and the
translations that are cached, and no byte. -/
def SameBytes (s t : State) : Prop := t.mem.sram = s.mem.sram ∧ t.mem.nor = s.mem.nor ∧ t.mem.psram = s.mem.psram

/-- The state of context n can be written to its save area. -/
def Saves (s : State) (n : Nat) : Prop := Passes s (thrAgent n) [⟨.write, s.saveAddr n, 2048⟩]

/-- Context m has no saved state, or it can be read back from its save area. -/
def Restorable (s : State) (m : Nat) : Prop := (s.ctx m).saved = none ∨ Passes s (thrAgent m) [⟨.read, s.saveAddr m, 2048⟩]

/-- An instruction of context n whose accesses pass: its operands are read and its result is written, the objects that it changes are in
the object table, and the job goes on with `next`, or ends where the residue check failed (08 R270, R271). -/
def State.instrDone (s : State) (n : Nat) (reads : List Piece) (r : KernelResult) (next : State → State) : State :=
  let t := (s.accessed (thrAgent n) reads).accessed (thrAgent n) (writeParts r.writes)
  let t := r.objs.foldl (fun t o => t.takeObj n o) (r.writes.foldl (fun t w => t.writeOne (thrAgent n) w) t)
  let t := t.modCtx n fun c => { c with job := c.job.map fun j => { j with result := none } }
  if r.ok then next t else t.poisoned n

/-- An instruction of context n passes: it reads `reads` and writes the result `out` that it computes, or, where an earlier fault left a
result that it had already computed, it only writes that (07 R242; 08 R291). -/
structure InstrPasses (s : State) (n : Nat) (j : Job) (parts : List Piece) (out : Option KernelResult) (reads : List Piece) (r : KernelResult) :
    Prop where
  either : j.result = none ∧ reads = parts ∧ out = some r ∨ j.result = some r ∧ reads = []
  readsPass : Passes s (thrAgent n) reads
  writesPass : Passes (s.accessed (thrAgent n) reads) (thrAgent n) (writeParts r.writes)

/-! ### Frames of the yoke link -/

/-- A command frame that this member takes for the first time: it runs its link, the frame's CRC holds and is addressed to it,
and its seq is not among the last eight (10 R339, R355). -/
def Hears (s : State) (f : Frame) : Prop :=
  s.isMember = true ∧ s.yokeRuns = true ∧ s.frameForMe f = true ∧ s.yoke.executed.find? (·.1 == f.seq.toNat) = none

/-- The member's next segment acknowledges the frame with an answer, and its seq is remembered (10 R339, R355). -/
def Acknowledged (s t : State) (f : Frame) (answer : Nat) : Prop :=
  t.yoke.ack = some f.seq.toNat ∧ t.yoke.answer = answer ∧ t.yoke.busy = false
    ∧ t.yoke.executed = lastN 8 (s.yoke.executed ++ [(f.seq.toNat, answer)])

/-- The frame goes out of DN TX again between its start and end symbols, where the member repeats (10 R335). -/
def Repeated (s t : State) (kind : CmdKind) (f : Frame) (payload : List Byte) : Prop :=
  let b := frameBody kind f.dest.toNat f.seq.toNat payload
  t.yoke.cmdOut = if s.repeats then framed (b ++ leBytes 4 (crc32 b)) else s.yoke.cmdOut

end Sys2Proof.Machine
end

