-- ==== Sys2Proof/Certificates/Slice0/Obligations.lean ====
section
/-! DEFINITION. The statements. Each is a proposition about every state and every operand that meet its hypotheses; witnesses
that meet them stand in Sys2Proof/Tests/Slice0.lean. -/

open Sys2Proof Sys2Proof.Machine

/-! ### The block as a whole -/

/-- A step with command c at the front of the queue is the effect of c on the state with the queue's rest (log 1). -/
def Obligations.StepRunsFront : Prop :=
  ∀ (c : Instr) (rest : List Instr) (s : State), s.pending = c :: rest → step s = exec c { s with pending := rest }

/-- A step on an empty queue is one tick of the timebase where it counts, and nothing where it does not (01 R14; log 1). -/
def Obligations.IdleStepTicks : Prop :=
  ∀ s : State, s.pending = [] → ∃ t, step s = .next t ∧ t.tm.now = (if s.clocked then (s.tm.now + 1) % 2 ^ 64 else s.tm.now)
    ∧ Within [.time] s t

/-- Every command completes in every state: the model has no fault and no refusal. -/
def Obligations.EveryCommandCompletes : Prop := ∀ (c : Instr) (s : State), ∃ t, exec c s = .next t

/-- The invariant holds at reset. -/
def Obligations.InvariantAtReset : Prop := State.reset.Inv

/-- Every step keeps the numbered things and the canonical forms of the memories and tables. -/
def Obligations.StepKeepsInvariant : Prop := ∀ s t : State, s.Inv → step s = .next t → t.Inv

/-- Once sealed, the Harrow stays sealed through every step, whatever reset it brings (14 R500).
The serial number is never changed (03 Table SX-5). -/
def Obligations.StepKeepsIdentity : Prop :=
  (∀ s t : State, s.hw.sealed = true → step s = .next t → t.hw.sealed = true)
  ∧ (∀ s t : State, step s = .next t → t.boot.serial = s.boot.serial)

/-- A command changes nothing but the parts that `writes` lists for it: every other part of the state is as it was. -/
def Obligations.CommandFrame : Prop := ∀ (c : Instr) (s t : State), exec c s = .next t → Within (writes c) s t

/-! ### Reading verbs -/

/-- DESCRIBE answers with the length of the Syntax table and the bytes asked for, and changes nothing else (03 R92).
GET answers with the words as they read once the request is entered, of the applied set or, with flag [2], as staged; it
may clear counters, and changes no configuration word, no shadow and nothing of the units (02 R61, R69).
SNAP answers with a part of a published buffer, as the memory holds it, where the steward's read of it passes; a buffer that is
reused while the reply is read gives ABORTED (04 R150, R151).
Completion is concluded for describe, get, snap. -/
def Obligations.ReadsAnswer : Prop :=
  (∀ (r : Req) (s : State), Fresh s 0x01 r → r.length.toNat = 8 → r.noun = 0 → r.index = 0 → pf r 6 2 = 0 →
    1 ≤ pf r 4 2 → pf r 4 2 ≤ 4070 → pf r 0 4 < (syntaxTable (s.numbered 0x01 r)).length → s.fits r (8 + pf r 4 2) = true →
    ∃ t, exec (.describe r) s = .next t
      ∧ Answered s t 0x01 r stOk (leBytes 4 (syntaxTable (s.entered 0x01 r)).length ++ leBytes 4 (pf r 0 4)
          ++ ((syntaxTable (s.entered 0x01 r)).drop (pf r 0 4)).take (pf r 4 2))
      ∧ Within [.requests, .counters, .events, .almanac] s t ∧ EventsOnly [22, 23] s t)
  ∧ (∀ (r : Req) (s : State), Fresh s 0x02 r → r.length.toNat = 4 → r.index = 0 → (findNoun s.boot.legacy r.noun.toNat).isSome = true →
    (s.boot.phase = .romService → r.noun.toNat = nSYS) → 1 ≤ pf r 2 2 → pf r 2 2 ≤ 1018 →
    pf r 0 2 + pf r 2 2 ≤ (s.nounOf r).words → s.rcTooLong r = false → s.fits r (4 + 4 * pf r 2 2) = true →
    ∃ t, exec (.get r) s = .next t
      ∧ Answered s t 0x02 r stOk (leBytes 2 (pf r 0 2) ++ leBytes 2 (pf r 2 2)
          ++ (List.range (pf r 2 2)).flatMap fun i =>
            leBytes 4 ((s.entered 0x02 r).getWord (s.nounOf r) (pf r 0 2 + i) (bitAt r.flags.toNat 2)))
      ∧ Within [.requests, .counters, .events, .almanac] s t ∧ EventsOnly [22, 23] s t)
  ∧ (∀ (r : Req) (s : State) (i : Nat) (b : Buffer), Fresh s 0x09 r → r.length.toNat = 16 → r.noun = 0 → r.index = 0 →
    pf r 0 1 ≤ 1 → pf r 1 1 = 0 → pf r 14 2 = 0 → 1 ≤ pf r 12 2 → pf r 12 2 ≤ 4062 → s.snapBuffer r = some (i, b) →
    pf r 8 4 + pf r 12 2 ≤ b.header + b.body → s.fits r (16 + pf r 12 2) = true →
    (FirmwarePasses s .steward 2 [⟨.read, s.bufferAt i + pf r 8 4, pf r 12 2⟩] →
      ∃ t, exec (.snap r false) s = .next t
        ∧ Answered s t 0x09 r stOk (leBytes 6 b.period ++ [0, 0] ++ leBytes 4 (if s.boot.legacy then 0 else b.layout)
            ++ leBytes 4 (pf r 8 4) ++ s.virtRead 2 (s.bufferAt i + pf r 8 4) (pf r 12 2))
        ∧ SameBytes s t ∧ Within [.requests, .counters, .events, .almanac, .storage, .fabric, .power] s t ∧ EventsOnly [22, 23, 42] s t)
    ∧ ∃ t, exec (.snap r true) s = .next t ∧ Answered s t 0x09 r stAborted []
        ∧ Within [.requests, .counters, .events, .almanac] s t ∧ EventsOnly [22, 23] s t)

/-- EVENTS answers with the events that are pending and the period, and then clears those that its mask names, but for 22 and 23,
which its own reply raises (13 R490).
Completion is concluded for events. -/
def Obligations.EventsAcknowledged : Prop :=
  ∀ (r : Req) (s : State), Fresh s 0x0A r → r.length.toNat = 8 → r.noun = 0 → r.index = 0 →
    ∃ t, exec (.events r) s = .next t
      ∧ Answered s t 0x0A r stOk (leBytes 8 s.ev.pending ++ leBytes 6 s.tm.period ++ [0, 0])
      ∧ (∀ k, k < 64 → k ≠ 22 → k ≠ 23 → t.has k = (s.has k && !bitAt (pf r 0 8) k))
      ∧ Within [.requests, .counters, .events, .almanac] s t

/-! ### The shadow, and START and STOP -/

/-- STAGE of RWS fields opens a shadow where none is open: its channel owns it, each word reads there with the masked bits
replaced and every other word as it was applied, and the applied words and the epoch stay (02 R70, R74).
Completion is concluded for stage. -/
def Obligations.StageOpensShadow : Prop :=
  ∀ (r : Req) (s : State) (l : List StageItem), Fresh s 0x03 r → s.stageOf r = some l → r.index = 0 →
    (findNoun s.boot.legacy r.noun.toNat).isSome = true → s.boot.phase ≠ .romService → s.hw.sealed = false →
    s.epochOk r = true → s.mb.shadow = none → s.mb.commit = none → s.mb.legacy = [] → s.pw.fallow = none →
    stageKinds (s.nounOf r) (stageWrites l) = (true, false, false) →
    (∀ e, e < 4 → harrowTouched (s.nounOf r) (stageWrites l) e = false) →
    (stageWrites l).all (fun (w, _, _) => w < (s.nounOf r).words) = true →
    s.stageDefined (s.nounOf r) (s.reg (s.nounOf r).id) l = true →
    ∃ t, exec (.stage r) s = .next t ∧ Answered s t 0x03 r stOk (leBytes 2 ((l.filter fun i => i.2.any fun p => p.1 != 0).length) ++ [0, 0])
      ∧ t.mb.shadow.any (fun h => h.owner == r.ch) = true
      ∧ (∀ w, t.stagedWord (s.nounOf r).id w = writtenWord ((stageWrites l).filter fun x => x.2.1 != 0) (s.reg (s.nounOf r).id w) w)
      ∧ t.cfg = s.cfg ∧ t.mb.epoch = s.mb.epoch ∧ Within [.requests, .shadow, .counters, .events, .almanac] s t

/-- COMMIT for the next capture line, whose set passes the checks and changes no yoke plan, freezes the shadow and is held; the
applied words stay until its line (02 R75, R76).
Completion is concluded for commit. -/
def Obligations.CommitIsHeld : Prop :=
  ∀ (r : Req) (ticks : Nat) (ok : Bool) (s : State) (h : Shadow), Fresh s 0x04 r → r.length.toNat = 8 → r.noun = 0 → r.index = 0 →
    s.epochOk r = true → s.mb.shadow = some h → h.owner = r.ch → (s.heldRoom r).1 = true → s.pw.fallow = none →
    s.pw.detach = .none → s.mb.commit = none → s.touchesFenced h.touched = false → pf r 0 1 = 0 → pf r 1 1 = 0 → s.joined = [] →
    ((s.entered 0x04 r).atApply none).checkSet ((s.entered 0x04 r).wordsWith h.words h.touched) false = none →
    ∃ t, exec (.commit r ticks ok) s = .next t ∧ HeldIn s t 0x04 r
      ∧ t.mb.commit.any (fun c => c.ticket == s.ticketFor r && c.shadow == h && c.named.isNone) = true
      ∧ t.mb.shadow = s.mb.shadow ∧ t.cfg = s.cfg ∧ Within [.requests, .shadow] s t

/-- DISCARD clears the shadow, and the applied words and the epoch stay (02 R78).
After 10 s without a request of its channel, a shadow without a pending COMMIT is discarded (02 R74; log 41).
Completion is concluded for discard, shadowTimeout. -/
def Obligations.ShadowEnds : Prop :=
  (∀ (r : Req) (s : State), Fresh s 0x05 r → r.length.toNat = 0 → r.noun = 0 → r.index = 0 → s.epochOk r = true →
    s.shadowMine r = true → s.mb.commit = none →
    ∃ t, exec (.discard r) s = .next t ∧ Answered s t 0x05 r stOk [] ∧ t.mb.shadow = none ∧ t.mb.epoch = s.mb.epoch
      ∧ t.cfg = s.cfg ∧ Within [.requests, .shadow, .counters, .events, .almanac] s t ∧ EventsOnly [22, 23] s t)
  ∧ (∀ (s : State) (h : Shadow), s.mb.shadow = some h → s.mb.commit = none →
    ∃ t, exec .shadowTimeout s = .next t ∧ t.mb.shadow = none
      ∧ (nth {} s.mb.chans h.owner.val).lastRequest + 1200000000 ≤ t.tm.now ∧ t.cfg = s.cfg ∧ Within [.time, .shadow] s t)

/-- START while the drill is stopped, and STOP while it runs, are held until their capture line; START while it runs, and STOP while
it is stopped, are answered at once with the period in progress (04 R145 to R148).
Completion is concluded for start, stop. -/
def Obligations.StartAndStop : Prop :=
  ∀ (r : Req) (s : State), r.length.toNat = 8 → r.noun = 0 → r.index = 0 → (s.heldRoom r).1 = true → s.pw.fallow = none →
    s.mb.run = none → pf r 1 1 = 0 → (pf r 0 1 = 0 ∨ pf r 0 1 = 1 ∧ s.namedOk (pf r 2 6) = true) →
    (Fresh s 0x06 r → s.pw.detach = .none → ∃ t, exec (.start r) s = .next t ∧
      (if s.drill.mode = 0 then HeldIn s t 0x06 r ∧ t.mb.run = some { ticket := some (s.ticketFor r), start := true, named := if pf r 0 1 = 1 then some (pf r 2 6) else none }
       else Answered s t 0x06 r stOk (leBytes 6 s.tm.period ++ [0, 0]) ∧ t.mb.run = none)
      ∧ t.boot.autostart = false ∧ t.drill = s.drill)
    ∧ (Fresh s 0x07 r → ∃ t, exec (.stop r) s = .next t ∧
      (if s.drill.mode = 0 then Answered s t 0x07 r stOk (leBytes 6 s.tm.period ++ [0, 0]) ∧ t.mb.run = none
       else HeldIn s t 0x07 r ∧ t.mb.run = some { ticket := some (s.ticketFor r), start := false, named := if pf r 0 1 = 1 then some (pf r 2 6) else none })
      ∧ t.boot.autostart = false ∧ t.drill = s.drill)

/-! ### CARVE and the Almanac's verbs -/

/-- CARVE with op 0 gives a disabled endpoint without an allocation the lowest run of n granules, with op 1 takes it back, and
with op 2 changes nothing; each answers with the endpoint's allocation, the free granules and the longest run, and leaves every
byte of every memory as it was (07 R253 to R256).
Completion is concluded for carveAllocate, carveRelease, carveQuery. -/
def Obligations.CarveAnswers : Prop :=
  ∀ (r : Req) (s : State), Fresh s 0x08 r → r.length.toNat = 8 → r.noun = 0 → r.index = 0 → (s.heldRoom r).1 = true →
    s.pw.fallow = none → pz r 4 4 = true → s.fld nPLOTMAP 0 24 6 ≠ 0 →
    (pf r 0 1 = 0 → 1 ≤ pf r 1 1 → pf r 1 1 ≤ 6 → s.epEnabled (pf r 1 1) = false → 1 ≤ pf r 2 2 → pf r 2 2 ≤ 496 →
      (nth (0, 0) s.mem.pool (pf r 1 1 - 1)).2 = 0 → ∀ f, lowestRun s.mem.pool (pf r 2 2) = some f →
      ∃ t, exec (.carveAllocate r) s = .next t ∧ Answered s t 0x08 r stOk (t.carveReply (pf r 1 1))
        ∧ t.mem = { s.mem with pool := updAt s.mem.pool (pf r 1 1 - 1) fun _ => (f, pf r 2 2), caches := updAt s.mem.caches 3 fun _ => [] })
    ∧ (pf r 0 1 = 1 → 1 ≤ pf r 1 1 → pf r 1 1 ≤ 6 → s.epEnabled (pf r 1 1) = false → pf r 2 2 = 0 →
      (nth (0, 0) s.mem.pool (pf r 1 1 - 1)).2 ≠ 0 →
      ∃ t, exec (.carveRelease r) s = .next t ∧ Answered s t 0x08 r stOk (t.carveReply (pf r 1 1))
        ∧ t.mem = { s.mem with pool := updAt s.mem.pool (pf r 1 1 - 1) fun _ => (0, 0), caches := updAt s.mem.caches 3 fun _ => [] })
    ∧ (pf r 0 1 = 2 → pf r 1 1 ≤ 6 → pf r 2 2 = 0 →
      ∃ t, exec (.carveQuery r) s = .next t ∧ Answered s t 0x08 r stOk (s.carveReply (pf r 1 1)) ∧ t.mem = s.mem)

/-- ALMANAC_READ answers with the units of a region, by slot or by sequence, and changes no byte of the Almanac (13 R479).
Completion is concluded for almanacRead. -/
def Obligations.AlmanacReadAnswers : Prop :=
  ∀ (r : Req) (s : State), Fresh s 0x10 r → r.length.toNat = 8 → r.noun = 0 → r.index = 0 → almReadOk r = true →
    s.fits r (16 + 64 * (s.almRead (pf r 0 1) (pf r 1 1) (pf r 2 2) (pf r 4 4)).units.length) = true →
    ∃ t, exec (.almanacRead r) s = .next t
      ∧ Answered s t 0x10 r stOk (let a := s.almRead (pf r 0 1) (pf r 1 1) (pf r 2 2) (pf r 4 4)
          leBytes 1 (pf r 0 1) ++ leBytes 1 a.units.length ++ leBytes 1 (b2n a.gap) ++ [0] ++ leBytes 4 a.next
            ++ leBytes 4 a.newest ++ [0, 0, 0, 0] ++ a.units.flatten)
      ∧ Within [.requests, .counters, .events, .almanac] s t ∧ EventsOnly [22, 23] s t ∧ t.alm.bytes = s.alm.bytes

/-- ALMANAC_MARK puts a record of type 0x90 with the request's code and bytes at the end of the record queue, raises event 63
where it is asked to, and is held until the record is committed; ALMANAC_CLEAR_FIRST at service level, with the number of
records in the first-fault zone, likewise with a record of type 0x91. No byte of the Almanac changes yet (13 R480, R481).
Completion is concluded for almanacMark, almanacClearFirst. -/
def Obligations.AlmanacRecordsAreHeld : Prop :=
  ∀ (r : Req) (s : State), r.noun = 0 → r.index = 0 → (s.heldRoom r).1 = true → s.alm.queue.length < 48 →
    (Fresh s 0x11 r → r.length.toNat = 36 → pf r 2 1 ≤ 1 → pz r 3 1 = true →
      ∃ t, exec (.almanacMark r) s = .next t ∧ HeldIn s t 0x11 r
        ∧ t.alm = { s.alm with queue := s.alm.queue ++ [s.requestRecord (s.ticketFor r) 0x90 r.ch.val (pf r 0 2) (slice r.payload 4 32)] }
        ∧ (∀ k, t.has k = (s.has k || (k == 63 && pf r 2 1 == 1))))
    ∧ (Fresh s 0x12 r → r.length.toNat = 4 → s.boot.service = true → pf r 0 2 = firstUsed s.alm → pz r 2 2 = true →
      ∃ t, exec (.almanacClearFirst r) s = .next t ∧ HeldIn s t 0x12 r
        ∧ t.alm = { s.alm with queue := s.alm.queue ++ [s.requestRecord (s.ticketFor r) 0x91 0 0 (leBytes 2 (firstUsed s.alm))] }
        ∧ ∀ k, t.has k = s.has k)

/-! ### The Thresher's verbs -/

/-- THR_LOAD op 0 with the first chunk of an ID that holds nothing writes the chunk at the object's virtual address and leaves an
incomplete object that its channel owns; ops 1 and 3 that pass every check leave a complete object with the bytes of the store, or
of the header with zeroed data, in memory; op 2 frees the ID. Each is answered, where the firmware's writes pass (08 R260, R262, R283,
R284, R290).
Completion is concluded for thrLoadInlineChunk, thrLoadFromStore, thrUnload, thrAllocate. -/
def Obligations.ThrLoadAnswers : Prop :=
  ∀ (r : Req) (s : State) (n id v : Nat), s.Inv → Fresh s 0x20 r → r.noun = 0 → r.index = 0 → pf r 0 1 = n → n < 4 → pf r 2 1 = id →
    id < 64 → pf r 4 4 = v → s.ctxFenced n = false → s.idBusy n id false = false →
    (pf r 1 1 = 0 → 16 ≤ r.length.toNat → r.length.toNat = 16 + pf r 12 4 → (s.ctx n).obj id = none → pf r 3 1 = 0 → v % 256 = 0 →
      pf r 8 4 = 0 → tagStatus (leAt (r.payload.drop 16) 4 1) = 0 → s.mapped (6 + n) .write v (r.payload.drop 16).length = true →
      FirmwarePasses s .steward (6 + n) [⟨.write, v, (r.payload.drop 16).length⟩] →
      ∃ t, exec (.thrLoadInlineChunk r) s = .next t ∧ SameBytes (s.virtWrite (6 + n) v (r.payload.drop 16)) t
        ∧ ∃ o, (t.ctx n).obj id = some o ∧ o.complete = false ∧ o.received = (r.payload.drop 16).length ∧ o.owner = some r.ch
          ∧ o.vaddr = v ∧ o.lastChunk = s.tm.now ∧ Answered s t 0x20 r stOk (loadReply n o))
    ∧ (pf r 1 1 = 1 → r.length.toNat = 16 → pf r 3 1 ≤ 1 → v % 256 = 0 → s.selectWaits 0 = false → 64 ≤ pf r 12 4 →
      0x900000 + pf r 8 4 + pf r 12 4 ≤ s.fld (nCSP 8) 7 16 9 * 0x100000 → s.mapped (6 + n) .write v (pf r 12 4) = true →
      FirmwarePasses s .storage (6 + n) [⟨.write, v, pf r 12 4⟩] → ∀ o, o = { objOf id v (s.nor (0x900000 + pf r 8 4) (pf r 12 4)) with received := pf r 12 4 } →
      (o.type = 8 ∨ o.type = 9) → (s.virtWrite (6 + n) v (s.nor (0x900000 + pf r 8 4) (pf r 12 4))).objOk n o = true →
      (s.virtWrite (6 + n) v (s.nor (0x900000 + pf r 8 4) (pf r 12 4))).virtRead (6 + n) v 64 = (s.nor (0x900000 + pf r 8 4) (pf r 12 4)).take 64 →
      ∃ t, exec (.thrLoadFromStore r) s = .next t ∧ (t.ctx n).obj id = some { o with complete := true }
        ∧ SameBytes (s.virtWrite (6 + n) v (s.nor (0x900000 + pf r 8 4) (pf r 12 4))) t
        ∧ Answered s t 0x20 r stOk (loadReply n { o with complete := true }))
    ∧ (pf r 1 1 = 2 → r.length.toNat = 16 → pf r 3 1 ≤ 1 → ∀ o, (s.ctx n).obj id = some o →
      ∃ t, exec (.thrUnload r) s = .next t ∧ (t.ctx n).obj id = none ∧ t.mem = s.mem
        ∧ (∀ k, k ≠ id → (t.ctx n).obj k = (s.ctx n).obj k)
        ∧ Answered s t 0x20 r stOk (loadReply n { o with complete := false, received := 0 }))
    ∧ (pf r 1 1 = 3 → r.length.toNat = 80 → pf r 3 1 ≤ 1 → v % 256 = 0 →
      ∀ h bs o, h = slice r.payload 16 64 → bs = h ++ List.replicate (leAt h 12 4) 0 → s.mapped (6 + n) .write v (64 + leAt h 12 4) = true →
      FirmwarePasses s .steward (6 + n) [⟨.write, v, bs.length⟩] → o = { objOf id v h with received := 64 + leAt h 12 4 } → (o.type = 8 ∨ o.type = 9) →
      (s.virtWrite (6 + n) v bs).virtRead (6 + n) v 64 = h → (s.virtWrite (6 + n) v bs).objOk n o = true →
      ∃ t, exec (.thrAllocate r) s = .next t ∧ (t.ctx n).obj id = some { o with complete := true } ∧ SameBytes (s.virtWrite (6 + n) v bs) t
        ∧ Answered s t 0x20 r stOk (loadReply n { o with complete := true }))

/-- THR_SUBMIT of a program that passes the checks on a context without a job is accepted with the next job number: the context
waits for its first sample, with its counts at zero (08 R273 to R275, R285, R286).
THR_CANCEL of the job that holds the engine, and is not suspended, marks it to end with reason 1 at its next pre-emption point; any
other job ends at once and its context is idle (08 R285, R287).
Completion is concluded for thrSubmit, thrCancel. -/
def Obligations.JobsAcceptedAndCancelled : Prop :=
  (∀ (r : Req) (s : State) (n : Nat) (o : Obj), s.Inv → Fresh s 0x21 r → r.length.toNat = 18 → r.noun = 0 → r.index = 0 → pf r 0 1 = n → n < 4 →
    (s.heldRoom r).1 = true → s.ctxFenced n = false → (s.ctx n).job = none → (pf r 1 1 = 0 ∨ pf r 1 1 = 1 ∧ s.namedOk (pf r 12 6) = true) →
    pz r 3 1 = true → pz r 6 2 = true → 1 ≤ pf r 4 2 → (s.ctx n).loaded (pf r 2 1) = some o → o.type = 8 →
    FirmwarePasses s .steward (6 + n) ((s.ctx n).checkParts o) → s.checkProgram n (s.program n o) = none →
    ∃ t, exec (.thrSubmit r) s = .next t
      ∧ Answered s t 0x21 r stAccepted (leBytes 1 n ++ [0] ++ leBytes 4 ((s.ctx n).jobNumber % (2 ^ 32 - 1) + 1))
      ∧ (t.ctx n).state = 3 ∧ (t.ctx n).jobNumber = (s.ctx n).jobNumber % (2 ^ 32 - 1) + 1 ∧ (t.ctx n).done = 0 ∧ (t.ctx n).skipped = 0
      ∧ (t.ctx n).overruns = 0 ∧ (t.ctx n).job.any (fun j => j.ticket == some (s.ticketFor r) && j.every == pf r 4 2
          && j.count == pf r 8 4 && j.first == (if pf r 1 1 = 1 then some (pf r 12 6) else none)) = true
      ∧ SameBytes s t)
  ∧ (∀ (r : Req) (s : State) (n : Nat) (j : Job), s.Inv → Fresh s 0x22 r → r.length.toNat = 8 → r.noun = 0 → r.index = 0 → pf r 0 1 = n → n < 4 →
    s.ctxFenced n = false → pz r 1 3 = true → (s.ctx n).job = some j → (pf r 4 4 = 0 ∨ pf r 4 4 = j.number) → j.ending = none →
    ∃ t, exec (.thrCancel r) s = .next t ∧ SameBytes s t
      ∧ (if s.thr.running = some n ∧ s.suspended (thrAgent n) = false then
          Answered s t 0x22 r stOk [] ∧ (t.ctx n).job = some { j with ending := some 1 }
        else (t.ctx n).job = none ∧ (t.ctx n).state = 0))

/-- THR_STATUS answers with a context's state, numbers and counts, and with a part of an object (08 R291).
THR_RETURN with a chunk that is not the last joins it to what has been returned; the last one, where the whole replaces dst, makes
the job ready behind its HANDOFF, and an idle engine may take it at once (08 R281, R286).
Completion is concluded for thrStatus, thrReturn. -/
def Obligations.JobsToldAndTaken : Prop :=
  (∀ (r : Req) (s : State) (n : Nat), Fresh s 0x23 r → r.length.toNat = 10 → r.noun = 0 → r.index = 0 → pf r 0 1 = n → n < 4 →
    s.fits r (32 + pf r 8 2) = true → s.ctxFenced n = false → pz r 2 2 = true → pf r 8 2 ≤ 4046 →
    (pf r 1 1 = 0xFF ∨ ∃ o, (s.ctx n).obj (pf r 1 1) = some o ∧ pf r 4 4 + pf r 8 2 ≤ (if o.complete then 64 + o.dataLen else o.received)
      ∧ FirmwarePasses s .steward (6 + n) [⟨.read, o.vaddr + pf r 4 4, pf r 8 2⟩]) →
    ∃ t bs, exec (.thrStatus r) s = .next t
      ∧ (if pf r 1 1 = 0xFF then bs = [] else ∃ o, (s.ctx n).obj (pf r 1 1) = some o ∧ bs = s.objBytes n o (pf r 4 4) (pf r 8 2))
      ∧ (∃ fl : Byte, Answered s t 0x23 r stOk (leBytes 1 n ++ leBytes 1 (s.ctx n).state ++ leBytes 2 (s.ctx n).instr
        ++ leBytes 4 (s.ctx n).jobNumber ++ leBytes 4 (s.ctx n).done ++ leBytes 4 (s.ctx n).skipped ++ leBytes 4 (s.ctx n).overruns
        ++ leBytes 2 (s.ctx n).handoff ++ [fl] ++ [0] ++ leBytes 4 (pf r 4 4) ++ leBytes 4 bs.length ++ bs))
      ∧ SameBytes s t ∧ Within [.requests, .counters, .events, .almanac, .storage, .fabric, .power] s t ∧ EventsOnly [22, 23, 42] s t)
  ∧ (∀ (r : Req) (s : State) (n : Nat) (j : Job) (bs : List Byte), s.Inv → Fresh s 0x24 r → 8 ≤ r.length.toNat → r.noun = 0 → r.index = 0 →
    pf r 0 1 = n → n < 4 → s.ctxFenced n = false → (s.ctx n).state = 5 → pf r 2 2 = (s.ctx n).handoff → (s.ctx n).job = some j →
    j.returned.length = pf r 4 4 → bs = j.returned ++ r.payload.drop 8 →
    (pf r 1 1 = 0 → ∃ t, exec (.thrReturn r) s = .next t
      ∧ Answered s t 0x24 r stOk (leBytes 4 bs.length) ∧ (t.ctx n).job = some { j with returned := bs } ∧ t.mem = s.mem)
    ∧ (pf r 1 1 = 1 → FirmwarePasses s .steward (6 + n) (s.returnPart n j bs).toList → ∀ u, s.takeReturn n j bs = some u →
      (∀ m, m < 4 → Restorable u m) → ∃ t, exec (.thrReturn r) s = .next t
      ∧ Answered s t 0x24 r stOk (leBytes 4 bs.length) ∧ SameBytes u t
      ∧ (t.ctx n).job.any (fun k => k.number == j.number && k.returned == []) = true
      ∧ ((t.ctx n).state = 1 ∨ (t.ctx n).state = 2)
      ∧ (s.thr.running.isSome = true → (t.ctx n).state = 1 ∧ (t.ctx n).job.map (·.pc) = some (j.next (u.jobProgram n) (j.pc + 1)))))

/-! ### The Thresher's kernels and its schedule -/

/-- With the constants of a limb as R263 has them, sums, differences and products of residues are the modular ones: a sum and a
difference modulo q, a RECIP product modulo q, and a MONT product times 2^64 modulo q; every result is below q (08 R263, R265, R266).
The residue check of a hardened kernel passes for exactly the words that agree with the right one modulo 65 521 (08 R271). -/
def Obligations.LimbsAndResidues : Prop :=
  (∀ (l : Limb) (a b : Nat), 1 < l.q → a < l.q → b < l.q →
    l.add a b = (a + b) % l.q ∧ l.sub a b = (a + l.q - b) % l.q
    ∧ (l.mont = false → l.mu = 2 ^ (2 * l.beta) / l.q → l.mul a b = a * b % l.q)
    ∧ (l.mont = true → l.q < 2 ^ 64 → l.q * l.qPrime % 2 ^ 64 = 2 ^ 64 - 1 → l.mul a b < l.q ∧ l.mul a b * 2 ^ 64 % l.q = a * b % l.q))
  ∧ (∀ (l : Limb) (op : LastOp) (w : Nat), 1 < l.q →
    (match op with | .prod a b | .sum a b => a < l.q ∧ b < l.q | .keep _ => True) →
    (if l.mont then l.q < 2 ^ 64 ∧ l.q * l.qPrime % 2 ^ 64 = 2 ^ 64 - 1 else l.mu = 2 ^ (2 * l.beta) / l.q) →
    (op.holds l w = true ↔ w % 65521 = op.eval l % 65521))

/-- Where the job that holds the engine stands at an element-wise kernel whose accesses pass, the kernel writes its words to dst, with the
components, limbs and domain of the rule, and the job goes on; a hardened one whose residue check fails sets dst's poisoned flag
and ends the job instead (08 R267, R270, R271).
The kernels of one operand likewise write dst and let the job go on: the transforms with the domain changed, the automorphism
with it kept, RESCALE with one limb less, DECOMP with one limb spread over all, DROP with the first limbs, BASECONV with the
limbs of dst's ring, and POLYEVAL, which leaves free bytes in its scratch object (08 R267, R268, R270, R272).
Completion is concluded for emul, eadd, esub, emac, ntt, intt, automorph, baseconv, rescale, decomp, drop, polyeval. -/
def Obligations.KernelsRun : Prop :=
  (∀ (c : Fin 4) (u : Option Upset) (s : State) (j : Job) (i : ThrInstr) (x y : Operand) (rd : List Piece) (r : KernelResult),
    s.current c.val = some (j, i) → s.operand c.val i.a = some x → s.operand c.val i.b = some y →
    (i.op = 0x01 → ∀ h, h = harden x.ls (2 ^ x.k) (emulOps x.ls x.comps y.comps) (u.map fun v => (v.element, v.mask.toNat)) →
      InstrPasses s c.val j (s.instrParts c.val i) (s.polyOut c.val i.dst h.1 x.obj.limbs x.k (bitAt x.obj.flags 1) h.2) rd r →
      exec (.emul c u) s = .next (s.instrDone c.val rd r (·.advance c.val)))
    ∧ (i.op = 0x02 → ∀ h, h = harden x.ls (2 ^ x.k) (eaddOps x.ls x.comps y.comps) (u.map fun v => (v.element, v.mask.toNat)) →
      InstrPasses s c.val j (s.instrParts c.val i) (s.polyOut c.val i.dst h.1 x.obj.limbs x.k (bitAt x.obj.flags 1) h.2) rd r →
      exec (.eadd c u) s = .next (s.instrDone c.val rd r (·.advance c.val)))
    ∧ (i.op = 0x03 → InstrPasses s c.val j (s.instrParts c.val i)
        (s.polyOut c.val i.dst (esubK x.ls x.comps y.comps) x.obj.limbs x.k (bitAt x.obj.flags 1)) rd r →
      exec (.esub c) s = .next (s.instrDone c.val rd r (·.advance c.val)))
    ∧ (i.op = 0x04 → ∀ d, s.operand c.val i.dst = some d → InstrPasses s c.val j (s.instrParts c.val i ++ s.operandParts c.val i.dst)
        (s.polyOut c.val i.dst (emacK x.ls d.comps x.comps y.comps) x.obj.limbs x.k true) rd r →
      exec (.emac c) s = .next (s.instrDone c.val rd r (·.advance c.val))))
  ∧ (∀ (c : Fin 4) (s : State) (j : Job) (i : ThrInstr) (x : Operand) (rd : List Piece) (r : KernelResult),
    s.current c.val = some (j, i) → s.operand c.val i.a = some x →
    (i.op = 0x05 → InstrPasses s c.val j (s.instrParts c.val i) (s.polyOut c.val i.dst (nttK x.ls x.k x.comps) x.obj.limbs x.k true) rd r →
      exec (.ntt c) s = .next (s.instrDone c.val rd r (·.advance c.val)))
    ∧ (i.op = 0x06 → InstrPasses s c.val j (s.instrParts c.val i) (s.polyOut c.val i.dst (inttK x.ls x.k x.comps) x.obj.limbs x.k false) rd r →
      exec (.intt c) s = .next (s.instrDone c.val rd r (·.advance c.val)))
    ∧ (i.op = 0x07 → InstrPasses s c.val j (s.instrParts c.val i) (s.polyOut c.val i.dst
        (automorphK x.ls x.k i.imm32 (bitAt x.obj.flags 1) x.comps) x.obj.limbs x.k (bitAt x.obj.flags 1)) rd r →
      exec (.automorph c) s = .next (s.instrDone c.val rd r (·.advance c.val)))
    ∧ (i.op = 0x08 → ∀ d k ls, (s.ctx c.val).loaded (handleId i.dst) = some d → s.ringFor c.val d = some (k, ls) →
      InstrPasses s c.val j (s.instrParts c.val i)
        (s.polyOut c.val i.dst [baseconvK x.ls ls (2 ^ x.k) (x.comps.headD [])] d.limbs x.k false) rd r →
      exec (.baseconv c) s = .next (s.instrDone c.val rd r (·.advance c.val)))
    ∧ (i.op = 0x09 → InstrPasses s c.val j (s.instrParts c.val i)
        (s.polyOut c.val i.dst (x.comps.map (rescaleComp x.ls)) (x.obj.limbs - 1) x.k false) rd r →
      exec (.rescale c) s = .next (s.instrDone c.val rd r (·.advance c.val)))
    ∧ (i.op = 0x0A → InstrPasses s c.val j (s.instrParts c.val i)
        (s.polyOut c.val i.dst [decompK x.ls i.imm32 (x.comps.headD [])] x.obj.limbs x.k false) rd r →
      exec (.decomp c) s = .next (s.instrDone c.val rd r (·.advance c.val)))
    ∧ (i.op = 0x14 → InstrPasses s c.val j (s.instrParts c.val i)
        (s.polyOut c.val i.dst (x.comps.map (·.take i.imm32)) i.imm32 x.k (bitAt x.obj.flags 1)) rd r →
      exec (.drop c) s = .next (s.instrDone c.val rd r (·.advance c.val)))
    ∧ (i.op = 0x0B → ∀ u b key e, (s.ctx c.val).loaded (handleId i.b) = some b → (s.ctx c.val).loaded (handleId i.c) = some key →
      e = polyevalK x.ls x.k i.imm32 x.comps ((List.range b.entries).map fun n => s.words c.val b (64 + n * b.limbs * 8) b.limbs)
          ((List.range key.entries).map fun n => s.compsAt c.val key (64 + n * 2 * key.limbs * 2 ^ x.k * 8) 2 key.limbs (2 ^ x.k)) u →
      InstrPasses s c.val j (s.instrParts c.val i) ((s.polyOut c.val i.dst e.r (x.obj.limbs - i.imm32) x.k true e.ok).map fun r =>
          { r with writes := s.scratchWrite c.val i.imm16 x.obj.limbs x.k ++ r.writes }) rd r →
      exec (.polyeval c u) s = .next (s.instrDone c.val rd r (·.advance c.val))))

/-- ZERO writes zeros over dst's data, or one component of it, and clears its poisoned flag. FEATURE writes the scaled fields of its
sheaf to dst, skips the sample where a field of the map is not usable or the sheaf is gone, and ends the job where the layout
changed. RERAND adds the next entry of a pool and uses it up, or waits for a pool. HANDOFF waits for the return of dst, after a
RERAND where it names a pool. In each the job goes on or waits as R274 to R281 say.
Completion is concluded for zero, feature, rerand, handoff. -/
def Obligations.ServiceKernelsRun : Prop :=
  ∀ (c : Fin 4) (s : State) (j : Job) (i : ThrInstr), s.Inv → s.current c.val = some (j, i) → j.ending = none →
    (i.op = 0x13 → ∀ o len at' rd r, (s.ctx c.val).loaded (handleId i.dst) = some o →
      len = (if handleView i.dst = 0 then o.dataLen else o.limbs * 2 ^ (((s.ringFor c.val o).map (·.1)).getD 0) * 8) →
      at' = (if handleView i.dst = 0 then 0 else (handleView i.dst - 1) * len) →
      InstrPasses s c.val j (s.instrParts c.val i) (some { writes := [(o.vaddr + 64 + at', List.replicate len 0),
          (o.vaddr, Obj.header { o with flags := o.flags &&& 6 })], objs := [{ o with flags := o.flags &&& 6 }], ok := true }) rd r →
      exec (.zero c) s = .next (s.instrDone c.val rd r (·.advance c.val)))
    ∧ (i.op = 0x10 → ∀ m d u ps, (s.ctx c.val).loaded (handleId i.a) = some m → (s.ctx c.val).loaded (handleId i.dst) = some d →
      ps = s.operandParts c.val i.a ++ (s.featurePart c.val j).toList → u = s.accessed (thrAgent c.val) ps →
      (j.result = none → Passes s (thrAgent c.val) ps →
        (u.featureBuffer c.val j = none ∨ (∃ bs, u.featureBuffer c.val j = some bs ∧ leAt bs 12 4 = leAt (u.objBytes c.val m 64 4) 0 4
            ∧ u.features c.val j m bs = none) →
          ∃ t, exec (.feature c) s = .next t ∧ (t.ctx c.val).skipped = (s.ctx c.val).skipped + 1
            ∧ (t.ctx c.val).job.any (·.skipping) = true ∧ SameBytes s t)
        ∧ ∀ bs, u.featureBuffer c.val j = some bs →
          (leAt bs 12 4 ≠ leAt (u.objBytes c.val m 64 4) 0 4 → exec (.feature c) s = .next (u.endJob c.val 3))
          ∧ (leAt bs 12 4 = leAt (u.objBytes c.val m 64 4) 0 4 → ∀ fs k ls slot r, u.features c.val j m bs = some fs →
            u.ringFor c.val d = some (k, ls) → slot = b2n (leAt (u.objBytes c.val m 68 1) 0 1 == 1) →
            u.polyResult c.val i.dst [ls.map fun l => featureRow l (2 ^ k) fs] d.limbs k ((d.flags &&& 1) + 6 * slot) = some r →
            Passes u (thrAgent c.val) (writeParts r.writes) →
            exec (.feature c) s = .next (u.instrDone c.val [] r (·.advance c.val))))
      ∧ ∀ r, j.result = some r → Passes s (thrAgent c.val) (writeParts r.writes) →
          exec (.feature c) s = .next (s.instrDone c.val [] r (·.advance c.val)))
    ∧ (i.op = 0x11 →
      (∀ rd r, InstrPasses s c.val j (s.rerandParts c.val i.dst i.a) (s.rerand c.val i.dst i.a) rd r →
        exec (.rerand c) s = .next (s.instrDone c.val rd r (·.advance c.val)))
      ∧ (j.result = none → s.rerand c.val i.dst i.a = none → Saves s c.val → ∃ t, exec (.rerand c) s = .next t ∧ (t.ctx c.val).state = 6
          ∧ t.has 38 = true ∧ (t.ctx c.val).job = some { j with waitSince := s.tm.now }))
    ∧ (i.op = 0x12 →
      (i.b = 0xFFFF → Saves s c.val → ∃ t, exec (.handoff c) s = .next t ∧ (t.ctx c.val).state = 5 ∧ t.has 38 = true
        ∧ (t.ctx c.val).handoff = ((s.ctx c.val).handoff + 1) % 65536
        ∧ (t.ctx c.val).job = some { j with returned := [], waitSince := s.tm.now })
      ∧ (i.b ≠ 0xFFFF → ∀ rd r, InstrPasses s c.val j (s.rerandParts c.val i.a i.b) (s.rerand c.val i.a i.b) rd r →
        exec (.handoff c) s = .next (s.instrDone c.val rd r (·.handOff c.val)))
      ∧ (i.b ≠ 0xFFFF → j.result = none → s.rerand c.val i.a i.b = none → Saves s c.val → ∃ t, exec (.handoff c) s = .next t
          ∧ (t.ctx c.val).state = 6 ∧ t.has 38 = true ∧ (t.ctx c.val).job = some { j with waitSince := s.tm.now }))

/-- At END a job with further samples saves its state and waits for the next one; the last one ends the job with reason 0, which frees its context,
counts it and raises event 35 (08 R269, R285).
Completion is concluded for endIteration. -/
def Obligations.IterationEnds : Prop :=
  ∀ (c : Fin 4) (s : State) (j : Job) (i : ThrInstr), s.Inv → s.current c.val = some (j, i) → i.op = 0 → j.ending = none →
    (j.lastRound = false → Saves s c.val) →
    ∃ t, exec (.endIteration c) s = .next t
      ∧ (t.ctx c.val).done = (if j.skipping then (s.ctx c.val).done else (s.ctx c.val).done + 1)
      ∧ (if j.lastRound then (t.ctx c.val).job = none ∧ (t.ctx c.val).state = 0 ∧ t.has 35 = true
          ∧ t.count nTHRESHER 2 0 = min (2 ^ 32 - 1) (s.count nTHRESHER 2 0 + 1)
        else (t.ctx c.val).state = 3 ∧ (t.ctx c.val).job.any (fun k => k.iteration == j.iteration + 1 && !k.skipping && k.number == j.number) = true)

/-- At a pre-emption point a ready context of higher priority takes the engine, is counted and announced by event 37; at the end
of a time slice one of equal priority, or a higher one, takes it; after 1 ms of idleness the lanes are gated; and a wait of
handoff_timeout_ms ends its job with reason 7 (08 R282, R286 to R289). A context takes the engine where the state of the one that
leaves it can be saved, and its own read back.
An inline load that has had no chunk for 10 s has no owner from then on, and keeps what has arrived (08 R283).
Completion is concluded for preemptionPoint, timeSliceExpiry, laneIdleGate, handoffTimeout, thrLoadOwnerTimeout. -/
def Obligations.EngineIsShared : Prop :=
  (∀ (s : State), s.Inv →
    (∀ n m, n < 4 → s.thr.running = some n → s.thr.last = n → s.engineOn = true → (s.ctx n).parking = none →
      (s.ctx n).job.bind (·.ending) = none → s.nextCtx n = some m → Saves s n → Restorable s m →
      (s.priority n < s.priority m → ∃ t, exec .preemptionPoint s = .next t ∧ t.thr.running = some m ∧ (t.ctx n).state = 1 ∧ (t.ctx m).state = 2
        ∧ t.has 37 = true ∧ t.count nTHRESHER 3 0 = min (2 ^ 32 - 1) (s.count nTHRESHER 3 0 + 1))
      ∧ (s.priority n ≤ s.priority m → ∃ t, exec .timeSliceExpiry s = .next t ∧ t.thr.running = some m ∧ (t.ctx n).state = 1
        ∧ (t.ctx m).state = 2 ∧ t.tm.now = max s.tm.now (s.thr.sliceFrom + 240000)))
    ∧ (s.thr.running = none → s.flag nTHRESHER 0 0 = true → ∃ t, exec .laneIdleGate s = .next t ∧ t.thr.gated = true
        ∧ t.tm.now = max s.tm.now (s.thr.idleSince + 120000))
    ∧ ∀ (c : Fin 4) (j : Job), (s.ctx c.val).job = some j → ((s.ctx c.val).state = 5 ∨ (s.ctx c.val).state = 6) →
      ∃ t, exec (.handoffTimeout c) s = .next t ∧ (t.ctx c.val).job = none ∧ (t.ctx c.val).state = 0 ∧ t.has 36 = true
        ∧ t.tm.now = max s.tm.now (j.waitSince + 120000 * s.fld (nTHRCTX c.val) 3 16 16))
  ∧ (∀ (c : Fin 4) (id : Fin 64) (s : State) (o : Obj), s.Inv → (s.ctx c.val).obj id.val = some o → o.complete = false → o.owner.isSome = true →
    ∃ t, exec (.thrLoadOwnerTimeout c id) s = .next t ∧ (t.ctx c.val).obj id.val = some { o with owner := none }
      ∧ t.tm.now = max s.tm.now (o.lastChunk + 1200000000) ∧ t.mem = s.mem)

/-! ### Yoke, power, Harrow and update verbs -/

/-- YOKE_CTL in a lead: forwarding holds the request and puts its message behind those for its position; the status entries of the
seven positions are answered, and their events cleared; a release is held and its command sent; a re-ranging is answered, and the
position ranged again. In a joined member, a request to leave is held and the member leaves (10 R358, R359, R365).
Completion is concluded for yokeCtlForward, yokeCtlStatus, yokeCtlRelease, yokeCtlRerange, yokeCtlLeave. -/
def Obligations.YokeCtlServes : Prop :=
  ∀ (r : Req) (s : State) (k : Nat), s.Inv → Fresh s 0x30 r → r.noun = 0 → r.index = 0 → (s.heldRoom r).1 = true → s.yoke.fence = none →
    pz r 2 2 = true → pf r 1 1 = k →
    (pf r 0 1 = 0 → 5 ≤ r.length.toNat → r.length.toNat ≤ 4068 → s.isLead = true → 1 ≤ k → k ≤ 7 → s.isJoined k = true →
      ∃ t, exec (.yokeCtlForward r) s = .next t ∧ HeldIn s t 0x30 r
        ∧ t.yoke.forwards.any (fun f => f.ticket == some (s.ticketFor r) && f.position == k) = true)
    ∧ (pf r 0 1 = 1 → r.length.toNat = 4 → s.isLead = true → k = 0 →
      ∃ t, exec (.yokeCtlStatus r) s = .next t ∧ Answered s t 0x30 r stOk ([1, 0, 0, 0] ++ s.yoke.positions.flatMap positionEntry)
        ∧ t.yoke = { s.yoke with positions := s.yoke.positions.map fun p => { p with events := 0 } })
    ∧ (pf r 0 1 = 2 → r.length.toNat = 4 → s.isLead = true → 1 ≤ k → k ≤ 7 → s.isJoined k = true →
      ∃ t, exec (.yokeCtlRelease r) s = .next t ∧ HeldIn s t 0x30 r ∧ t.yoke.positions = s.yoke.positions
        ∧ t.yoke.commands = s.yoke.commands 
          ++ [{ kind := .release, dest := k, seq := s.yoke.seq, payload := [], sent := 0, open' := [k], notBefore := 0, ticket := some (s.ticketFor r) }])
    ∧ (pf r 0 1 = 3 → r.length.toNat = 4 → s.isLead = true → 1 ≤ k → k ≤ 7 → s.isJoined k = true →
      ∃ t, exec (.yokeCtlRerange r) s = .next t ∧ Answered s t 0x30 r stOk (leBytes 1 3 ++ leBytes 1 k ++ [0, 0])
        ∧ (t.pos k).rerange = true ∧ (t.pos k).rangeLeft = 8 ∧ (t.pos k).rangeSum = 0
        ∧ t.yoke.commands.any (fun c => c.kind == .range && c.dest == k && c.seq == s.yoke.seq) = true)
    ∧ (pf r 0 1 = 4 → r.length.toNat = 4 → s.isMember = true → k = 0 → s.yoke.linkState = 5 →
      ∃ t, exec (.yokeCtlLeave r) s = .next t ∧ HeldIn s t 0x30 r ∧ t.yoke = { s.yoke with leaving := true, leaveTicket := some (s.ticketFor r) })

/-- FALLOW in a device that agrees with nobody is answered with its entry period, at least 10 ms and one period ahead; in a lead
with joined members it is held and proposed to them. WAKE with op 0 while an entry waits abandons it, and with op 1 holds the
domains on for hold_ms. DETACH is held, and the device leaves at the next capture line (11 R401, R402, R403, R424, R427).
Completion is concluded for fallow, wakeCancel, wakeHold, detach. -/
def Obligations.SleepVerbsServe : Prop :=
  ∀ (r : Req) (s : State), r.noun = 0 → r.index = 0 → (s.heldRoom r).1 = true →
    (Fresh s 0x31 r → r.length.toNat = 8 → s.fallowBusy = false → pf r 0 1 ≤ 1 → pz r 1 3 = true → 1 ≤ pf r 4 4 → pf r 4 4 ≤ 86400000 →
      (s.isLead = true → s.joined = [] →
        ∃ t pc, exec (.fallow r) s = .next t ∧ Answered s t 0x31 r stOk (leBytes 6 pc ++ [0, 0])
          ∧ pc = addPeriod s.tm.period (max 1 (ceilDiv (s.tm.now + 1200000 - s.tm.capture) (max 1 s.periodTicks)))
          ∧ t.pw.fallow.any (fun f => f.entry == some pc && f.deep == (pf r 0 1 == 1) && f.sleepMs == pf r 4 4) = true)
      ∧ (s.isLead = true → s.joined ≠ [] →
        ∃ t, exec (.fallow r) s = .next t ∧ HeldIn s t 0x31 r
          ∧ t.pw.fallow.any (fun f => f.entry == none && f.deep == (pf r 0 1 == 1) && f.sleepMs == pf r 4 4 && f.ticket == some (s.ticketFor r)) = true
          ∧ t.yoke.commands = s.yoke.commands 
          ++ [{ kind := .fallowPropose, dest := 0, seq := s.yoke.seq, sent := 0, open' := s.joined, notBefore := 0, ticket := none, payload := leBytes 1 ((s.yoke.proposal + 1) % 256) ++ leBytes 1 (b2n (pf r 0 1 == 1)) ++ leBytes 4 (pf r 4 4) }]))
    ∧ (Fresh s 0x32 r → r.length.toNat = 4 → pz r 1 1 = true → pf r 0 1 = 0 → pf r 2 2 = 0 → ∀ f, s.pw.fallow = some f →
      f.pointSent = false → f.ticket = none → f.proposal = none → s.yoke.agreed = none →
      ∃ t, exec (.wakeCancel r) s = .next t ∧ t.pw.fallow = none ∧ Answered s t 0x32 r stOk ([0, 0] ++ leBytes 6 s.tm.period))
    ∧ (Fresh s 0x32 r → r.length.toNat = 4 → pz r 1 1 = true → pf r 0 1 = 1 → 1 ≤ pf r 2 2 → pf r 2 2 ≤ 60000 →
      ∃ t, exec (.wakeHold r) s = .next t ∧ t.pw = { s.pw with hold := some (s.tm.now + 120000 * pf r 2 2) }
        ∧ Answered s t 0x32 r stOk ([0, 0] ++ leBytes 6 s.tm.period))
    ∧ (Fresh s 0x53 r → r.length.toNat = 0 → s.pw.detach = .none → s.pw.fallow = none → s.yoke.agreed = none → (∀ n, (s.ctx n).job = none) →
      ∃ t, exec (.detach r) s = .next t ∧ HeldIn s t 0x53 r
        ∧ t.pw = { s.pw with detach := .accepted, detachTicket := some (s.ticketFor r), detachPeriod := addPeriod s.tm.period 1, detachHigh := false })

/-- HARROW_ARM draws a consent for its channel and answers with its number and 1 000 ms. HARROW_SET with TEST_EN high starts the
named slots: pending, counted from zero, with their generators loaded, and event 55. HARROW_DISARM ends the pending or active
episodes that it names with reason 3, and with the service level and the serial number sets the seal. A SET that names a pending or an
active slot is refused with BUSY and changes nothing (14 R493 to R502, R556).
Completion is concluded for harrowArm, harrowSet, harrowDisarmSlots, harrowDisarmAll, harrowSeal. -/
def Obligations.HarrowVerbsServe : Prop :=
  ∀ (r : Req) (s : State), s.Inv → r.noun = 0 → r.index = 0 →
    (Fresh s 0x40 r → r.length.toNat = 0 → s.hw.sealed = false →
      ∃ t id, exec (.harrowArm r) s = .next t ∧ id = lfsrStep s.hw.consentGen % 65536 ∧ Answered s t 0x40 r stOk (leBytes 2 id ++ leBytes 2 1000)
        ∧ t.hw = { s.hw with consentGen := lfsrStep s.hw.consentGen, consents := (s.hw.consents.filter (·.ch != r.ch)) ++ [{ ch := r.ch, id, at' := s.tm.now }] })
    ∧ (Fresh s 0x41 r → r.length.toNat = 4 → s.hw.sealed = false → s.boot.testEn = true → 1 ≤ pf r 0 1 → pf r 0 1 < 16 → pz r 1 1 = true →
      (∀ e, e ∈ slotsOf (pf r 0 1) → s.slotStarts e = true ∧ (nth {} s.hw.episodes e).state ≠ 1 ∧ (nth {} s.hw.episodes e).state ≠ 2) →
      ∃ t p, exec (.harrowSet r) s = .next t ∧ Answered s t 0x41 r stOk (leBytes 1 (pf r 0 1) ++ [0] ++ leBytes 6 p) ∧ t.has 55 = true
        ∧ (∀ e, e ∈ slotsOf (pf r 0 1) → (nth {} t.hw.episodes e).state = 1 ∧ (nth {} t.hw.episodes e).count = 0
            ∧ (nth {} t.hw.episodes e).lfsr = lfsrLoad (if s.hwReg e 7 = 0 then s.tm.now % 2 ^ 32 else s.hwReg e 7)
            ∧ (nth {} t.hw.episodes e).first = s.opensAt e)
        ∧ ∀ e, e ∉ slotsOf (pf r 0 1) → nth {} t.hw.episodes e = nth {} s.hw.episodes e)
    ∧ (Fresh s 0x41 r → r.length.toNat = 4 → s.hw.sealed = false → (s.boot.testEn = true ∨ s.consentFor r = true) →
      (∃ e, e ∈ slotsOf (pf r 0 1) ∧ ((nth {} s.hw.episodes e).state = 1 ∨ (nth {} s.hw.episodes e).state = 2)) →
      ∃ t, exec (.harrowSet r) s = .next t ∧ Answered s t 0x41 r stBusy [] ∧ Within [.requests, .counters, .events, .almanac] s t)
    ∧ (Fresh s 0x42 r → (r.length.toNat = 12 ∨ r.length.toNat = 4 ∧ pf r 0 1 < 2) → pz r 2 2 = true →
      (pf r 0 1 = 0 → pf r 1 1 < 16 → ∃ t x, exec (.harrowDisarmSlots r) s = .next t ∧ Answered s t 0x42 r stOk (x ++ leBytes 1 (b2n s.hw.sealed))
        ∧ t.hw.sealed = s.hw.sealed
        ∧ ∀ e, e < 4 → if e ∈ s.runningSlots (pf r 1 1) then (nth {} t.hw.episodes e).state = 3 ∧ (nth {} t.hw.episodes e).endReason = 3
            else nth {} t.hw.episodes e = nth {} s.hw.episodes e)
      ∧ (pf r 0 1 = 1 → ∃ t x, exec (.harrowDisarmAll r) s = .next t ∧ Answered s t 0x42 r stOk (x ++ leBytes 1 (b2n s.hw.sealed))
        ∧ t.hw.sealed = s.hw.sealed
        ∧ ∀ e, e < 4 → if e ∈ s.runningSlots 15 then (nth {} t.hw.episodes e).state = 3 ∧ (nth {} t.hw.episodes e).endReason = 3
            else nth {} t.hw.episodes e = nth {} s.hw.episodes e)
      ∧ (pf r 0 1 = 2 → s.boot.service = true → pf r 4 8 = s.boot.serial → s.hw.sealed = false →
        ∃ t x, exec (.harrowSeal r) s = .next t ∧ Answered s t 0x42 r stOk (x ++ [1]) ∧ t.hw.sealed = true ∧ t.hw.consents = []
          ∧ ∀ e, e < 4 → (nth {} t.hw.episodes e).state ≠ 1 ∧ (nth {} t.hw.episodes e).state ≠ 2))

/-- UPDATE_STAGE is accepted: begin opens a staging of its slot for its channel, a chunk in order waits to be written, finish waits
for the verification, and abandon ends the staging. UPDATE_SWAP to a verified slot makes it active and is held (14 R510 to R516).
Completion is concluded for updateStageBegin, updateStageChunk, updateStageFinish, updateStageAbandon, updateSwap. -/
def Obligations.UpdateVerbsServe : Prop :=
  ∀ (r : Req) (s : State) (g : Staging), r.noun = 0 → r.index = 0 → (s.heldRoom r).1 = true → s.pw.fallow = none → s.upd.swap = none →
    (Fresh s 0x50 r → stageLenOk r = true → pz r 2 2 = true → pf r 0 1 = 0 → s.upd.staging = none → pf r 1 1 ≤ 2 →
      s.beginSlot (pf r 1 1) ≠ s.boot.runningFrom → 1024 ≤ pf r 4 4 → pf r 4 4 ≤ 0x400000 →
      ∃ t, exec (.updateStageBegin r) s = .next t ∧ Answered s t 0x50 r stAccepted (t.stagingReply (s.beginSlot (pf r 1 1)) 0 0)
        ∧ t.mem = (s.saveSlots (s.slotState.set (s.beginSlot (pf r 1 1)) 1)).mem
        ∧ t.upd.staging = some { ch := r.ch, slot := s.beginSlot (pf r 1 1), length := pf r 4 4, received := 0, lastRequest := s.tm.now, chunks := [], op := some (s.ticketFor r, 0) })
    ∧ (Fresh s 0x50 r → stageLenOk r = true → pz r 2 2 = true → pf r 0 1 = 1 → s.upd.staging = some g → g.ch = r.ch →
      pf r 4 4 = g.received → g.received + (r.length.toNat - 8) ≤ g.length →
      ∃ t, exec (.updateStageChunk r) s = .next t
        ∧ Answered s t 0x50 r stAccepted (t.stagingReply g.slot 0 (g.received + (r.payload.drop 8).length))
        ∧ t.upd.staging = some { g with received := g.received + (r.payload.drop 8).length, lastRequest := s.tm.now, chunks := g.chunks ++ [(s.ticketFor r, g.received, r.payload.drop 8)] }
        ∧ t.mem = s.mem)
    ∧ (Fresh s 0x50 r → stageLenOk r = true → pz r 2 2 = true → pf r 0 1 = 2 → s.upd.staging = some g → g.ch = r.ch → g.op = none →
      g.received = g.length →
      ∃ t, exec (.updateStageFinish r) s = .next t ∧ Answered s t 0x50 r stAccepted (t.stagingReply g.slot 0 g.received)
        ∧ t.upd.staging = some { g with lastRequest := s.tm.now, op := some (s.ticketFor r, 2) } ∧ t.mem = s.mem)
    ∧ (Fresh s 0x50 r → stageLenOk r = true → pz r 2 2 = true → pf r 0 1 = 3 → s.upd.staging = some g → g.ch = r.ch →
      ∃ t, exec (.updateStageAbandon r) s = .next t ∧ t.upd.staging = none ∧ t.mem = s.mem)
    ∧ (Fresh s 0x51 r → r.length.toNat = 4 → s.pw.detach = .none → s.anyFence = false → s.upd.staging = none → pf r 0 1 ≤ 1 → pz r 1 3 = true →
      ∀ slot, s.swapSlot = some slot →
      ∃ t, exec (.updateSwap r) s = .next t ∧ HeldIn s t 0x51 r ∧ t.upd.swap = some (s.ticketFor r, slot, pf r 0 1 == 1)
        ∧ t.mem = (s.saveSlots { s.slotState with active := slot, trial := pf r 0 1 == 1 }).mem
        ∧ t.boot.phase = if s.boot.phase = .romService then .rom else s.boot.phase)

/-- POWER with op 0 is answered with the domains and banks. With op 1 towards RETAINED or OFF, banks that are ON and not pinned are
there at once, and it is answered; towards ON, banks that are not ON wake, and it is held (11 R428; 07 R249, R250).
RESET_UNIT fences its unit from acceptance on, and is accepted with the period in progress (14 R504, R505).
Completion is concluded for powerQuery, powerSetBanks, resetUnit. -/
def Obligations.PowerAndResetServe : Prop :=
  (∀ (r : Req) (s : State), s.Inv → Fresh s 0x54 r → r.length.toNat = 12 → r.noun = 0 → r.index = 0 → (s.heldRoom r).1 = true → pz r 2 2 = true →
    (pf r 0 1 = 0 → pf r 1 1 ≤ 2 → ∃ t, exec (.powerQuery r) s = .next t ∧ Answered s t 0x54 r stOk s.powerReply ∧ t.mem = s.mem)
    ∧ (pf r 0 1 = 1 → s.pw.fallow = none → s.pw.powers = [] →
      (∀ st, (pf r 1 1 = 1 ∧ st = .retained ∨ pf r 1 1 = 2 ∧ st = .off) →
        (∀ k, k < 64 → bitAt (pf r 4 8) k = true → s.pinned k = false ∧ (s.bank k).state = .on ∧ (s.bank k).waking = false) →
        ∃ t, exec (.powerSetBanks r) s = .next t ∧ Answered s t 0x54 r stOk t.powerReply
          ∧ ∀ k, k < 64 → if bitAt (pf r 4 8) k then (t.bank k).state = st else t.bank k = s.bank k)
      ∧ (pf r 1 1 = 0 → (∃ k, k < 64 ∧ bitAt (pf r 4 8) k = true) →
        (∀ k, k < 64 → bitAt (pf r 4 8) k = true → (s.bank k).state ≠ .on ∧ (s.bank k).failed = false) →
        ∃ t, exec (.powerSetBanks r) s = .next t ∧ HeldIn s t 0x54 r ∧ t.mem.sram = s.mem.sram
          ∧ ∀ k, k < 64 → t.bank k = if bitAt (pf r 4 8) k then { s.bank k with waking := true, gateTo := none } else s.bank k)))
  ∧ (∀ (r : Req) (s : State) (u : UnitOf), s.Inv → Fresh s 0x52 r → r.length.toNat = 0 → (s.nounCheck r).1 = true → unitOf r.noun.toNat = some u →
    (s.heldRoom r).1 = true → s.pw.fallow = none → s.fenced r.noun.toNat = false → s.updateInProgress (some u) = false → s.mb.commit = none →
    ∃ t, exec (.resetUnit r) s = .next t
      ∧ (t.fenceOf u).any (fun f => f.ticket == s.ticketFor r && f.step == .fence && f.period == s.tm.period && f.since == s.tm.now) = true
      ∧ (match u with
        | .csp _ | .sent _ | .edge _ | .twt _ => Answered s t 0x52 r stAccepted (leBytes 6 s.tm.period)
        | _ => True))

/-- A frame whose magic or version is wrong is counted, and leaves the buffer of a two-wire target that had received it; a verb that is not defined, or not available in the
mode, is answered NO_SUCH_VERB (02 R56).
The verbs that the spec locks refuse: HARROW_SET below TEST_EN without an open consent of its channel, ALMANAC_CLEAR_FIRST and
the seal below the service level, and HARROW_ARM and HARROW_SET once sealed, are answered LOCKED and start nothing (14 R497, R500;
13 R480).
Completion is concluded for badFrame, noSuchVerb. -/
def Obligations.RequestsRefused : Prop :=
  (∀ (s : State),
    (∀ ch magic version, s.accepts ch.val = true → (magic ≠ 0x4A ∨ version ≠ if s.mb.v2 then 2 else 1) →
      ∃ t, exec (.badFrame ch magic version) s = .next t ∧ t.count nSYS 12 0 = min 65535 (s.count nSYS 12 0 + 1)
        ∧ (nth {} t.mb.chans ch.val).rx = (let l := (nth {} s.mb.chans ch.val).rx
            if l.head?.map (·.take 2) = some [magic, version] then l.tail else l)
        ∧ Within [.requests, .counters] s t)
    ∧ (∀ ch magic version, magic = 0x4A → version = (if s.mb.v2 then 2 else 1) → exec (.badFrame ch magic version) s = .next s)
    ∧ (∀ (v : Byte) (r : Req), ((verbLevel v.toNat).isSome = false ∨ s.verbAbsent v.toNat = true) → s.mb.chans.length = 4 → s.mb.v2 = true →
      s.accepts r.ch.val = true → (nth {} s.mb.chans r.ch.val).history.any (·.tag == r.tag.toNat) = false → s.quiet = true →
      firstFail (s.headChecks v.toNat r true) = some stNoVerb →
      ∃ t, exec (.noSuchVerb v r) s = .next t ∧ Answered s t v.toNat r stNoVerb []))
  ∧ (∀ (r : Req) (s : State), r.noun = 0 → r.index = 0 →
    (Fresh s 0x41 r → r.length.toNat = 4 → (s.hw.sealed = true ∨ s.boot.testEn = false ∧ s.consentFor r = false) →
      ∃ t, exec (.harrowSet r) s = .next t ∧ Answered s t 0x41 r stLocked [] ∧ t.hw.episodes = s.hw.episodes)
    ∧ (Fresh s 0x40 r → r.length.toNat = 0 → s.hw.sealed = true →
      ∃ t, exec (.harrowArm r) s = .next t ∧ Answered s t 0x40 r stLocked [] ∧ t.hw.consents = s.hw.consents)
    ∧ (Fresh s 0x42 r → r.length.toNat = 12 → pf r 0 1 = 2 → s.boot.service = false →
      ∃ t, exec (.harrowSeal r) s = .next t ∧ Answered s t 0x42 r stLocked [] ∧ t.hw.sealed = s.hw.sealed)
    ∧ (Fresh s 0x12 r → r.length.toNat = 4 → s.boot.service = false →
      ∃ t, exec (.almanacClearFirst r) s = .next t ∧ Answered s t 0x12 r stLocked [] ∧ t.alm.queue = s.alm.queue))

/-! ### The two-wire targets -/

/-- A request written to an acknowledged window that accepts it is kept, at most 4 096 bytes of it, where its PEC is right; the target is
busy for 50 µs, and its activity event is raised. A read at the reply window clocks out the oldest reply, which leaves its queue only
when its last byte (and the PEC byte, where PEC is enabled) has been clocked out. A read of registers from a pointer, or from the one
that stands, gives the register bytes and zeros past the end, each block with its PEC where PEC is enabled, and moves the pointer
on. A write of a pointer alone sets it and raises the event; data for another register is not acknowledged (06 R208, R210, R213 to
R215, R221, Table SE-8).
An address of TWT1 that matches base_address outside addr_mask names a target; one with a length serves its view from a pointer
inside it, or from the one that stands, with its PEC, and remembers the period and layout read; one without a length is not
acknowledged, and an address that matches no target does nothing. A bus time-out counts and abandons the transaction, and leaves
every reply queued (06 R210, R216 to R218, R221).
Completion is concluded for twtRequestWrite, twtReplyRead, twtRegisterRead, twtRegisterWrite, virtualTargetRead, twtBusTimeout. -/
def Obligations.TwoWireTargetsServe : Prop :=
  (∀ (k : Fin 2) (s : State) (pecOn : Bool), s.Inv → s.twtAck k.val = true → s.windowServed k.val = true → pecOn = s.flag (nTWT k.val) 0 1 →
    (∀ data pec, data ≠ [] → s.accepts (twtChan k.val) = true → s.pecOk k.val (0x40 :: data) pec = true →
      ∃ t, exec (.twtRequestWrite k data pec) s = .next t
        ∧ (nth {} t.mb.chans (twtChan k.val)).rx = (nth {} s.mb.chans (twtChan k.val)).rx ++ [data.take 4096]
        ∧ (nth {} t.twt k.val).busyUntil = s.tm.now + 6000 ∧ (nth {} t.twt k.val).pointer = 0x40
        ∧ (bitAt s.ev.inPeriod (20 + k.val) = false → t.has (20 + k.val) = true)
        ∧ t.count (nTWT k.val) 1 0 = satAdd 32 (s.count (nTWT k.val) 1 0) 1
        ∧ t.count (nTWT k.val) 3 0 = (if 4096 < data.length then satAdd 16 (s.count (nTWT k.val) 3 0) 1 else s.count (nTWT k.val) 3 0))
    ∧ (∀ n pc y rest, (nth {} s.mb.chans (twtChan k.val)).replies = y :: rest → s.mb.compatNext = none →
      ∃ t, exec (.twtReplyRead k n pc) s = .next t
        ∧ (nth {} t.twt k.val).out = slice (blockStream pecOn (readPhases (s.twtAddr k.val) (some 0x41)) [y.bytes]) 0 (n + b2n pc)
        ∧ (nth {} t.mb.chans (twtChan k.val)).replies = if y.bytes.length + b2n pecOn ≤ n + b2n pc then rest else y :: rest)
    ∧ (∀ p n q, q = (p.map (·.toNat)).getD (nth {} s.twt k.val).pointer → q ≤ 0x40 →
      ∃ t, exec (.twtRegisterRead k p n) s = .next t ∧ t.mb = s.mb
        ∧ (nth {} t.twt k.val).out = slice (blockStream pecOn (readPhases (s.twtAddr k.val) p) (s.registerBlocks k.val q)) 0 n
        ∧ (pecOn = false → (nth {} t.twt k.val).out = slice (s.twtRegisters k.val) q n ∧ (nth {} t.twt k.val).pointer = min 0x40 (q + n)))
    ∧ (∀ n, exec (.twtRegisterRead k (some 0x41) n) s = exec (.twtReplyRead k n false) s)
    ∧ (∀ p d, p.toNat ≤ 0x41 → d.bytes = [] → s.pecOk k.val [p] d.pec = true → ∃ t, exec (.twtRegisterWrite k p d) s = .next t
        ∧ (nth {} t.twt k.val).acked = true ∧ (nth {} t.twt k.val).pointer = p.toNat ∧ t.mb = s.mb ∧ t.cfg = s.cfg
        ∧ (bitAt s.ev.inPeriod (20 + k.val) = false → t.has (20 + k.val) = true))
    ∧ (∀ p d, p.toNat ≤ 0x41 → p ≠ 0x40 → d.bytes ≠ [] → ∃ t, exec (.twtRegisterWrite k p d) s = .next t
        ∧ (nth {} t.twt k.val).acked = false ∧ (nth {} t.twt k.val).pointer = p.toNat ∧ t.mb = s.mb ∧ t.cfg = s.cfg))
  ∧ (∀ (s : State), s.Inv →
    (∀ (a : BitVec 7) k p n q, s.twtUp 1 = true → s.twtTarget a.toNat = some k → k ≠ 0 → k < 64 → bits (s.reg (nTWT 1) (3 + k)) 17 7 ≠ 0 →
      q = (p.map (·.toNat)).getD (nth {} s.mirror k).pointer → (p.isSome = true → q < (s.virtualView k).length) →
      ∃ t, exec (.virtualTargetRead a p n) s = .next t
        ∧ (nth {} t.twt 1).out = slice (blockStream (s.flag (nTWT 1) 0 1) (readPhases a.toNat p) [(s.virtualView k).drop q]) 0 n
        ∧ (nth {} t.mirror k).readPeriod = some ((nth {} s.mirror k).period, (nth {} s.mirror k).layout)
        ∧ (nth {} t.mirror k).pointer = min (s.virtualView k).length (q + n) ∧ ∀ j, j ≠ k → nth {} t.mirror j = nth {} s.mirror j)
    ∧ (∀ (a : BitVec 7) k p n, s.twtUp 1 = true → s.twtTarget a.toNat = some k → k ≠ 0 → bits (s.reg (nTWT 1) (3 + k)) 17 7 = 0 →
      ∃ t, exec (.virtualTargetRead a p n) s = .next t ∧ (nth {} t.twt 1).acked = false ∧ t.mirror = s.mirror
        ∧ t.count (nTWT 1) 2 16 = satAdd 16 (s.count (nTWT 1) 2 16) 1)
    ∧ (∀ (a : BitVec 7) p n, s.twtTarget a.toNat = none → exec (.virtualTargetRead a p n) s = .next s)
    ∧ (∀ k : Fin 2, s.twtUp k.val = true → ∃ t, exec (.twtBusTimeout k) s = .next t ∧ (nth {} t.twt k.val).acked = false
        ∧ (nth {} t.twt k.val).out = [] ∧ t.count (nTWT k.val) 3 16 = satAdd 16 (s.count (nTWT k.val) 3 16) 1 ∧ t.mb = s.mb))

/-! ### The period, and the drill -/

/-- A capture line advances the period number, takes its instant from the reference, and publishes the sheaf of the period that ends
in the next of the eight buffers with event 0, or leaves it unpublished with event 1, and with event 3 where its assembly was late. Of SRAM it stores
nothing, the sheaf having been written as it was assembled (01 R17, R28 to R32; 04 R130, R138).
Completion is concluded for captureLine. -/
def Obligations.CaptureLineEndsPeriod : Prop :=
  ∀ s : State, s.Inv → s.clocked = true → s.pw.waking = false → s.pw.fallow = none → s.yoke.agreed = none →
    ∃ t, exec .captureLine s = .next t ∧ t.tm.lineSeen = true ∧ t.tm.period = s.nextPeriod ∧ t.tm.capture = s.nextLine.at'
      ∧ t.tm.lines = s.tm.lines + 1 ∧ t.tm.now = max s.tm.now s.nextLine.at'
      ∧ (s.drillOn = true → s.drill.polled = true → s.unpublished = 0 → ∀ a, s.sheaf.assembly = some a →
        t.sheaf.index = s.nextBuffer ∧ t.sheaf.any = true ∧ t.sheaf.lastPeriod = a.period ∧ t.sheaf.published = s.sheaf.published + 1
          ∧ t.has 0 = true)
      ∧ (s.drillOn = true → s.drill.polled = true → s.unpublished ≠ 0 →
        t.sheaf.published = s.sheaf.published ∧ t.sheaf.index = s.sheaf.index ∧ t.has 1 = true ∧ (s.unpublished = 1 → t.has 3 = true))
      ∧ (s.mb.commit = none → s.mb.legacy = [] → s.yoke.grant = none → s.upd.swap = none → (∀ k, (s.bank k).gateTo = none) →
        t.mem.sram = s.mem.sram)

/-- At its capture line a checked set applies as a whole: every word that it touched takes its new value and no other changes, the
epoch advances, and the shadow ends; a set to be saved waits for the storage port, and where the save fails nothing applies and the
shadow stays open (02 R72, R77, R79, R80; log 96).
A START at its capture line runs the drill, and a STOP ends it; each is answered with the period (04 R145 to R147).
Completion is concluded for captureLine. -/
def Obligations.SetsAndRunsTakeEffect : Prop :=
  (∀ (s : State) (c : PendingCommit), s.Inv → s.clocked = true → s.pw.waking = false → s.pw.fallow = none → s.yoke.agreed = none →
    s.yoke.grant = none → s.mb.legacy = [] → s.mb.commit = some c →
    (match c.named with | some q => reached q s.nextPeriod = true | none => c.ready ≤ s.nextLine.at' ∧ c.notBefore ≤ s.tm.lines + 1) →
    (c.save.isSome = true → s.selectWaits 0 = false) →
    ∃ t, exec .captureLine s = .next t ∧ t.mb.commit = none
      ∧ (c.save ≠ some false → t.mb.shadow = none ∧ t.mb.epoch = nextEpoch s.mb.epoch ∧ ∀ key, Tab.get resetWord t.cfg key
          = if key ∈ c.shadow.touched then Tab.get resetWord c.shadow.words key else Tab.get resetWord s.cfg key)
      ∧ (c.save = some false → t.mb.shadow = s.mb.shadow ∧ t.mb.epoch = s.mb.epoch ∧ t.cfg = s.cfg))
  ∧ (∀ (s : State) (p : PendingRun), s.Inv → s.clocked = true → s.pw.waking = false → s.pw.fallow = none → s.yoke.agreed = none →
    s.yoke.grant = none → s.mb.commit = none → s.mb.legacy = [] → s.pw.detach = .none → s.lev.fail.rc = false → s.upd.swap = none →
    s.mb.run = some p → p.named.all (fun q => reached q s.nextPeriod) = true →
    ∃ t, exec .captureLine s = .next t ∧ t.mb.run = none ∧ t.drill.mode = (if p.start then 1 else 0))

/-- A waiting entry launches at its offset: a CSP entry asserts its port's select, beside that of a held chain, and takes its stamp, a trigger entry triggers its
SENT channel, and a collect or edge entry runs (04 R126; 05 R158; 06 R194).
A running entry whose write-back to the capture area passes completes at an instant up to its effective deadline: a CSP entry with
no injection releases its port, is complete or complete with an error, and its values lie in the capture area; a trigger entry is so
by its frame; and any other is complete (04 R129; 05 R163 to R165; 07 R239).
Completion is concluded for entryLaunch, entryComplete. -/
def Obligations.EntriesRun : Prop :=
  (∀ (f : Fin 9) (e : Fin 32) (s : State), s.Inv → s.drillOn = true → (s.entry f.val e.val).phase = .waiting →
    (entType s.reg f.val e.val = 2 → f = 8) →
    (entType s.reg f.val e.val = 2 → (nth {} s.sent (entTarget s.reg 8 e.val)).trigger = none ∧ entTarget s.reg 8 e.val < 24) →
    (entType s.reg f.val e.val = 1 → f ≠ 8) →
    ∃ t, exec (.entryLaunch f e) s = .next t ∧ (t.entry f.val e.val).phase = .running ∧ t.tm.now = max s.tm.now (s.launchAt f.val e.val)
      ∧ (entType s.reg f.val e.val = 1 → (nth {} t.csp f.val).active = some e.val
        ∧ (nth {} t.csp f.val).selects = (nth {} s.csp f.val).held
          ||| (if (s.profile f.val e.val).selectMap = 0 then 0 else 2 ^ entSelect s.reg f.val e.val))
      ∧ (entType s.reg f.val e.val = 2 → (nth {} t.sent (entTarget s.reg 8 e.val)).trigger = some (entIx 8 e.val, s.launchAt 8 e.val)))
  ∧ (∀ (f : Fin 9) (e : Fin 32) (sdi : List Bool) (i : Stamp) (s : State), s.Inv → (s.entry f.val e.val).phase = .running →
    i.toNat ≤ s.deadlineAt f.val e.val → s.drillWaits = false →
    (entType s.reg f.val e.val = 1 → f ≠ 8 → s.selected (entIx f.val e.val) = [] →
      ∀ ws, ws = ((s.at i.toNat).receiveCsp f.val e.val i.toNat sdi).2 → Passes s .drill (writeParts ws) →
      ∃ t, exec (.entryComplete f e sdi i) s = .next t ∧ ((t.entry f.val e.val).phase = .complete ∨ (t.entry f.val e.val).phase = .completeErr)
        ∧ (nth {} t.csp f.val).active = none ∧ (nth {} t.csp f.val).selects = (nth {} s.csp f.val).held
        ∧ t.count (nCSP f.val) 2 0 = satAdd 32 (s.count (nCSP f.val) 2 0) 1
        ∧ SameBytes (ws.foldl (fun s w => s.writeOne .drill w) s) t)
    ∧ (entType s.reg 8 e.val = 2 → f = 8 → ∀ x, x = nth {} s.sent (entTarget s.reg 8 e.val) → entTarget s.reg 8 e.val < 24 →
      (x.good.isSome = true ∨ x.errored = true) → Passes s .drill (writeParts (s.frameWrites e.val)) →
      ∃ t, exec (.entryComplete f e sdi i) s = .next t
        ∧ (t.entry 8 e.val).phase = (if x.good.isSome then .complete else .completeErr)
        ∧ (nth {} t.sent (entTarget s.reg 8 e.val)).trigger = none
        ∧ SameBytes ((s.frameWrites e.val).foldl (fun s w => s.writeOne .drill w) s) t)
    ∧ (entType s.reg f.val e.val ≠ 1 → entType s.reg f.val e.val ≠ 2 →
      ∃ t, exec (.entryComplete f e sdi i) s = .next t ∧ (t.entry f.val e.val).phase = .complete ∧ (t.entry f.val e.val).lastOutcome = 1
        ∧ t.mem = s.mem))

/-- An entry incomplete at its effective deadline is aborted: its outcome is 3, its end reads 0, DEADLINE_MISS is raised, and the
misses of the period count one more (01 R19; 04 R129).
Completion is concluded for deadlineAbort. -/
def Obligations.DeadlinesAbort : Prop :=
  ∀ (f : Fin 9) (e : Fin 32) (n : Nat) (w : Bool) (s : State), s.Inv →
    ((s.entry f.val e.val).phase = .running ∨ (s.entry f.val e.val).phase = .wireDone) →
    (entType s.reg f.val e.val = 1 ∨ entType s.reg f.val e.val = 2) →
    ∃ t, exec (.deadlineAbort f e n w) s = .next t ∧ (t.entry f.val e.val).phase = .aborted ∧ (t.entry f.val e.val).lastOutcome = 3
      ∧ (t.entry f.val e.val).lastEnd = 0 ∧ t.has 2 = true ∧ t.drill.abortedNow = s.drill.abortedNow + 1
      ∧ t.count nPERIOD 4 0 = satAdd 32 (s.count nPERIOD 4 0) 1 ∧ t.tm.now = max s.tm.now (s.deadlineAt f.val e.val)

/-- Where no start bit comes and the write-back passes, the entry completes with an error, its port released (05 R162); a held chain's
recovery frame ends with its select released and its transfer counted (04 R131); and a TX buffer whose read passes is read for its
entry (05 R172).
Completion is concluded for startBitTimeout, recoveryFrameEnd, txPrefetchComplete. -/
def Obligations.PortsRecover : Prop :=
  ∀ (k : Fin 8) (e : Fin 32) (s : State), s.Inv →
    ((s.entry k.val e.val).phase = .running → (s.entry k.val e.val).waitStart = true → entType s.reg k.val e.val = 1 →
      0 < (s.profile k.val e.val).units → s.drillWaits = false → Passes s .drill ((s.fieldsOf k.val e.val).map (s.capturePart .write)) →
      ∃ t, exec (.startBitTimeout k e) s = .next t ∧ (t.entry k.val e.val).phase = .completeErr ∧ (t.entry k.val e.val).lastOutcome = 2
        ∧ (nth {} t.csp k.val).active = none ∧ (nth {} t.csp k.val).selects = (nth {} s.csp k.val).held)
    ∧ (∀ h t0, (nth {} s.csp k.val).chain = some h → h.since = some t0 → (nth {} s.csp k.val).fence = none →
      ∃ t, exec (.recoveryFrameEnd k) s = .next t ∧ (nth {} t.csp k.val).chain = none
        ∧ (s.pw.detach ≠ .parking → (nth {} t.csp k.val).selects = (nth {} s.csp k.val).selects &&& (0xF ^^^ h.selects))
        ∧ t.count (nCSP k.val) 2 0 = satAdd 32 (s.count (nCSP k.val) 2 0) 1 ∧ t.tm.now = max s.tm.now (t0 + h.ticks))
    ∧ (entUsed s.reg k.val e.val = true → entType s.reg k.val e.val = 1 → (s.profile k.val e.val).txSource = 2 →
      Passes s .drill [⟨.read, (s.profile k.val e.val).txAddr, ceilDiv (s.profile k.val e.val).frameBits 8⟩] →
      ∃ t, exec (.txPrefetchComplete k e) s = .next t ∧ (t.entry k.val e.val).txReady = true
        ∧ (t.entry k.val e.val).tx = s.virtRead 1 (s.profile k.val e.val).txAddr (ceilDiv (s.profile k.val e.val).frameBits 8) ∧ SameBytes s t)

/-- Assembly starts at the deadline limit with a slot for every field of the layout, where the drill's writes of what was collected and
the assembler's reads pass; it is done A ticks later, the sheaf written in the next buffer through holding 2; a hard fault in the
sheaf path spoils the period, and a second one in the period after the reload stops the drill (04 R130, R137; 07 R239).
Completion is concluded for assemblyStart, assemblyComplete, drillHardFault. -/
def Obligations.SheafAssembled : Prop :=
  ∀ s : State, s.Inv →
    (s.drillOn = true → s.drill.polled = true → s.sheaf.assembly = none →
      ∀ u, u = (s.at (s.tm.capture + s.limit)).each (List.range (entryCount s.reg 8)) State.endCollect →
      Passes u .drill (writeParts u.collectWrites) → Passes (u.store .drill u.collectWrites).1 .assembler u.assemblyParts →
      ∃ t, exec .assemblyStart s = .next t ∧ t.tm.now = max s.tm.now (s.tm.capture + s.limit)
        ∧ t.sheaf.assembly.any (fun a => a.period == s.tm.period && !a.done && !a.faulted && a.slots.length == s.sheaf.layout.fields.length) = true)
    ∧ (∀ a, s.sheaf.assembly = some a → a.done = false → a.faulted = false →
      Passes s .assembler [⟨.write, s.bufferAt s.nextBuffer, (s.sheafOf a).length⟩] →
      ∃ t, exec .assemblyComplete s = .next t ∧ t.sheaf.assembly = some { a with done := true }
        ∧ t.tm.now = max s.tm.now (s.tm.capture + s.limit + s.sheaf.ticks)
        ∧ SameBytes (s.virtWrite 2 (s.bufferAt s.nextBuffer) (s.sheafOf a)) t)
    ∧ (∀ b, s.drill.mode ≠ 0 → s.drill.hardAt ≠ some s.tm.lines → ∃ t, exec (.drillHardFault b) s = .next t ∧ t.drill.spoiled = true
        ∧ t.drill.hardAt = some (s.tm.lines + 1) ∧ t.drill.mode = s.drill.mode)
    ∧ (∀ b, s.drill.mode ≠ 0 → s.drill.hardAt = some s.tm.lines → ∃ t, exec (.drillHardFault b) s = .next t ∧ t.drill.mode = 0 ∧ t.drill.dead = true
        ∧ t.lev.fail.drill = true)

/-! ### The CSP slave role and the storage port -/

/-- A slave transaction latches the latest sheaf and drives its prefix, with SS0 low, in the bit order of profile 0; its end, where the
reader's access passes, releases SS0, counts the transaction, sends its units behind the prefix, and counts an underrun with event
4 + port where a unit could not be supplied (05 R159, R169 to R171).
Completion is concluded for slaveTransactionStart, slaveTransactionEnd. -/
def Obligations.SlaveServes : Prop :=
  ∀ (k : Fin 8) (s : State), s.Inv →
    (s.cspOn k.val = true → s.flag (nCSP k.val) 0 1 = true → (nth {} s.csp k.val).slave = none → (nth {} s.csp k.val).fence = none →
      ∀ b, b = (if s.sheaf.any then nth none s.sheaf.buffers s.sheaf.index else none) →
      ∃ t, exec (.slaveTransactionStart k) s = .next t ∧ (nth {} t.csp k.val).selects = 1
        ∧ (nth {} t.csp k.val).slave.any (fun x => x.starved == b.isNone && x.buffer == (if b.isSome then some s.sheaf.index else none)) = true
        ∧ (nth {} t.csp k.val).sdo = disassemble (profileOf s.reg k.val 0).msbFirst 32 (slavePrefix (nth {} s.csp k.val) b) ∧ t.mem = s.mem)
    ∧ (∀ x units b, (nth {} s.csp k.val).slave = some x → Passes s .slaveReader (s.slavePart k.val x units).toList →
      ∃ t, exec (.slaveTransactionEnd k units b) s = .next t ∧ (nth {} t.csp k.val).slave = none ∧ (nth {} t.csp k.val).selects = 0
        ∧ (nth {} t.csp k.val).underrun = (b || x.starved) ∧ t.count (nCSP k.val) 2 0 = satAdd 32 (s.count (nCSP k.val) 2 0) 1
        ∧ t.count (nCSP k.val) 3 16 = (if b || x.starved then satAdd 16 (s.count (nCSP k.val) 3 16) 1 else s.count (nCSP k.val) 3 16)
        ∧ ((b || x.starved) = true → t.has (4 + k.val) = true)
        ∧ (b = false → x.starved = false → (nth {} t.csp k.val).sdo = s.slaveBits k.val x units units) ∧ SameBytes s t)

/-- Writes of one agent into one page of a NOR window, with nothing gathered and no program of its own under way, are gathered in order
and change no byte yet; 1 µs later one program of them is sent, which counts as a transfer (05 R177, R182).
An access to a storage window that times out counts and suspends its agent on a soft fault; after 1 ms without an access and with
nothing to program, CSP8 is gated where DOZE is on (05 R180; 07 R241; 11 R399).
Completion is concluded for norWindowWrite, norGatherEnd, externalAccessTimeout, csp8IdleGate. -/
def Obligations.StorageAccessed : Prop :=
  (∀ (k : Fin 2) (s : State), s.Inv →
    (∀ (a : Agent) (off : BitVec 28) (data : List Byte), s.kindOf k.val = 1 → s.flag (nCSP 8) (4 + 4 * k.val) 5 = true →
      s.writing a = false → s.suspended a = false → s.csp8.gather.length = 2 →
      s.mapped (holdingOf a) .write (windowAddr k.val off.toNat) data.length = true → data ≠ [] → nth none s.csp8.gather k.val = none →
      (∀ i, i < data.length → pageOf (s.storeCfg k.val) (off.toNat + i) = pageOf (s.storeCfg k.val) off.toNat) →
      ∃ t, exec (.norWindowWrite a k off data) s = .next t ∧ t.mem = s.mem
        ∧ nth none t.csp8.gather k.val = some ⟨a, off.toNat, data, s.tm.now, s.storeCfg k.val⟩)
    ∧ (∀ g i, nth none s.csp8.gather k.val = some g → s.selectWaits k.val = false → s.csp8.gather.length = 2 → s.csp8.busy.length = 2 →
      i = max s.tm.now (g.last + 120) →
      ∃ t, exec (.norGatherEnd k) s = .next t ∧ nth none t.csp8.gather k.val = none ∧ t.mem = s.mem
        ∧ nth none t.csp8.busy k.val = some ⟨g.agent, g.first, g.data, i, i, g.cfg⟩ ∧ t.tm.now = i
        ∧ t.count (nCSP 8) 2 0 = satAdd 32 (s.count (nCSP 8) 2 0) 1))
  ∧ (∀ (s : State), s.Inv →
    (∀ (a : Agent) (k : Fin 2) (v : BitVec 32) (n : Nat) (d : Access) (p : Nat), s.translate (holdingOf a) d v.toNat = some p →
      p / 0x10000000 = 2 + k.val → nth none s.csp8.busy k.val = none → s.suspended a = false → s.mem.cursors = [] →
      (∀ n, a = .thr n → (s.ctx n.val).job.bind (·.ending) = none ∧ (s.thr.running = some n.val → Saves s n.val)) →
      ∃ t, exec (.externalAccessTimeout a k v n d) s = .next t ∧ t.count (nCSP 8) 3 0 = satAdd 16 (s.count (nCSP 8) 3 0) 1
        ∧ t.mem.faults.any (fun c => c.agent == a && c.kind == 4 && c.count == 1 && c.dir == d) = true)
    ∧ (s.dozing = true → s.csp8.busy.all (·.isNone) = true → s.csp8.gather.all (·.isNone) = true →
      ∃ t, exec .csp8IdleGate s = .next t ∧ t.pw = { s.pw with csp8Gated := true } ∧ t.tm.now = max s.tm.now (s.csp8.lastAccess + 120000)))

/-- While a program is on the wire a poll that shows the device busy keeps the status byte read, poll_us after the one before. When its
busy bit clears, by a poll or by the row that says so, erased bytes of its page hold the data and every other byte is as it was;
when it stays busy too long, the time-out counts, event 12 is raised, and the select is free again, after the pulse of RST_N where
rst_on_fault is set (05 R177, R178, R180, R182; log 4).
Completion is concluded for norStatusPoll, norProgramDone, programTimeout. -/
def Obligations.NorPrograms : Prop :=
  ∀ (k : Fin 2) (s : State) (p : Program), s.Inv → nth none s.csp8.busy k.val = some p → s.csp8.busy.length = 2 → s.csp8.status.length = 2 →
    (∀ b i, showsBusy p.cfg b.toNat = true → i = max s.tm.now (p.polled + 120 * cfgField p.cfg 0 0 7) →
      ∃ t, exec (.norStatusPoll k b) s = .next t ∧ nth 0 t.csp8.status k.val = b.toNat ∧ t.mem = s.mem ∧ t.tm.now = i
        ∧ t.csp8.busy = updAt s.csp8.busy k.val fun _ => some { p with polled := i })
    ∧ (nth [] s.csp8.queue k.val = [] → s.storeLoads = [] → k = 0 → (∀ i, i < p.data.length → Memory.read flashEmpty s.mem.nor (p.addr + i) = 0xFF) →
      ∃ t, exec (.norProgramDone k) s = .next t ∧ nth none t.csp8.busy k.val = none ∧ t.mem.sram = s.mem.sram ∧ t.mem.psram = s.mem.psram
        ∧ (∀ i, i < p.data.length → Memory.read flashEmpty t.mem.nor (p.addr + i) = nth 0 p.data i)
        ∧ ∀ a, (a < p.addr ∨ p.addr + p.data.length ≤ a) → Memory.read flashEmpty t.mem.nor a = Memory.read flashEmpty s.mem.nor a)
    ∧ (∀ b, showsBusy p.cfg b.toNat = false → nth [] s.csp8.queue k.val = [] → s.storeLoads = [] → k = 0 →
      (∀ i, i < p.data.length → Memory.read flashEmpty s.mem.nor (p.addr + i) = 0xFF) →
      ∃ t, exec (.norStatusPoll k b) s = .next t ∧ nth none t.csp8.busy k.val = none ∧ nth 0 t.csp8.status k.val = b.toNat
        ∧ ∀ i, i < p.data.length → Memory.read flashEmpty t.mem.nor (p.addr + i) = nth 0 p.data i)
    ∧ (nth [] s.csp8.queue k.val = [] → s.storeLoads = [] → ∀ i, i = max s.tm.now (p.since + 120000 * cfgField p.cfg 3 12 8) →
      s.rstEnd ≤ s.tm.now →
      ∃ t, exec (.programTimeout k) s = .next t ∧ nth none t.csp8.busy k.val = none ∧ t.has 12 = true
        ∧ t.count (nCSP 8) 3 16 = satAdd 16 (s.count (nCSP 8) 3 16) 1 ∧ t.tm.now = i + 1200 * cfgField p.cfg 0 7 1)

/-! ### SENT receivers and edge inputs -/

/-- A frame that ends on an enabled channel outside SPC mode, with no injection armed, is error-free by R191 and counted and delivered
with its stamp, or errored and counted, by its timing or by its CRC; no frame for absent_ms makes the channel ABSENT (06 R190,
R191, R193, R197, R200).
Completion is concluded for sentFrameEnd, sentAbsentTimeout. -/
def Obligations.SentReceives : Prop :=
  ∀ (c : Fin 24) (s : State), s.Inv → s.sentOn c.val = true → (nth {} s.sent c.val).fence = none →
    (∀ (ps : List Nat) (np : Nat) (e i : Stamp) (d : Decoded), s.flag (nSENT c.val) 0 1 = false → s.harrowActive = false →
      s.hw.heldFrames = [] → d = decodeSent (s.sentWords c.val e.toNat) (s.calBefore c.val e.toNat) c.val ps np [] →
      ∃ t, exec (.sentFrameEnd c ps np e i) s = .next t ∧ t.tm.now = max s.tm.now i.toNat
        ∧ (nth {} t.sent c.val).lastEnd = max s.tm.now i.toNat ∧ (nth {} t.sent c.val).locked = d.accepted
        ∧ (if d.timing then
            (nth {} t.sent c.val).errored = true ∧ t.count (nSENT c.val) 6 16 = satAdd 16 (s.count (nSENT c.val) 6 16) 1
          else if d.crc then
            (nth {} t.sent c.val).good = some (frameOf (s.sentWords c.val e.toNat) c.val d
              (match (nth {} s.sent c.val).trigger with | some (_, o) => o | none => e.toNat))
            ∧ (nth {} t.sent c.val).absent = false ∧ t.count (nSENT c.val) 5 0 = satAdd 32 (s.count (nSENT c.val) 5 0) 1
          else (nth {} t.sent c.val).errored = true ∧ t.count (nSENT c.val) 6 0 = satAdd 16 (s.count (nSENT c.val) 6 0) 1))
    ∧ (s.fld (nSENT c.val) 1 21 8 ≠ 0 → (nth {} s.sent c.val).absent = false →
      ∃ t, exec (.sentAbsentTimeout c) s = .next t ∧ (nth {} t.sent c.val).absent = true ∧ (nth {} t.sent c.val).locked = false
        ∧ t.tm.now = max s.tm.now ((nth {} s.sent c.val).lastEnd + 120000 * s.fld (nSENT c.val) 1 21 8)
        ∧ (bitAt s.ev.inPeriod (13 + c.val / 8) = false → t.has (13 + c.val / 8) = true))

/-- An edge on an input that is not enabled only sets the level that it shows. One on an enabled input that changes its level is
accepted at once where debounce_us is 0, with its stamp, else it opens an interval; an interval that ends back at the accepted level is a glitch; and a level stable for debounce_us is accepted with the
stamp of the edge that began the interval (06 R201, R202, R207).
The first edge of a period on SYNC_IN is the one considered; a further one is counted and changes nothing (01 R24, R25).
Completion is concluded for edgeSeen, edgeAccept, syncInEdge. -/
def Obligations.EdgesTaken : Prop :=
  (∀ (i : Fin 32) (s : State), s.Inv →
    (∀ (pin lv : Bool) (e : Stamp), s.edgeOn i.val = false → lv = (pin != bitAt (s.reg (nEDGE (i.val / 8)) 0) (8 + i.val % 8)) →
      exec (.edgeSeen i pin e) s = .next (s.modEdge i.val fun x => { x with seen := lv, level := lv, since := none }))
    ∧ (∀ (pin lv : Bool) (e : Stamp), s.edgeOn i.val = true → lv = (pin != bitAt (s.reg (nEDGE (i.val / 8)) 0) (8 + i.val % 8)) →
      ∃ t, exec (.edgeSeen i pin e) s = .next t ∧ (nth {} t.edge i.val).seen = lv ∧ t.tm.now = max s.tm.now e.toNat
        ∧ (lv ≠ (nth {} s.edge i.val).level → s.debounce i.val = 0 →
          (nth {} t.edge i.val).level = lv ∧ (nth {} t.edge i.val).count = (nth {} s.edge i.val).count + 1
          ∧ (if lv then (nth {} t.edge i.val).rise = some e.toNat else (nth {} t.edge i.val).fall = some e.toNat))
        ∧ (lv ≠ (nth {} s.edge i.val).level → s.debounce i.val ≠ 0 →
          (nth {} t.edge i.val).level = (nth {} s.edge i.val).level ∧ (nth {} t.edge i.val).since = some ((nth {} s.edge i.val).since.getD e.toNat))
        ∧ (lv = (nth {} s.edge i.val).level → (nth {} s.edge i.val).since.isSome = true → (nth {} t.edge i.val).since = none
          ∧ (nth {} t.banks (i.val / 8)).glitches = (nth {} s.banks (i.val / 8)).glitches + 1))
    ∧ (∀ t0, s.edgeOn i.val = true → (nth {} s.edge i.val).since = some t0 →
      ∃ t, exec (.edgeAccept i) s = .next t ∧ (nth {} t.edge i.val).level = (nth {} s.edge i.val).seen ∧ (nth {} t.edge i.val).since = none
        ∧ (nth {} t.edge i.val).count = (nth {} s.edge i.val).count + 1 ∧ t.tm.now = max s.tm.now (t0 + 120 * s.debounce i.val)
        ∧ (if (nth {} s.edge i.val).seen then (nth {} t.edge i.val).rise = some t0 else (nth {} t.edge i.val).fall = some t0)))
  ∧ (∀ (s : State) (e : Stamp), s.Inv → s.fld nPERIOD 0 16 2 = 2 → s.clocked = true →
    ∃ t, exec (.syncInEdge e) s = .next t ∧ t.tm.now = max s.tm.now e.toNat
      ∧ t.tm.edge = some (s.tm.edge.getD e.toNat)
      ∧ t.count nPERIOD 6 0 = (if s.tm.edge.isSome then satAdd 16 (s.count nPERIOD 6 0) 1 else s.count nPERIOD 6 0))

/-! ### Memory and plot faults -/

/-- An element of an agent that is not suspended, at a bank that is not ON and has not failed, is a soft fault of kind 3: it is queued
with its cursor and shown. One that is not mapped, or not permitted, is a hard fault of kind 1 or 2: event 41 is raised, counted,
and the agent is not suspended (07 R241, R242, R246). Of a context, its state can be saved as it leaves the engine, and those of the
others be read back.
The steward takes the fault at the head of the queue: where its bank is not ON it wakes the bank; where it is ON, or the storage
device has recovered, the fault is resolved, counted, event 40 is raised and the fault leaves the queue (07 R243, R245, R249).
Completion is concluded for plotFault, faultResolve. -/
def Obligations.PlotFaultsServed : Prop :=
  (∀ (a : Agent) (d : Access) (v : BitVec 32) (n : Nat) (s : State), s.Inv → s.suspended a = false → s.mem.cursors = [] →
    (∀ n, a = .thr n → (s.ctx n.val).job.bind (·.ending) = none ∧ (s.thr.running = some n.val → Saves s n.val) ∧ ∀ m, m < 4 → Restorable s m) →
    (∀ k, s.faultKind a d v.toNat .none = some 3 → s.faultBank a v.toNat = some k → (s.bank k).failed = false →
      ∃ t, exec (.plotFault a d v n .none) s = .next t ∧ t.mem.lastKind = 3 ∧ t.mem.lastHolding = holdingOf a ∧ t.mem.lastVaddr = elementAt a v.toNat
        ∧ t.mem.faults.any (fun c => c.agent == a && c.kind == 3 && c.bank == some k && c.count == 1) = true)
    ∧ (∀ k, (k = 1 ∨ k = 2) → s.faultKind a d v.toNat .none = some k →
      ∃ t, exec (.plotFault a d v n .none) s = .next t ∧ t.mem.lastKind = k ∧ t.has 41 = true
        ∧ t.mem.faults.any (·.agent == a) = false ∧ t.count nPLOTMAP 11 0 = satAdd 16 (s.count nPLOTMAP 11 0) 1))
  ∧ (∀ (s : State) (c : Cursor) (rest : List Cursor), s.Inv → s.restarting = false → s.mem.faults = c :: rest →
    (∀ k, k < 64 → c.kind = 3 → c.bank = some k → (s.bank k).state ≠ .on → (s.bank k).failed = false →
      ∃ t, exec .faultResolve s = .next t ∧ (t.bank k).waking = true ∧ t.mem.faults = s.mem.faults)
    ∧ ((c.kind ≠ 3 ∧ s.selectWaits (s.cursorSelect c) = false ∨ c.kind = 3 ∧ ∃ k, c.bank = some k ∧ (s.bank k).state = .on) →
      ∃ t, exec .faultResolve s = .next t ∧ c ∉ t.mem.faults ∧ t.has 40 = true
        ∧ (c.agent = .drill ∨ c.agent = .assembler ∨ c.agent = .slaveReader ∨ c.agent = .usb → t.mem.lastResolved = true
          ∧ t.mem.faults = rest.filter (· != c))
        ∧ t.count nPLOTMAP 10 0 = satAdd 16 (s.count nPLOTMAP 10 0) 1))

/-- A waking bank is ON when its supply is good, filled with zeros where it was OFF; without a power-good it has failed; and where
banks are gated, an idle unpinned one goes from ON to RETAINED with its contents (07 R232, R243, R244, R249, R250).
A scrub that finds an uncorrectable word in a bank that is ON raises event 43 and remembers the word; one that finds a correctable
word raises event 42 (07 R227 to R229).
Completion is concluded for bankWakeComplete, bankWakeTimeout, bankIdleGate, eccScrub. -/
def Obligations.BanksServed : Prop :=
  (∀ (b : Fin 64) (s : State), s.Inv →
    ((s.bank b.val).waking = true → (s.bank b.val).gateTo = none → s.pw.powers = [] → s.mem.faults = [] →
      ∃ t, exec (.bankWakeComplete b) s = .next t ∧ (t.bank b.val).state = .on ∧ (t.bank b.val).waking = false
        ∧ (∀ a, Memory.read sramEmpty t.mem.sram a
          = if (s.bank b.val).state = .off ∧ a / 0x10000 = b.val then 0 else Memory.read sramEmpty s.mem.sram a))
    ∧ ((s.bank b.val).waking = true → s.pw.powers = [] → s.mem.faults = [] →
      ∃ t, exec (.bankWakeTimeout b) s = .next t ∧ (t.bank b.val).failed = true ∧ (t.bank b.val).waking = false ∧ t.mem.sram = s.mem.sram)
    ∧ (s.flag nPLOTMAP 0 1 = true → (s.bank b.val).state = .on → s.pinned b.val = false → s.restarting = false → s.clocked = true →
      ∃ t, exec (.bankIdleGate b) s = .next t ∧ (t.bank b.val).state = .retained ∧ t.mem.sram = s.mem.sram
        ∧ t.tm.now = max s.tm.now ((s.bank b.val).lastAccess + 120000 * s.fld nPLOTMAP 0 8 8)))
  ∧ (∀ (found : List (BitVec 22 × Bool)) (s : State) (a : BitVec 22), s.fld nPLOTMAP 0 16 8 ≠ 0 → s.clocked = true →
    (s.bank ((a.toNat - a.toNat % 8) / 0x10000)).state = .on →
    ((a, true) ∈ found → ∃ t, exec (.eccScrub found) s = .next t ∧ t.has 43 = true ∧ t.mem.eccBad.contains (a.toNat - a.toNat % 8) = true ∧ t.mem.sram = s.mem.sram)
    ∧ ((a, false) ∈ found → ∃ t, exec (.eccScrub found) s = .next t ∧ t.has 42 = true ∧ t.mem.sram = s.mem.sram))

/-! ### The yoke link in a lead -/

/-- The lead sends the marker of the next capture line 10 000 ns before it, with that line's period; a beacon is remembered with its
line (10 R337, R338, R360).
At the end of a trim run every joined member whose mean offset exceeds 4 ns is sent a TRIM, and the run starts afresh; every 64
periods RELEASE goes out again to a lost position; and a destination that does not acknowledge the fourth sending is lost, with
event 30 (10 R348, R356).
Completion is concluded for markerSend, trimRunEnd, releaseRetryTimer, memberLost. -/
def Obligations.LeadKeepsMembers : Prop :=
  (∀ s : State, s.isLead = true → s.yokeRuns = true → (s.pw.detach = .none ∨ s.pw.detach = .accepted) → s.hw.heldCmd = none → s.harrowActive = false →
    ∃ t, exec .markerSend s = .next t ∧ t.tm.now = max s.tm.now (s.nextLine.at' - 1200) ∧ t.yoke.markersOn = true
      ∧ t.yoke.out = markerSymbol s.commitPoint :: markerBytes 0 (b2n t.yoke.beacon + 2 * b2n (s.rediscoveryDue s.nextLine.at')) s.nextPeriod
      ∧ t.yoke.beacon = (s.beaconDue s.nextLine.at' || s.rediscoveryDue s.nextLine.at')
      ∧ (t.yoke.beacon = true → t.yoke.lastBeacon = some s.nextLine.at')
      ∧ t.yoke.cmdOut = (match s.nextCommand with | some c => framed c.bytes | none => []))
  ∧ (∀ s : State, s.Inv → s.isLead = true →
    (∃ t, exec .trimRunEnd s = .next t ∧ (∀ k, k ∈ s.joined → (t.pos k).offsets = [])
        ∧ ∀ k, k ∈ s.joined → 4 * (s.pos k).offsets.length < ((s.pos k).offsets.foldl (· + ·) 0).natAbs →
          t.yoke.commands.any (fun c => c.kind == .trim && c.dest == k && c.payload == leBytes 2 (ofSigned 16 (trimOf (s.pos k).offsets))) = true)
    ∧ (∃ t, exec .releaseRetryTimer s = .next t
        ∧ ∀ k, 1 ≤ k → k ≤ 7 → (s.pos k).state = 6 → t.yoke.commands.any (fun c => c.kind == .release && c.dest == k && c.sent == 0) = true)
    ∧ (∀ p : Fin 7, (s.pos (p.val + 1)).state ≠ 6 → s.yoke.commands.any (fun c => c.open'.contains (p.val + 1) && 4 ≤ c.sent) = true →
      ∃ t, exec (.memberLost p) s = .next t ∧ t.has 30 = true ∧ t.count nYOKE 8 0 = satAdd 16 (s.count nYOKE 8 0) 1))

/-- A join request with a correct CRC in a beacon period, from a planned position while no join is under way, is answered with a
JOIN_ACCEPT of its serial and the grant, and the position is joining; one from a position that is not planned is only recorded
(10 R361, R362).
Completion is concluded for joinRequestReceived. -/
def Obligations.JoinsAccepted : Prop :=
  ∀ (p : Fin 7) (n : BitVec 64) (s : State), s.Inv → s.isLead = true → s.yokeRuns = true → s.yoke.beacon = true →
    (s.planned (p.val + 1) = true → s.joining = false → s.yoke.commands = [] → s.yoke.forwards = [] →
      ∃ t, exec (.joinRequestReceived p n true) s = .next t ∧ (t.pos (p.val + 1)).state = 2 ∧ (t.pos (p.val + 1)).serial = n.toNat
        ∧ (t.pos (p.val + 1)).delayQ = 0
        ∧ t.yoke.commands = [{ kind := .joinAccept, dest := p.val + 1, seq := s.yoke.seq, sent := 0, open' := [p.val + 1], notBefore := 0, ticket := none, payload := leBytes 8 n.toNat ++ (grantOf s.reg s.nextPeriod).bytes }])
    ∧ (s.planned (p.val + 1) = false → ∃ t, exec (.joinRequestReceived p n true) s = .next t ∧ (t.pos (p.val + 1)).state = 8
        ∧ (t.pos (p.val + 1)).serial = n.toNat ∧ t.yoke.commands = s.yoke.commands)

/-- A segment of a joined or lost member that starts inside its balk, has a correct CRC and lies in its window is merged: where its body
can be written, it is written to the segment area, its offset and its state are kept, its events joined; one that starts outside its
balk is rejected and counted, and one with a bad CRC, or that exceeds its window, is counted (10 R342, R350, R351, R353, R376, Table
YK-5). An echo that ranging waits for is no such segment.
Completion is concluded for segmentReceived. -/
def Obligations.SegmentsMerged : Prop :=
  ∀ (p : Fin 7) (e : Int) (g : Segment) (s : State), s.Inv → s.isLead = true → s.yokeRuns = true → s.planned (p.val + 1) = true →
    ((s.pos (p.val + 1)).state = 3 ∨ (s.pos (p.val + 1)).state = 4 ∨ (s.pos (p.val + 1)).state = 7) →
    (decide (0 < (s.pos (p.val + 1)).rangeLeft) && bitAt g.flags.toNat 0
      && s.yoke.commands.any fun c => c.kind == .range && c.dest == p.val + 1 && c.seq == g.ackSeq.toNat) = false →
    (8 * e.natAbs ≤ balkOf s.reg → g.crcOk = true → s.passes (p.val + 1) e g = true → g.flags = 0 → g.fragment = [] →
      g.layoutId.toNat = s.reg nYOKE (12 + 4 * p.val) →
      Passes s .yoke [⟨.write, s.reg nYOKE 1 + p.val * 8192, g.body.length⟩] →
      ∃ t, exec (.segmentReceived p (some e) g) s = .next t ∧ (t.pos (p.val + 1)).state = 3 ∧ (t.pos (p.val + 1)).lastOffset = e
        ∧ (t.pos (p.val + 1)).segment = some (0, g.body) ∧ (t.pos (p.val + 1)).lastBody = g.body
        ∧ (t.pos (p.val + 1)).events = (s.pos (p.val + 1)).events ||| g.events.toNat ∧ (t.pos (p.val + 1)).need = g.need.toNat
        ∧ SameBytes (s.virtWrite 4 (s.reg nYOKE 1 + p.val * 8192) g.body) t)
    ∧ (balkOf s.reg < 2 * e.natAbs → (s.pos (p.val + 1)).rejects = [] →
      ∃ t, exec (.segmentReceived p (some e) g) s = .next t ∧ t.count nYOKE 6 16 = satAdd 16 (s.count nYOKE 6 16) 1
        ∧ ((g.crcOk && s.passes (p.val + 1) e g && bitAt g.flags.toNat 2) = false →
          (t.pos (p.val + 1)).segment = some (2, []) ∧ (t.pos (p.val + 1)).state = (s.pos (p.val + 1)).state)
        ∧ t.mem = s.mem)
    ∧ (2 * e.natAbs ≤ balkOf s.reg → (g.crcOk && s.passes (p.val + 1) e g) = false →
      ∃ t, exec (.segmentReceived p (some e) g) s = .next t ∧ t.count nYOKE 7 0 = satAdd 16 (s.count nYOKE 7 0) 1
        ∧ (t.pos (p.val + 1)).segment = some (3, []) ∧ (t.pos (p.val + 1)).state = (s.pos (p.val + 1)).state ∧ t.mem = s.mem)

/-! ### The yoke link in a member -/

/-- Each command frame that the member takes goes out of DN TX again, and is executed once and acknowledged: MBX bytes are joined until a request is whole, and
then put on MBX3; a JOIN_ACCEPT of its serial makes it joining with the grant; RANGE asks for an echo; SET_DELAY sets D_k and makes
it joined; TRIM is added at the next line; a GRANT waits; QUARANTINE and RELEASE make it unjoined; a reply goes on from an offset,
or is discarded (10 R335, R339, R344 to R348, R352, R355 to R358, R362, R370).
Completion is concluded for mbx, joinAccept, range, setDelay, trim, grant, quarantine, release, replyResend, replyDone. -/
def Obligations.FramesExecuted : Prop :=
  ∀ (f : Frame) (s : State), s.Inv → Hears s f →
    (∀ b, s.accepts 3 = true → ∃ t, exec (.mbx f b) s = .next t ∧ Acknowledged s t f 0 ∧ Repeated s t .mbx f b
      ∧ (match messageLength (s.yoke.rxBuf ++ b) with
        | some n => if n ≤ (s.yoke.rxBuf ++ b).length then t.yoke.rxBuf = []
              ∧ (nth {} t.mb.chans 3).rx = (nth {} s.mb.chans 3).rx ++ [(s.yoke.rxBuf ++ b).take n]
            else t.yoke.rxBuf = s.yoke.rxBuf ++ b ∧ t.mb = s.mb
        | none => t.yoke.rxBuf = s.yoke.rxBuf ++ b ∧ t.mb = s.mb))
    ∧ (∀ n g, n.toNat = s.boot.serial → s.yoke.linkState = 3 → ∃ t, exec (.joinAccept f n g) s = .next t ∧ Acknowledged s t f 0 ∧ Repeated s t .joinAccept f (leBytes 8 n.toNat ++ (Grant.ofPlan g).bytes)
        ∧ t.yoke.linkState = 4 ∧ t.yoke.grant = some (Grant.ofPlan g))
    ∧ (∀ n, ∃ t, exec (.range f n) s = .next t ∧ Acknowledged s t f 0 ∧ Repeated s t .range f (leBytes 4 n.toNat) ∧ t.yoke.echo = some n.toNat)
    ∧ (∀ d, s.yoke.linkState = 4 → ∃ t, exec (.setDelay f d) s = .next t ∧ Acknowledged s t f 0 ∧ Repeated s t .setDelay f (leBytes 4 d.toNat) ∧ t.yoke.delayQ = d.toNat
        ∧ t.yoke.linkState = 5 ∧ t.yoke.position = s.ownNumber)
    ∧ (∀ n, ∃ t, exec (.trim f n) s = .next t ∧ Acknowledged s t f 0 ∧ Repeated s t .trim f (leBytes 2 n.toNat) ∧ t.yoke.trim = s.yoke.trim + n.toInt ∧ t.yoke.delayQ = s.yoke.delayQ)
    ∧ (∀ g, ∃ t, exec (.grant f g) s = .next t ∧ Acknowledged s t f 0 ∧ Repeated s t .grant f (Grant.ofPlan g).bytes ∧ t.yoke.grant = some (Grant.ofPlan g) ∧ t.cfg = s.cfg)
    ∧ (∃ t, exec (.quarantine f) s = .next t ∧ Acknowledged s t f 0 ∧ Repeated s t .quarantine f [] ∧ t.yoke.linkState = (if s.seeks then 3 else 0) ∧ t.yoke.delayQ = 0)
    ∧ (∃ t, exec (.release f) s = .next t ∧ Acknowledged s t f 0 ∧ Repeated s t .release f [] ∧ t.yoke.linkState = (if s.seeks then 3 else 0) ∧ t.yoke.delayQ = 0)
    ∧ (∀ n, ∃ t, exec (.replyResend f n) s = .next t ∧ Acknowledged s t f 0 ∧ Repeated s t .replyResend f (leBytes 2 n.toNat) ∧ t.yoke.txOff = n.toNat ∧ t.mb = s.mb)
    ∧ (s.mb.compatNext = none → ∃ t, exec (.replyDone f) s = .next t ∧ Acknowledged s t f 0 ∧ Repeated s t .replyDone f [] ∧ t.yoke.txOff = 0
        ∧ (nth {} t.mb.chans 3).replies = (nth {} s.mb.chans 3).replies.tail)

/-- A FALLOW_PROPOSE is accepted where FALLOW would not be refused, and refused otherwise; FALLOW_COMMIT names the entry of the
agreement, FALLOW_ABORT drops it, and it lapses after 256 periods without a commit; and without a marker for its period the member
enters at the line that it expects (10 R378 to R380).
Completion is concluded for fallowPropose, fallowCommit, fallowAbort, acceptLapse, commitMarkerMissing. -/
def Obligations.FallowAgreed : Prop :=
  ∀ (f : Frame) (id : Byte) (s : State),
    (Hears s f → ∀ deep ms, ∃ t, exec (.fallowPropose f id deep ms) s = .next t
      ∧ Repeated s t .fallowPropose f (leBytes 1 id.toNat ++ leBytes 1 (b2n deep) ++ leBytes 4 ms.toNat)
      ∧ (if s.fallowBusy then Acknowledged s t f 2 ∧ t.yoke.agreed = s.yoke.agreed
        else Acknowledged s t f 1 ∧ t.yoke.agreed = some (id.toNat, deep, ms.toNat, s.tm.period, none)))
    ∧ (Hears s f → ∀ pc d ms p o, s.yoke.agreed = some (id.toNat, d, ms, p, o) →
      ∃ t, exec (.fallowCommit f id pc) s = .next t ∧ Acknowledged s t f 0
        ∧ Repeated s t .fallowCommit f (leBytes 1 id.toNat ++ leBytes 6 pc.toNat) ∧ t.yoke.agreed = some (id.toNat, d, ms, p, some pc.toNat))
    ∧ (Hears s f → ∀ d ms p o, s.yoke.agreed = some (id.toNat, d, ms, p, o) →
      ∃ t, exec (.fallowAbort f id) s = .next t ∧ Acknowledged s t f 0 ∧ Repeated s t .fallowAbort f (leBytes 1 id.toNat)
        ∧ t.yoke.agreed = none ∧ t.yoke.claim = false)
    ∧ (∀ i d ms p, s.yoke.agreed = some (i, d, ms, p, none) → 256 ≤ periodsFrom p s.tm.period →
      ∃ t, exec .acceptLapse s = .next t ∧ t.yoke.agreed = none)
    ∧ (∀ i d ms p pc, s.yoke.agreed = some (i, d, ms, p, some pc) → s.tm.lineAt = none → s.tm.lineSeen = true → addPeriod s.tm.period 1 = pc →
      ∃ t, exec .commitMarkerMissing s = .next t ∧ t.tm.lineAt = some (s.tm.capture + s.periodTicks) ∧ t.tm.linePeriod = some pc)

/-- A marker with a correct CRC places the next capture line 10 000 ns less D_k after it and, in a joined member, gives its period; a
member that repeats puts it out again with its hop raised; where its hop is another than before, a joined member is unjoined. Without a
marker for 250 ms a member is an orphan, with event 33 (10 R335, R344, R366, R368).
A member sends its segment, with its acknowledgement and events, once: what it acknowledged and forwarded is cleared, and a leaving
one is unjoined; a segment is cut at its window, one whose body takes a fault ends before it, and an echo is a header alone. An unjoined
one that seeks sends its join request in the join window, with its serial number. On DN RX only the bytes inside a window pass; 250 ms
of silence gate the receiver; and a PHY failure stands as one (10 R335, R341 to R343, R346, R361, R365, R387; 11 R399; 01 Table
AR-7).
Completion is concluded for markerReceived, orphanTimeout, segmentSend, joinRequestSend, dnRxForward, dnRxIdle, yokePhyFailure. -/
def Obligations.MemberFollowsMarkers : Prop :=
  (∀ (s : State), s.isMember = true →
    (∀ (m : Marker) (i : Stamp), s.yokeUp = true → (s.yoke.fence = none ∨ s.yoke.repeating = true) → m.crcOk = true →
      ((∀ h, s.yoke.hop = some h → h = m.hop.toNat) →
        ∃ t, exec (.markerReceived m i) s = .next t ∧ t.yoke.hop = some m.hop.toNat ∧ t.yoke.markerSeen = i.toNat ∧ t.yoke.orphan = false
          ∧ t.tm.lineAt = some (i.toNat + lineTicks s.yoke.delayQ)
          ∧ t.tm.linePeriod = (if s.yoke.linkState = 4 ∨ s.yoke.linkState = 5 then some m.period.toNat else none)
          ∧ (s.yoke.repeating = true → t.yoke.out
            = markerSymbol m.commitPoint :: markerBytes ((m.hop.toNat + 1) % 256) m.flags.toNat m.period.toNat))
      ∧ (∀ h, s.yoke.hop = some h → h ≠ m.hop.toNat → (s.yoke.linkState = 4 ∨ s.yoke.linkState = 5) →
        ∃ t, exec (.markerReceived m i) s = .next t ∧ t.yoke.hop = some m.hop.toNat ∧ t.yoke.linkState = (if s.seeks then 3 else 0)
          ∧ t.yoke.delayQ = 0 ∧ t.yoke.position = 0xFF ∧ t.tm.lineAt = some (i.toNat + 1200) ∧ t.tm.linePeriod = none))
    ∧ (s.flag nYOKE 0 0 = true → s.yoke.orphan = false → s.ready = true → s.pw.state = .run →
      ∃ t, exec .orphanTimeout s = .next t ∧ t.yoke.orphan = true ∧ t.yoke.linkState = 6 ∧ t.has 33 = true ∧ t.yoke.delayQ = 0))
  ∧ (∀ s : State, s.isMember = true → s.clocked = true →
    ((s.yoke.fence = none ∨ s.yoke.leaving = true) → s.mayTransmit = true →
      (s.yoke.linkState = 4 ∨ s.yoke.linkState = 5 ∨ s.yoke.ack.isSome = true) → s.harrowActive = false →
      ∀ u b w, (s.at s.segmentAt).segmentBytes s.yoke.echo.isSome = (u, b, w) →
      ∃ t, exec .segmentSend s = .next t ∧ t.tm.now = max s.tm.now s.segmentAt ∧ (s.yoke.leaving = false → t.ev.up = 0) ∧ t.yoke.ack = none ∧ t.yoke.echo = none
        ∧ t.yoke.segment = (let out := if w then framed b else 0xFB :: b; if s.yoke.echo.isSome then out else s.ownWindow 0 out)
        ∧ (s.yoke.leaving = true → s.yoke.echo = none → t.yoke.linkState = if s.seeks then 3 else 0))
    ∧ (s.yokeRuns = true → s.ready = true → s.yoke.linkState = 3 → s.yoke.beacon = true → s.ownNumber ≤ 7 → s.yoke.attempts = 0 →
      ∃ t, exec .joinRequestSend s = .next t ∧ t.yoke.attempts = 1 ∧ t.tm.now = max s.tm.now (s.tm.capture + nsTicks (joinOpen s.reg + 2000))
        ∧ t.yoke.segment.length = 38 ∧ slice t.yoke.segment 1 1 = leBytes 1 s.ownNumber ∧ slice t.yoke.segment 25 8 = leBytes 8 s.boot.serial)
    ∧ (∀ (p : Fin 7) (a : Int) (bs : List Byte) (g : Grant), s.repeats = true → s.yoke.applied = some g →
      ∃ t, exec (.dnRxForward p a bs) s = .next t ∧ t.pw.dnRxIdle = false
        ∧ t.yoke.upOut = (bs.zipIdx.filter fun (_, i) => insideWindow (ticksNs s.limit) g s.yoke.delayQ (p.val + 1) (4 * (a + 100 * i))).map (·.1))
    ∧ (∃ t, exec .dnRxIdle s = .next t ∧ t.pw = { s.pw with dnRxIdle := true })
    ∧ (s.boot.legacy = false → ∃ t, exec .yokePhyFailure s = .next t ∧ t.lev.fail.yoke = true))

/-! ### Supplies, backup, sleep, resets and starts -/

/-- While powered: a low or a high VIN is flagged with its event; VIN below 5.2 V or above 43 V stops switching, into BACKUP where
VBAK keeps it, at L0; an overload of VSYS and a hot junction raise their events; VSYS below 3.0 V and a lost VDDIO_D hold the
device in reset with their causes; another lost bank raises the fault events of its units. Without power a good VIN, and the
ends of the stops, start it again at L1, held in reset while VDDIO_D is not valid (11 R389, R392, R396, Table PW-1; 13 R484).
Completion is concluded for vinLowWarning, vinHighWarning, vinUndervoltage, vinOvervoltage, vsysOverload, vsysCollapse, thermalWarning,
thermalShutdown, bankSupplyLost, bankSupplyRestored, vbakMeasure, vinUvloRise, vinOvervoltageRecover, thermalRestart. -/
def Obligations.SupplyChanges : Prop :=
  ∀ s : State,
    (s.powered = true → ∀ v : BitVec 16,
      (∃ t, exec (.vinLowWarning v) s = .next t ∧ t.pw.vinLow = true ∧ t.pw.vin10mv = v.toNat ∧ t.has 44 = true
        ∧ t.count nPOWER 21 0 = satAdd 16 (s.count nPOWER 21 0) 1)
      ∧ (∃ t, exec (.vinHighWarning v) s = .next t ∧ t.pw.vinHigh = true ∧ t.pw.vin10mv = v.toNat ∧ t.has 45 = true)
      ∧ (∃ t, exec (.vinUndervoltage v) s = .next t ∧ t.boot.phase = .off ∧ t.lev.level = 0
        ∧ t.pw.state = (if 1900 ≤ s.pw.vbakMv then .backup else .off))
      ∧ (∃ t, exec (.vinOvervoltage v) s = .next t ∧ t.boot.phase = .off ∧ t.lev.level = 0 ∧ t.pw.ovStop = true
        ∧ t.pw.state = (if 1900 ≤ s.pw.vbakMv then .backup else .off)))
    ∧ (s.powered = true →
      (∃ t, exec .vsysOverload s = .next t ∧ t.pw.overload = true ∧ t.has 46 = true
        ∧ t.count nPOWER 21 16 = satAdd 16 (s.count nPOWER 21 16) 1)
      ∧ (∃ t, exec .vsysCollapse s = .next t ∧ t.boot.phase = .held ∧ t.boot.cause = 1)
      ∧ (∃ t, exec .thermalWarning s = .next t ∧ t.has 47 = true)
      ∧ (s.pw.thermalPending = false → ∃ t, exec .thermalShutdown s = .next t ∧ t.pw.thermalPending = true ∧ t.has 48 = true
        ∧ (s.alm.windows = [] → t.alm.queue.head?.any (fun r => r.type == 0x06 && r.code == 5) = true))
      ∧ (∀ b : Fin 4, s.pw.vddioOk.length = 4 → s.bankOk b.val = true → ∃ t, exec (.bankSupplyLost b) s = .next t ∧ t.bankOk b.val = false
        ∧ (b = 3 → t.boot.phase = .held ∧ t.boot.cause = 2) ∧ (b ≠ 3 → ∀ k, k ∈ s.bankFaults b.val → t.has k = true)))
    ∧ (∀ (b : Fin 4) (v : Bool), s.pw.vddio1v8.length = 4 → ∃ t, exec (.bankSupplyRestored b v) s = .next t ∧ t.bankOk b.val = true
        ∧ nth false t.pw.vddio1v8 b.val = v)
    ∧ (s.clocked = true → ∀ v w : BitVec 16, ∃ t, exec (.vbakMeasure v w) s = .next t ∧ t.pw.vbakMv = v.toNat ∧ t.pw.vresMv = w.toNat
        ∧ t.pw.cellLow = decide (v.toNat < 2200) ∧ (v.toNat < 2200 → t.has 49 = true))
    ∧ (s.powered = false →
      (∀ (v w : BitVec 16) (p : Straps), s.pw.ovStop = false → s.pw.thermalStop = false → ∃ t, exec (.vinUvloRise v w p) s = .next t
        ∧ t.pw.state = .run ∧ t.boot.kind = .reset ∧ t.boot.cause = 1 ∧ t.lev.level = 1
        ∧ (s.bankOk 3 = true → t.boot.phase = .rom ∧ t.tm.now = 0 ∧ t.boot.legacy = p.legacy ∧ t.boot.ykLead = p.ykLead)
        ∧ (s.bankOk 3 = false → t.boot.phase = .held))
      ∧ (∀ v : BitVec 16, s.pw.ovStop = true → s.pw.thermalStop = false → ∃ t, exec (.vinOvervoltageRecover v) s = .next t
        ∧ t.pw.state = .run ∧ t.boot.phase = .held ∧ t.boot.cause = 1 ∧ t.lev.level = 1 ∧ t.pw.ovStop = false)
      ∧ (s.pw.thermalStop = true → s.pw.ovStop = false → ∃ t, exec .thermalRestart s = .next t
        ∧ t.pw.state = .run ∧ t.boot.phase = .held ∧ t.boot.cause = 1 ∧ t.lev.level = 1 ∧ t.pw.thermalStop = false))

/-- The backup domain: without VBAK its RTC stops and its counts go; the RTC alarm raises event 51; an alarm of an enabled input
counts there on the backup path and raises event 50 on the other; a record that was started is written to its slot with the
next number of its series, or abandoned with its counts kept; and at the end of a hold-off a nonzero count starts the next
record where VBAK_RES allows it (11 R411, R414 to R416).
Completion is concluded for backupStateLost, rtcAlarm, alarmInput, backupRecordWrite, backupWriteAbort, alarmHoldoffEnd. -/
def Obligations.BackupAndAlarms : Prop :=
  ∀ s : State, s.Inv →
    (∃ t, exec .backupStateLost s = .next t ∧ t.pw.rtcValid = false ∧ t.pw.almLost = true ∧ t.pw.aonAlmEnable = 0 ∧ t.pw.backup.total = 0)
    ∧ (s.powered = true → s.pw.rtcValid = true → s.pw.aonRtcAlarm ≠ 0 → ∃ t, exec .rtcAlarm s = .next t ∧ t.has 51 = true)
    ∧ (∀ (k : Fin 4) (rtc : BitVec 64), bitAt s.pw.aonAlmEnable k.val = true → s.pw.state ≠ .off →
      ∃ t, exec (.alarmInput k rtc) s = .next t ∧ (s.backupPath = true → t.pw.backup.total = satAdd 32 s.pw.backup.total 1)
        ∧ (s.backupPath = false → t.has 50 = true ∧ t.pw.backup = s.pw.backup))
    ∧ (∀ n, s.pw.backup.writing = some n →
      (∃ t, exec .backupRecordWrite s = .next t ∧ t.pw.backup.writing = none ∧ t.pw.backup.sinceRec = [0, 0, 0, 0]
        ∧ t.pw.backup.lastSeq = s.pw.backup.nextSeq ∧ t.pw.backup.nextSeq = nextSequence s.pw.backup.nextSeq
        ∧ ∃ l, Memory.readList almEmpty t.alm.bytes (slotAddr 3 (goodSlot s.alm.bad 3 s.pw.backup.slot 128))
            (backupRecord s.pw.backup.nextSeq s.rtcNow (s.backupPayload n l)).length
          = backupRecord s.pw.backup.nextSeq s.rtcNow (s.backupPayload n l))
      ∧ (∃ t, exec .backupWriteAbort s = .next t ∧ t.pw.backup.writing = none ∧ t.pw.backup.sinceRec = s.pw.backup.sinceRec
        ∧ t.pw.backup.nextSeq = s.pw.backup.nextSeq ∧ t.pw.backup.aborted = satAdd 16 s.pw.backup.aborted 1))
    ∧ (s.pw.backup.holdoff = true →
      ∃ t, exec .alarmHoldoffEnd s = .next t
        ∧ (if s.pw.backup.sinceRec.any (· != 0) = true ∧ s.backupPath = true ∧ 1950 ≤ s.pw.vresMv then
            t.pw.backup.writing = some 0 ∧ t.pw.backup.holdoff = true
          else t.pw.backup.writing = s.pw.backup.writing ∧ t.pw.backup.holdoff = false))

/-- A sleeping device wakes by an armed source, at the end of sleep_ms, by its listen window and by a burst: it is in RUN, starts
from the boot ROM, and shows what it resumed from and by what. After FALLOW the steward resumes 1 ms later, or starts afresh
where the retained state fails; and the timebase is loaded with the cycles slept and the line grid goes on (11 R405 to R409;
10 R382, R384; 12 R448, R449).
Completion is concluded for wakeSource, wakeBurstDetected, sleepTimerExpiry, listenWindow, fallowResume, timebaseRealign,
wakeHoldExpiry. -/
def Obligations.SleepAndWake : Prop :=
  ∀ (s : State) (w : WakeContext), s.pw.wake = some w →
    (s.pw.state = .fallow → w.deep = false →
      (∀ b : Fin 11, s.wakeArmed false b.val = true → ∃ t, exec (.wakeSource b) s = .next t ∧ t.pw.state = .run ∧ t.pw.waking = true
        ∧ t.pw.resumedFrom = 1 ∧ t.pw.lastWake = b.val ∧ t.boot.phase = .rom ∧ t.boot.kind = .wake ∧ t.mem.sram = s.mem.sram)
      ∧ (s.wakeArmed false 8 = true → ∃ t, exec .wakeBurstDetected s = .next t ∧ t.pw.state = .run ∧ t.pw.lastWake = 8 ∧ t.boot.kind = .wake)
      ∧ (w.sleepMs ≠ 0 → w.agreed = false → ∃ t, exec .sleepTimerExpiry s = .next t ∧ t.pw.state = .run ∧ t.pw.lastWake = 0x1F
        ∧ t.boot.kind = .wake)
      ∧ (∀ h, w.sleepMs ≠ 0 → w.agreed = true → ∃ t, exec (.listenWindow h) s = .next t ∧ t.pw.state = .run ∧ t.pw.lastWake = 0x1F
        ∧ t.boot.kind = .wake ∧ (h = .nothing → t.yoke.scanning = true)))
    ∧ (s.pw.state = .deep → w.deep = true →
      ∀ b : Fin 11, s.wakeArmed true b.val = true → ∃ t, exec (.wakeSource b) s = .next t ∧ t.pw.state = .run ∧ t.pw.waking = true
        ∧ t.pw.resumedFrom = 2 ∧ t.pw.lastWake = b.val ∧ t.boot.phase = .rom ∧ t.boot.kind = .deepWake ∧ t.mem.sram = [])
    ∧ (s.boot.phase = .rom → s.boot.kind = .wake →
      (∃ t, exec (.fallowResume true) s = .next t ∧ t.boot.phase = .verified ∧ t.cfg = s.cfg
        ∧ t.mb.run = if w.drillRan then some { ticket := none, start := true, named := none } else s.mb.run)
      ∧ (∃ t, exec (.fallowResume false) s = .next t ∧ t.boot.phase = .rom ∧ t.boot.kind = .deepWake ∧ t.mem.sram = []))
    ∧ (∀ n, s.pw.waking = true → s.clk.bootLocked = true → ∃ t, exec (.timebaseRealign n) s = .next t ∧ t.pw.waking = false
        ∧ t.tm.now = (w.now + aonTicks n (aonMean s.clk.aonRuns)) % 2 ^ 64
        ∧ ∃ k, 1 ≤ k ∧ t.tm.lineAt = some (w.now + k * w.ticks) ∧ t.tm.linePeriod = some (addPeriod w.period k)
          ∧ (1 ≤ w.ticks → t.tm.now + 120000 ≤ w.now + k * w.ticks))
    ∧ (∀ t0, s.pw.hold = some t0 → ∃ t, exec .wakeHoldExpiry s = .next t ∧ t.pw.hold = none ∧ t.tm.now = max s.tm.now t0)

/-- PRSNT_N: it is met once it has settled low, a change raises event 52, and with prsnt_action 1 a high takes the device to L1 with
its drill ended; a DETACH whose reply was collected releases USB and is counted, and ends in a reset of cause 5. RESET_N holds
the device with every configuration word at its reset value, the Almanac and the seal kept; the release samples the straps and
starts the timebase at 0 (11 R420 to R425; 12 R450 to R452).
Completion is concluded for prsntSettled, prsntChange, emergencyDetach, detachRelease, detachCycle, resetNAssert, resetRelease. -/
def Obligations.ResetsAndDetach : Prop :=
  ∀ s : State,
    (s.pw.prsntHigh = false → s.clocked = true → ∃ t, exec .prsntSettled s = .next t ∧ t.pw.prsntMet = true)
    ∧ (∀ h, s.pw.prsntHigh ≠ h → ∃ t, exec (.prsntChange h) s = .next t ∧ t.pw.prsntHigh = h ∧ (s.pw.state = .run → t.has 52 = true))
    ∧ (s.flag nPOWER 0 3 = true → s.pw.prsntHigh = true → s.clocked = true → s.pw.detach ≠ .emergency →
      ∃ t, exec .emergencyDetach s = .next t ∧ t.pw.detach = .emergency ∧ t.drill.mode = 0 ∧ t.usb.pullup = false ∧ t.lev.fail.detach = true)
    ∧ (s.pw.detach = .replied → ∃ t, exec .detachRelease s = .next t ∧ t.pw.detach = .held ∧ t.usb.pullup = false ∧ t.lev.fail.detach = true
        ∧ t.count nPOWER 20 16 = satAdd 16 (s.count nPOWER 20 16) 1)
    ∧ ((s.pw.detach = .held ∨ s.pw.detach = .emergency) → (s.fld nPOWER 0 8 8 ≠ 0 ∨ s.pw.detachHigh = true ∧ s.pw.prsntHigh = false) →
      ∃ t, exec .detachCycle s = .next t ∧ t.boot.phase = .held ∧ t.boot.cause = 5)
    ∧ (s.pw.state ≠ .backup → s.pw.state ≠ .off → s.boot.phase ≠ .off → ∃ t, exec .resetNAssert s = .next t ∧ t.boot.phase = .held
        ∧ t.boot.cause = 2 ∧ (∀ n w, t.reg n w = resetWord (regKey n w)) ∧ t.alm.bytes = s.alm.bytes ∧ t.hw.sealed = s.hw.sealed)
    ∧ (∀ p, s.boot.phase = .held → s.pw.state = .run → s.bankOk 3 = true → ∃ t, exec (.resetRelease p) s = .next t ∧ t.boot.phase = .rom
        ∧ t.boot.kind = .reset ∧ t.tm.now = 0 ∧ t.boot.legacy = p.legacy ∧ t.boot.ykLead = p.ykLead ∧ t.boot.testEn = p.testEn)

/-- The boot ROM starts the first image of its order that passes, and without one it runs ROM service at a failed start; a further
part that fails excludes its slot and starts the steward again. With no source the PLL locks to the RC. The mailboxes become
ready as each kind of start says; an autostart START is set once its conditions hold; and a watchdog expiry restarts the
steward with the shadow lost, the drill running on and the set as applied (12 R435, R453 to R466).
Completion is concluded for bootImageVerify, furtherPartFail, watchdogPrewarning, watchdogExpiry, noReferenceAtBoot, mailboxesReady,
autostartStart. -/
def Obligations.StartsOfTheSteward : Prop :=
  ∀ s : State,
    (s.boot.phase = .rom → s.boot.kind ≠ .wake → s.clocked = true → s.clk.bootLocked = true →
      ∃ t, exec .bootImageVerify s = .next t
        ∧ (∀ x rest, s.bootOrder = x :: rest → s.imageCode x = 0 → t.boot.phase = .verified ∧ t.boot.runningFrom = x)
        ∧ ((s.tryImages s.bootOrder).2 = none → t.boot.phase = .romService ∧ t.boot.runningFrom = 0 ∧ t.lev.fail.rom = true))
    ∧ (s.firmwareRuns = true →
      (∀ p, ∃ t, exec (.furtherPartFail p) s = .next t ∧ t.boot.phase = .rom ∧ t.boot.excluded.contains s.boot.runningFrom = true)
      ∧ (s.clocked = true → ∃ t, exec .watchdogPrewarning s = .next t ∧ t.has 58 = true)
      ∧ (s.clocked = true → ∃ t, exec .watchdogExpiry s = .next t ∧ t.boot.phase = .rom ∧ t.boot.cause = 3 ∧ t.mb.shadow = none
        ∧ t.drill.mode = s.drill.mode ∧ t.cfg = s.cfg))
    ∧ (s.clocked = true → s.clk.bootLocked = false → s.clk.relocking = none → ∃ t, exec .noReferenceAtBoot s = .next t ∧ t.clk.active = 3
        ∧ t.clk.locked = true ∧ t.clk.bootLocked = true ∧ t.lev.fail.rc = true)
    ∧ (s.boot.phase = .verified → s.clocked = true → s.clk.bootLocked = true → s.boot.kind ≠ .swap →
      ∃ t, exec .mailboxesReady s = .next t ∧ t.boot.phase = .ready
        ∧ (s.boot.kind = .watchdog → t.lev.fail.steward = false ∧ t.cfg = s.cfg ∧ t.mb.epoch = s.mb.epoch)
        ∧ ((s.boot.kind = .reset ∨ s.boot.kind = .deepWake) → t.mb.epoch = 1))
    ∧ (s.boot.autostart = true → s.ready = true → s.clocked = true → s.boot.readySince + 7200000 ≤ s.nextLine.at' → s.pw.prsntMet = true →
        s.clk.active < 3 → s.memberMayStart = true → s.drill.mode = 0 → ∃ t, exec .autostartStart s = .next t
          ∧ t.mb.run = some { ticket := none, start := true, named := none } ∧ t.boot.autostart = false)

/-! ### The Almanac's records, EP6 and INT_N -/

/-- A scan sets the next number from the highest record; the controller commits the record at the head of its queue into the next
good slot of the ring with the next number, and one whose second read-back fails too marks the slot with event 54 and stays; a
merging window without repeats ends, and one with repeats queues its summary; drops are told once there is room; EP6 gives up to
eight entries; INT_N is free again coalesce_us after its release (13 R470 to R476, R482, R487).
Completion is concluded for almanacScanDone, almanacRecordCommit, mergeWindowClose, recordDrop, ep6TransferEnd, ep6Read,
intNCoalesceExpiry. -/
def Obligations.RecordsCommitted : Prop :=
  ∀ s : State, s.Inv →
    (s.alm.scanDone = false → s.alm.before = 0 → s.clocked = true → ∃ t, exec .almanacScanDone s = .next t ∧ t.alm.scanDone = true
        ∧ t.alm.nextSeq = (s.alm.scanned (s.boot.kind == .reset && s.boot.cause == 1)).nextSeq)
    ∧ (∀ (ring zone : ReadBack) r rest, s.alm.queue = r :: rest → s.pw.state = .run → s.boot.phase ≠ .off → s.alm.scanDone = true →
      ((ring.first = true ∨ ring.second = true) → (zone.first = true ∨ zone.second = true) → s.alm.dropped = 0 → s.quiet = true →
        s.alm.ringNext < 3584 → r.type ≠ 0x06 → r.type ≠ 0x91 →
        ∃ t, exec (.almanacRecordCommit ring zone) s = .next t ∧ t.alm.queue = rest ∧ t.alm.nextSeq = nextSequence s.alm.nextSeq
          ∧ Memory.readList almEmpty t.alm.bytes (slotAddr 2 (goodSlot s.alm.bad 2 s.alm.ringNext 3584)) 64
            = r.bytes s.alm.nextSeq (r.first && (freeFirst s.alm).isSome))
      ∧ (ring.first = false → ring.second = false →
        ∃ t, exec (.almanacRecordCommit ring zone) s = .next t ∧ t.has 54 = true ∧ t.alm.queue.head? = some r ∧ t.alm.nextSeq = s.alm.nextSeq
          ∧ t.alm.bad.contains (badIndex 2 (goodSlot s.alm.bad 2 s.alm.ringNext 3584)) = true))
    ∧ (∀ key w, s.alm.windows.find? (·.key == key) = some w → ∃ t, exec (.mergeWindowClose key) s = .next t
        ∧ t.tm.now = max s.tm.now (w.opened + 120000000)
        ∧ (w.count = 0 → t.alm.windows.any (·.key == key) = false ∧ t.alm.queue = s.alm.queue)
        ∧ (w.count ≠ 0 → s.alm.queue.length < 48 → t.alm.queue.getLast?.any (fun r => r.summary && r.merged == w.count) = true))
    ∧ (s.alm.dropped ≠ 0 → s.alm.queue.any (fun r => r.type == 0xA0 && r.code == 3) = false → s.alm.queue.length < 64 →
        ∃ t, exec .recordDrop s = .next t ∧ t.alm.queue = s.alm.queue ++ [dropRecord s s.alm.dropped] ∧ t.alm.dropped = 0)
    ∧ (s.alm.ep6Open = true → ∃ t, exec .ep6TransferEnd s = .next t ∧ t.alm.ep6Open = false ∧ t.tm.now = max s.tm.now (s.alm.ep6Last + 120000))
    ∧ (s.usbUp = true → ∃ t, exec .ep6Read s = .next t ∧ t.alm.ep6Out = (s.alm.ep6.take 8).flatten ∧ t.alm.ep6 = s.alm.ep6.drop 8)
    ∧ (∀ t0, s.ev.intRelease = some t0 → ∃ t, exec .intNCoalesceExpiry s = .next t ∧ t.tm.now = max s.tm.now (t0 + s.coalesce)
        ∧ ((s.ev.pending &&& s.intEnable) ≠ 0 → t.ev.intN = true))

/-! ### References -/

/-- A lost reference raises event 59, is counted, and begins holdover; an unlock raises event 60 and relocks to its own source;
10 ms of holdover end in the RC fallback, with a running drill halted; a source that qualifies is shown, and taken where the
PLL has none; a switch and a relock end on their source; with auto_failover the device switches back; and a run of CK_AON
enters the last eight (12 R432 to R447).
Completion is concluded for referenceLost, pllUnlock, switchBack, holdoverExpiry, sourceQualified, sourceSwitchComplete,
relockComplete, aonCalibrationRun. -/
def Obligations.ReferencesSwitch : Prop :=
  ∀ s : State,
    (s.clocked = true → s.clk.locked = true → s.clk.active < 3 → s.clk.holdover = none → s.clk.switching = none →
      (∃ t, exec .referenceLost s = .next t ∧ t.has 59 = true ∧ t.clk.holdover = some s.tm.now ∧ t.sourceOk s.clk.active = false
        ∧ t.count nCLOCK 2 0 = satAdd 16 (s.count nCLOCK 2 0) 1)
      ∧ (∃ t, exec .pllUnlock s = .next t ∧ t.has 60 = true ∧ t.clk.holdover = some s.tm.now ∧ t.clk.relocking = some s.clk.active
        ∧ t.count nCLOCK 2 16 = satAdd 16 (s.count nCLOCK 2 16) 1)
      ∧ (s.flag nCLOCK 0 3 = true → s.fld nCLOCK 0 0 2 ≠ s.clk.active → s.sourceOk (s.fld nCLOCK 0 0 2) = true →
        ∃ t, exec .switchBack s = .next t ∧ t.clk.switching = some (s.fld nCLOCK 0 0 2)))
    ∧ (∀ t0, s.clk.holdover = some t0 → s.clk.switching = none → s.clk.unlocked = false → ∃ t, exec .holdoverExpiry s = .next t
        ∧ t.clk.active = 3 ∧ t.clk.holdover = none ∧ t.lev.fail.rc = true ∧ t.drill.mode = (if s.drill.mode = 1 then 2 else s.drill.mode)
        ∧ t.tm.now = max s.tm.now (t0 + 1200000))
    ∧ (∀ src, s.clocked = true → (src = .yoke → s.isMember = true) → ∃ t, exec (.sourceQualified src) s = .next t
        ∧ t.sourceOk (srcCode src) = true ∧ ((s.clk.bootLocked = false ∨ s.clk.active = 3) → t.clk.relocking.isSome = true))
    ∧ (∀ n, s.clk.switching = some n → ∃ t, exec .sourceSwitchComplete s = .next t ∧ t.clk.active = n ∧ t.clk.switching = none
        ∧ t.clk.holdover = none)
    ∧ (∀ n, s.clk.relocking = some n → ∃ t, exec .relockComplete s = .next t ∧ t.clk.active = n ∧ t.clk.locked = true
        ∧ t.clk.relocking = none ∧ t.clk.holdover = none ∧ t.lev.fail.rc = false)
    ∧ (∀ n, n ≠ 0 → s.clocked = true → s.pw.waking = false → ∃ t, exec (.aonCalibrationRun n) s = .next t
        ∧ t.clk.aonRuns = lastN 8 (s.clk.aonRuns ++ [aonError n]))

/-! ### USB -/

/-- The function attaches once R303 allows it, returns to its default state at a bus reset and detaches without VBUS, each with its
event; it is suspended and resumes, and drives a remote wake; its control requests are acknowledged or stalled, and its descriptors
answered; EP3 offers a report until it is acknowledged, and EP2 the oldest reply; a faulted bulk transfer is counted (09 R299 to R303, R316 to R318,
R325 to R327; 13 R486).
Completion is concluded for usbPullupEnable, vbusDetected, vbusLost, usbBusReset, usbSuspend, usbResume, remoteWake, usbControlRequest,
setInterface, ep3Report, ep2ReplyRead, bulkTransferFault, ep3ReportAck, usbFailure. -/
def Obligations.FunctionServes : Prop :=
  ∀ s : State, s.Inv →
    (s.mayAttach = true → s.usb.pullup = false → ∃ t, exec .usbPullupEnable s = .next t ∧ t.usb.pullup = true ∧ s.usb.vbusSince + 240000 ≤ t.tm.now)
    ∧ (s.usb.vbus = false → ∃ t, exec .vbusDetected s = .next t ∧ t.usb.vbus = true ∧ t.usb.vbusSince = s.tm.now)
    ∧ (s.usb.vbus = true → ∃ t, exec .vbusLost s = .next t ∧ t.usb.vbus = false ∧ t.usb.pullup = false ∧ t.usb.state = 0 ∧ t.has 26 = true)
    ∧ (s.usb.pullup = true → s.usb.fence = none → s.usb.state ≠ 0 →
      (∃ t, exec .usbBusReset s = .next t ∧ t.usb.state = 2 ∧ t.usb.address = 0 ∧ (t.usb.speed = 1 ∨ t.usb.speed = 2) ∧ t.has 26 = true
        ∧ t.count nUSB 14 0 = satAdd 16 (s.count nUSB 14 0) 1)
      ∧ (s.usb.suspended = false → ∃ t, exec .usbSuspend s = .next t ∧ t.usb.suspended = true ∧ t.usb.state = 5 ∧ t.usb.before = s.usb.state
        ∧ t.has 24 = true ∧ t.count nUSB 14 16 = satAdd 16 (s.count nUSB 14 16) 1))
    ∧ (s.usb.suspended = true →
      (∃ t, exec .usbResume s = .next t ∧ t.usb.suspended = false ∧ t.usb.state = s.usb.before ∧ t.has 25 = true)
      ∧ (s.usb.remoteWake = true → s.ev.wake = true → s.usb.resuming = false → ∃ t, exec .remoteWake s = .next t ∧ t.usb.resuming = true
        ∧ t.tm.now = max s.tm.now (s.usb.suspendedAt + 240000)))
    ∧ (s.usb.fence = none →
      (∀ a : BitVec 7, s.usb.state = 2 ∨ s.usb.state = 3 → ∃ t, exec (.usbControlRequest (.setAddress a)) s = .next t ∧ t.usb.address = a.toNat
        ∧ t.usb.state = (if a = 0 then 2 else 3) ∧ t.usb.ack = true)
      ∧ (∀ n : Byte, s.usb.state = 3 ∨ s.usb.state = 4 → n.toNat ≤ 1 → ∃ t, exec (.usbControlRequest (.setConfiguration n)) s = .next t
        ∧ t.usb.state = 3 + n.toNat ∧ t.usb.ack = true)
      ∧ (2 ≤ s.usb.state → s.usb.state ≤ 4 → (∃ t, exec (.usbControlRequest .vendorOrClass) s = .next t ∧ t.usb.ack = false)
        ∧ (∃ t, exec (.usbControlRequest .getDeviceDescriptor) s = .next t ∧ t.usb.ack = true ∧ t.usb.out = s.deviceDescriptor)
        ∧ (∃ t, exec (.usbControlRequest .getSerialString) s = .next t ∧ t.usb.ack = true ∧ t.usb.out = s.serialString)
        ∧ (∀ n, ∃ t, exec (.usbControlRequest (.getDescriptor n)) s = .next t ∧ t.usb.ack = (s.functionDescriptor n.toNat).isSome
          ∧ t.usb.out = (s.functionDescriptor n.toNat).getD s.usb.out)
        ∧ (∀ b, ∃ t, exec (.usbControlRequest (.setRemoteWake b)) s = .next t ∧ t.usb.ack = true ∧ t.usb.remoteWake = b)
        ∧ (∀ m, m ≠ .forceEnable → ∃ t, exec (.usbControlRequest (.setTestMode m)) s = .next t ∧ t.usb.ack = true ∧ t.usb.testMode = some m)))
    ∧ (s.usbUp = true →
      (∀ (e : Fin 2) (a : Fin 4), s.usb.speed = 2 → ∃ t, exec (.setInterface e a) s = .next t
        ∧ (if e = 1 ∧ a = 3 then t.usb.ack = false ∧ t.usb.streams = s.usb.streams
          else t.usb.ack = true ∧ (nth {} t.usb.streams e.val).alt = a.val))
      ∧ (∀ q bs, s.ev.ep3Report = some (q, bs) → ∃ t, exec .ep3Report s = .next t ∧ t.usb.out = bs ∧ t.ev = s.ev)
      ∧ (s.ev.ep3Report = none → s.ev.ep3Acc ≠ 0 → s.ev.ep3Last.all (fun t0 => t0 + s.coalesce ≤ s.tm.now) = true →
        ∃ t, exec .ep3Report s = .next t ∧ t.usb.out = s.reportBytes ∧ t.ev.ep3Report = some (s.ev.ep3Seq, s.reportBytes) ∧ t.ev.ep3Mask = s.ev.ep3Acc)
      ∧ (∀ y rest, (nth {} s.mb.chans 0).replies = y :: rest → ∃ t, exec .ep2ReplyRead s = .next t ∧ t.usb.out = y.bytes
        ∧ (nth {} t.mb.chans 0).replies = rest)
      ∧ (∀ e, ∃ t, exec (.bulkTransferFault e) s = .next t ∧ t.count nUSB 15 0 = satAdd 16 (s.count nUSB 15 0) 1
        ∧ t.mb.chans = s.mb.chans))
    ∧ (s.ev.ep3Report.isSome = true → ∃ t, exec .ep3ReportAck s = .next t ∧ t.ev.ep3Report = none
        ∧ ∀ k, k < 64 → bitAt t.ev.ep3Acc k = (bitAt s.ev.ep3Acc k && !bitAt s.ev.ep3Mask k))
    ∧ (∃ t, exec .usbFailure s = .next t ∧ t.lev.fail.usb = true)

/-- A copied range waits as a delivery with its period and bytes; at an IN token a stream with nothing to send is silent and counts
it, and one that is sending sends the next chunk of its delivery. The hub sets and clears its ports' power, answers for its
translator and its class requests, takes the power of a port whose OCI input has been high for 8 ms, with event 27, and reports a connect change with
event 28 (09 R299, R310 to R313, R320 to R324).
Completion is concluded for streamCopyComplete, isoInToken, setPortPower, clearPortPower, clearTtBuffer, resetTt, hubOverCurrent,
hubConnectChange, hubClassRequest. -/
def Obligations.StreamsAndHubServe : Prop :=
  ∀ s : State, s.Inv →
    (∀ (e : Fin 2) d, (nth {} s.usb.streams e.val).copying = some d → Passes s .usb [⟨.read, d.src, d.len⟩] →
        Passes (s.accessed .usb [⟨.read, d.src, d.len⟩]) .usb [⟨.write, s.halfAt e.val, (s.virtRead 3 d.src d.len).length⟩] →
      ∃ t, exec (.streamCopyComplete e) s = .next t ∧ (nth {} t.usb.streams e.val).copying = none
        ∧ SameBytes (s.virtWrite 3 (s.halfAt e.val) (s.virtRead 3 d.src d.len)) t
        ∧ (nth {} t.usb.streams e.val).half = !(nth {} s.usb.streams e.val).half
        ∧ (nth {} t.usb.streams e.val).waiting.any (fun w => w.period == d.period && w.layout == d.layout
          && w.bytes == (s.virtWrite 3 (s.halfAt e.val) (s.virtRead 3 d.src d.len)).virtRead 3 (s.halfAt e.val) d.len) = true)
    ∧ (∀ e : Fin 2, s.usbUp = true → (nth {} s.usb.streams e.val).alt ≠ 0 →
      ((nth {} s.usb.streams e.val).sending = none → (nth {} s.usb.streams e.val).waiting = none → (nth {} s.usb.streams e.val).swapped = none →
        ∃ t, exec (.isoInToken e) s = .next t ∧ (nth {} t.usb.streams e.val).out = (if s.boot.legacy then some (packetsOf []) else none)
          ∧ t.count nUSB 12 (16 * e.val) = satAdd 16 (s.count nUSB 12 (16 * e.val)) 1)
      ∧ (∀ d i, (nth {} s.usb.streams e.val).sending = some (d, i) → (nth {} s.usb.streams e.val).delay = 0 → d.picks = [] →
          16 + d.k ≤ altCapacity (nth {} s.usb.streams e.val).alt →
        ∃ t, exec (.isoInToken e) s = .next t ∧ (nth {} t.usb.streams e.val).out = some (packetsOf (d.transfer i))
          ∧ (nth {} t.usb.streams e.val).sending = (if i + 1 < d.chunks then some (d, i + 1) else none)))
    ∧ (s.hubUp = true →
      (∀ p : Fin 4, ∃ t, exec (.setPortPower ⟨p.val, by omega⟩) s = .next t ∧ (nth {} t.usb.ports p.val).requested = true ∧ t.usb.ack = true)
      ∧ (∀ p : Fin 4, ∃ t, exec (.clearPortPower ⟨p.val, by omega⟩) s = .next t ∧ (nth {} t.usb.ports p.val).requested = false ∧ t.usb.ack = true)
      ∧ (∃ t, exec .clearTtBuffer s = .next t ∧ t.usb.tt = false ∧ t.usb.ack = true)
      ∧ (∃ t, exec .resetTt s = .next t ∧ t.usb.tt = false ∧ t.usb.ack = true)
      ∧ (∀ p : Fin 4, (nth {} s.usb.ports p.val).oci = true → ∃ t, exec (.hubOverCurrent ⟨p, .held⟩) s = .next t ∧ t.has 27 = true
        ∧ t.tm.now = max s.tm.now ((nth {} s.usb.ports p.val).ociSince + 960000)
        ∧ t.count (nHUBPORT (p.val + 1)) 2 0 = satAdd 16 (s.count (nHUBPORT (p.val + 1)) 2 0) 1
        ∧ ∀ q : Fin 4, (s.boot.gang = true ∨ q = p) → (nth {} t.usb.ports q.val).state = 5 ∧ (nth {} t.usb.ports q.val).ppe = false
          ∧ (nth {} t.usb.ports q.val).requested = false ∧ (nth {} t.usb.ports q.val).ocChange = true)
      ∧ (∀ (p : Fin 4) (c : Bool) (v : Fin 3), (nth {} s.usb.ports p.val).ppe = true → (nth {} s.usb.ports p.val).state ≠ 0 →
          (nth {} s.usb.ports p.val).state ≠ 5 → c = decide ((nth {} s.usb.ports p.val).state = 1) →
        ∃ t, exec (.hubConnectChange p c v) s = .next t ∧ (nth {} t.usb.ports p.val).state = (if c then 2 else 1) ∧ t.has 28 = true
          ∧ t.count (nHUBPORT (p.val + 1)) 2 16 = satAdd 16 (s.count (nHUBPORT (p.val + 1)) 2 16) 1)
      ∧ (∀ (p : Fin 4) q, ∃ t, exec (.hubClassRequest p q) s = .next t
        ∧ nth {} t.usb.ports p.val = hubState q (nth {} s.usb.ports p.val) ∧ t.usb.ack = hubAcks q
        ∧ ∀ bs, (t.hubAnswer p.val q) = some bs → t.usb.out = bs))
    ∧ (∀ p : Fin 4, (∃ t, exec (.hubOverCurrent ⟨p, .rises⟩) s = .next t ∧ (nth {} t.usb.ports p.val).oci = true)
      ∧ ∃ t, exec (.hubOverCurrent ⟨p, .falls⟩) s = .next t ∧ (nth {} t.usb.ports p.val).oci = false)

/-! ### What ends after a time -/

/-- A fenced unit that is done runs again, with event 62; a staging without a request for 60 s is abandoned; a trial that has held
60 s is cleared; an unused consent lapses; a Harrow window ends with its periods; a held reply is sent when its delay ends; a
begin leaves its image area erased, and a chunk leaves the queue; TEST_EN is what its pin is; and a Thresher whose control
fails is a failure (14 R494, R497, R505, R511, R513, R520; 15 R530; 08 Table TH-8).
Completion is concluded for unitResetComplete, stagingTimeout, updateStageCompletion, trialClear, consentExpiry, harrowWindowClose,
harrowDelayExpiry, testEnChange, thresherControlError. -/
def Obligations.TimersEnd : Prop :=
  ∀ s : State, s.Inv →
    (∀ n u f, unitOf n.toNat = some u → s.fenceOf u = some f → s.resetDone u f = true → ∃ t, exec (.unitResetComplete n) s = .next t
        ∧ t.fenceOf u = none ∧ t.has 62 = true)
    ∧ (∀ g, s.upd.staging = some g →
      (∃ t, exec .stagingTimeout s = .next t ∧ t.upd.staging = none ∧ t.tm.now = max s.tm.now (g.lastRequest + 7200000000))
      ∧ (s.selectWaits 0 = false →
        (∀ k, g.op = some (k, 0) → ∃ t, exec (.updateStageCompletion true) s = .next t ∧ t.upd.staging = some { g with op := none }
          ∧ ∀ a, imageAt g.slot ≤ a → a < imageAt g.slot + 4096 * ceilDiv g.length 4096 → Memory.read flashEmpty t.mem.nor a = 0xFF)
        ∧ (∀ c rest, g.op = none → g.chunks = c :: rest → ∃ t, exec (.updateStageCompletion true) s = .next t
          ∧ t.upd.staging = some { g with chunks := rest })))
    ∧ (∀ t0, s.upd.trialSince = some t0 → s.ready = true → s.selectWaits 0 = false → ∃ t, exec .trialClear s = .next t ∧ t.upd.trialSince = none
        ∧ t.tm.now = max s.tm.now (t0 + 7200000000) ∧ ∀ a, 0x2000 ≤ a → Memory.read flashEmpty t.mem.nor a = Memory.read flashEmpty s.mem.nor a)
    ∧ (∀ ch c, s.hw.consents.find? (·.ch == ch) = some c → ∃ t, exec (.consentExpiry ch) s = .next t
        ∧ t.hw.consents.any (·.ch == ch) = false ∧ t.tm.now = max s.tm.now (c.at' + 120000000))
    ∧ (∀ k : Fin 4, (nth {} s.hw.episodes k.val).state = 2 → s.windowOpen k.val = false → ∃ t, exec (.harrowWindowClose k) s = .next t
        ∧ (nth {} t.hw.episodes k.val).state = 3 ∧ (nth {} t.hw.episodes k.val).endReason = 1 ∧ t.has 55 = true)
    ∧ (∀ (k : Fin 4) h rest, s.hw.heldFrames = [] → s.hw.heldReplies.filter (fun x => x.slot == k.val) = h :: rest →
        ∃ t, exec (.harrowDelayExpiry k) s = .next t ∧ t.hw.heldReplies = s.hw.heldReplies.erase h ∧ t.tm.now = max s.tm.now h.due
          ∧ (nth {} t.mb.chans h.ch).replies = if h.ch < 4 then (nth {} s.mb.chans h.ch).replies ++ [h.reply] else (nth {} s.mb.chans h.ch).replies)
    ∧ (∀ h, ∃ t, exec (.testEnChange h) s = .next t ∧ t.boot.testEn = h ∧ Within [.boot] s t)
    ∧ (s.boot.legacy = false → s.flag nTHRESHER 0 0 = true → ∃ t, exec .thresherControlError s = .next t ∧ t.lev.fail.thr = true)
end

