-- ==== Sys2Proof/Laws/Memory.lean ====
section
/-! SUPPORT. Byte memories and tables: every operation keeps the canonical form, a read after a write of the same key gives
what was written, and a write leaves every other key alone. -/

namespace Sys2Proof.Machine

/-! ### Memories -/

theorem Memory.wfFrom_mono (d : Byte) (m : Memory) {lo hi : Nat} (h : lo ≤ hi) (w : Memory.wfFrom d hi m = true) :
    Memory.wfFrom d lo m = true := by
  cases m with
  | nil => rfl
  | cons c t => simp only [Memory.wfFrom, Bool.and_eq_true, decide_eq_true_eq] at w ⊢; exact ⟨⟨by omega, w.1.2⟩, w.2⟩

theorem Memory.wfFrom_write (d : Byte) (m : Memory) (lo k : Nat) (v : Byte) (hk : lo ≤ k) (w : Memory.wfFrom d lo m = true) :
    Memory.wfFrom d lo (Memory.write d m k v) = true := by
  induction m generalizing lo with
  | nil => unfold Memory.write; split <;> simp_all [Memory.wfFrom]
  | cons c t ih =>
    obtain ⟨a, x⟩ := c
    simp only [Memory.wfFrom, Bool.and_eq_true, decide_eq_true_eq] at w
    obtain ⟨⟨h1, h2⟩, h3⟩ := w
    unfold Memory.write
    split
    · split
      · simp [Memory.wfFrom, h1, h2, h3]
      · rename_i h _
        have : k + 1 ≤ a := h
        simp_all [Memory.wfFrom]
    · split
      · split
        · exact Memory.wfFrom_mono d t (by omega) h3
        · subst_vars; simp_all [Memory.wfFrom]
      · have := ih (a + 1) (by omega) h3
        simp [Memory.wfFrom, h1, h2, this]

@[simp] theorem Memory.wf_write (d : Byte) (m : Memory) (k : Nat) (v : Byte) (w : Memory.wf d m = true) :
    Memory.wf d (Memory.write d m k v) = true := Memory.wfFrom_write d m 0 k v (by omega) w

@[simp] theorem Memory.wf_writeList (d : Byte) (bs : List Byte) (m : Memory) (a : Nat) (w : Memory.wf d m = true) :
    Memory.wf d (Memory.writeList d m a bs) = true := by
  induction bs generalizing m a with
  | nil => exact w
  | cons b t ih => exact ih _ _ (Memory.wf_write d m a b w)

theorem Memory.wfFrom_filter (d : Byte) (p : Host.Cell → Bool) (m : Memory) (lo : Nat) (w : Memory.wfFrom d lo m = true) :
    Memory.wfFrom d lo (m.filter p) = true := by
  induction m generalizing lo with
  | nil => exact w
  | cons c t ih =>
    simp only [Memory.wfFrom, Bool.and_eq_true, decide_eq_true_eq] at w
    rw [List.filter_cons]
    split
    · simp [Memory.wfFrom, w.1.1, ih _ w.2]; simpa using w.1.2
    · exact Memory.wfFrom_mono d _ (by omega) (ih _ w.2)

/-- Cells taken away leave the canonical form. -/
@[simp] theorem Memory.wf_filter (d : Byte) (p : Host.Cell → Bool) (m : Memory) (w : Memory.wf d m = true) :
    Memory.wf d (m.filter p) = true := Memory.wfFrom_filter d p m 0 w

@[simp] theorem Memory.wf_clearRange (d : Byte) (m : Memory) (a n : Nat) (w : Memory.wf d m = true) :
    Memory.wf d (Memory.clearRange m a n) = true := Memory.wf_filter d _ m w

@[simp] theorem Memory.wf_nil (d : Byte) : Memory.wf d [] = true := rfl

theorem Memory.read_below (d : Byte) (m : Memory) (lo k : Nat) (h : k < lo) (w : Memory.wfFrom d lo m = true) :
    Memory.read d m k = d := by
  cases m with
  | nil => rfl
  | cons c t =>
    obtain ⟨a, x⟩ := c
    simp only [Memory.wfFrom, Bool.and_eq_true, decide_eq_true_eq] at w
    have : k < a := by omega
    simp [Memory.read, this, Nat.ne_of_lt this]

theorem Memory.read_write_from (d : Byte) (m : Memory) (lo k j : Nat) (v : Byte) (w : Memory.wfFrom d lo m = true) :
    Memory.read d (Memory.write d m k v) j = if j = k then v else Memory.read d m j := by
  induction m generalizing lo with
  | nil => unfold Memory.write; split <;> simp_all [Memory.read]
  | cons c t ih =>
    obtain ⟨a, x⟩ := c
    simp only [Memory.wfFrom, Bool.and_eq_true, decide_eq_true_eq] at w
    obtain ⟨⟨h1, h2⟩, h3⟩ := w
    have below : ∀ j, j ≤ a → Memory.read d t j = d := fun j h => Memory.read_below d t (a + 1) j (by omega) h3
    unfold Memory.write
    by_cases hka : k < a
    · by_cases hv : v = d
      · simp only [hka, hv, if_true]
        by_cases hj : j = k
        · subst hj; simp [Memory.read, Nat.ne_of_lt hka, hka]
        · simp [hj]
      · simp only [hka, hv, if_true, if_false]
        by_cases hj : j = k
        · subst hj; simp [Memory.read]
        · rw [Memory.read]; simp only [hj, if_false]
          by_cases hjk : j < k
          · simp [hjk, Memory.read, Nat.ne_of_lt (Nat.lt_trans hjk hka), Nat.lt_trans hjk hka]
          · simp [hjk]
    · by_cases hk : k = a
      · subst hk
        by_cases hv : v = d
        · simp only [hka, hv, if_true, if_false]
          by_cases hj : j = k
          · subst hj; simp [below]
          · by_cases hjk : j < k
            · simp [hj, Memory.read, hjk, below j (Nat.le_of_lt hjk)]
            · simp [hj, Memory.read, hjk]
        · simp only [hka, hv, if_true, if_false]
          by_cases hj : j = k
          · subst hj; simp [Memory.read]
          · simp [Memory.read, hj]
      · simp only [hka, hk, if_false, Memory.read]
        by_cases hja : j = a
        · simp [hja, Ne.symm hk]
        · by_cases hjlt : j < a
          · have : j ≠ k := by omega
            simp [hja, hjlt, this]
          · simp [hja, hjlt, ih (a + 1) h3]

/-- A write changes the byte at its address and no other. -/
theorem Memory.read_write (d : Byte) (m : Memory) (k j : Nat) (v : Byte) (w : Memory.wf d m = true) :
    Memory.read d (Memory.write d m k v) j = if j = k then v else Memory.read d m j :=
  Memory.read_write_from d m 0 k j v w

/-- A list of bytes written changes no byte outside its range. -/
theorem Memory.read_writeList_outside (d : Byte) (bs : List Byte) (m : Memory) (a j : Nat) (w : Memory.wf d m = true)
    (h : j < a ∨ a + bs.length ≤ j) : Memory.read d (Memory.writeList d m a bs) j = Memory.read d m j := by
  induction bs generalizing m a with
  | nil => rfl
  | cons b t ih =>
    simp only [List.length_cons] at h
    rw [Memory.writeList, ih _ _ (Memory.wf_write d m a b w) (by omega), Memory.read_write d m a j b w]
    have : j ≠ a := by omega
    simp [this]

/-- A list of bytes written reads back. -/
theorem Memory.read_writeList_inside (d : Byte) (bs : List Byte) (m : Memory) (a i : Nat) (w : Memory.wf d m = true)
    (h : i < bs.length) : Memory.read d (Memory.writeList d m a bs) (a + i) = bs[i] := by
  induction bs generalizing m a i with
  | nil => simp at h
  | cons b t ih =>
    rw [Memory.writeList]
    cases i with
    | zero =>
      rw [Memory.read_writeList_outside d t _ (a + 1) (a + 0) (Memory.wf_write d m a b w) (by omega), Memory.read_write d m a _ b w]
      simp
    | succ i =>
      have := ih (Memory.write d m a b) (a + 1) i (Memory.wf_write d m a b w) (by simpa using h)
      simpa [Nat.add_assoc, Nat.add_comm 1 i] using this

/-! ### Tables -/

theorem Tab.wfFrom_mono (d : Nat → Nat) (t : Tab) {lo hi : Nat} (h : lo ≤ hi) (w : Tab.wfFrom d hi t = true) :
    Tab.wfFrom d lo t = true := by
  cases t with
  | nil => rfl
  | cons c u => simp only [Tab.wfFrom, Bool.and_eq_true, decide_eq_true_eq] at w ⊢; exact ⟨⟨by omega, w.1.2⟩, w.2⟩

theorem Tab.wfFrom_set (d : Nat → Nat) (t : Tab) (lo k v : Nat) (hk : lo ≤ k) (w : Tab.wfFrom d lo t = true) :
    Tab.wfFrom d lo (Tab.set d t k v) = true := by
  induction t generalizing lo with
  | nil => unfold Tab.set; split <;> simp_all [Tab.wfFrom]
  | cons c u ih =>
    obtain ⟨a, x⟩ := c
    simp only [Tab.wfFrom, Bool.and_eq_true, decide_eq_true_eq] at w
    obtain ⟨⟨h1, h2⟩, h3⟩ := w
    unfold Tab.set
    split
    · split
      · simp [Tab.wfFrom, h1, h2, h3]
      · rename_i h _
        have : k + 1 ≤ a := h
        simp_all [Tab.wfFrom]
    · split
      · split
        · exact Tab.wfFrom_mono d u (by omega) h3
        · subst_vars; simp_all [Tab.wfFrom]
      · have := ih (a + 1) (by omega) h3
        simp [Tab.wfFrom, h1, h2, this]

@[simp] theorem Tab.wf_set (d : Nat → Nat) (t : Tab) (k v : Nat) (w : Tab.wf d t = true) : Tab.wf d (Tab.set d t k v) = true :=
  Tab.wfFrom_set d t 0 k v (by omega) w

theorem Tab.wfFrom_filter (d : Nat → Nat) (p : Nat × Nat → Bool) (t : Tab) (lo : Nat) (w : Tab.wfFrom d lo t = true) :
    Tab.wfFrom d lo (t.filter p) = true := by
  induction t generalizing lo with
  | nil => exact w
  | cons c u ih =>
    simp only [Tab.wfFrom, Bool.and_eq_true, decide_eq_true_eq] at w
    rw [List.filter_cons]
    split
    · simp [Tab.wfFrom, w.1.1, ih _ w.2]; simpa using w.1.2
    · exact Tab.wfFrom_mono d _ (by omega) (ih _ w.2)

/-- Entries taken away leave the canonical form. -/
@[simp] theorem Tab.wf_filter (d : Nat → Nat) (p : Nat × Nat → Bool) (t : Tab) (w : Tab.wf d t = true) : Tab.wf d (t.filter p) = true :=
  Tab.wfFrom_filter d p t 0 w

theorem Tab.get_below (d : Nat → Nat) (t : Tab) (lo k : Nat) (h : k < lo) (w : Tab.wfFrom d lo t = true) : Tab.get d t k = d k := by
  cases t with
  | nil => rfl
  | cons c u =>
    obtain ⟨a, x⟩ := c
    simp only [Tab.wfFrom, Bool.and_eq_true, decide_eq_true_eq] at w
    have : k < a := by omega
    simp [Tab.get, this, Nat.ne_of_lt this]

theorem Tab.get_set_from (d : Nat → Nat) (t : Tab) (lo k j v : Nat) (w : Tab.wfFrom d lo t = true) :
    Tab.get d (Tab.set d t k v) j = if j = k then v else Tab.get d t j := by
  induction t generalizing lo with
  | nil => unfold Tab.set; split <;> simp_all [Tab.get]
  | cons c u ih =>
    obtain ⟨a, x⟩ := c
    simp only [Tab.wfFrom, Bool.and_eq_true, decide_eq_true_eq] at w
    obtain ⟨⟨h1, h2⟩, h3⟩ := w
    have below : ∀ j, j ≤ a → Tab.get d u j = d j := fun j h => Tab.get_below d u (a + 1) j (by omega) h3
    unfold Tab.set
    by_cases hka : k < a
    · by_cases hv : v = d k
      · simp only [hka, hv, if_true]
        by_cases hj : j = k
        · subst hj; simp [Tab.get, Nat.ne_of_lt hka, hka]
        · simp [hj]
      · simp only [hka, hv, if_true, if_false]
        by_cases hj : j = k
        · subst hj; simp [Tab.get]
        · rw [Tab.get]; simp only [hj, if_false]
          by_cases hjk : j < k
          · simp [hjk, Tab.get, Nat.ne_of_lt (Nat.lt_trans hjk hka), Nat.lt_trans hjk hka]
          · simp [hjk]
    · by_cases hk : k = a
      · subst hk
        by_cases hv : v = d k
        · simp only [hka, hv, if_true, if_false]
          by_cases hj : j = k
          · subst hj; simp [below]
          · by_cases hjk : j < k
            · simp [hj, Tab.get, hjk, below j (Nat.le_of_lt hjk)]
            · simp [hj, Tab.get, hjk]
        · simp only [hka, hv, if_true, if_false]
          by_cases hj : j = k
          · subst hj; simp [Tab.get]
          · simp [Tab.get, hj]
      · simp only [hka, hk, if_false, Tab.get]
        by_cases hja : j = a
        · simp [hja, Ne.symm hk]
        · by_cases hjlt : j < a
          · have : j ≠ k := by omega
            simp [hja, hjlt, this]
          · simp [hja, hjlt, ih (a + 1) h3]

/-- An entry set is read back, and every other entry is unchanged. -/
theorem Tab.get_set (d : Nat → Nat) (t : Tab) (k j v : Nat) (w : Tab.wf d t = true) :
    Tab.get d (Tab.set d t k v) j = if j = k then v else Tab.get d t j := Tab.get_set_from d t 0 k j v w

@[simp] theorem updAt_length {α : Type} (l : List α) (i : Nat) (f : α → α) : (updAt l i f).length = l.length := by
  simp [updAt]

/-- Item i of a list with item i changed. -/
theorem nth_updAt_self {α : Type} (d : α) (l : List α) (i : Nat) (f : α → α) (h : i < l.length) :
    nth d (updAt l i f) i = f (nth d l i) := by simp [nth, updAt, h]

/-- Item j of a list with another item changed. -/
theorem nth_updAt_ne {α : Type} (d : α) (l : List α) (i j : Nat) (f : α → α) (h : i ≠ j) :
    nth d (updAt l i f) j = nth d l j := by
  simp [nth, updAt, h]

end Sys2Proof.Machine
end

