-- ==== Sys2Proof/Laws/State.lean ====
section
/-! SUPPORT. One lemma for each field of State and each update of one component: the component that an update changes,
and every other one unchanged. -/

namespace Sys2Proof.Machine

variable (s : State)

/-! ### modTm -/

@[simp] theorem State.modTm_tm (f : Tm → Tm) : (s.modTm f).tm = f s.tm := rfl
@[simp] theorem State.modTm_pending (f : Tm → Tm) : (s.modTm f).pending = s.pending := rfl
@[simp] theorem State.modTm_mb (f : Tm → Tm) : (s.modTm f).mb = s.mb := rfl
@[simp] theorem State.modTm_cfg (f : Tm → Tm) : (s.modTm f).cfg = s.cfg := rfl
@[simp] theorem State.modTm_cnt (f : Tm → Tm) : (s.modTm f).cnt = s.cnt := rfl
@[simp] theorem State.modTm_ev (f : Tm → Tm) : (s.modTm f).ev = s.ev := rfl
@[simp] theorem State.modTm_alm (f : Tm → Tm) : (s.modTm f).alm = s.alm := rfl
@[simp] theorem State.modTm_drill (f : Tm → Tm) : (s.modTm f).drill = s.drill := rfl
@[simp] theorem State.modTm_sheaf (f : Tm → Tm) : (s.modTm f).sheaf = s.sheaf := rfl
@[simp] theorem State.modTm_csp (f : Tm → Tm) : (s.modTm f).csp = s.csp := rfl
@[simp] theorem State.modTm_csp8 (f : Tm → Tm) : (s.modTm f).csp8 = s.csp8 := rfl
@[simp] theorem State.modTm_sent (f : Tm → Tm) : (s.modTm f).sent = s.sent := rfl
@[simp] theorem State.modTm_edge (f : Tm → Tm) : (s.modTm f).edge = s.edge := rfl
@[simp] theorem State.modTm_banks (f : Tm → Tm) : (s.modTm f).banks = s.banks := rfl
@[simp] theorem State.modTm_twt (f : Tm → Tm) : (s.modTm f).twt = s.twt := rfl
@[simp] theorem State.modTm_mirror (f : Tm → Tm) : (s.modTm f).mirror = s.mirror := rfl
@[simp] theorem State.modTm_mem (f : Tm → Tm) : (s.modTm f).mem = s.mem := rfl
@[simp] theorem State.modTm_clk (f : Tm → Tm) : (s.modTm f).clk = s.clk := rfl
@[simp] theorem State.modTm_boot (f : Tm → Tm) : (s.modTm f).boot = s.boot := rfl
@[simp] theorem State.modTm_lev (f : Tm → Tm) : (s.modTm f).lev = s.lev := rfl
@[simp] theorem State.modTm_pw (f : Tm → Tm) : (s.modTm f).pw = s.pw := rfl
@[simp] theorem State.modTm_usb (f : Tm → Tm) : (s.modTm f).usb = s.usb := rfl
@[simp] theorem State.modTm_yoke (f : Tm → Tm) : (s.modTm f).yoke = s.yoke := rfl
@[simp] theorem State.modTm_hw (f : Tm → Tm) : (s.modTm f).hw = s.hw := rfl
@[simp] theorem State.modTm_upd (f : Tm → Tm) : (s.modTm f).upd = s.upd := rfl
@[simp] theorem State.modTm_thr (f : Tm → Tm) : (s.modTm f).thr = s.thr := rfl
@[simp] theorem State.modTm_freeCount (f : Tm → Tm) : (s.modTm f).freeCount = s.freeCount := rfl

/-! ### modMb -/

@[simp] theorem State.modMb_mb (f : Mb → Mb) : (s.modMb f).mb = f s.mb := rfl
@[simp] theorem State.modMb_pending (f : Mb → Mb) : (s.modMb f).pending = s.pending := rfl
@[simp] theorem State.modMb_tm (f : Mb → Mb) : (s.modMb f).tm = s.tm := rfl
@[simp] theorem State.modMb_cfg (f : Mb → Mb) : (s.modMb f).cfg = s.cfg := rfl
@[simp] theorem State.modMb_cnt (f : Mb → Mb) : (s.modMb f).cnt = s.cnt := rfl
@[simp] theorem State.modMb_ev (f : Mb → Mb) : (s.modMb f).ev = s.ev := rfl
@[simp] theorem State.modMb_alm (f : Mb → Mb) : (s.modMb f).alm = s.alm := rfl
@[simp] theorem State.modMb_drill (f : Mb → Mb) : (s.modMb f).drill = s.drill := rfl
@[simp] theorem State.modMb_sheaf (f : Mb → Mb) : (s.modMb f).sheaf = s.sheaf := rfl
@[simp] theorem State.modMb_csp (f : Mb → Mb) : (s.modMb f).csp = s.csp := rfl
@[simp] theorem State.modMb_csp8 (f : Mb → Mb) : (s.modMb f).csp8 = s.csp8 := rfl
@[simp] theorem State.modMb_sent (f : Mb → Mb) : (s.modMb f).sent = s.sent := rfl
@[simp] theorem State.modMb_edge (f : Mb → Mb) : (s.modMb f).edge = s.edge := rfl
@[simp] theorem State.modMb_banks (f : Mb → Mb) : (s.modMb f).banks = s.banks := rfl
@[simp] theorem State.modMb_twt (f : Mb → Mb) : (s.modMb f).twt = s.twt := rfl
@[simp] theorem State.modMb_mirror (f : Mb → Mb) : (s.modMb f).mirror = s.mirror := rfl
@[simp] theorem State.modMb_mem (f : Mb → Mb) : (s.modMb f).mem = s.mem := rfl
@[simp] theorem State.modMb_clk (f : Mb → Mb) : (s.modMb f).clk = s.clk := rfl
@[simp] theorem State.modMb_boot (f : Mb → Mb) : (s.modMb f).boot = s.boot := rfl
@[simp] theorem State.modMb_lev (f : Mb → Mb) : (s.modMb f).lev = s.lev := rfl
@[simp] theorem State.modMb_pw (f : Mb → Mb) : (s.modMb f).pw = s.pw := rfl
@[simp] theorem State.modMb_usb (f : Mb → Mb) : (s.modMb f).usb = s.usb := rfl
@[simp] theorem State.modMb_yoke (f : Mb → Mb) : (s.modMb f).yoke = s.yoke := rfl
@[simp] theorem State.modMb_hw (f : Mb → Mb) : (s.modMb f).hw = s.hw := rfl
@[simp] theorem State.modMb_upd (f : Mb → Mb) : (s.modMb f).upd = s.upd := rfl
@[simp] theorem State.modMb_thr (f : Mb → Mb) : (s.modMb f).thr = s.thr := rfl
@[simp] theorem State.modMb_freeCount (f : Mb → Mb) : (s.modMb f).freeCount = s.freeCount := rfl

/-! ### modEv -/

@[simp] theorem State.modEv_ev (f : Ev → Ev) : (s.modEv f).ev = f s.ev := rfl
@[simp] theorem State.modEv_pending (f : Ev → Ev) : (s.modEv f).pending = s.pending := rfl
@[simp] theorem State.modEv_tm (f : Ev → Ev) : (s.modEv f).tm = s.tm := rfl
@[simp] theorem State.modEv_mb (f : Ev → Ev) : (s.modEv f).mb = s.mb := rfl
@[simp] theorem State.modEv_cfg (f : Ev → Ev) : (s.modEv f).cfg = s.cfg := rfl
@[simp] theorem State.modEv_cnt (f : Ev → Ev) : (s.modEv f).cnt = s.cnt := rfl
@[simp] theorem State.modEv_alm (f : Ev → Ev) : (s.modEv f).alm = s.alm := rfl
@[simp] theorem State.modEv_drill (f : Ev → Ev) : (s.modEv f).drill = s.drill := rfl
@[simp] theorem State.modEv_sheaf (f : Ev → Ev) : (s.modEv f).sheaf = s.sheaf := rfl
@[simp] theorem State.modEv_csp (f : Ev → Ev) : (s.modEv f).csp = s.csp := rfl
@[simp] theorem State.modEv_csp8 (f : Ev → Ev) : (s.modEv f).csp8 = s.csp8 := rfl
@[simp] theorem State.modEv_sent (f : Ev → Ev) : (s.modEv f).sent = s.sent := rfl
@[simp] theorem State.modEv_edge (f : Ev → Ev) : (s.modEv f).edge = s.edge := rfl
@[simp] theorem State.modEv_banks (f : Ev → Ev) : (s.modEv f).banks = s.banks := rfl
@[simp] theorem State.modEv_twt (f : Ev → Ev) : (s.modEv f).twt = s.twt := rfl
@[simp] theorem State.modEv_mirror (f : Ev → Ev) : (s.modEv f).mirror = s.mirror := rfl
@[simp] theorem State.modEv_mem (f : Ev → Ev) : (s.modEv f).mem = s.mem := rfl
@[simp] theorem State.modEv_clk (f : Ev → Ev) : (s.modEv f).clk = s.clk := rfl
@[simp] theorem State.modEv_boot (f : Ev → Ev) : (s.modEv f).boot = s.boot := rfl
@[simp] theorem State.modEv_lev (f : Ev → Ev) : (s.modEv f).lev = s.lev := rfl
@[simp] theorem State.modEv_pw (f : Ev → Ev) : (s.modEv f).pw = s.pw := rfl
@[simp] theorem State.modEv_usb (f : Ev → Ev) : (s.modEv f).usb = s.usb := rfl
@[simp] theorem State.modEv_yoke (f : Ev → Ev) : (s.modEv f).yoke = s.yoke := rfl
@[simp] theorem State.modEv_hw (f : Ev → Ev) : (s.modEv f).hw = s.hw := rfl
@[simp] theorem State.modEv_upd (f : Ev → Ev) : (s.modEv f).upd = s.upd := rfl
@[simp] theorem State.modEv_thr (f : Ev → Ev) : (s.modEv f).thr = s.thr := rfl
@[simp] theorem State.modEv_freeCount (f : Ev → Ev) : (s.modEv f).freeCount = s.freeCount := rfl

/-! ### modAlm -/

@[simp] theorem State.modAlm_alm (f : Alm → Alm) : (s.modAlm f).alm = f s.alm := rfl
@[simp] theorem State.modAlm_pending (f : Alm → Alm) : (s.modAlm f).pending = s.pending := rfl
@[simp] theorem State.modAlm_tm (f : Alm → Alm) : (s.modAlm f).tm = s.tm := rfl
@[simp] theorem State.modAlm_mb (f : Alm → Alm) : (s.modAlm f).mb = s.mb := rfl
@[simp] theorem State.modAlm_cfg (f : Alm → Alm) : (s.modAlm f).cfg = s.cfg := rfl
@[simp] theorem State.modAlm_cnt (f : Alm → Alm) : (s.modAlm f).cnt = s.cnt := rfl
@[simp] theorem State.modAlm_ev (f : Alm → Alm) : (s.modAlm f).ev = s.ev := rfl
@[simp] theorem State.modAlm_drill (f : Alm → Alm) : (s.modAlm f).drill = s.drill := rfl
@[simp] theorem State.modAlm_sheaf (f : Alm → Alm) : (s.modAlm f).sheaf = s.sheaf := rfl
@[simp] theorem State.modAlm_csp (f : Alm → Alm) : (s.modAlm f).csp = s.csp := rfl
@[simp] theorem State.modAlm_csp8 (f : Alm → Alm) : (s.modAlm f).csp8 = s.csp8 := rfl
@[simp] theorem State.modAlm_sent (f : Alm → Alm) : (s.modAlm f).sent = s.sent := rfl
@[simp] theorem State.modAlm_edge (f : Alm → Alm) : (s.modAlm f).edge = s.edge := rfl
@[simp] theorem State.modAlm_banks (f : Alm → Alm) : (s.modAlm f).banks = s.banks := rfl
@[simp] theorem State.modAlm_twt (f : Alm → Alm) : (s.modAlm f).twt = s.twt := rfl
@[simp] theorem State.modAlm_mirror (f : Alm → Alm) : (s.modAlm f).mirror = s.mirror := rfl
@[simp] theorem State.modAlm_mem (f : Alm → Alm) : (s.modAlm f).mem = s.mem := rfl
@[simp] theorem State.modAlm_clk (f : Alm → Alm) : (s.modAlm f).clk = s.clk := rfl
@[simp] theorem State.modAlm_boot (f : Alm → Alm) : (s.modAlm f).boot = s.boot := rfl
@[simp] theorem State.modAlm_lev (f : Alm → Alm) : (s.modAlm f).lev = s.lev := rfl
@[simp] theorem State.modAlm_pw (f : Alm → Alm) : (s.modAlm f).pw = s.pw := rfl
@[simp] theorem State.modAlm_usb (f : Alm → Alm) : (s.modAlm f).usb = s.usb := rfl
@[simp] theorem State.modAlm_yoke (f : Alm → Alm) : (s.modAlm f).yoke = s.yoke := rfl
@[simp] theorem State.modAlm_hw (f : Alm → Alm) : (s.modAlm f).hw = s.hw := rfl
@[simp] theorem State.modAlm_upd (f : Alm → Alm) : (s.modAlm f).upd = s.upd := rfl
@[simp] theorem State.modAlm_thr (f : Alm → Alm) : (s.modAlm f).thr = s.thr := rfl
@[simp] theorem State.modAlm_freeCount (f : Alm → Alm) : (s.modAlm f).freeCount = s.freeCount := rfl

/-! ### modDrill -/

@[simp] theorem State.modDrill_drill (f : Drill → Drill) : (s.modDrill f).drill = f s.drill := rfl
@[simp] theorem State.modDrill_pending (f : Drill → Drill) : (s.modDrill f).pending = s.pending := rfl
@[simp] theorem State.modDrill_tm (f : Drill → Drill) : (s.modDrill f).tm = s.tm := rfl
@[simp] theorem State.modDrill_mb (f : Drill → Drill) : (s.modDrill f).mb = s.mb := rfl
@[simp] theorem State.modDrill_cfg (f : Drill → Drill) : (s.modDrill f).cfg = s.cfg := rfl
@[simp] theorem State.modDrill_cnt (f : Drill → Drill) : (s.modDrill f).cnt = s.cnt := rfl
@[simp] theorem State.modDrill_ev (f : Drill → Drill) : (s.modDrill f).ev = s.ev := rfl
@[simp] theorem State.modDrill_alm (f : Drill → Drill) : (s.modDrill f).alm = s.alm := rfl
@[simp] theorem State.modDrill_sheaf (f : Drill → Drill) : (s.modDrill f).sheaf = s.sheaf := rfl
@[simp] theorem State.modDrill_csp (f : Drill → Drill) : (s.modDrill f).csp = s.csp := rfl
@[simp] theorem State.modDrill_csp8 (f : Drill → Drill) : (s.modDrill f).csp8 = s.csp8 := rfl
@[simp] theorem State.modDrill_sent (f : Drill → Drill) : (s.modDrill f).sent = s.sent := rfl
@[simp] theorem State.modDrill_edge (f : Drill → Drill) : (s.modDrill f).edge = s.edge := rfl
@[simp] theorem State.modDrill_banks (f : Drill → Drill) : (s.modDrill f).banks = s.banks := rfl
@[simp] theorem State.modDrill_twt (f : Drill → Drill) : (s.modDrill f).twt = s.twt := rfl
@[simp] theorem State.modDrill_mirror (f : Drill → Drill) : (s.modDrill f).mirror = s.mirror := rfl
@[simp] theorem State.modDrill_mem (f : Drill → Drill) : (s.modDrill f).mem = s.mem := rfl
@[simp] theorem State.modDrill_clk (f : Drill → Drill) : (s.modDrill f).clk = s.clk := rfl
@[simp] theorem State.modDrill_boot (f : Drill → Drill) : (s.modDrill f).boot = s.boot := rfl
@[simp] theorem State.modDrill_lev (f : Drill → Drill) : (s.modDrill f).lev = s.lev := rfl
@[simp] theorem State.modDrill_pw (f : Drill → Drill) : (s.modDrill f).pw = s.pw := rfl
@[simp] theorem State.modDrill_usb (f : Drill → Drill) : (s.modDrill f).usb = s.usb := rfl
@[simp] theorem State.modDrill_yoke (f : Drill → Drill) : (s.modDrill f).yoke = s.yoke := rfl
@[simp] theorem State.modDrill_hw (f : Drill → Drill) : (s.modDrill f).hw = s.hw := rfl
@[simp] theorem State.modDrill_upd (f : Drill → Drill) : (s.modDrill f).upd = s.upd := rfl
@[simp] theorem State.modDrill_thr (f : Drill → Drill) : (s.modDrill f).thr = s.thr := rfl
@[simp] theorem State.modDrill_freeCount (f : Drill → Drill) : (s.modDrill f).freeCount = s.freeCount := rfl

/-! ### modSheaf -/

@[simp] theorem State.modSheaf_sheaf (f : Sheaf → Sheaf) : (s.modSheaf f).sheaf = f s.sheaf := rfl
@[simp] theorem State.modSheaf_pending (f : Sheaf → Sheaf) : (s.modSheaf f).pending = s.pending := rfl
@[simp] theorem State.modSheaf_tm (f : Sheaf → Sheaf) : (s.modSheaf f).tm = s.tm := rfl
@[simp] theorem State.modSheaf_mb (f : Sheaf → Sheaf) : (s.modSheaf f).mb = s.mb := rfl
@[simp] theorem State.modSheaf_cfg (f : Sheaf → Sheaf) : (s.modSheaf f).cfg = s.cfg := rfl
@[simp] theorem State.modSheaf_cnt (f : Sheaf → Sheaf) : (s.modSheaf f).cnt = s.cnt := rfl
@[simp] theorem State.modSheaf_ev (f : Sheaf → Sheaf) : (s.modSheaf f).ev = s.ev := rfl
@[simp] theorem State.modSheaf_alm (f : Sheaf → Sheaf) : (s.modSheaf f).alm = s.alm := rfl
@[simp] theorem State.modSheaf_drill (f : Sheaf → Sheaf) : (s.modSheaf f).drill = s.drill := rfl
@[simp] theorem State.modSheaf_csp (f : Sheaf → Sheaf) : (s.modSheaf f).csp = s.csp := rfl
@[simp] theorem State.modSheaf_csp8 (f : Sheaf → Sheaf) : (s.modSheaf f).csp8 = s.csp8 := rfl
@[simp] theorem State.modSheaf_sent (f : Sheaf → Sheaf) : (s.modSheaf f).sent = s.sent := rfl
@[simp] theorem State.modSheaf_edge (f : Sheaf → Sheaf) : (s.modSheaf f).edge = s.edge := rfl
@[simp] theorem State.modSheaf_banks (f : Sheaf → Sheaf) : (s.modSheaf f).banks = s.banks := rfl
@[simp] theorem State.modSheaf_twt (f : Sheaf → Sheaf) : (s.modSheaf f).twt = s.twt := rfl
@[simp] theorem State.modSheaf_mirror (f : Sheaf → Sheaf) : (s.modSheaf f).mirror = s.mirror := rfl
@[simp] theorem State.modSheaf_mem (f : Sheaf → Sheaf) : (s.modSheaf f).mem = s.mem := rfl
@[simp] theorem State.modSheaf_clk (f : Sheaf → Sheaf) : (s.modSheaf f).clk = s.clk := rfl
@[simp] theorem State.modSheaf_boot (f : Sheaf → Sheaf) : (s.modSheaf f).boot = s.boot := rfl
@[simp] theorem State.modSheaf_lev (f : Sheaf → Sheaf) : (s.modSheaf f).lev = s.lev := rfl
@[simp] theorem State.modSheaf_pw (f : Sheaf → Sheaf) : (s.modSheaf f).pw = s.pw := rfl
@[simp] theorem State.modSheaf_usb (f : Sheaf → Sheaf) : (s.modSheaf f).usb = s.usb := rfl
@[simp] theorem State.modSheaf_yoke (f : Sheaf → Sheaf) : (s.modSheaf f).yoke = s.yoke := rfl
@[simp] theorem State.modSheaf_hw (f : Sheaf → Sheaf) : (s.modSheaf f).hw = s.hw := rfl
@[simp] theorem State.modSheaf_upd (f : Sheaf → Sheaf) : (s.modSheaf f).upd = s.upd := rfl
@[simp] theorem State.modSheaf_thr (f : Sheaf → Sheaf) : (s.modSheaf f).thr = s.thr := rfl
@[simp] theorem State.modSheaf_freeCount (f : Sheaf → Sheaf) : (s.modSheaf f).freeCount = s.freeCount := rfl

/-! ### modPort -/

@[simp] theorem State.modPort_csp (k : Nat) (f : CspPort → CspPort) : (s.modPort k f).csp = updAt s.csp k f := rfl
@[simp] theorem State.modPort_pending (k : Nat) (f : CspPort → CspPort) : (s.modPort k f).pending = s.pending := rfl
@[simp] theorem State.modPort_tm (k : Nat) (f : CspPort → CspPort) : (s.modPort k f).tm = s.tm := rfl
@[simp] theorem State.modPort_mb (k : Nat) (f : CspPort → CspPort) : (s.modPort k f).mb = s.mb := rfl
@[simp] theorem State.modPort_cfg (k : Nat) (f : CspPort → CspPort) : (s.modPort k f).cfg = s.cfg := rfl
@[simp] theorem State.modPort_cnt (k : Nat) (f : CspPort → CspPort) : (s.modPort k f).cnt = s.cnt := rfl
@[simp] theorem State.modPort_ev (k : Nat) (f : CspPort → CspPort) : (s.modPort k f).ev = s.ev := rfl
@[simp] theorem State.modPort_alm (k : Nat) (f : CspPort → CspPort) : (s.modPort k f).alm = s.alm := rfl
@[simp] theorem State.modPort_drill (k : Nat) (f : CspPort → CspPort) : (s.modPort k f).drill = s.drill := rfl
@[simp] theorem State.modPort_sheaf (k : Nat) (f : CspPort → CspPort) : (s.modPort k f).sheaf = s.sheaf := rfl
@[simp] theorem State.modPort_csp8 (k : Nat) (f : CspPort → CspPort) : (s.modPort k f).csp8 = s.csp8 := rfl
@[simp] theorem State.modPort_sent (k : Nat) (f : CspPort → CspPort) : (s.modPort k f).sent = s.sent := rfl
@[simp] theorem State.modPort_edge (k : Nat) (f : CspPort → CspPort) : (s.modPort k f).edge = s.edge := rfl
@[simp] theorem State.modPort_banks (k : Nat) (f : CspPort → CspPort) : (s.modPort k f).banks = s.banks := rfl
@[simp] theorem State.modPort_twt (k : Nat) (f : CspPort → CspPort) : (s.modPort k f).twt = s.twt := rfl
@[simp] theorem State.modPort_mirror (k : Nat) (f : CspPort → CspPort) : (s.modPort k f).mirror = s.mirror := rfl
@[simp] theorem State.modPort_mem (k : Nat) (f : CspPort → CspPort) : (s.modPort k f).mem = s.mem := rfl
@[simp] theorem State.modPort_clk (k : Nat) (f : CspPort → CspPort) : (s.modPort k f).clk = s.clk := rfl
@[simp] theorem State.modPort_boot (k : Nat) (f : CspPort → CspPort) : (s.modPort k f).boot = s.boot := rfl
@[simp] theorem State.modPort_lev (k : Nat) (f : CspPort → CspPort) : (s.modPort k f).lev = s.lev := rfl
@[simp] theorem State.modPort_pw (k : Nat) (f : CspPort → CspPort) : (s.modPort k f).pw = s.pw := rfl
@[simp] theorem State.modPort_usb (k : Nat) (f : CspPort → CspPort) : (s.modPort k f).usb = s.usb := rfl
@[simp] theorem State.modPort_yoke (k : Nat) (f : CspPort → CspPort) : (s.modPort k f).yoke = s.yoke := rfl
@[simp] theorem State.modPort_hw (k : Nat) (f : CspPort → CspPort) : (s.modPort k f).hw = s.hw := rfl
@[simp] theorem State.modPort_upd (k : Nat) (f : CspPort → CspPort) : (s.modPort k f).upd = s.upd := rfl
@[simp] theorem State.modPort_thr (k : Nat) (f : CspPort → CspPort) : (s.modPort k f).thr = s.thr := rfl
@[simp] theorem State.modPort_freeCount (k : Nat) (f : CspPort → CspPort) : (s.modPort k f).freeCount = s.freeCount := rfl

/-! ### modCsp8 -/

@[simp] theorem State.modCsp8_csp8 (f : Csp8 → Csp8) : (s.modCsp8 f).csp8 = f s.csp8 := rfl
@[simp] theorem State.modCsp8_pending (f : Csp8 → Csp8) : (s.modCsp8 f).pending = s.pending := rfl
@[simp] theorem State.modCsp8_tm (f : Csp8 → Csp8) : (s.modCsp8 f).tm = s.tm := rfl
@[simp] theorem State.modCsp8_mb (f : Csp8 → Csp8) : (s.modCsp8 f).mb = s.mb := rfl
@[simp] theorem State.modCsp8_cfg (f : Csp8 → Csp8) : (s.modCsp8 f).cfg = s.cfg := rfl
@[simp] theorem State.modCsp8_cnt (f : Csp8 → Csp8) : (s.modCsp8 f).cnt = s.cnt := rfl
@[simp] theorem State.modCsp8_ev (f : Csp8 → Csp8) : (s.modCsp8 f).ev = s.ev := rfl
@[simp] theorem State.modCsp8_alm (f : Csp8 → Csp8) : (s.modCsp8 f).alm = s.alm := rfl
@[simp] theorem State.modCsp8_drill (f : Csp8 → Csp8) : (s.modCsp8 f).drill = s.drill := rfl
@[simp] theorem State.modCsp8_sheaf (f : Csp8 → Csp8) : (s.modCsp8 f).sheaf = s.sheaf := rfl
@[simp] theorem State.modCsp8_csp (f : Csp8 → Csp8) : (s.modCsp8 f).csp = s.csp := rfl
@[simp] theorem State.modCsp8_sent (f : Csp8 → Csp8) : (s.modCsp8 f).sent = s.sent := rfl
@[simp] theorem State.modCsp8_edge (f : Csp8 → Csp8) : (s.modCsp8 f).edge = s.edge := rfl
@[simp] theorem State.modCsp8_banks (f : Csp8 → Csp8) : (s.modCsp8 f).banks = s.banks := rfl
@[simp] theorem State.modCsp8_twt (f : Csp8 → Csp8) : (s.modCsp8 f).twt = s.twt := rfl
@[simp] theorem State.modCsp8_mirror (f : Csp8 → Csp8) : (s.modCsp8 f).mirror = s.mirror := rfl
@[simp] theorem State.modCsp8_mem (f : Csp8 → Csp8) : (s.modCsp8 f).mem = s.mem := rfl
@[simp] theorem State.modCsp8_clk (f : Csp8 → Csp8) : (s.modCsp8 f).clk = s.clk := rfl
@[simp] theorem State.modCsp8_boot (f : Csp8 → Csp8) : (s.modCsp8 f).boot = s.boot := rfl
@[simp] theorem State.modCsp8_lev (f : Csp8 → Csp8) : (s.modCsp8 f).lev = s.lev := rfl
@[simp] theorem State.modCsp8_pw (f : Csp8 → Csp8) : (s.modCsp8 f).pw = s.pw := rfl
@[simp] theorem State.modCsp8_usb (f : Csp8 → Csp8) : (s.modCsp8 f).usb = s.usb := rfl
@[simp] theorem State.modCsp8_yoke (f : Csp8 → Csp8) : (s.modCsp8 f).yoke = s.yoke := rfl
@[simp] theorem State.modCsp8_hw (f : Csp8 → Csp8) : (s.modCsp8 f).hw = s.hw := rfl
@[simp] theorem State.modCsp8_upd (f : Csp8 → Csp8) : (s.modCsp8 f).upd = s.upd := rfl
@[simp] theorem State.modCsp8_thr (f : Csp8 → Csp8) : (s.modCsp8 f).thr = s.thr := rfl
@[simp] theorem State.modCsp8_freeCount (f : Csp8 → Csp8) : (s.modCsp8 f).freeCount = s.freeCount := rfl

/-! ### modSent -/

@[simp] theorem State.modSent_sent (k : Nat) (f : SentChan → SentChan) : (s.modSent k f).sent = updAt s.sent k f := rfl
@[simp] theorem State.modSent_pending (k : Nat) (f : SentChan → SentChan) : (s.modSent k f).pending = s.pending := rfl
@[simp] theorem State.modSent_tm (k : Nat) (f : SentChan → SentChan) : (s.modSent k f).tm = s.tm := rfl
@[simp] theorem State.modSent_mb (k : Nat) (f : SentChan → SentChan) : (s.modSent k f).mb = s.mb := rfl
@[simp] theorem State.modSent_cfg (k : Nat) (f : SentChan → SentChan) : (s.modSent k f).cfg = s.cfg := rfl
@[simp] theorem State.modSent_cnt (k : Nat) (f : SentChan → SentChan) : (s.modSent k f).cnt = s.cnt := rfl
@[simp] theorem State.modSent_ev (k : Nat) (f : SentChan → SentChan) : (s.modSent k f).ev = s.ev := rfl
@[simp] theorem State.modSent_alm (k : Nat) (f : SentChan → SentChan) : (s.modSent k f).alm = s.alm := rfl
@[simp] theorem State.modSent_drill (k : Nat) (f : SentChan → SentChan) : (s.modSent k f).drill = s.drill := rfl
@[simp] theorem State.modSent_sheaf (k : Nat) (f : SentChan → SentChan) : (s.modSent k f).sheaf = s.sheaf := rfl
@[simp] theorem State.modSent_csp (k : Nat) (f : SentChan → SentChan) : (s.modSent k f).csp = s.csp := rfl
@[simp] theorem State.modSent_csp8 (k : Nat) (f : SentChan → SentChan) : (s.modSent k f).csp8 = s.csp8 := rfl
@[simp] theorem State.modSent_edge (k : Nat) (f : SentChan → SentChan) : (s.modSent k f).edge = s.edge := rfl
@[simp] theorem State.modSent_banks (k : Nat) (f : SentChan → SentChan) : (s.modSent k f).banks = s.banks := rfl
@[simp] theorem State.modSent_twt (k : Nat) (f : SentChan → SentChan) : (s.modSent k f).twt = s.twt := rfl
@[simp] theorem State.modSent_mirror (k : Nat) (f : SentChan → SentChan) : (s.modSent k f).mirror = s.mirror := rfl
@[simp] theorem State.modSent_mem (k : Nat) (f : SentChan → SentChan) : (s.modSent k f).mem = s.mem := rfl
@[simp] theorem State.modSent_clk (k : Nat) (f : SentChan → SentChan) : (s.modSent k f).clk = s.clk := rfl
@[simp] theorem State.modSent_boot (k : Nat) (f : SentChan → SentChan) : (s.modSent k f).boot = s.boot := rfl
@[simp] theorem State.modSent_lev (k : Nat) (f : SentChan → SentChan) : (s.modSent k f).lev = s.lev := rfl
@[simp] theorem State.modSent_pw (k : Nat) (f : SentChan → SentChan) : (s.modSent k f).pw = s.pw := rfl
@[simp] theorem State.modSent_usb (k : Nat) (f : SentChan → SentChan) : (s.modSent k f).usb = s.usb := rfl
@[simp] theorem State.modSent_yoke (k : Nat) (f : SentChan → SentChan) : (s.modSent k f).yoke = s.yoke := rfl
@[simp] theorem State.modSent_hw (k : Nat) (f : SentChan → SentChan) : (s.modSent k f).hw = s.hw := rfl
@[simp] theorem State.modSent_upd (k : Nat) (f : SentChan → SentChan) : (s.modSent k f).upd = s.upd := rfl
@[simp] theorem State.modSent_thr (k : Nat) (f : SentChan → SentChan) : (s.modSent k f).thr = s.thr := rfl
@[simp] theorem State.modSent_freeCount (k : Nat) (f : SentChan → SentChan) : (s.modSent k f).freeCount = s.freeCount := rfl

/-! ### modEdge -/

@[simp] theorem State.modEdge_edge (k : Nat) (f : EdgeIn → EdgeIn) : (s.modEdge k f).edge = updAt s.edge k f := rfl
@[simp] theorem State.modEdge_pending (k : Nat) (f : EdgeIn → EdgeIn) : (s.modEdge k f).pending = s.pending := rfl
@[simp] theorem State.modEdge_tm (k : Nat) (f : EdgeIn → EdgeIn) : (s.modEdge k f).tm = s.tm := rfl
@[simp] theorem State.modEdge_mb (k : Nat) (f : EdgeIn → EdgeIn) : (s.modEdge k f).mb = s.mb := rfl
@[simp] theorem State.modEdge_cfg (k : Nat) (f : EdgeIn → EdgeIn) : (s.modEdge k f).cfg = s.cfg := rfl
@[simp] theorem State.modEdge_cnt (k : Nat) (f : EdgeIn → EdgeIn) : (s.modEdge k f).cnt = s.cnt := rfl
@[simp] theorem State.modEdge_ev (k : Nat) (f : EdgeIn → EdgeIn) : (s.modEdge k f).ev = s.ev := rfl
@[simp] theorem State.modEdge_alm (k : Nat) (f : EdgeIn → EdgeIn) : (s.modEdge k f).alm = s.alm := rfl
@[simp] theorem State.modEdge_drill (k : Nat) (f : EdgeIn → EdgeIn) : (s.modEdge k f).drill = s.drill := rfl
@[simp] theorem State.modEdge_sheaf (k : Nat) (f : EdgeIn → EdgeIn) : (s.modEdge k f).sheaf = s.sheaf := rfl
@[simp] theorem State.modEdge_csp (k : Nat) (f : EdgeIn → EdgeIn) : (s.modEdge k f).csp = s.csp := rfl
@[simp] theorem State.modEdge_csp8 (k : Nat) (f : EdgeIn → EdgeIn) : (s.modEdge k f).csp8 = s.csp8 := rfl
@[simp] theorem State.modEdge_sent (k : Nat) (f : EdgeIn → EdgeIn) : (s.modEdge k f).sent = s.sent := rfl
@[simp] theorem State.modEdge_banks (k : Nat) (f : EdgeIn → EdgeIn) : (s.modEdge k f).banks = s.banks := rfl
@[simp] theorem State.modEdge_twt (k : Nat) (f : EdgeIn → EdgeIn) : (s.modEdge k f).twt = s.twt := rfl
@[simp] theorem State.modEdge_mirror (k : Nat) (f : EdgeIn → EdgeIn) : (s.modEdge k f).mirror = s.mirror := rfl
@[simp] theorem State.modEdge_mem (k : Nat) (f : EdgeIn → EdgeIn) : (s.modEdge k f).mem = s.mem := rfl
@[simp] theorem State.modEdge_clk (k : Nat) (f : EdgeIn → EdgeIn) : (s.modEdge k f).clk = s.clk := rfl
@[simp] theorem State.modEdge_boot (k : Nat) (f : EdgeIn → EdgeIn) : (s.modEdge k f).boot = s.boot := rfl
@[simp] theorem State.modEdge_lev (k : Nat) (f : EdgeIn → EdgeIn) : (s.modEdge k f).lev = s.lev := rfl
@[simp] theorem State.modEdge_pw (k : Nat) (f : EdgeIn → EdgeIn) : (s.modEdge k f).pw = s.pw := rfl
@[simp] theorem State.modEdge_usb (k : Nat) (f : EdgeIn → EdgeIn) : (s.modEdge k f).usb = s.usb := rfl
@[simp] theorem State.modEdge_yoke (k : Nat) (f : EdgeIn → EdgeIn) : (s.modEdge k f).yoke = s.yoke := rfl
@[simp] theorem State.modEdge_hw (k : Nat) (f : EdgeIn → EdgeIn) : (s.modEdge k f).hw = s.hw := rfl
@[simp] theorem State.modEdge_upd (k : Nat) (f : EdgeIn → EdgeIn) : (s.modEdge k f).upd = s.upd := rfl
@[simp] theorem State.modEdge_thr (k : Nat) (f : EdgeIn → EdgeIn) : (s.modEdge k f).thr = s.thr := rfl
@[simp] theorem State.modEdge_freeCount (k : Nat) (f : EdgeIn → EdgeIn) : (s.modEdge k f).freeCount = s.freeCount := rfl

/-! ### modBank -/

@[simp] theorem State.modBank_banks (k : Nat) (f : EdgeBank → EdgeBank) : (s.modBank k f).banks = updAt s.banks k f := rfl
@[simp] theorem State.modBank_pending (k : Nat) (f : EdgeBank → EdgeBank) : (s.modBank k f).pending = s.pending := rfl
@[simp] theorem State.modBank_tm (k : Nat) (f : EdgeBank → EdgeBank) : (s.modBank k f).tm = s.tm := rfl
@[simp] theorem State.modBank_mb (k : Nat) (f : EdgeBank → EdgeBank) : (s.modBank k f).mb = s.mb := rfl
@[simp] theorem State.modBank_cfg (k : Nat) (f : EdgeBank → EdgeBank) : (s.modBank k f).cfg = s.cfg := rfl
@[simp] theorem State.modBank_cnt (k : Nat) (f : EdgeBank → EdgeBank) : (s.modBank k f).cnt = s.cnt := rfl
@[simp] theorem State.modBank_ev (k : Nat) (f : EdgeBank → EdgeBank) : (s.modBank k f).ev = s.ev := rfl
@[simp] theorem State.modBank_alm (k : Nat) (f : EdgeBank → EdgeBank) : (s.modBank k f).alm = s.alm := rfl
@[simp] theorem State.modBank_drill (k : Nat) (f : EdgeBank → EdgeBank) : (s.modBank k f).drill = s.drill := rfl
@[simp] theorem State.modBank_sheaf (k : Nat) (f : EdgeBank → EdgeBank) : (s.modBank k f).sheaf = s.sheaf := rfl
@[simp] theorem State.modBank_csp (k : Nat) (f : EdgeBank → EdgeBank) : (s.modBank k f).csp = s.csp := rfl
@[simp] theorem State.modBank_csp8 (k : Nat) (f : EdgeBank → EdgeBank) : (s.modBank k f).csp8 = s.csp8 := rfl
@[simp] theorem State.modBank_sent (k : Nat) (f : EdgeBank → EdgeBank) : (s.modBank k f).sent = s.sent := rfl
@[simp] theorem State.modBank_edge (k : Nat) (f : EdgeBank → EdgeBank) : (s.modBank k f).edge = s.edge := rfl
@[simp] theorem State.modBank_twt (k : Nat) (f : EdgeBank → EdgeBank) : (s.modBank k f).twt = s.twt := rfl
@[simp] theorem State.modBank_mirror (k : Nat) (f : EdgeBank → EdgeBank) : (s.modBank k f).mirror = s.mirror := rfl
@[simp] theorem State.modBank_mem (k : Nat) (f : EdgeBank → EdgeBank) : (s.modBank k f).mem = s.mem := rfl
@[simp] theorem State.modBank_clk (k : Nat) (f : EdgeBank → EdgeBank) : (s.modBank k f).clk = s.clk := rfl
@[simp] theorem State.modBank_boot (k : Nat) (f : EdgeBank → EdgeBank) : (s.modBank k f).boot = s.boot := rfl
@[simp] theorem State.modBank_lev (k : Nat) (f : EdgeBank → EdgeBank) : (s.modBank k f).lev = s.lev := rfl
@[simp] theorem State.modBank_pw (k : Nat) (f : EdgeBank → EdgeBank) : (s.modBank k f).pw = s.pw := rfl
@[simp] theorem State.modBank_usb (k : Nat) (f : EdgeBank → EdgeBank) : (s.modBank k f).usb = s.usb := rfl
@[simp] theorem State.modBank_yoke (k : Nat) (f : EdgeBank → EdgeBank) : (s.modBank k f).yoke = s.yoke := rfl
@[simp] theorem State.modBank_hw (k : Nat) (f : EdgeBank → EdgeBank) : (s.modBank k f).hw = s.hw := rfl
@[simp] theorem State.modBank_upd (k : Nat) (f : EdgeBank → EdgeBank) : (s.modBank k f).upd = s.upd := rfl
@[simp] theorem State.modBank_thr (k : Nat) (f : EdgeBank → EdgeBank) : (s.modBank k f).thr = s.thr := rfl
@[simp] theorem State.modBank_freeCount (k : Nat) (f : EdgeBank → EdgeBank) : (s.modBank k f).freeCount = s.freeCount := rfl

/-! ### modTwt -/

@[simp] theorem State.modTwt_twt (k : Nat) (f : Twt → Twt) : (s.modTwt k f).twt = updAt s.twt k f := rfl
@[simp] theorem State.modTwt_pending (k : Nat) (f : Twt → Twt) : (s.modTwt k f).pending = s.pending := rfl
@[simp] theorem State.modTwt_tm (k : Nat) (f : Twt → Twt) : (s.modTwt k f).tm = s.tm := rfl
@[simp] theorem State.modTwt_mb (k : Nat) (f : Twt → Twt) : (s.modTwt k f).mb = s.mb := rfl
@[simp] theorem State.modTwt_cfg (k : Nat) (f : Twt → Twt) : (s.modTwt k f).cfg = s.cfg := rfl
@[simp] theorem State.modTwt_cnt (k : Nat) (f : Twt → Twt) : (s.modTwt k f).cnt = s.cnt := rfl
@[simp] theorem State.modTwt_ev (k : Nat) (f : Twt → Twt) : (s.modTwt k f).ev = s.ev := rfl
@[simp] theorem State.modTwt_alm (k : Nat) (f : Twt → Twt) : (s.modTwt k f).alm = s.alm := rfl
@[simp] theorem State.modTwt_drill (k : Nat) (f : Twt → Twt) : (s.modTwt k f).drill = s.drill := rfl
@[simp] theorem State.modTwt_sheaf (k : Nat) (f : Twt → Twt) : (s.modTwt k f).sheaf = s.sheaf := rfl
@[simp] theorem State.modTwt_csp (k : Nat) (f : Twt → Twt) : (s.modTwt k f).csp = s.csp := rfl
@[simp] theorem State.modTwt_csp8 (k : Nat) (f : Twt → Twt) : (s.modTwt k f).csp8 = s.csp8 := rfl
@[simp] theorem State.modTwt_sent (k : Nat) (f : Twt → Twt) : (s.modTwt k f).sent = s.sent := rfl
@[simp] theorem State.modTwt_edge (k : Nat) (f : Twt → Twt) : (s.modTwt k f).edge = s.edge := rfl
@[simp] theorem State.modTwt_banks (k : Nat) (f : Twt → Twt) : (s.modTwt k f).banks = s.banks := rfl
@[simp] theorem State.modTwt_mirror (k : Nat) (f : Twt → Twt) : (s.modTwt k f).mirror = s.mirror := rfl
@[simp] theorem State.modTwt_mem (k : Nat) (f : Twt → Twt) : (s.modTwt k f).mem = s.mem := rfl
@[simp] theorem State.modTwt_clk (k : Nat) (f : Twt → Twt) : (s.modTwt k f).clk = s.clk := rfl
@[simp] theorem State.modTwt_boot (k : Nat) (f : Twt → Twt) : (s.modTwt k f).boot = s.boot := rfl
@[simp] theorem State.modTwt_lev (k : Nat) (f : Twt → Twt) : (s.modTwt k f).lev = s.lev := rfl
@[simp] theorem State.modTwt_pw (k : Nat) (f : Twt → Twt) : (s.modTwt k f).pw = s.pw := rfl
@[simp] theorem State.modTwt_usb (k : Nat) (f : Twt → Twt) : (s.modTwt k f).usb = s.usb := rfl
@[simp] theorem State.modTwt_yoke (k : Nat) (f : Twt → Twt) : (s.modTwt k f).yoke = s.yoke := rfl
@[simp] theorem State.modTwt_hw (k : Nat) (f : Twt → Twt) : (s.modTwt k f).hw = s.hw := rfl
@[simp] theorem State.modTwt_upd (k : Nat) (f : Twt → Twt) : (s.modTwt k f).upd = s.upd := rfl
@[simp] theorem State.modTwt_thr (k : Nat) (f : Twt → Twt) : (s.modTwt k f).thr = s.thr := rfl
@[simp] theorem State.modTwt_freeCount (k : Nat) (f : Twt → Twt) : (s.modTwt k f).freeCount = s.freeCount := rfl

/-! ### modMem -/

@[simp] theorem State.modMem_mem (f : Mem → Mem) : (s.modMem f).mem = f s.mem := rfl
@[simp] theorem State.modMem_pending (f : Mem → Mem) : (s.modMem f).pending = s.pending := rfl
@[simp] theorem State.modMem_tm (f : Mem → Mem) : (s.modMem f).tm = s.tm := rfl
@[simp] theorem State.modMem_mb (f : Mem → Mem) : (s.modMem f).mb = s.mb := rfl
@[simp] theorem State.modMem_cfg (f : Mem → Mem) : (s.modMem f).cfg = s.cfg := rfl
@[simp] theorem State.modMem_cnt (f : Mem → Mem) : (s.modMem f).cnt = s.cnt := rfl
@[simp] theorem State.modMem_ev (f : Mem → Mem) : (s.modMem f).ev = s.ev := rfl
@[simp] theorem State.modMem_alm (f : Mem → Mem) : (s.modMem f).alm = s.alm := rfl
@[simp] theorem State.modMem_drill (f : Mem → Mem) : (s.modMem f).drill = s.drill := rfl
@[simp] theorem State.modMem_sheaf (f : Mem → Mem) : (s.modMem f).sheaf = s.sheaf := rfl
@[simp] theorem State.modMem_csp (f : Mem → Mem) : (s.modMem f).csp = s.csp := rfl
@[simp] theorem State.modMem_csp8 (f : Mem → Mem) : (s.modMem f).csp8 = s.csp8 := rfl
@[simp] theorem State.modMem_sent (f : Mem → Mem) : (s.modMem f).sent = s.sent := rfl
@[simp] theorem State.modMem_edge (f : Mem → Mem) : (s.modMem f).edge = s.edge := rfl
@[simp] theorem State.modMem_banks (f : Mem → Mem) : (s.modMem f).banks = s.banks := rfl
@[simp] theorem State.modMem_twt (f : Mem → Mem) : (s.modMem f).twt = s.twt := rfl
@[simp] theorem State.modMem_mirror (f : Mem → Mem) : (s.modMem f).mirror = s.mirror := rfl
@[simp] theorem State.modMem_clk (f : Mem → Mem) : (s.modMem f).clk = s.clk := rfl
@[simp] theorem State.modMem_boot (f : Mem → Mem) : (s.modMem f).boot = s.boot := rfl
@[simp] theorem State.modMem_lev (f : Mem → Mem) : (s.modMem f).lev = s.lev := rfl
@[simp] theorem State.modMem_pw (f : Mem → Mem) : (s.modMem f).pw = s.pw := rfl
@[simp] theorem State.modMem_usb (f : Mem → Mem) : (s.modMem f).usb = s.usb := rfl
@[simp] theorem State.modMem_yoke (f : Mem → Mem) : (s.modMem f).yoke = s.yoke := rfl
@[simp] theorem State.modMem_hw (f : Mem → Mem) : (s.modMem f).hw = s.hw := rfl
@[simp] theorem State.modMem_upd (f : Mem → Mem) : (s.modMem f).upd = s.upd := rfl
@[simp] theorem State.modMem_thr (f : Mem → Mem) : (s.modMem f).thr = s.thr := rfl
@[simp] theorem State.modMem_freeCount (f : Mem → Mem) : (s.modMem f).freeCount = s.freeCount := rfl

/-! ### modSram -/

@[simp] theorem State.modSram_mem (k : Nat) (f : Bank → Bank) : (s.modSram k f).mem = { s.mem with banks := updAt s.mem.banks k f } := rfl
@[simp] theorem State.modSram_pending (k : Nat) (f : Bank → Bank) : (s.modSram k f).pending = s.pending := rfl
@[simp] theorem State.modSram_tm (k : Nat) (f : Bank → Bank) : (s.modSram k f).tm = s.tm := rfl
@[simp] theorem State.modSram_mb (k : Nat) (f : Bank → Bank) : (s.modSram k f).mb = s.mb := rfl
@[simp] theorem State.modSram_cfg (k : Nat) (f : Bank → Bank) : (s.modSram k f).cfg = s.cfg := rfl
@[simp] theorem State.modSram_cnt (k : Nat) (f : Bank → Bank) : (s.modSram k f).cnt = s.cnt := rfl
@[simp] theorem State.modSram_ev (k : Nat) (f : Bank → Bank) : (s.modSram k f).ev = s.ev := rfl
@[simp] theorem State.modSram_alm (k : Nat) (f : Bank → Bank) : (s.modSram k f).alm = s.alm := rfl
@[simp] theorem State.modSram_drill (k : Nat) (f : Bank → Bank) : (s.modSram k f).drill = s.drill := rfl
@[simp] theorem State.modSram_sheaf (k : Nat) (f : Bank → Bank) : (s.modSram k f).sheaf = s.sheaf := rfl
@[simp] theorem State.modSram_csp (k : Nat) (f : Bank → Bank) : (s.modSram k f).csp = s.csp := rfl
@[simp] theorem State.modSram_csp8 (k : Nat) (f : Bank → Bank) : (s.modSram k f).csp8 = s.csp8 := rfl
@[simp] theorem State.modSram_sent (k : Nat) (f : Bank → Bank) : (s.modSram k f).sent = s.sent := rfl
@[simp] theorem State.modSram_edge (k : Nat) (f : Bank → Bank) : (s.modSram k f).edge = s.edge := rfl
@[simp] theorem State.modSram_banks (k : Nat) (f : Bank → Bank) : (s.modSram k f).banks = s.banks := rfl
@[simp] theorem State.modSram_twt (k : Nat) (f : Bank → Bank) : (s.modSram k f).twt = s.twt := rfl
@[simp] theorem State.modSram_mirror (k : Nat) (f : Bank → Bank) : (s.modSram k f).mirror = s.mirror := rfl
@[simp] theorem State.modSram_clk (k : Nat) (f : Bank → Bank) : (s.modSram k f).clk = s.clk := rfl
@[simp] theorem State.modSram_boot (k : Nat) (f : Bank → Bank) : (s.modSram k f).boot = s.boot := rfl
@[simp] theorem State.modSram_lev (k : Nat) (f : Bank → Bank) : (s.modSram k f).lev = s.lev := rfl
@[simp] theorem State.modSram_pw (k : Nat) (f : Bank → Bank) : (s.modSram k f).pw = s.pw := rfl
@[simp] theorem State.modSram_usb (k : Nat) (f : Bank → Bank) : (s.modSram k f).usb = s.usb := rfl
@[simp] theorem State.modSram_yoke (k : Nat) (f : Bank → Bank) : (s.modSram k f).yoke = s.yoke := rfl
@[simp] theorem State.modSram_hw (k : Nat) (f : Bank → Bank) : (s.modSram k f).hw = s.hw := rfl
@[simp] theorem State.modSram_upd (k : Nat) (f : Bank → Bank) : (s.modSram k f).upd = s.upd := rfl
@[simp] theorem State.modSram_thr (k : Nat) (f : Bank → Bank) : (s.modSram k f).thr = s.thr := rfl
@[simp] theorem State.modSram_freeCount (k : Nat) (f : Bank → Bank) : (s.modSram k f).freeCount = s.freeCount := rfl

/-! ### modClk -/

@[simp] theorem State.modClk_clk (f : Clk → Clk) : (s.modClk f).clk = f s.clk := rfl
@[simp] theorem State.modClk_pending (f : Clk → Clk) : (s.modClk f).pending = s.pending := rfl
@[simp] theorem State.modClk_tm (f : Clk → Clk) : (s.modClk f).tm = s.tm := rfl
@[simp] theorem State.modClk_mb (f : Clk → Clk) : (s.modClk f).mb = s.mb := rfl
@[simp] theorem State.modClk_cfg (f : Clk → Clk) : (s.modClk f).cfg = s.cfg := rfl
@[simp] theorem State.modClk_cnt (f : Clk → Clk) : (s.modClk f).cnt = s.cnt := rfl
@[simp] theorem State.modClk_ev (f : Clk → Clk) : (s.modClk f).ev = s.ev := rfl
@[simp] theorem State.modClk_alm (f : Clk → Clk) : (s.modClk f).alm = s.alm := rfl
@[simp] theorem State.modClk_drill (f : Clk → Clk) : (s.modClk f).drill = s.drill := rfl
@[simp] theorem State.modClk_sheaf (f : Clk → Clk) : (s.modClk f).sheaf = s.sheaf := rfl
@[simp] theorem State.modClk_csp (f : Clk → Clk) : (s.modClk f).csp = s.csp := rfl
@[simp] theorem State.modClk_csp8 (f : Clk → Clk) : (s.modClk f).csp8 = s.csp8 := rfl
@[simp] theorem State.modClk_sent (f : Clk → Clk) : (s.modClk f).sent = s.sent := rfl
@[simp] theorem State.modClk_edge (f : Clk → Clk) : (s.modClk f).edge = s.edge := rfl
@[simp] theorem State.modClk_banks (f : Clk → Clk) : (s.modClk f).banks = s.banks := rfl
@[simp] theorem State.modClk_twt (f : Clk → Clk) : (s.modClk f).twt = s.twt := rfl
@[simp] theorem State.modClk_mirror (f : Clk → Clk) : (s.modClk f).mirror = s.mirror := rfl
@[simp] theorem State.modClk_mem (f : Clk → Clk) : (s.modClk f).mem = s.mem := rfl
@[simp] theorem State.modClk_boot (f : Clk → Clk) : (s.modClk f).boot = s.boot := rfl
@[simp] theorem State.modClk_lev (f : Clk → Clk) : (s.modClk f).lev = s.lev := rfl
@[simp] theorem State.modClk_pw (f : Clk → Clk) : (s.modClk f).pw = s.pw := rfl
@[simp] theorem State.modClk_usb (f : Clk → Clk) : (s.modClk f).usb = s.usb := rfl
@[simp] theorem State.modClk_yoke (f : Clk → Clk) : (s.modClk f).yoke = s.yoke := rfl
@[simp] theorem State.modClk_hw (f : Clk → Clk) : (s.modClk f).hw = s.hw := rfl
@[simp] theorem State.modClk_upd (f : Clk → Clk) : (s.modClk f).upd = s.upd := rfl
@[simp] theorem State.modClk_thr (f : Clk → Clk) : (s.modClk f).thr = s.thr := rfl
@[simp] theorem State.modClk_freeCount (f : Clk → Clk) : (s.modClk f).freeCount = s.freeCount := rfl

/-! ### modBoot -/

@[simp] theorem State.modBoot_boot (f : Boot → Boot) : (s.modBoot f).boot = f s.boot := rfl
@[simp] theorem State.modBoot_pending (f : Boot → Boot) : (s.modBoot f).pending = s.pending := rfl
@[simp] theorem State.modBoot_tm (f : Boot → Boot) : (s.modBoot f).tm = s.tm := rfl
@[simp] theorem State.modBoot_mb (f : Boot → Boot) : (s.modBoot f).mb = s.mb := rfl
@[simp] theorem State.modBoot_cfg (f : Boot → Boot) : (s.modBoot f).cfg = s.cfg := rfl
@[simp] theorem State.modBoot_cnt (f : Boot → Boot) : (s.modBoot f).cnt = s.cnt := rfl
@[simp] theorem State.modBoot_ev (f : Boot → Boot) : (s.modBoot f).ev = s.ev := rfl
@[simp] theorem State.modBoot_alm (f : Boot → Boot) : (s.modBoot f).alm = s.alm := rfl
@[simp] theorem State.modBoot_drill (f : Boot → Boot) : (s.modBoot f).drill = s.drill := rfl
@[simp] theorem State.modBoot_sheaf (f : Boot → Boot) : (s.modBoot f).sheaf = s.sheaf := rfl
@[simp] theorem State.modBoot_csp (f : Boot → Boot) : (s.modBoot f).csp = s.csp := rfl
@[simp] theorem State.modBoot_csp8 (f : Boot → Boot) : (s.modBoot f).csp8 = s.csp8 := rfl
@[simp] theorem State.modBoot_sent (f : Boot → Boot) : (s.modBoot f).sent = s.sent := rfl
@[simp] theorem State.modBoot_edge (f : Boot → Boot) : (s.modBoot f).edge = s.edge := rfl
@[simp] theorem State.modBoot_banks (f : Boot → Boot) : (s.modBoot f).banks = s.banks := rfl
@[simp] theorem State.modBoot_twt (f : Boot → Boot) : (s.modBoot f).twt = s.twt := rfl
@[simp] theorem State.modBoot_mirror (f : Boot → Boot) : (s.modBoot f).mirror = s.mirror := rfl
@[simp] theorem State.modBoot_mem (f : Boot → Boot) : (s.modBoot f).mem = s.mem := rfl
@[simp] theorem State.modBoot_clk (f : Boot → Boot) : (s.modBoot f).clk = s.clk := rfl
@[simp] theorem State.modBoot_lev (f : Boot → Boot) : (s.modBoot f).lev = s.lev := rfl
@[simp] theorem State.modBoot_pw (f : Boot → Boot) : (s.modBoot f).pw = s.pw := rfl
@[simp] theorem State.modBoot_usb (f : Boot → Boot) : (s.modBoot f).usb = s.usb := rfl
@[simp] theorem State.modBoot_yoke (f : Boot → Boot) : (s.modBoot f).yoke = s.yoke := rfl
@[simp] theorem State.modBoot_hw (f : Boot → Boot) : (s.modBoot f).hw = s.hw := rfl
@[simp] theorem State.modBoot_upd (f : Boot → Boot) : (s.modBoot f).upd = s.upd := rfl
@[simp] theorem State.modBoot_thr (f : Boot → Boot) : (s.modBoot f).thr = s.thr := rfl
@[simp] theorem State.modBoot_freeCount (f : Boot → Boot) : (s.modBoot f).freeCount = s.freeCount := rfl

/-! ### modLev -/

@[simp] theorem State.modLev_lev (f : Lev → Lev) : (s.modLev f).lev = f s.lev := rfl
@[simp] theorem State.modLev_pending (f : Lev → Lev) : (s.modLev f).pending = s.pending := rfl
@[simp] theorem State.modLev_tm (f : Lev → Lev) : (s.modLev f).tm = s.tm := rfl
@[simp] theorem State.modLev_mb (f : Lev → Lev) : (s.modLev f).mb = s.mb := rfl
@[simp] theorem State.modLev_cfg (f : Lev → Lev) : (s.modLev f).cfg = s.cfg := rfl
@[simp] theorem State.modLev_cnt (f : Lev → Lev) : (s.modLev f).cnt = s.cnt := rfl
@[simp] theorem State.modLev_ev (f : Lev → Lev) : (s.modLev f).ev = s.ev := rfl
@[simp] theorem State.modLev_alm (f : Lev → Lev) : (s.modLev f).alm = s.alm := rfl
@[simp] theorem State.modLev_drill (f : Lev → Lev) : (s.modLev f).drill = s.drill := rfl
@[simp] theorem State.modLev_sheaf (f : Lev → Lev) : (s.modLev f).sheaf = s.sheaf := rfl
@[simp] theorem State.modLev_csp (f : Lev → Lev) : (s.modLev f).csp = s.csp := rfl
@[simp] theorem State.modLev_csp8 (f : Lev → Lev) : (s.modLev f).csp8 = s.csp8 := rfl
@[simp] theorem State.modLev_sent (f : Lev → Lev) : (s.modLev f).sent = s.sent := rfl
@[simp] theorem State.modLev_edge (f : Lev → Lev) : (s.modLev f).edge = s.edge := rfl
@[simp] theorem State.modLev_banks (f : Lev → Lev) : (s.modLev f).banks = s.banks := rfl
@[simp] theorem State.modLev_twt (f : Lev → Lev) : (s.modLev f).twt = s.twt := rfl
@[simp] theorem State.modLev_mirror (f : Lev → Lev) : (s.modLev f).mirror = s.mirror := rfl
@[simp] theorem State.modLev_mem (f : Lev → Lev) : (s.modLev f).mem = s.mem := rfl
@[simp] theorem State.modLev_clk (f : Lev → Lev) : (s.modLev f).clk = s.clk := rfl
@[simp] theorem State.modLev_boot (f : Lev → Lev) : (s.modLev f).boot = s.boot := rfl
@[simp] theorem State.modLev_pw (f : Lev → Lev) : (s.modLev f).pw = s.pw := rfl
@[simp] theorem State.modLev_usb (f : Lev → Lev) : (s.modLev f).usb = s.usb := rfl
@[simp] theorem State.modLev_yoke (f : Lev → Lev) : (s.modLev f).yoke = s.yoke := rfl
@[simp] theorem State.modLev_hw (f : Lev → Lev) : (s.modLev f).hw = s.hw := rfl
@[simp] theorem State.modLev_upd (f : Lev → Lev) : (s.modLev f).upd = s.upd := rfl
@[simp] theorem State.modLev_thr (f : Lev → Lev) : (s.modLev f).thr = s.thr := rfl
@[simp] theorem State.modLev_freeCount (f : Lev → Lev) : (s.modLev f).freeCount = s.freeCount := rfl

/-! ### modPw -/

@[simp] theorem State.modPw_pw (f : Pw → Pw) : (s.modPw f).pw = f s.pw := rfl
@[simp] theorem State.modPw_pending (f : Pw → Pw) : (s.modPw f).pending = s.pending := rfl
@[simp] theorem State.modPw_tm (f : Pw → Pw) : (s.modPw f).tm = s.tm := rfl
@[simp] theorem State.modPw_mb (f : Pw → Pw) : (s.modPw f).mb = s.mb := rfl
@[simp] theorem State.modPw_cfg (f : Pw → Pw) : (s.modPw f).cfg = s.cfg := rfl
@[simp] theorem State.modPw_cnt (f : Pw → Pw) : (s.modPw f).cnt = s.cnt := rfl
@[simp] theorem State.modPw_ev (f : Pw → Pw) : (s.modPw f).ev = s.ev := rfl
@[simp] theorem State.modPw_alm (f : Pw → Pw) : (s.modPw f).alm = s.alm := rfl
@[simp] theorem State.modPw_drill (f : Pw → Pw) : (s.modPw f).drill = s.drill := rfl
@[simp] theorem State.modPw_sheaf (f : Pw → Pw) : (s.modPw f).sheaf = s.sheaf := rfl
@[simp] theorem State.modPw_csp (f : Pw → Pw) : (s.modPw f).csp = s.csp := rfl
@[simp] theorem State.modPw_csp8 (f : Pw → Pw) : (s.modPw f).csp8 = s.csp8 := rfl
@[simp] theorem State.modPw_sent (f : Pw → Pw) : (s.modPw f).sent = s.sent := rfl
@[simp] theorem State.modPw_edge (f : Pw → Pw) : (s.modPw f).edge = s.edge := rfl
@[simp] theorem State.modPw_banks (f : Pw → Pw) : (s.modPw f).banks = s.banks := rfl
@[simp] theorem State.modPw_twt (f : Pw → Pw) : (s.modPw f).twt = s.twt := rfl
@[simp] theorem State.modPw_mirror (f : Pw → Pw) : (s.modPw f).mirror = s.mirror := rfl
@[simp] theorem State.modPw_mem (f : Pw → Pw) : (s.modPw f).mem = s.mem := rfl
@[simp] theorem State.modPw_clk (f : Pw → Pw) : (s.modPw f).clk = s.clk := rfl
@[simp] theorem State.modPw_boot (f : Pw → Pw) : (s.modPw f).boot = s.boot := rfl
@[simp] theorem State.modPw_lev (f : Pw → Pw) : (s.modPw f).lev = s.lev := rfl
@[simp] theorem State.modPw_usb (f : Pw → Pw) : (s.modPw f).usb = s.usb := rfl
@[simp] theorem State.modPw_yoke (f : Pw → Pw) : (s.modPw f).yoke = s.yoke := rfl
@[simp] theorem State.modPw_hw (f : Pw → Pw) : (s.modPw f).hw = s.hw := rfl
@[simp] theorem State.modPw_upd (f : Pw → Pw) : (s.modPw f).upd = s.upd := rfl
@[simp] theorem State.modPw_thr (f : Pw → Pw) : (s.modPw f).thr = s.thr := rfl
@[simp] theorem State.modPw_freeCount (f : Pw → Pw) : (s.modPw f).freeCount = s.freeCount := rfl

/-! ### modBackup -/

@[simp] theorem State.modBackup_pw (f : Backup → Backup) : (s.modBackup f).pw = { s.pw with backup := f s.pw.backup } := rfl
@[simp] theorem State.modBackup_pending (f : Backup → Backup) : (s.modBackup f).pending = s.pending := rfl
@[simp] theorem State.modBackup_tm (f : Backup → Backup) : (s.modBackup f).tm = s.tm := rfl
@[simp] theorem State.modBackup_mb (f : Backup → Backup) : (s.modBackup f).mb = s.mb := rfl
@[simp] theorem State.modBackup_cfg (f : Backup → Backup) : (s.modBackup f).cfg = s.cfg := rfl
@[simp] theorem State.modBackup_cnt (f : Backup → Backup) : (s.modBackup f).cnt = s.cnt := rfl
@[simp] theorem State.modBackup_ev (f : Backup → Backup) : (s.modBackup f).ev = s.ev := rfl
@[simp] theorem State.modBackup_alm (f : Backup → Backup) : (s.modBackup f).alm = s.alm := rfl
@[simp] theorem State.modBackup_drill (f : Backup → Backup) : (s.modBackup f).drill = s.drill := rfl
@[simp] theorem State.modBackup_sheaf (f : Backup → Backup) : (s.modBackup f).sheaf = s.sheaf := rfl
@[simp] theorem State.modBackup_csp (f : Backup → Backup) : (s.modBackup f).csp = s.csp := rfl
@[simp] theorem State.modBackup_csp8 (f : Backup → Backup) : (s.modBackup f).csp8 = s.csp8 := rfl
@[simp] theorem State.modBackup_sent (f : Backup → Backup) : (s.modBackup f).sent = s.sent := rfl
@[simp] theorem State.modBackup_edge (f : Backup → Backup) : (s.modBackup f).edge = s.edge := rfl
@[simp] theorem State.modBackup_banks (f : Backup → Backup) : (s.modBackup f).banks = s.banks := rfl
@[simp] theorem State.modBackup_twt (f : Backup → Backup) : (s.modBackup f).twt = s.twt := rfl
@[simp] theorem State.modBackup_mirror (f : Backup → Backup) : (s.modBackup f).mirror = s.mirror := rfl
@[simp] theorem State.modBackup_mem (f : Backup → Backup) : (s.modBackup f).mem = s.mem := rfl
@[simp] theorem State.modBackup_clk (f : Backup → Backup) : (s.modBackup f).clk = s.clk := rfl
@[simp] theorem State.modBackup_boot (f : Backup → Backup) : (s.modBackup f).boot = s.boot := rfl
@[simp] theorem State.modBackup_lev (f : Backup → Backup) : (s.modBackup f).lev = s.lev := rfl
@[simp] theorem State.modBackup_usb (f : Backup → Backup) : (s.modBackup f).usb = s.usb := rfl
@[simp] theorem State.modBackup_yoke (f : Backup → Backup) : (s.modBackup f).yoke = s.yoke := rfl
@[simp] theorem State.modBackup_hw (f : Backup → Backup) : (s.modBackup f).hw = s.hw := rfl
@[simp] theorem State.modBackup_upd (f : Backup → Backup) : (s.modBackup f).upd = s.upd := rfl
@[simp] theorem State.modBackup_thr (f : Backup → Backup) : (s.modBackup f).thr = s.thr := rfl
@[simp] theorem State.modBackup_freeCount (f : Backup → Backup) : (s.modBackup f).freeCount = s.freeCount := rfl

/-! ### modUsb -/

@[simp] theorem State.modUsb_usb (f : Usb → Usb) : (s.modUsb f).usb = f s.usb := rfl
@[simp] theorem State.modUsb_pending (f : Usb → Usb) : (s.modUsb f).pending = s.pending := rfl
@[simp] theorem State.modUsb_tm (f : Usb → Usb) : (s.modUsb f).tm = s.tm := rfl
@[simp] theorem State.modUsb_mb (f : Usb → Usb) : (s.modUsb f).mb = s.mb := rfl
@[simp] theorem State.modUsb_cfg (f : Usb → Usb) : (s.modUsb f).cfg = s.cfg := rfl
@[simp] theorem State.modUsb_cnt (f : Usb → Usb) : (s.modUsb f).cnt = s.cnt := rfl
@[simp] theorem State.modUsb_ev (f : Usb → Usb) : (s.modUsb f).ev = s.ev := rfl
@[simp] theorem State.modUsb_alm (f : Usb → Usb) : (s.modUsb f).alm = s.alm := rfl
@[simp] theorem State.modUsb_drill (f : Usb → Usb) : (s.modUsb f).drill = s.drill := rfl
@[simp] theorem State.modUsb_sheaf (f : Usb → Usb) : (s.modUsb f).sheaf = s.sheaf := rfl
@[simp] theorem State.modUsb_csp (f : Usb → Usb) : (s.modUsb f).csp = s.csp := rfl
@[simp] theorem State.modUsb_csp8 (f : Usb → Usb) : (s.modUsb f).csp8 = s.csp8 := rfl
@[simp] theorem State.modUsb_sent (f : Usb → Usb) : (s.modUsb f).sent = s.sent := rfl
@[simp] theorem State.modUsb_edge (f : Usb → Usb) : (s.modUsb f).edge = s.edge := rfl
@[simp] theorem State.modUsb_banks (f : Usb → Usb) : (s.modUsb f).banks = s.banks := rfl
@[simp] theorem State.modUsb_twt (f : Usb → Usb) : (s.modUsb f).twt = s.twt := rfl
@[simp] theorem State.modUsb_mirror (f : Usb → Usb) : (s.modUsb f).mirror = s.mirror := rfl
@[simp] theorem State.modUsb_mem (f : Usb → Usb) : (s.modUsb f).mem = s.mem := rfl
@[simp] theorem State.modUsb_clk (f : Usb → Usb) : (s.modUsb f).clk = s.clk := rfl
@[simp] theorem State.modUsb_boot (f : Usb → Usb) : (s.modUsb f).boot = s.boot := rfl
@[simp] theorem State.modUsb_lev (f : Usb → Usb) : (s.modUsb f).lev = s.lev := rfl
@[simp] theorem State.modUsb_pw (f : Usb → Usb) : (s.modUsb f).pw = s.pw := rfl
@[simp] theorem State.modUsb_yoke (f : Usb → Usb) : (s.modUsb f).yoke = s.yoke := rfl
@[simp] theorem State.modUsb_hw (f : Usb → Usb) : (s.modUsb f).hw = s.hw := rfl
@[simp] theorem State.modUsb_upd (f : Usb → Usb) : (s.modUsb f).upd = s.upd := rfl
@[simp] theorem State.modUsb_thr (f : Usb → Usb) : (s.modUsb f).thr = s.thr := rfl
@[simp] theorem State.modUsb_freeCount (f : Usb → Usb) : (s.modUsb f).freeCount = s.freeCount := rfl

/-! ### modStream -/

@[simp] theorem State.modStream_usb (k : Nat) (f : Stream → Stream) : (s.modStream k f).usb = { s.usb with streams := updAt s.usb.streams k f } := rfl
@[simp] theorem State.modStream_pending (k : Nat) (f : Stream → Stream) : (s.modStream k f).pending = s.pending := rfl
@[simp] theorem State.modStream_tm (k : Nat) (f : Stream → Stream) : (s.modStream k f).tm = s.tm := rfl
@[simp] theorem State.modStream_mb (k : Nat) (f : Stream → Stream) : (s.modStream k f).mb = s.mb := rfl
@[simp] theorem State.modStream_cfg (k : Nat) (f : Stream → Stream) : (s.modStream k f).cfg = s.cfg := rfl
@[simp] theorem State.modStream_cnt (k : Nat) (f : Stream → Stream) : (s.modStream k f).cnt = s.cnt := rfl
@[simp] theorem State.modStream_ev (k : Nat) (f : Stream → Stream) : (s.modStream k f).ev = s.ev := rfl
@[simp] theorem State.modStream_alm (k : Nat) (f : Stream → Stream) : (s.modStream k f).alm = s.alm := rfl
@[simp] theorem State.modStream_drill (k : Nat) (f : Stream → Stream) : (s.modStream k f).drill = s.drill := rfl
@[simp] theorem State.modStream_sheaf (k : Nat) (f : Stream → Stream) : (s.modStream k f).sheaf = s.sheaf := rfl
@[simp] theorem State.modStream_csp (k : Nat) (f : Stream → Stream) : (s.modStream k f).csp = s.csp := rfl
@[simp] theorem State.modStream_csp8 (k : Nat) (f : Stream → Stream) : (s.modStream k f).csp8 = s.csp8 := rfl
@[simp] theorem State.modStream_sent (k : Nat) (f : Stream → Stream) : (s.modStream k f).sent = s.sent := rfl
@[simp] theorem State.modStream_edge (k : Nat) (f : Stream → Stream) : (s.modStream k f).edge = s.edge := rfl
@[simp] theorem State.modStream_banks (k : Nat) (f : Stream → Stream) : (s.modStream k f).banks = s.banks := rfl
@[simp] theorem State.modStream_twt (k : Nat) (f : Stream → Stream) : (s.modStream k f).twt = s.twt := rfl
@[simp] theorem State.modStream_mirror (k : Nat) (f : Stream → Stream) : (s.modStream k f).mirror = s.mirror := rfl
@[simp] theorem State.modStream_mem (k : Nat) (f : Stream → Stream) : (s.modStream k f).mem = s.mem := rfl
@[simp] theorem State.modStream_clk (k : Nat) (f : Stream → Stream) : (s.modStream k f).clk = s.clk := rfl
@[simp] theorem State.modStream_boot (k : Nat) (f : Stream → Stream) : (s.modStream k f).boot = s.boot := rfl
@[simp] theorem State.modStream_lev (k : Nat) (f : Stream → Stream) : (s.modStream k f).lev = s.lev := rfl
@[simp] theorem State.modStream_pw (k : Nat) (f : Stream → Stream) : (s.modStream k f).pw = s.pw := rfl
@[simp] theorem State.modStream_yoke (k : Nat) (f : Stream → Stream) : (s.modStream k f).yoke = s.yoke := rfl
@[simp] theorem State.modStream_hw (k : Nat) (f : Stream → Stream) : (s.modStream k f).hw = s.hw := rfl
@[simp] theorem State.modStream_upd (k : Nat) (f : Stream → Stream) : (s.modStream k f).upd = s.upd := rfl
@[simp] theorem State.modStream_thr (k : Nat) (f : Stream → Stream) : (s.modStream k f).thr = s.thr := rfl
@[simp] theorem State.modStream_freeCount (k : Nat) (f : Stream → Stream) : (s.modStream k f).freeCount = s.freeCount := rfl

/-! ### modHub -/

@[simp] theorem State.modHub_usb (k : Nat) (f : HubPort → HubPort) : (s.modHub k f).usb = { s.usb with ports := updAt s.usb.ports k f } := rfl
@[simp] theorem State.modHub_pending (k : Nat) (f : HubPort → HubPort) : (s.modHub k f).pending = s.pending := rfl
@[simp] theorem State.modHub_tm (k : Nat) (f : HubPort → HubPort) : (s.modHub k f).tm = s.tm := rfl
@[simp] theorem State.modHub_mb (k : Nat) (f : HubPort → HubPort) : (s.modHub k f).mb = s.mb := rfl
@[simp] theorem State.modHub_cfg (k : Nat) (f : HubPort → HubPort) : (s.modHub k f).cfg = s.cfg := rfl
@[simp] theorem State.modHub_cnt (k : Nat) (f : HubPort → HubPort) : (s.modHub k f).cnt = s.cnt := rfl
@[simp] theorem State.modHub_ev (k : Nat) (f : HubPort → HubPort) : (s.modHub k f).ev = s.ev := rfl
@[simp] theorem State.modHub_alm (k : Nat) (f : HubPort → HubPort) : (s.modHub k f).alm = s.alm := rfl
@[simp] theorem State.modHub_drill (k : Nat) (f : HubPort → HubPort) : (s.modHub k f).drill = s.drill := rfl
@[simp] theorem State.modHub_sheaf (k : Nat) (f : HubPort → HubPort) : (s.modHub k f).sheaf = s.sheaf := rfl
@[simp] theorem State.modHub_csp (k : Nat) (f : HubPort → HubPort) : (s.modHub k f).csp = s.csp := rfl
@[simp] theorem State.modHub_csp8 (k : Nat) (f : HubPort → HubPort) : (s.modHub k f).csp8 = s.csp8 := rfl
@[simp] theorem State.modHub_sent (k : Nat) (f : HubPort → HubPort) : (s.modHub k f).sent = s.sent := rfl
@[simp] theorem State.modHub_edge (k : Nat) (f : HubPort → HubPort) : (s.modHub k f).edge = s.edge := rfl
@[simp] theorem State.modHub_banks (k : Nat) (f : HubPort → HubPort) : (s.modHub k f).banks = s.banks := rfl
@[simp] theorem State.modHub_twt (k : Nat) (f : HubPort → HubPort) : (s.modHub k f).twt = s.twt := rfl
@[simp] theorem State.modHub_mirror (k : Nat) (f : HubPort → HubPort) : (s.modHub k f).mirror = s.mirror := rfl
@[simp] theorem State.modHub_mem (k : Nat) (f : HubPort → HubPort) : (s.modHub k f).mem = s.mem := rfl
@[simp] theorem State.modHub_clk (k : Nat) (f : HubPort → HubPort) : (s.modHub k f).clk = s.clk := rfl
@[simp] theorem State.modHub_boot (k : Nat) (f : HubPort → HubPort) : (s.modHub k f).boot = s.boot := rfl
@[simp] theorem State.modHub_lev (k : Nat) (f : HubPort → HubPort) : (s.modHub k f).lev = s.lev := rfl
@[simp] theorem State.modHub_pw (k : Nat) (f : HubPort → HubPort) : (s.modHub k f).pw = s.pw := rfl
@[simp] theorem State.modHub_yoke (k : Nat) (f : HubPort → HubPort) : (s.modHub k f).yoke = s.yoke := rfl
@[simp] theorem State.modHub_hw (k : Nat) (f : HubPort → HubPort) : (s.modHub k f).hw = s.hw := rfl
@[simp] theorem State.modHub_upd (k : Nat) (f : HubPort → HubPort) : (s.modHub k f).upd = s.upd := rfl
@[simp] theorem State.modHub_thr (k : Nat) (f : HubPort → HubPort) : (s.modHub k f).thr = s.thr := rfl
@[simp] theorem State.modHub_freeCount (k : Nat) (f : HubPort → HubPort) : (s.modHub k f).freeCount = s.freeCount := rfl

/-! ### modYoke -/

@[simp] theorem State.modYoke_yoke (f : Yoke → Yoke) : (s.modYoke f).yoke = f s.yoke := rfl
@[simp] theorem State.modYoke_pending (f : Yoke → Yoke) : (s.modYoke f).pending = s.pending := rfl
@[simp] theorem State.modYoke_tm (f : Yoke → Yoke) : (s.modYoke f).tm = s.tm := rfl
@[simp] theorem State.modYoke_mb (f : Yoke → Yoke) : (s.modYoke f).mb = s.mb := rfl
@[simp] theorem State.modYoke_cfg (f : Yoke → Yoke) : (s.modYoke f).cfg = s.cfg := rfl
@[simp] theorem State.modYoke_cnt (f : Yoke → Yoke) : (s.modYoke f).cnt = s.cnt := rfl
@[simp] theorem State.modYoke_ev (f : Yoke → Yoke) : (s.modYoke f).ev = s.ev := rfl
@[simp] theorem State.modYoke_alm (f : Yoke → Yoke) : (s.modYoke f).alm = s.alm := rfl
@[simp] theorem State.modYoke_drill (f : Yoke → Yoke) : (s.modYoke f).drill = s.drill := rfl
@[simp] theorem State.modYoke_sheaf (f : Yoke → Yoke) : (s.modYoke f).sheaf = s.sheaf := rfl
@[simp] theorem State.modYoke_csp (f : Yoke → Yoke) : (s.modYoke f).csp = s.csp := rfl
@[simp] theorem State.modYoke_csp8 (f : Yoke → Yoke) : (s.modYoke f).csp8 = s.csp8 := rfl
@[simp] theorem State.modYoke_sent (f : Yoke → Yoke) : (s.modYoke f).sent = s.sent := rfl
@[simp] theorem State.modYoke_edge (f : Yoke → Yoke) : (s.modYoke f).edge = s.edge := rfl
@[simp] theorem State.modYoke_banks (f : Yoke → Yoke) : (s.modYoke f).banks = s.banks := rfl
@[simp] theorem State.modYoke_twt (f : Yoke → Yoke) : (s.modYoke f).twt = s.twt := rfl
@[simp] theorem State.modYoke_mirror (f : Yoke → Yoke) : (s.modYoke f).mirror = s.mirror := rfl
@[simp] theorem State.modYoke_mem (f : Yoke → Yoke) : (s.modYoke f).mem = s.mem := rfl
@[simp] theorem State.modYoke_clk (f : Yoke → Yoke) : (s.modYoke f).clk = s.clk := rfl
@[simp] theorem State.modYoke_boot (f : Yoke → Yoke) : (s.modYoke f).boot = s.boot := rfl
@[simp] theorem State.modYoke_lev (f : Yoke → Yoke) : (s.modYoke f).lev = s.lev := rfl
@[simp] theorem State.modYoke_pw (f : Yoke → Yoke) : (s.modYoke f).pw = s.pw := rfl
@[simp] theorem State.modYoke_usb (f : Yoke → Yoke) : (s.modYoke f).usb = s.usb := rfl
@[simp] theorem State.modYoke_hw (f : Yoke → Yoke) : (s.modYoke f).hw = s.hw := rfl
@[simp] theorem State.modYoke_upd (f : Yoke → Yoke) : (s.modYoke f).upd = s.upd := rfl
@[simp] theorem State.modYoke_thr (f : Yoke → Yoke) : (s.modYoke f).thr = s.thr := rfl
@[simp] theorem State.modYoke_freeCount (f : Yoke → Yoke) : (s.modYoke f).freeCount = s.freeCount := rfl

/-! ### modPos -/

@[simp] theorem State.modPos_yoke (k : Nat) (f : Position → Position) : (s.modPos k f).yoke = { s.yoke with positions := updAt s.yoke.positions (k - 1) f } := rfl
@[simp] theorem State.modPos_pending (k : Nat) (f : Position → Position) : (s.modPos k f).pending = s.pending := rfl
@[simp] theorem State.modPos_tm (k : Nat) (f : Position → Position) : (s.modPos k f).tm = s.tm := rfl
@[simp] theorem State.modPos_mb (k : Nat) (f : Position → Position) : (s.modPos k f).mb = s.mb := rfl
@[simp] theorem State.modPos_cfg (k : Nat) (f : Position → Position) : (s.modPos k f).cfg = s.cfg := rfl
@[simp] theorem State.modPos_cnt (k : Nat) (f : Position → Position) : (s.modPos k f).cnt = s.cnt := rfl
@[simp] theorem State.modPos_ev (k : Nat) (f : Position → Position) : (s.modPos k f).ev = s.ev := rfl
@[simp] theorem State.modPos_alm (k : Nat) (f : Position → Position) : (s.modPos k f).alm = s.alm := rfl
@[simp] theorem State.modPos_drill (k : Nat) (f : Position → Position) : (s.modPos k f).drill = s.drill := rfl
@[simp] theorem State.modPos_sheaf (k : Nat) (f : Position → Position) : (s.modPos k f).sheaf = s.sheaf := rfl
@[simp] theorem State.modPos_csp (k : Nat) (f : Position → Position) : (s.modPos k f).csp = s.csp := rfl
@[simp] theorem State.modPos_csp8 (k : Nat) (f : Position → Position) : (s.modPos k f).csp8 = s.csp8 := rfl
@[simp] theorem State.modPos_sent (k : Nat) (f : Position → Position) : (s.modPos k f).sent = s.sent := rfl
@[simp] theorem State.modPos_edge (k : Nat) (f : Position → Position) : (s.modPos k f).edge = s.edge := rfl
@[simp] theorem State.modPos_banks (k : Nat) (f : Position → Position) : (s.modPos k f).banks = s.banks := rfl
@[simp] theorem State.modPos_twt (k : Nat) (f : Position → Position) : (s.modPos k f).twt = s.twt := rfl
@[simp] theorem State.modPos_mirror (k : Nat) (f : Position → Position) : (s.modPos k f).mirror = s.mirror := rfl
@[simp] theorem State.modPos_mem (k : Nat) (f : Position → Position) : (s.modPos k f).mem = s.mem := rfl
@[simp] theorem State.modPos_clk (k : Nat) (f : Position → Position) : (s.modPos k f).clk = s.clk := rfl
@[simp] theorem State.modPos_boot (k : Nat) (f : Position → Position) : (s.modPos k f).boot = s.boot := rfl
@[simp] theorem State.modPos_lev (k : Nat) (f : Position → Position) : (s.modPos k f).lev = s.lev := rfl
@[simp] theorem State.modPos_pw (k : Nat) (f : Position → Position) : (s.modPos k f).pw = s.pw := rfl
@[simp] theorem State.modPos_usb (k : Nat) (f : Position → Position) : (s.modPos k f).usb = s.usb := rfl
@[simp] theorem State.modPos_hw (k : Nat) (f : Position → Position) : (s.modPos k f).hw = s.hw := rfl
@[simp] theorem State.modPos_upd (k : Nat) (f : Position → Position) : (s.modPos k f).upd = s.upd := rfl
@[simp] theorem State.modPos_thr (k : Nat) (f : Position → Position) : (s.modPos k f).thr = s.thr := rfl
@[simp] theorem State.modPos_freeCount (k : Nat) (f : Position → Position) : (s.modPos k f).freeCount = s.freeCount := rfl

/-! ### modHw -/

@[simp] theorem State.modHw_hw (f : Hw → Hw) : (s.modHw f).hw = f s.hw := rfl
@[simp] theorem State.modHw_pending (f : Hw → Hw) : (s.modHw f).pending = s.pending := rfl
@[simp] theorem State.modHw_tm (f : Hw → Hw) : (s.modHw f).tm = s.tm := rfl
@[simp] theorem State.modHw_mb (f : Hw → Hw) : (s.modHw f).mb = s.mb := rfl
@[simp] theorem State.modHw_cfg (f : Hw → Hw) : (s.modHw f).cfg = s.cfg := rfl
@[simp] theorem State.modHw_cnt (f : Hw → Hw) : (s.modHw f).cnt = s.cnt := rfl
@[simp] theorem State.modHw_ev (f : Hw → Hw) : (s.modHw f).ev = s.ev := rfl
@[simp] theorem State.modHw_alm (f : Hw → Hw) : (s.modHw f).alm = s.alm := rfl
@[simp] theorem State.modHw_drill (f : Hw → Hw) : (s.modHw f).drill = s.drill := rfl
@[simp] theorem State.modHw_sheaf (f : Hw → Hw) : (s.modHw f).sheaf = s.sheaf := rfl
@[simp] theorem State.modHw_csp (f : Hw → Hw) : (s.modHw f).csp = s.csp := rfl
@[simp] theorem State.modHw_csp8 (f : Hw → Hw) : (s.modHw f).csp8 = s.csp8 := rfl
@[simp] theorem State.modHw_sent (f : Hw → Hw) : (s.modHw f).sent = s.sent := rfl
@[simp] theorem State.modHw_edge (f : Hw → Hw) : (s.modHw f).edge = s.edge := rfl
@[simp] theorem State.modHw_banks (f : Hw → Hw) : (s.modHw f).banks = s.banks := rfl
@[simp] theorem State.modHw_twt (f : Hw → Hw) : (s.modHw f).twt = s.twt := rfl
@[simp] theorem State.modHw_mirror (f : Hw → Hw) : (s.modHw f).mirror = s.mirror := rfl
@[simp] theorem State.modHw_mem (f : Hw → Hw) : (s.modHw f).mem = s.mem := rfl
@[simp] theorem State.modHw_clk (f : Hw → Hw) : (s.modHw f).clk = s.clk := rfl
@[simp] theorem State.modHw_boot (f : Hw → Hw) : (s.modHw f).boot = s.boot := rfl
@[simp] theorem State.modHw_lev (f : Hw → Hw) : (s.modHw f).lev = s.lev := rfl
@[simp] theorem State.modHw_pw (f : Hw → Hw) : (s.modHw f).pw = s.pw := rfl
@[simp] theorem State.modHw_usb (f : Hw → Hw) : (s.modHw f).usb = s.usb := rfl
@[simp] theorem State.modHw_yoke (f : Hw → Hw) : (s.modHw f).yoke = s.yoke := rfl
@[simp] theorem State.modHw_upd (f : Hw → Hw) : (s.modHw f).upd = s.upd := rfl
@[simp] theorem State.modHw_thr (f : Hw → Hw) : (s.modHw f).thr = s.thr := rfl
@[simp] theorem State.modHw_freeCount (f : Hw → Hw) : (s.modHw f).freeCount = s.freeCount := rfl

/-! ### modEpisode -/

@[simp] theorem State.modEpisode_hw (k : Nat) (f : Episode → Episode) : (s.modEpisode k f).hw = { s.hw with episodes := updAt s.hw.episodes k f } := rfl
@[simp] theorem State.modEpisode_pending (k : Nat) (f : Episode → Episode) : (s.modEpisode k f).pending = s.pending := rfl
@[simp] theorem State.modEpisode_tm (k : Nat) (f : Episode → Episode) : (s.modEpisode k f).tm = s.tm := rfl
@[simp] theorem State.modEpisode_mb (k : Nat) (f : Episode → Episode) : (s.modEpisode k f).mb = s.mb := rfl
@[simp] theorem State.modEpisode_cfg (k : Nat) (f : Episode → Episode) : (s.modEpisode k f).cfg = s.cfg := rfl
@[simp] theorem State.modEpisode_cnt (k : Nat) (f : Episode → Episode) : (s.modEpisode k f).cnt = s.cnt := rfl
@[simp] theorem State.modEpisode_ev (k : Nat) (f : Episode → Episode) : (s.modEpisode k f).ev = s.ev := rfl
@[simp] theorem State.modEpisode_alm (k : Nat) (f : Episode → Episode) : (s.modEpisode k f).alm = s.alm := rfl
@[simp] theorem State.modEpisode_drill (k : Nat) (f : Episode → Episode) : (s.modEpisode k f).drill = s.drill := rfl
@[simp] theorem State.modEpisode_sheaf (k : Nat) (f : Episode → Episode) : (s.modEpisode k f).sheaf = s.sheaf := rfl
@[simp] theorem State.modEpisode_csp (k : Nat) (f : Episode → Episode) : (s.modEpisode k f).csp = s.csp := rfl
@[simp] theorem State.modEpisode_csp8 (k : Nat) (f : Episode → Episode) : (s.modEpisode k f).csp8 = s.csp8 := rfl
@[simp] theorem State.modEpisode_sent (k : Nat) (f : Episode → Episode) : (s.modEpisode k f).sent = s.sent := rfl
@[simp] theorem State.modEpisode_edge (k : Nat) (f : Episode → Episode) : (s.modEpisode k f).edge = s.edge := rfl
@[simp] theorem State.modEpisode_banks (k : Nat) (f : Episode → Episode) : (s.modEpisode k f).banks = s.banks := rfl
@[simp] theorem State.modEpisode_twt (k : Nat) (f : Episode → Episode) : (s.modEpisode k f).twt = s.twt := rfl
@[simp] theorem State.modEpisode_mirror (k : Nat) (f : Episode → Episode) : (s.modEpisode k f).mirror = s.mirror := rfl
@[simp] theorem State.modEpisode_mem (k : Nat) (f : Episode → Episode) : (s.modEpisode k f).mem = s.mem := rfl
@[simp] theorem State.modEpisode_clk (k : Nat) (f : Episode → Episode) : (s.modEpisode k f).clk = s.clk := rfl
@[simp] theorem State.modEpisode_boot (k : Nat) (f : Episode → Episode) : (s.modEpisode k f).boot = s.boot := rfl
@[simp] theorem State.modEpisode_lev (k : Nat) (f : Episode → Episode) : (s.modEpisode k f).lev = s.lev := rfl
@[simp] theorem State.modEpisode_pw (k : Nat) (f : Episode → Episode) : (s.modEpisode k f).pw = s.pw := rfl
@[simp] theorem State.modEpisode_usb (k : Nat) (f : Episode → Episode) : (s.modEpisode k f).usb = s.usb := rfl
@[simp] theorem State.modEpisode_yoke (k : Nat) (f : Episode → Episode) : (s.modEpisode k f).yoke = s.yoke := rfl
@[simp] theorem State.modEpisode_upd (k : Nat) (f : Episode → Episode) : (s.modEpisode k f).upd = s.upd := rfl
@[simp] theorem State.modEpisode_thr (k : Nat) (f : Episode → Episode) : (s.modEpisode k f).thr = s.thr := rfl
@[simp] theorem State.modEpisode_freeCount (k : Nat) (f : Episode → Episode) : (s.modEpisode k f).freeCount = s.freeCount := rfl

/-! ### modUpd -/

@[simp] theorem State.modUpd_upd (f : Upd → Upd) : (s.modUpd f).upd = f s.upd := rfl
@[simp] theorem State.modUpd_pending (f : Upd → Upd) : (s.modUpd f).pending = s.pending := rfl
@[simp] theorem State.modUpd_tm (f : Upd → Upd) : (s.modUpd f).tm = s.tm := rfl
@[simp] theorem State.modUpd_mb (f : Upd → Upd) : (s.modUpd f).mb = s.mb := rfl
@[simp] theorem State.modUpd_cfg (f : Upd → Upd) : (s.modUpd f).cfg = s.cfg := rfl
@[simp] theorem State.modUpd_cnt (f : Upd → Upd) : (s.modUpd f).cnt = s.cnt := rfl
@[simp] theorem State.modUpd_ev (f : Upd → Upd) : (s.modUpd f).ev = s.ev := rfl
@[simp] theorem State.modUpd_alm (f : Upd → Upd) : (s.modUpd f).alm = s.alm := rfl
@[simp] theorem State.modUpd_drill (f : Upd → Upd) : (s.modUpd f).drill = s.drill := rfl
@[simp] theorem State.modUpd_sheaf (f : Upd → Upd) : (s.modUpd f).sheaf = s.sheaf := rfl
@[simp] theorem State.modUpd_csp (f : Upd → Upd) : (s.modUpd f).csp = s.csp := rfl
@[simp] theorem State.modUpd_csp8 (f : Upd → Upd) : (s.modUpd f).csp8 = s.csp8 := rfl
@[simp] theorem State.modUpd_sent (f : Upd → Upd) : (s.modUpd f).sent = s.sent := rfl
@[simp] theorem State.modUpd_edge (f : Upd → Upd) : (s.modUpd f).edge = s.edge := rfl
@[simp] theorem State.modUpd_banks (f : Upd → Upd) : (s.modUpd f).banks = s.banks := rfl
@[simp] theorem State.modUpd_twt (f : Upd → Upd) : (s.modUpd f).twt = s.twt := rfl
@[simp] theorem State.modUpd_mirror (f : Upd → Upd) : (s.modUpd f).mirror = s.mirror := rfl
@[simp] theorem State.modUpd_mem (f : Upd → Upd) : (s.modUpd f).mem = s.mem := rfl
@[simp] theorem State.modUpd_clk (f : Upd → Upd) : (s.modUpd f).clk = s.clk := rfl
@[simp] theorem State.modUpd_boot (f : Upd → Upd) : (s.modUpd f).boot = s.boot := rfl
@[simp] theorem State.modUpd_lev (f : Upd → Upd) : (s.modUpd f).lev = s.lev := rfl
@[simp] theorem State.modUpd_pw (f : Upd → Upd) : (s.modUpd f).pw = s.pw := rfl
@[simp] theorem State.modUpd_usb (f : Upd → Upd) : (s.modUpd f).usb = s.usb := rfl
@[simp] theorem State.modUpd_yoke (f : Upd → Upd) : (s.modUpd f).yoke = s.yoke := rfl
@[simp] theorem State.modUpd_hw (f : Upd → Upd) : (s.modUpd f).hw = s.hw := rfl
@[simp] theorem State.modUpd_thr (f : Upd → Upd) : (s.modUpd f).thr = s.thr := rfl
@[simp] theorem State.modUpd_freeCount (f : Upd → Upd) : (s.modUpd f).freeCount = s.freeCount := rfl

/-! ### modThr -/

@[simp] theorem State.modThr_thr (f : Thr → Thr) : (s.modThr f).thr = f s.thr := rfl
@[simp] theorem State.modThr_pending (f : Thr → Thr) : (s.modThr f).pending = s.pending := rfl
@[simp] theorem State.modThr_tm (f : Thr → Thr) : (s.modThr f).tm = s.tm := rfl
@[simp] theorem State.modThr_mb (f : Thr → Thr) : (s.modThr f).mb = s.mb := rfl
@[simp] theorem State.modThr_cfg (f : Thr → Thr) : (s.modThr f).cfg = s.cfg := rfl
@[simp] theorem State.modThr_cnt (f : Thr → Thr) : (s.modThr f).cnt = s.cnt := rfl
@[simp] theorem State.modThr_ev (f : Thr → Thr) : (s.modThr f).ev = s.ev := rfl
@[simp] theorem State.modThr_alm (f : Thr → Thr) : (s.modThr f).alm = s.alm := rfl
@[simp] theorem State.modThr_drill (f : Thr → Thr) : (s.modThr f).drill = s.drill := rfl
@[simp] theorem State.modThr_sheaf (f : Thr → Thr) : (s.modThr f).sheaf = s.sheaf := rfl
@[simp] theorem State.modThr_csp (f : Thr → Thr) : (s.modThr f).csp = s.csp := rfl
@[simp] theorem State.modThr_csp8 (f : Thr → Thr) : (s.modThr f).csp8 = s.csp8 := rfl
@[simp] theorem State.modThr_sent (f : Thr → Thr) : (s.modThr f).sent = s.sent := rfl
@[simp] theorem State.modThr_edge (f : Thr → Thr) : (s.modThr f).edge = s.edge := rfl
@[simp] theorem State.modThr_banks (f : Thr → Thr) : (s.modThr f).banks = s.banks := rfl
@[simp] theorem State.modThr_twt (f : Thr → Thr) : (s.modThr f).twt = s.twt := rfl
@[simp] theorem State.modThr_mirror (f : Thr → Thr) : (s.modThr f).mirror = s.mirror := rfl
@[simp] theorem State.modThr_mem (f : Thr → Thr) : (s.modThr f).mem = s.mem := rfl
@[simp] theorem State.modThr_clk (f : Thr → Thr) : (s.modThr f).clk = s.clk := rfl
@[simp] theorem State.modThr_boot (f : Thr → Thr) : (s.modThr f).boot = s.boot := rfl
@[simp] theorem State.modThr_lev (f : Thr → Thr) : (s.modThr f).lev = s.lev := rfl
@[simp] theorem State.modThr_pw (f : Thr → Thr) : (s.modThr f).pw = s.pw := rfl
@[simp] theorem State.modThr_usb (f : Thr → Thr) : (s.modThr f).usb = s.usb := rfl
@[simp] theorem State.modThr_yoke (f : Thr → Thr) : (s.modThr f).yoke = s.yoke := rfl
@[simp] theorem State.modThr_hw (f : Thr → Thr) : (s.modThr f).hw = s.hw := rfl
@[simp] theorem State.modThr_upd (f : Thr → Thr) : (s.modThr f).upd = s.upd := rfl
@[simp] theorem State.modThr_freeCount (f : Thr → Thr) : (s.modThr f).freeCount = s.freeCount := rfl

/-! ### modCtx -/

@[simp] theorem State.modCtx_thr (k : Nat) (f : Ctx → Ctx) : (s.modCtx k f).thr = { s.thr with ctxs := updAt s.thr.ctxs k f } := rfl
@[simp] theorem State.modCtx_pending (k : Nat) (f : Ctx → Ctx) : (s.modCtx k f).pending = s.pending := rfl
@[simp] theorem State.modCtx_tm (k : Nat) (f : Ctx → Ctx) : (s.modCtx k f).tm = s.tm := rfl
@[simp] theorem State.modCtx_mb (k : Nat) (f : Ctx → Ctx) : (s.modCtx k f).mb = s.mb := rfl
@[simp] theorem State.modCtx_cfg (k : Nat) (f : Ctx → Ctx) : (s.modCtx k f).cfg = s.cfg := rfl
@[simp] theorem State.modCtx_cnt (k : Nat) (f : Ctx → Ctx) : (s.modCtx k f).cnt = s.cnt := rfl
@[simp] theorem State.modCtx_ev (k : Nat) (f : Ctx → Ctx) : (s.modCtx k f).ev = s.ev := rfl
@[simp] theorem State.modCtx_alm (k : Nat) (f : Ctx → Ctx) : (s.modCtx k f).alm = s.alm := rfl
@[simp] theorem State.modCtx_drill (k : Nat) (f : Ctx → Ctx) : (s.modCtx k f).drill = s.drill := rfl
@[simp] theorem State.modCtx_sheaf (k : Nat) (f : Ctx → Ctx) : (s.modCtx k f).sheaf = s.sheaf := rfl
@[simp] theorem State.modCtx_csp (k : Nat) (f : Ctx → Ctx) : (s.modCtx k f).csp = s.csp := rfl
@[simp] theorem State.modCtx_csp8 (k : Nat) (f : Ctx → Ctx) : (s.modCtx k f).csp8 = s.csp8 := rfl
@[simp] theorem State.modCtx_sent (k : Nat) (f : Ctx → Ctx) : (s.modCtx k f).sent = s.sent := rfl
@[simp] theorem State.modCtx_edge (k : Nat) (f : Ctx → Ctx) : (s.modCtx k f).edge = s.edge := rfl
@[simp] theorem State.modCtx_banks (k : Nat) (f : Ctx → Ctx) : (s.modCtx k f).banks = s.banks := rfl
@[simp] theorem State.modCtx_twt (k : Nat) (f : Ctx → Ctx) : (s.modCtx k f).twt = s.twt := rfl
@[simp] theorem State.modCtx_mirror (k : Nat) (f : Ctx → Ctx) : (s.modCtx k f).mirror = s.mirror := rfl
@[simp] theorem State.modCtx_mem (k : Nat) (f : Ctx → Ctx) : (s.modCtx k f).mem = s.mem := rfl
@[simp] theorem State.modCtx_clk (k : Nat) (f : Ctx → Ctx) : (s.modCtx k f).clk = s.clk := rfl
@[simp] theorem State.modCtx_boot (k : Nat) (f : Ctx → Ctx) : (s.modCtx k f).boot = s.boot := rfl
@[simp] theorem State.modCtx_lev (k : Nat) (f : Ctx → Ctx) : (s.modCtx k f).lev = s.lev := rfl
@[simp] theorem State.modCtx_pw (k : Nat) (f : Ctx → Ctx) : (s.modCtx k f).pw = s.pw := rfl
@[simp] theorem State.modCtx_usb (k : Nat) (f : Ctx → Ctx) : (s.modCtx k f).usb = s.usb := rfl
@[simp] theorem State.modCtx_yoke (k : Nat) (f : Ctx → Ctx) : (s.modCtx k f).yoke = s.yoke := rfl
@[simp] theorem State.modCtx_hw (k : Nat) (f : Ctx → Ctx) : (s.modCtx k f).hw = s.hw := rfl
@[simp] theorem State.modCtx_upd (k : Nat) (f : Ctx → Ctx) : (s.modCtx k f).upd = s.upd := rfl
@[simp] theorem State.modCtx_freeCount (k : Nat) (f : Ctx → Ctx) : (s.modCtx k f).freeCount = s.freeCount := rfl

/-! ### modChan -/

@[simp] theorem State.modChan_mb (k : Nat) (f : Chan → Chan) : (s.modChan k f).mb = { s.mb with chans := updAt s.mb.chans k f } := rfl
@[simp] theorem State.modChan_pending (k : Nat) (f : Chan → Chan) : (s.modChan k f).pending = s.pending := rfl
@[simp] theorem State.modChan_tm (k : Nat) (f : Chan → Chan) : (s.modChan k f).tm = s.tm := rfl
@[simp] theorem State.modChan_cfg (k : Nat) (f : Chan → Chan) : (s.modChan k f).cfg = s.cfg := rfl
@[simp] theorem State.modChan_cnt (k : Nat) (f : Chan → Chan) : (s.modChan k f).cnt = s.cnt := rfl
@[simp] theorem State.modChan_ev (k : Nat) (f : Chan → Chan) : (s.modChan k f).ev = s.ev := rfl
@[simp] theorem State.modChan_alm (k : Nat) (f : Chan → Chan) : (s.modChan k f).alm = s.alm := rfl
@[simp] theorem State.modChan_drill (k : Nat) (f : Chan → Chan) : (s.modChan k f).drill = s.drill := rfl
@[simp] theorem State.modChan_sheaf (k : Nat) (f : Chan → Chan) : (s.modChan k f).sheaf = s.sheaf := rfl
@[simp] theorem State.modChan_csp (k : Nat) (f : Chan → Chan) : (s.modChan k f).csp = s.csp := rfl
@[simp] theorem State.modChan_csp8 (k : Nat) (f : Chan → Chan) : (s.modChan k f).csp8 = s.csp8 := rfl
@[simp] theorem State.modChan_sent (k : Nat) (f : Chan → Chan) : (s.modChan k f).sent = s.sent := rfl
@[simp] theorem State.modChan_edge (k : Nat) (f : Chan → Chan) : (s.modChan k f).edge = s.edge := rfl
@[simp] theorem State.modChan_banks (k : Nat) (f : Chan → Chan) : (s.modChan k f).banks = s.banks := rfl
@[simp] theorem State.modChan_twt (k : Nat) (f : Chan → Chan) : (s.modChan k f).twt = s.twt := rfl
@[simp] theorem State.modChan_mirror (k : Nat) (f : Chan → Chan) : (s.modChan k f).mirror = s.mirror := rfl
@[simp] theorem State.modChan_mem (k : Nat) (f : Chan → Chan) : (s.modChan k f).mem = s.mem := rfl
@[simp] theorem State.modChan_clk (k : Nat) (f : Chan → Chan) : (s.modChan k f).clk = s.clk := rfl
@[simp] theorem State.modChan_boot (k : Nat) (f : Chan → Chan) : (s.modChan k f).boot = s.boot := rfl
@[simp] theorem State.modChan_lev (k : Nat) (f : Chan → Chan) : (s.modChan k f).lev = s.lev := rfl
@[simp] theorem State.modChan_pw (k : Nat) (f : Chan → Chan) : (s.modChan k f).pw = s.pw := rfl
@[simp] theorem State.modChan_usb (k : Nat) (f : Chan → Chan) : (s.modChan k f).usb = s.usb := rfl
@[simp] theorem State.modChan_yoke (k : Nat) (f : Chan → Chan) : (s.modChan k f).yoke = s.yoke := rfl
@[simp] theorem State.modChan_hw (k : Nat) (f : Chan → Chan) : (s.modChan k f).hw = s.hw := rfl
@[simp] theorem State.modChan_upd (k : Nat) (f : Chan → Chan) : (s.modChan k f).upd = s.upd := rfl
@[simp] theorem State.modChan_thr (k : Nat) (f : Chan → Chan) : (s.modChan k f).thr = s.thr := rfl
@[simp] theorem State.modChan_freeCount (k : Nat) (f : Chan → Chan) : (s.modChan k f).freeCount = s.freeCount := rfl

/-! ### modEntry -/

@[simp] theorem State.modEntry_drill (k : Nat) (f : EntryRt → EntryRt) : (s.modEntry k f).drill = { s.drill with entries := updAt s.drill.entries k f } := rfl
@[simp] theorem State.modEntry_pending (k : Nat) (f : EntryRt → EntryRt) : (s.modEntry k f).pending = s.pending := rfl
@[simp] theorem State.modEntry_tm (k : Nat) (f : EntryRt → EntryRt) : (s.modEntry k f).tm = s.tm := rfl
@[simp] theorem State.modEntry_mb (k : Nat) (f : EntryRt → EntryRt) : (s.modEntry k f).mb = s.mb := rfl
@[simp] theorem State.modEntry_cfg (k : Nat) (f : EntryRt → EntryRt) : (s.modEntry k f).cfg = s.cfg := rfl
@[simp] theorem State.modEntry_cnt (k : Nat) (f : EntryRt → EntryRt) : (s.modEntry k f).cnt = s.cnt := rfl
@[simp] theorem State.modEntry_ev (k : Nat) (f : EntryRt → EntryRt) : (s.modEntry k f).ev = s.ev := rfl
@[simp] theorem State.modEntry_alm (k : Nat) (f : EntryRt → EntryRt) : (s.modEntry k f).alm = s.alm := rfl
@[simp] theorem State.modEntry_sheaf (k : Nat) (f : EntryRt → EntryRt) : (s.modEntry k f).sheaf = s.sheaf := rfl
@[simp] theorem State.modEntry_csp (k : Nat) (f : EntryRt → EntryRt) : (s.modEntry k f).csp = s.csp := rfl
@[simp] theorem State.modEntry_csp8 (k : Nat) (f : EntryRt → EntryRt) : (s.modEntry k f).csp8 = s.csp8 := rfl
@[simp] theorem State.modEntry_sent (k : Nat) (f : EntryRt → EntryRt) : (s.modEntry k f).sent = s.sent := rfl
@[simp] theorem State.modEntry_edge (k : Nat) (f : EntryRt → EntryRt) : (s.modEntry k f).edge = s.edge := rfl
@[simp] theorem State.modEntry_banks (k : Nat) (f : EntryRt → EntryRt) : (s.modEntry k f).banks = s.banks := rfl
@[simp] theorem State.modEntry_twt (k : Nat) (f : EntryRt → EntryRt) : (s.modEntry k f).twt = s.twt := rfl
@[simp] theorem State.modEntry_mirror (k : Nat) (f : EntryRt → EntryRt) : (s.modEntry k f).mirror = s.mirror := rfl
@[simp] theorem State.modEntry_mem (k : Nat) (f : EntryRt → EntryRt) : (s.modEntry k f).mem = s.mem := rfl
@[simp] theorem State.modEntry_clk (k : Nat) (f : EntryRt → EntryRt) : (s.modEntry k f).clk = s.clk := rfl
@[simp] theorem State.modEntry_boot (k : Nat) (f : EntryRt → EntryRt) : (s.modEntry k f).boot = s.boot := rfl
@[simp] theorem State.modEntry_lev (k : Nat) (f : EntryRt → EntryRt) : (s.modEntry k f).lev = s.lev := rfl
@[simp] theorem State.modEntry_pw (k : Nat) (f : EntryRt → EntryRt) : (s.modEntry k f).pw = s.pw := rfl
@[simp] theorem State.modEntry_usb (k : Nat) (f : EntryRt → EntryRt) : (s.modEntry k f).usb = s.usb := rfl
@[simp] theorem State.modEntry_yoke (k : Nat) (f : EntryRt → EntryRt) : (s.modEntry k f).yoke = s.yoke := rfl
@[simp] theorem State.modEntry_hw (k : Nat) (f : EntryRt → EntryRt) : (s.modEntry k f).hw = s.hw := rfl
@[simp] theorem State.modEntry_upd (k : Nat) (f : EntryRt → EntryRt) : (s.modEntry k f).upd = s.upd := rfl
@[simp] theorem State.modEntry_thr (k : Nat) (f : EntryRt → EntryRt) : (s.modEntry k f).thr = s.thr := rfl
@[simp] theorem State.modEntry_freeCount (k : Nat) (f : EntryRt → EntryRt) : (s.modEntry k f).freeCount = s.freeCount := rfl

/-! ### at -/

@[simp] theorem State.at_tm (t : Nat) : (s.at t).tm = { s.tm with now := max s.tm.now t } := rfl
@[simp] theorem State.at_pending (t : Nat) : (s.at t).pending = s.pending := rfl
@[simp] theorem State.at_mb (t : Nat) : (s.at t).mb = s.mb := rfl
@[simp] theorem State.at_cfg (t : Nat) : (s.at t).cfg = s.cfg := rfl
@[simp] theorem State.at_cnt (t : Nat) : (s.at t).cnt = s.cnt := rfl
@[simp] theorem State.at_ev (t : Nat) : (s.at t).ev = s.ev := rfl
@[simp] theorem State.at_alm (t : Nat) : (s.at t).alm = s.alm := rfl
@[simp] theorem State.at_drill (t : Nat) : (s.at t).drill = s.drill := rfl
@[simp] theorem State.at_sheaf (t : Nat) : (s.at t).sheaf = s.sheaf := rfl
@[simp] theorem State.at_csp (t : Nat) : (s.at t).csp = s.csp := rfl
@[simp] theorem State.at_csp8 (t : Nat) : (s.at t).csp8 = s.csp8 := rfl
@[simp] theorem State.at_sent (t : Nat) : (s.at t).sent = s.sent := rfl
@[simp] theorem State.at_edge (t : Nat) : (s.at t).edge = s.edge := rfl
@[simp] theorem State.at_banks (t : Nat) : (s.at t).banks = s.banks := rfl
@[simp] theorem State.at_twt (t : Nat) : (s.at t).twt = s.twt := rfl
@[simp] theorem State.at_mirror (t : Nat) : (s.at t).mirror = s.mirror := rfl
@[simp] theorem State.at_mem (t : Nat) : (s.at t).mem = s.mem := rfl
@[simp] theorem State.at_clk (t : Nat) : (s.at t).clk = s.clk := rfl
@[simp] theorem State.at_boot (t : Nat) : (s.at t).boot = s.boot := rfl
@[simp] theorem State.at_lev (t : Nat) : (s.at t).lev = s.lev := rfl
@[simp] theorem State.at_pw (t : Nat) : (s.at t).pw = s.pw := rfl
@[simp] theorem State.at_usb (t : Nat) : (s.at t).usb = s.usb := rfl
@[simp] theorem State.at_yoke (t : Nat) : (s.at t).yoke = s.yoke := rfl
@[simp] theorem State.at_hw (t : Nat) : (s.at t).hw = s.hw := rfl
@[simp] theorem State.at_upd (t : Nat) : (s.at t).upd = s.upd := rfl
@[simp] theorem State.at_thr (t : Nat) : (s.at t).thr = s.thr := rfl
@[simp] theorem State.at_freeCount (t : Nat) : (s.at t).freeCount = s.freeCount := rfl

/-! ### setReg -/

@[simp] theorem State.setReg_cfg (n w v : Nat) : (s.setReg n w v).cfg = Tab.set resetWord s.cfg (regKey n w) v := rfl
@[simp] theorem State.setReg_pending (n w v : Nat) : (s.setReg n w v).pending = s.pending := rfl
@[simp] theorem State.setReg_tm (n w v : Nat) : (s.setReg n w v).tm = s.tm := rfl
@[simp] theorem State.setReg_mb (n w v : Nat) : (s.setReg n w v).mb = s.mb := rfl
@[simp] theorem State.setReg_cnt (n w v : Nat) : (s.setReg n w v).cnt = s.cnt := rfl
@[simp] theorem State.setReg_ev (n w v : Nat) : (s.setReg n w v).ev = s.ev := rfl
@[simp] theorem State.setReg_alm (n w v : Nat) : (s.setReg n w v).alm = s.alm := rfl
@[simp] theorem State.setReg_drill (n w v : Nat) : (s.setReg n w v).drill = s.drill := rfl
@[simp] theorem State.setReg_sheaf (n w v : Nat) : (s.setReg n w v).sheaf = s.sheaf := rfl
@[simp] theorem State.setReg_csp (n w v : Nat) : (s.setReg n w v).csp = s.csp := rfl
@[simp] theorem State.setReg_csp8 (n w v : Nat) : (s.setReg n w v).csp8 = s.csp8 := rfl
@[simp] theorem State.setReg_sent (n w v : Nat) : (s.setReg n w v).sent = s.sent := rfl
@[simp] theorem State.setReg_edge (n w v : Nat) : (s.setReg n w v).edge = s.edge := rfl
@[simp] theorem State.setReg_banks (n w v : Nat) : (s.setReg n w v).banks = s.banks := rfl
@[simp] theorem State.setReg_twt (n w v : Nat) : (s.setReg n w v).twt = s.twt := rfl
@[simp] theorem State.setReg_mirror (n w v : Nat) : (s.setReg n w v).mirror = s.mirror := rfl
@[simp] theorem State.setReg_mem (n w v : Nat) : (s.setReg n w v).mem = s.mem := rfl
@[simp] theorem State.setReg_clk (n w v : Nat) : (s.setReg n w v).clk = s.clk := rfl
@[simp] theorem State.setReg_boot (n w v : Nat) : (s.setReg n w v).boot = s.boot := rfl
@[simp] theorem State.setReg_lev (n w v : Nat) : (s.setReg n w v).lev = s.lev := rfl
@[simp] theorem State.setReg_pw (n w v : Nat) : (s.setReg n w v).pw = s.pw := rfl
@[simp] theorem State.setReg_usb (n w v : Nat) : (s.setReg n w v).usb = s.usb := rfl
@[simp] theorem State.setReg_yoke (n w v : Nat) : (s.setReg n w v).yoke = s.yoke := rfl
@[simp] theorem State.setReg_hw (n w v : Nat) : (s.setReg n w v).hw = s.hw := rfl
@[simp] theorem State.setReg_upd (n w v : Nat) : (s.setReg n w v).upd = s.upd := rfl
@[simp] theorem State.setReg_thr (n w v : Nat) : (s.setReg n w v).thr = s.thr := rfl
@[simp] theorem State.setReg_freeCount (n w v : Nat) : (s.setReg n w v).freeCount = s.freeCount := rfl

/-! ### bumpBy -/

@[simp] theorem State.bumpBy_cnt (n w lo wd k : Nat) : (s.bumpBy n w lo wd k).cnt = Tab.set (fun _ => 0) s.cnt (cntKey n w lo) (satAdd wd (s.count n w lo) k) := rfl
@[simp] theorem State.bumpBy_pending (n w lo wd k : Nat) : (s.bumpBy n w lo wd k).pending = s.pending := rfl
@[simp] theorem State.bumpBy_tm (n w lo wd k : Nat) : (s.bumpBy n w lo wd k).tm = s.tm := rfl
@[simp] theorem State.bumpBy_mb (n w lo wd k : Nat) : (s.bumpBy n w lo wd k).mb = s.mb := rfl
@[simp] theorem State.bumpBy_cfg (n w lo wd k : Nat) : (s.bumpBy n w lo wd k).cfg = s.cfg := rfl
@[simp] theorem State.bumpBy_ev (n w lo wd k : Nat) : (s.bumpBy n w lo wd k).ev = s.ev := rfl
@[simp] theorem State.bumpBy_alm (n w lo wd k : Nat) : (s.bumpBy n w lo wd k).alm = s.alm := rfl
@[simp] theorem State.bumpBy_drill (n w lo wd k : Nat) : (s.bumpBy n w lo wd k).drill = s.drill := rfl
@[simp] theorem State.bumpBy_sheaf (n w lo wd k : Nat) : (s.bumpBy n w lo wd k).sheaf = s.sheaf := rfl
@[simp] theorem State.bumpBy_csp (n w lo wd k : Nat) : (s.bumpBy n w lo wd k).csp = s.csp := rfl
@[simp] theorem State.bumpBy_csp8 (n w lo wd k : Nat) : (s.bumpBy n w lo wd k).csp8 = s.csp8 := rfl
@[simp] theorem State.bumpBy_sent (n w lo wd k : Nat) : (s.bumpBy n w lo wd k).sent = s.sent := rfl
@[simp] theorem State.bumpBy_edge (n w lo wd k : Nat) : (s.bumpBy n w lo wd k).edge = s.edge := rfl
@[simp] theorem State.bumpBy_banks (n w lo wd k : Nat) : (s.bumpBy n w lo wd k).banks = s.banks := rfl
@[simp] theorem State.bumpBy_twt (n w lo wd k : Nat) : (s.bumpBy n w lo wd k).twt = s.twt := rfl
@[simp] theorem State.bumpBy_mirror (n w lo wd k : Nat) : (s.bumpBy n w lo wd k).mirror = s.mirror := rfl
@[simp] theorem State.bumpBy_mem (n w lo wd k : Nat) : (s.bumpBy n w lo wd k).mem = s.mem := rfl
@[simp] theorem State.bumpBy_clk (n w lo wd k : Nat) : (s.bumpBy n w lo wd k).clk = s.clk := rfl
@[simp] theorem State.bumpBy_boot (n w lo wd k : Nat) : (s.bumpBy n w lo wd k).boot = s.boot := rfl
@[simp] theorem State.bumpBy_lev (n w lo wd k : Nat) : (s.bumpBy n w lo wd k).lev = s.lev := rfl
@[simp] theorem State.bumpBy_pw (n w lo wd k : Nat) : (s.bumpBy n w lo wd k).pw = s.pw := rfl
@[simp] theorem State.bumpBy_usb (n w lo wd k : Nat) : (s.bumpBy n w lo wd k).usb = s.usb := rfl
@[simp] theorem State.bumpBy_yoke (n w lo wd k : Nat) : (s.bumpBy n w lo wd k).yoke = s.yoke := rfl
@[simp] theorem State.bumpBy_hw (n w lo wd k : Nat) : (s.bumpBy n w lo wd k).hw = s.hw := rfl
@[simp] theorem State.bumpBy_upd (n w lo wd k : Nat) : (s.bumpBy n w lo wd k).upd = s.upd := rfl
@[simp] theorem State.bumpBy_thr (n w lo wd k : Nat) : (s.bumpBy n w lo wd k).thr = s.thr := rfl
@[simp] theorem State.bumpBy_freeCount (n w lo wd k : Nat) : (s.bumpBy n w lo wd k).freeCount = s.freeCount := rfl

/-! ### bump -/

@[simp] theorem State.bump_cnt (n w lo wd : Nat) : (s.bump n w lo wd).cnt = Tab.set (fun _ => 0) s.cnt (cntKey n w lo) (satAdd wd (s.count n w lo) 1) := rfl
@[simp] theorem State.bump_pending (n w lo wd : Nat) : (s.bump n w lo wd).pending = s.pending := rfl
@[simp] theorem State.bump_tm (n w lo wd : Nat) : (s.bump n w lo wd).tm = s.tm := rfl
@[simp] theorem State.bump_mb (n w lo wd : Nat) : (s.bump n w lo wd).mb = s.mb := rfl
@[simp] theorem State.bump_cfg (n w lo wd : Nat) : (s.bump n w lo wd).cfg = s.cfg := rfl
@[simp] theorem State.bump_ev (n w lo wd : Nat) : (s.bump n w lo wd).ev = s.ev := rfl
@[simp] theorem State.bump_alm (n w lo wd : Nat) : (s.bump n w lo wd).alm = s.alm := rfl
@[simp] theorem State.bump_drill (n w lo wd : Nat) : (s.bump n w lo wd).drill = s.drill := rfl
@[simp] theorem State.bump_sheaf (n w lo wd : Nat) : (s.bump n w lo wd).sheaf = s.sheaf := rfl
@[simp] theorem State.bump_csp (n w lo wd : Nat) : (s.bump n w lo wd).csp = s.csp := rfl
@[simp] theorem State.bump_csp8 (n w lo wd : Nat) : (s.bump n w lo wd).csp8 = s.csp8 := rfl
@[simp] theorem State.bump_sent (n w lo wd : Nat) : (s.bump n w lo wd).sent = s.sent := rfl
@[simp] theorem State.bump_edge (n w lo wd : Nat) : (s.bump n w lo wd).edge = s.edge := rfl
@[simp] theorem State.bump_banks (n w lo wd : Nat) : (s.bump n w lo wd).banks = s.banks := rfl
@[simp] theorem State.bump_twt (n w lo wd : Nat) : (s.bump n w lo wd).twt = s.twt := rfl
@[simp] theorem State.bump_mirror (n w lo wd : Nat) : (s.bump n w lo wd).mirror = s.mirror := rfl
@[simp] theorem State.bump_mem (n w lo wd : Nat) : (s.bump n w lo wd).mem = s.mem := rfl
@[simp] theorem State.bump_clk (n w lo wd : Nat) : (s.bump n w lo wd).clk = s.clk := rfl
@[simp] theorem State.bump_boot (n w lo wd : Nat) : (s.bump n w lo wd).boot = s.boot := rfl
@[simp] theorem State.bump_lev (n w lo wd : Nat) : (s.bump n w lo wd).lev = s.lev := rfl
@[simp] theorem State.bump_pw (n w lo wd : Nat) : (s.bump n w lo wd).pw = s.pw := rfl
@[simp] theorem State.bump_usb (n w lo wd : Nat) : (s.bump n w lo wd).usb = s.usb := rfl
@[simp] theorem State.bump_yoke (n w lo wd : Nat) : (s.bump n w lo wd).yoke = s.yoke := rfl
@[simp] theorem State.bump_hw (n w lo wd : Nat) : (s.bump n w lo wd).hw = s.hw := rfl
@[simp] theorem State.bump_upd (n w lo wd : Nat) : (s.bump n w lo wd).upd = s.upd := rfl
@[simp] theorem State.bump_thr (n w lo wd : Nat) : (s.bump n w lo wd).thr = s.thr := rfl
@[simp] theorem State.bump_freeCount (n w lo wd : Nat) : (s.bump n w lo wd).freeCount = s.freeCount := rfl

/-! ### clearCount -/

@[simp] theorem State.clearCount_cnt (n w lo : Nat) : (s.clearCount n w lo).cnt = Tab.set (fun _ => 0) s.cnt (cntKey n w lo) 0 := rfl
@[simp] theorem State.clearCount_pending (n w lo : Nat) : (s.clearCount n w lo).pending = s.pending := rfl
@[simp] theorem State.clearCount_tm (n w lo : Nat) : (s.clearCount n w lo).tm = s.tm := rfl
@[simp] theorem State.clearCount_mb (n w lo : Nat) : (s.clearCount n w lo).mb = s.mb := rfl
@[simp] theorem State.clearCount_cfg (n w lo : Nat) : (s.clearCount n w lo).cfg = s.cfg := rfl
@[simp] theorem State.clearCount_ev (n w lo : Nat) : (s.clearCount n w lo).ev = s.ev := rfl
@[simp] theorem State.clearCount_alm (n w lo : Nat) : (s.clearCount n w lo).alm = s.alm := rfl
@[simp] theorem State.clearCount_drill (n w lo : Nat) : (s.clearCount n w lo).drill = s.drill := rfl
@[simp] theorem State.clearCount_sheaf (n w lo : Nat) : (s.clearCount n w lo).sheaf = s.sheaf := rfl
@[simp] theorem State.clearCount_csp (n w lo : Nat) : (s.clearCount n w lo).csp = s.csp := rfl
@[simp] theorem State.clearCount_csp8 (n w lo : Nat) : (s.clearCount n w lo).csp8 = s.csp8 := rfl
@[simp] theorem State.clearCount_sent (n w lo : Nat) : (s.clearCount n w lo).sent = s.sent := rfl
@[simp] theorem State.clearCount_edge (n w lo : Nat) : (s.clearCount n w lo).edge = s.edge := rfl
@[simp] theorem State.clearCount_banks (n w lo : Nat) : (s.clearCount n w lo).banks = s.banks := rfl
@[simp] theorem State.clearCount_twt (n w lo : Nat) : (s.clearCount n w lo).twt = s.twt := rfl
@[simp] theorem State.clearCount_mirror (n w lo : Nat) : (s.clearCount n w lo).mirror = s.mirror := rfl
@[simp] theorem State.clearCount_mem (n w lo : Nat) : (s.clearCount n w lo).mem = s.mem := rfl
@[simp] theorem State.clearCount_clk (n w lo : Nat) : (s.clearCount n w lo).clk = s.clk := rfl
@[simp] theorem State.clearCount_boot (n w lo : Nat) : (s.clearCount n w lo).boot = s.boot := rfl
@[simp] theorem State.clearCount_lev (n w lo : Nat) : (s.clearCount n w lo).lev = s.lev := rfl
@[simp] theorem State.clearCount_pw (n w lo : Nat) : (s.clearCount n w lo).pw = s.pw := rfl
@[simp] theorem State.clearCount_usb (n w lo : Nat) : (s.clearCount n w lo).usb = s.usb := rfl
@[simp] theorem State.clearCount_yoke (n w lo : Nat) : (s.clearCount n w lo).yoke = s.yoke := rfl
@[simp] theorem State.clearCount_hw (n w lo : Nat) : (s.clearCount n w lo).hw = s.hw := rfl
@[simp] theorem State.clearCount_upd (n w lo : Nat) : (s.clearCount n w lo).upd = s.upd := rfl
@[simp] theorem State.clearCount_thr (n w lo : Nat) : (s.clearCount n w lo).thr = s.thr := rfl
@[simp] theorem State.clearCount_freeCount (n w lo : Nat) : (s.clearCount n w lo).freeCount = s.freeCount := rfl

end Sys2Proof.Machine
end

