-- ==== Sys2Proof/Laws/Frame.lean ====
section
/-! SUPPORT. What an operation leaves alone: the frame of every update of one component, of choices and of folds. -/

namespace Sys2Proof.Machine

@[simp] theorem Within.refl {parts : List Part} (s : State) : Within parts s s := by
  intro p _; cases p <;> simp [Part.same]

theorem Within.trans {parts : List Part} {s t u : State} (a : Within parts s t) (b : Within parts t u) : Within parts s u := by
  intro p h
  have x := a p h
  have y := b p h
  cases p <;> simp only [Part.same] at * <;> simp_all

/-- A change of one component outside the frame's list of parts. -/
theorem Within.step {parts : List Part} {s₀ s t : State} (h : Within parts s₀ s) (x : ∀ p, p ∉ parts → p.same s t) : Within parts s₀ t :=
  h.trans x

variable {parts : List Part} {s₀ s : State}

/-! ### Choices and folds -/

@[simp] theorem Within.ite (c : Prop) [Decidable c] {a b : State} (x : Within parts s₀ a) (y : Within parts s₀ b) : Within parts s₀ (if c then a else b) := by
  split <;> assumption

@[simp] theorem Within.iteFst {α : Type} (c : Prop) [Decidable c] {a b : State × α} (x : Within parts s₀ a.1) (y : Within parts s₀ b.1) :
    Within parts s₀ (if c then a else b).1 := by split <;> assumption

/-- A state that stands in a pair. -/
theorem Within.pair {α : Type} {p : State × α} {t : State} {a : α} (h : Within parts s₀ p.1) (e : p = (t, a)) : Within parts s₀ t := by
  rw [e] at h; exact h

@[simp] theorem Within.foldl {α : Type} (f : State → α → State) (l : List α) (h : Within parts s₀ s)
    (hf : ∀ u x, Within parts s₀ u → Within parts s₀ (f u x)) : Within parts s₀ (l.foldl f s) := by
  induction l generalizing s with
  | nil => exact h
  | cons a t ih => exact ih (hf s a h)

@[simp] theorem Within.foldlFst {α β : Type} (f : State × β → α → State × β) (l : List α) (p : State × β) (h : Within parts s₀ p.1)
    (hf : ∀ q x, Within parts s₀ q.1 → Within parts s₀ (f q x).1) : Within parts s₀ (l.foldl f p).1 := by
  induction l generalizing p with
  | nil => exact h
  | cons a t ih => exact ih (f p a) (hf p a h)

@[simp] theorem State.ite_frame (b : Bool) (f : State → State) (h : Within parts s₀ s) (hf : ∀ u, Within parts s₀ u → Within parts s₀ (f u)) :
    Within parts s₀ (s.ite b f) := by unfold State.ite; split <;> simp_all

@[simp] theorem State.each_frame (l : List Nat) (f : State → Nat → State) (h : Within parts s₀ s)
    (hf : ∀ u x, Within parts s₀ u → Within parts s₀ (f u x)) : Within parts s₀ (s.each l f) := Within.foldl f l h hf

/-! ### Updates of one component -/

@[simp] theorem State.modTm_frame (f : Tm → Tm) (h : Within parts s₀ s) (hw : .time ∈ parts := by simp_all) : Within parts s₀ (s.modTm f) :=
  h.step fun p n => by cases p <;> simp_all [Part.same]
@[simp] theorem State.modEv_frame (f : Ev → Ev) (h : Within parts s₀ s) (hw : .events ∈ parts := by simp_all) : Within parts s₀ (s.modEv f) :=
  h.step fun p n => by cases p <;> simp_all [Part.same]
@[simp] theorem State.modSheaf_frame (f : Sheaf → Sheaf) (h : Within parts s₀ s) (hw : .sheaf ∈ parts := by simp_all) : Within parts s₀ (s.modSheaf f) :=
  h.step fun p n => by cases p <;> simp_all [Part.same]
@[simp] theorem State.modCsp8_frame (f : Csp8 → Csp8) (h : Within parts s₀ s) (hw : .storage ∈ parts := by simp_all) : Within parts s₀ (s.modCsp8 f) :=
  h.step fun p n => by cases p <;> simp_all [Part.same]
@[simp] theorem State.modClk_frame (f : Clk → Clk) (h : Within parts s₀ s) (hw : .clock ∈ parts := by simp_all) : Within parts s₀ (s.modClk f) :=
  h.step fun p n => by cases p <;> simp_all [Part.same]
@[simp] theorem State.modLev_frame (f : Lev → Lev) (h : Within parts s₀ s) (hw : .level ∈ parts := by simp_all) : Within parts s₀ (s.modLev f) :=
  h.step fun p n => by cases p <;> simp_all [Part.same]
@[simp] theorem State.modPw_frame (f : Pw → Pw) (h : Within parts s₀ s) (hw : .power ∈ parts := by simp_all) : Within parts s₀ (s.modPw f) :=
  h.step fun p n => by cases p <;> simp_all [Part.same]
@[simp] theorem State.modBackup_frame (f : Backup → Backup) (h : Within parts s₀ s) (hw : .power ∈ parts := by simp_all) : Within parts s₀ (s.modBackup f) :=
  h.step fun p n => by cases p <;> simp_all [Part.same]
@[simp] theorem State.modUpd_frame (f : Upd → Upd) (h : Within parts s₀ s) (hw : .update ∈ parts := by simp_all) : Within parts s₀ (s.modUpd f) :=
  h.step fun p n => by cases p <;> simp_all [Part.same]
@[simp] theorem State.modDrill_frame (f : Drill → Drill) (h : Within parts s₀ s) (hw : .drill ∈ parts := by simp_all) : Within parts s₀ (s.modDrill f) :=
  h.step fun p n => by cases p <;> simp_all [Part.same]
@[simp] theorem State.modThr_frame (f : Thr → Thr) (h : Within parts s₀ s) (hw : .thresher ∈ parts := by simp_all) : Within parts s₀ (s.modThr f) :=
  h.step fun p n => by cases p <;> simp_all [Part.same]
@[simp] theorem State.modYoke_frame (f : Yoke → Yoke) (h : Within parts s₀ s) (hw : .yoke ∈ parts := by simp_all) : Within parts s₀ (s.modYoke f) :=
  h.step fun p n => by cases p <;> simp_all [Part.same]
@[simp] theorem State.modBoot_frame (f : Boot → Boot) (h : Within parts s₀ s) (hw : .boot ∈ parts := by simp_all) : Within parts s₀ (s.modBoot f) :=
  h.step fun p n => by cases p <;> simp_all [Part.same]
@[simp] theorem State.modUsb_frame (f : Usb → Usb) (h : Within parts s₀ s) (hw : .usb ∈ parts := by simp_all) : Within parts s₀ (s.modUsb f) :=
  h.step fun p n => by cases p <;> simp_all [Part.same]
@[simp] theorem State.modAlm_frame (f : Alm → Alm) (h : Within parts s₀ s) (hw : .almanac ∈ parts := by simp_all) : Within parts s₀ (s.modAlm f) :=
  h.step fun p n => by cases p <;> simp_all [Part.same]
@[simp] theorem State.modPort_frame (k : Nat) (f : CspPort → CspPort) (h : Within parts s₀ s) (hw : .ports ∈ parts := by simp_all) :
    Within parts s₀ (s.modPort k f) := h.step fun p n => by cases p <;> simp_all [Part.same]
@[simp] theorem State.modSent_frame (k : Nat) (f : SentChan → SentChan) (h : Within parts s₀ s) (hw : .sent ∈ parts := by simp_all) :
    Within parts s₀ (s.modSent k f) := h.step fun p n => by cases p <;> simp_all [Part.same]
@[simp] theorem State.modEdge_frame (k : Nat) (f : EdgeIn → EdgeIn) (h : Within parts s₀ s) (hw : .edges ∈ parts := by simp_all) :
    Within parts s₀ (s.modEdge k f) := h.step fun p n => by cases p <;> simp_all [Part.same]
@[simp] theorem State.modBank_frame (k : Nat) (f : EdgeBank → EdgeBank) (h : Within parts s₀ s) (hw : .edges ∈ parts := by simp_all) :
    Within parts s₀ (s.modBank k f) := h.step fun p n => by cases p <;> simp_all [Part.same]
@[simp] theorem State.modTwt_frame (k : Nat) (f : Twt → Twt) (h : Within parts s₀ s) (hw : .twoWire ∈ parts := by simp_all) :
    Within parts s₀ (s.modTwt k f) := h.step fun p n => by cases p <;> simp_all [Part.same]
@[simp] theorem State.modSram_frame (k : Nat) (f : Bank → Bank) (h : Within parts s₀ s) (hw : .fabric ∈ parts := by simp_all) :
    Within parts s₀ (s.modSram k f) := h.step fun p n => by cases p <;> simp_all [Part.same]
@[simp] theorem State.modStream_frame (k : Nat) (f : Stream → Stream) (h : Within parts s₀ s) (hw : .usb ∈ parts := by simp_all) :
    Within parts s₀ (s.modStream k f) := h.step fun p n => by cases p <;> simp_all [Part.same]
@[simp] theorem State.modHub_frame (k : Nat) (f : HubPort → HubPort) (h : Within parts s₀ s) (hw : .usb ∈ parts := by simp_all) :
    Within parts s₀ (s.modHub k f) := h.step fun p n => by cases p <;> simp_all [Part.same]
@[simp] theorem State.modPos_frame (k : Nat) (f : Position → Position) (h : Within parts s₀ s) (hw : .yoke ∈ parts := by simp_all) :
    Within parts s₀ (s.modPos k f) := h.step fun p n => by cases p <;> simp_all [Part.same]
@[simp] theorem State.modEpisode_frame (k : Nat) (f : Episode → Episode) (h : Within parts s₀ s) (hw : .harrow ∈ parts := by simp_all) :
    Within parts s₀ (s.modEpisode k f) := h.step fun p n => by cases p <;> simp_all [Part.same]
@[simp] theorem State.modCtx_frame (k : Nat) (f : Ctx → Ctx) (h : Within parts s₀ s) (hw : .thresher ∈ parts := by simp_all) :
    Within parts s₀ (s.modCtx k f) := h.step fun p n => by cases p <;> simp_all [Part.same]
@[simp] theorem State.modChan_frame (k : Nat) (f : Chan → Chan) (h : Within parts s₀ s) (hw : .requests ∈ parts := by simp_all) :
    Within parts s₀ (s.modChan k f) := h.step fun p n => by cases p <;> simp_all [Part.same]
@[simp] theorem State.modEntry_frame (k : Nat) (f : EntryRt → EntryRt) (h : Within parts s₀ s) (hw : .drill ∈ parts := by simp_all) :
    Within parts s₀ (s.modEntry k f) := h.step fun p n => by cases p <;> simp_all [Part.same]
@[simp] theorem State.modMb_frame (f : Mb → Mb) (h : Within parts s₀ s)
    (a : .requests ∈ parts ∨ ∀ m, (f m).chans = m.chans ∧ (f m).nextId = m.nextId ∧ (f m).serving = m.serving ∧ (f
      m).servingChan = m.servingChan := by simp_all)
    (b : .shadow ∈ parts ∨ ∀ m, (f m).epoch = m.epoch ∧ (f m).shadow = m.shadow ∧ (f m).commit = m.commit ∧ (f m).run
      = m.run ∧ (f m).legacy = m.legacy ∧ (f m).v2 = m.v2 ∧ (f m).compatNext = m.compatNext := by simp_all) :
    Within parts s₀ (s.modMb f) := by
  refine h.step fun p n => ?_
  cases p <;> simp only [Part.same] <;> simp_all
@[simp] theorem State.modMem_frame (f : Mem → Mem) (h : Within parts s₀ s)
    (a : .sram ∈ parts ∨ ∀ m, (f m).sram = m.sram := by simp_all)
    (b : .nor ∈ parts ∨ ∀ m, (f m).nor = m.nor := by simp_all)
    (c : .psram ∈ parts ∨ ∀ m, (f m).psram = m.psram := by simp_all)
    (d : .fabric ∈ parts ∨ ∀ m, (f m).banks = m.banks ∧ (f m).eccBad = m.eccBad ∧ (f m).faults = m.faults ∧ (f
      m).cursors = m.cursors ∧ (f m).lastHolding = m.lastHolding ∧ (f m).lastKind = m.lastKind ∧ (f m).lastResolved =
      m.lastResolved ∧ (f m).lastAttempts = m.lastAttempts ∧ (f m).lastLost = m.lastLost ∧ (f m).lastVaddr =
      m.lastVaddr ∧ (f m).lastTime = m.lastTime ∧ (f m).pool = m.pool ∧ (f m).eccOne = m.eccOne ∧
      (f m).caches = m.caches := by simp_all) :
    Within parts s₀ (s.modMem f) := by
  refine h.step fun p n => ?_
  cases p <;> simp only [Part.same] <;> simp_all
@[simp] theorem State.modHw_frame (f : Hw → Hw) (h : Within parts s₀ s)
    (a : .harrow ∈ parts ∨ ∀ m, (f m).episodes = m.episodes ∧ (f m).consentGen = m.consentGen ∧ (f m).consents =
      m.consents ∧ (f m).selections = m.selections ∧ (f m).drawBase = m.drawBase ∧ (f m).heldFrames = m.heldFrames ∧
      (f m).heldReplies = m.heldReplies ∧ (f m).reorder = m.reorder ∧ (f m).heldCmd = m.heldCmd ∧ (f m).activeNow =
      m.activeNow := by simp_all)
    (b : .seal ∈ parts ∨ ∀ m, (f m).sealed = m.sealed := by simp_all) :
    Within parts s₀ (s.modHw f) := by
  refine h.step fun p n => ?_
  cases p <;> simp only [Part.same] <;> simp_all
@[simp] theorem State.setReg_frame (n x v : Nat) (h : Within parts s₀ s) (hw : .config ∈ parts := by simp_all) :
    Within parts s₀ (s.setReg n x v) := h.step fun p n => by cases p <;> simp_all [Part.same]
@[simp] theorem State.bumpBy_frame (n x lo wd k : Nat) (h : Within parts s₀ s) (hw : .counters ∈ parts := by simp_all) :
    Within parts s₀ (s.bumpBy n x lo wd k) := h.step fun p n => by cases p <;> simp_all [Part.same]
@[simp] theorem State.bump_frame (n x lo wd : Nat) (h : Within parts s₀ s) (hw : .counters ∈ parts := by simp_all) :
    Within parts s₀ (s.bump n x lo wd) := State.bumpBy_frame n x lo wd 1 h
@[simp] theorem State.clearCount_frame (n x lo : Nat) (h : Within parts s₀ s) (hw : .counters ∈ parts := by simp_all) :
    Within parts s₀ (s.clearCount n x lo) := h.step fun p n => by cases p <;> simp_all [Part.same]
@[simp] theorem State.clearCounts_frame (n : Nat) (h : Within parts s₀ s) (hw : .counters ∈ parts := by simp_all) :
    Within parts s₀ (s.clearCounts n) :=
  h.step fun p n => by cases p <;> simp_all [Part.same, State.clearCounts]
@[simp] theorem State.at_frame (t : Nat) (h : Within parts s₀ s) (hw : .time ∈ parts := by simp_all) : Within parts s₀ (s.at t) :=
  State.modTm_frame _ h
@[simp] theorem State.tick_frame (h : Within parts s₀ s) (hw : .time ∈ parts := by simp_all) : Within parts s₀ s.tick := State.modTm_frame _ h
@[simp] theorem State.free_frame (n : Nat) (h : Within parts s₀ s) (hw : .free ∈ parts := by simp_all) :
    Within parts s₀ { s with freeCount := n } := h.step fun p n => by cases p <;> simp_all [Part.same]

/-- One virtual target's copy changes (06 R218). -/
theorem mirror_frame (k : Nat) {f : Mirror → Mirror} (h : Within parts s₀ s) (hw : .twoWire ∈ parts := by simp_all) :
    Within parts s₀ { s with mirror := updAt s.mirror k f } := h.step fun p n => by cases p <;> simp_all [Part.same]

end Sys2Proof.Machine
end

