-- ==== Sys2Proof/Laws/FrameOps.lean ====
section
/-! SUPPORT. What every operation of the model leaves alone: one lemma for each. -/

namespace Sys2Proof.Machine

set_option Elab.async false

variable {parts : List Part} {s₀ s : State}

@[simp] theorem State.freeByte_frame (hk : Within parts s₀ s)
    (hw : [.free] ⊆ parts := by simp_all) : Within parts s₀ s.freeByte.2 := State.free_frame _ hk

@[simp] theorem State.settleInt_frame (hk : Within parts s₀ s)
    (hw : [.events] ⊆ parts := by simp_all) : Within parts s₀ (State.settleInt s) := by
  simp only [List.cons_subset, List.nil_subset, and_true] at hw
  simp +contextual (maxDischargeDepth := 40) [State.settleInt, hk, hw]

@[simp] theorem State.raise_frame (k : Nat) (hk : Within parts s₀ s)
    (hw : [.counters, .events] ⊆ parts := by simp_all) : Within parts s₀ (State.raise s k) := by
  simp only [List.cons_subset, List.nil_subset, and_true] at hw
  simp +contextual (maxDischargeDepth := 40) [State.raise, hk, hw]

@[simp] theorem State.raiseOnce_frame (k : Nat) (hk : Within parts s₀ s)
    (hw : [.counters, .events] ⊆ parts := by simp_all) : Within parts s₀ (State.raiseOnce s k) := by
  simp only [List.cons_subset, List.nil_subset, and_true] at hw
  simp +contextual (maxDischargeDepth := 40) [State.raiseOnce, hk, hw]

@[simp] theorem State.tellDrops_frame (hk : Within parts s₀ s)
    (hw : [.almanac] ⊆ parts := by simp_all) : Within parts s₀ (State.tellDrops s) := by
  simp only [List.cons_subset, List.nil_subset, and_true] at hw
  simp +contextual (maxDischargeDepth := 40) [State.tellDrops, hk, hw]

@[simp] theorem State.enqueue_frame (r : AlmRec) (hk : Within parts s₀ s)
    (hw : [.counters, .almanac] ⊆ parts := by simp_all) : Within parts s₀ (State.enqueue s r) := by
  simp only [List.cons_subset, List.nil_subset, and_true] at hw
  simp +contextual (maxDischargeDepth := 40) [State.enqueue, hk, hw]

@[simp] theorem State.closeWindow_frame (w : MergeWin) (at' : Nat) (hk : Within parts s₀ s)
    (hw : [.counters, .almanac] ⊆ parts := by simp_all) : Within parts s₀ (State.closeWindow s w at') := by
  simp only [List.cons_subset, List.nil_subset, and_true] at hw
  simp +contextual (maxDischargeDepth := 40) [State.closeWindow, hk, hw]

@[simp] theorem State.record_frame (r : AlmRec) (hk : Within parts s₀ s)
    (hw : [.counters, .almanac] ⊆ parts := by simp_all) : Within parts s₀ (State.record s r) := by
  simp only [List.cons_subset, List.nil_subset, and_true] at hw
  unfold State.record; dsimp only; (repeat' split) <;> simp_all +contextual (maxDischargeDepth := 40)

@[simp] theorem State.log_frame (type source index code : Nat) (detail : List Byte := []) (hk : Within parts s₀ s)
    (hw : [.counters, .almanac] ⊆ parts := by simp_all) :
    Within parts s₀ (State.log s type source index code detail) := by
  simp only [List.cons_subset, List.nil_subset, and_true] at hw
  simp +contextual (maxDischargeDepth := 40) [State.log, hk, hw]

@[simp] theorem State.closeAllWindows_frame (hk : Within parts s₀ s)
    (hw : [.counters, .almanac] ⊆ parts := by simp_all) : Within parts s₀ (State.closeAllWindows s) := by
  simp only [List.cons_subset, List.nil_subset, and_true] at hw
  simp +contextual (maxDischargeDepth := 40) [State.closeAllWindows, hk, hw]

@[simp] theorem State.endEpisodeAt_frame (e reason last : Nat) (hk : Within parts s₀ s)
    (hw : [.counters, .events, .almanac, .harrow] ⊆ parts := by simp_all) :
    Within parts s₀ (State.endEpisodeAt s e reason last) := by
  simp only [List.cons_subset, List.nil_subset, and_true] at hw
  simp +contextual (maxDischargeDepth := 40) [State.endEpisodeAt, hk, hw]

@[simp] theorem State.endEpisode_frame (e reason : Nat) (hk : Within parts s₀ s)
    (hw : [.counters, .events, .almanac, .harrow] ⊆ parts := by simp_all) : Within parts s₀ (State.endEpisode s e reason) := by
  simp only [List.cons_subset, List.nil_subset, and_true] at hw
  simp +contextual (maxDischargeDepth := 40) [State.endEpisode, hk, hw]

@[simp] theorem State.endEpisodes_frame (reason : Nat) (hk : Within parts s₀ s)
    (hw : [.counters, .events, .almanac, .harrow] ⊆ parts := by simp_all) : Within parts s₀ (State.endEpisodes s reason) := by
  simp only [List.cons_subset, List.nil_subset, and_true] at hw
  simp +contextual (maxDischargeDepth := 40) [State.endEpisodes, hk, hw]

@[simp] theorem State.injected_frame (e : Nat) (hk : Within parts s₀ s)
    (hw : [.counters, .events, .almanac, .harrow] ⊆ parts := by simp_all) : Within parts s₀ (State.injected s e) := by
  simp only [List.cons_subset, List.nil_subset, and_true] at hw
  simp +contextual (maxDischargeDepth := 40) [State.injected, hk, hw]

@[simp] theorem State.drawSlot_frame (e width : Nat) (hk : Within parts s₀ s)
    (hw : [.harrow] ⊆ parts := by simp_all) : Within parts s₀ (State.drawSlot s e width).1 := by
  simp only [List.cons_subset, List.nil_subset, and_true] at hw
  simp +contextual (maxDischargeDepth := 40) [State.drawSlot, hk, hw]

@[simp] theorem State.drawUnit_frame (target k : Nat) (j : Option Nat) (width : Nat) (hk : Within parts s₀ s)
    (hw : [.harrow] ⊆ parts := by simp_all) :
    Within parts s₀ (State.drawUnit s target k j width).1 := by
  simp only [List.cons_subset, List.nil_subset, and_true] at hw
  unfold State.drawUnit
  refine Within.foldlFst _ _ _ hk fun q x hq => ?_
  obtain ⟨u, ps⟩ := q
  have hd : Within parts s₀ (u.drawSlot x width).1 := State.drawSlot_frame _ _ hq
  dsimp only
  split
  · exact hq
  · split <;> simp_all

@[simp] theorem State.stream6_frame (e : List Byte) (hk : Within parts s₀ s)
    (hw : [.counters, .almanac] ⊆ parts := by simp_all) : Within parts s₀ (State.stream6 s e) := by
  simp only [List.cons_subset, List.nil_subset, and_true] at hw
  simp +contextual (maxDischargeDepth := 40) [State.stream6, hk, hw]

@[simp] theorem State.queueReply_frame (ch : Nat) (r : Reply) (hk : Within parts s₀ s)
    (hw : [.requests, .counters, .events, .almanac] ⊆ parts := by simp_all) : Within parts s₀ (State.queueReply s ch r) := by
  simp only [List.cons_subset, List.nil_subset, and_true] at hw
  simp +contextual (maxDischargeDepth := 40) [State.queueReply, hk, hw]

@[simp] theorem State.sendReply_frame (ch : Nat) (r : Reply) (hk : Within parts s₀ s)
    (hw : [.requests, .counters, .events, .almanac, .harrow] ⊆ parts := by simp_all) : Within parts s₀ (State.sendReply s ch r) := by
  simp only [List.cons_subset, List.nil_subset, and_true] at hw
  unfold State.sendReply; dsimp only; (repeat' split) <;> simp_all +contextual (maxDischargeDepth := 40)

@[simp] theorem State.answer_frame (ch : Nat) (id : Nat) (r : Reply) (st : HistState) (hk : Within parts s₀ s)
    (hw : [.requests, .counters, .events, .almanac, .harrow] ⊆ parts := by simp_all) :
    Within parts s₀ (State.answer s ch id r st) := by
  simp only [List.cons_subset, List.nil_subset, and_true] at hw
  simp +contextual (maxDischargeDepth := 40) [State.answer, hk, hw]

@[simp] theorem State.complete_frame (t : Ticket) (status : Nat) (payload : List Byte := []) (hk : Within parts s₀ s)
    (hw : [.requests, .counters, .events, .almanac, .harrow] ⊆ parts := by simp_all) :
    Within parts s₀ (State.complete s t status payload) := by
  simp only [List.cons_subset, List.nil_subset, and_true] at hw
  unfold State.complete; (split <;> simp +contextual (maxDischargeDepth := 40) [hk, hw])

@[simp] theorem State.completeOpt_frame (t : Option Ticket) (status : Nat) (payload : List Byte := []) (hk : Within parts s₀ s)
    (hw : [.requests, .counters, .events, .almanac, .harrow] ⊆ parts := by simp_all) :
    Within parts s₀ (State.completeOpt s t status payload) := by
  simp only [List.cons_subset, List.nil_subset, and_true] at hw
  unfold State.completeOpt; (split <;> simp +contextual (maxDischargeDepth := 40) [hk, hw])

@[simp] theorem State.dropUsb_frame (hk : Within parts s₀ s)
    (hw : [.usb] ⊆ parts := by simp_all) : Within parts s₀ (State.dropUsb s) := by
  simp only [List.cons_subset, List.nil_subset, and_true] at hw
  simp +contextual (maxDischargeDepth := 40) [State.dropUsb, hk, hw]

@[simp] theorem State.newTable_frame (hk : Within parts s₀ s)
    (hw : [.level] ⊆ parts := by simp_all) : Within parts s₀ (State.newTable s) := by
  simp only [List.cons_subset, List.nil_subset, and_true] at hw
  simp +contextual (maxDischargeDepth := 40) [State.newTable, hk, hw]

@[simp] theorem State.replay_frame (verb : Nat) (r : Req) (h : Hist) (hk : Within parts s₀ s)
    (hw : [.requests, .counters, .events, .almanac, .harrow] ⊆ parts := by simp_all) : Within parts s₀ (State.replay s verb r h) := by
  simp only [List.cons_subset, List.nil_subset, and_true] at hw
  unfold State.replay; (repeat' split) <;> simp_all +contextual (maxDischargeDepth := 40)

@[simp] theorem State.settle_frame (verb : Nat) (r : Req) (t : Ticket) (a : Answer) (hk : Within parts s₀ s)
    (hw : [.requests, .counters, .events, .almanac, .harrow] ⊆ parts := by simp_all) :
    Within parts s₀ (State.settle s verb r t a) := by
  simp only [List.cons_subset, List.nil_subset, and_true] at hw
  unfold State.settle; (split <;> simp +contextual (maxDischargeDepth := 40) [hk, hw])

@[simp] theorem State.remember_frame (r : Req) (id : Nat) (hk : Within parts s₀ s)
    (hw : [.requests] ⊆ parts := by simp_all) : Within parts s₀ (State.remember s r id) := by
  simp only [List.cons_subset, List.nil_subset, and_true] at hw
  simp +contextual (maxDischargeDepth := 40) [State.remember, hk, hw]

@[simp] theorem State.received_frame (verb : Nat) (r : Req) (hk : Within parts s₀ s)
    (hw : [.requests] ⊆ parts := by simp_all) : Within parts s₀ (State.received s verb r) := by
  simp only [List.cons_subset, List.nil_subset, and_true] at hw
  simp +contextual (maxDischargeDepth := 40) [State.received, hk, hw]

@[simp] theorem State.numbered_frame (verb : Nat) (r : Req) (hk : Within parts s₀ s)
    (hw : [.requests] ⊆ parts := by simp_all) : Within parts s₀ (State.numbered s verb r) := by
  simp only [List.cons_subset, List.nil_subset, and_true] at hw
  simp +contextual (maxDischargeDepth := 40) [State.numbered, hk, hw]

@[simp] theorem State.entered_frame (verb : Nat) (r : Req) (hk : Within parts s₀ s)
    (hw : [.requests] ⊆ parts := by simp_all) : Within parts s₀ (State.entered s verb r) := by
  simp only [List.cons_subset, List.nil_subset, and_true] at hw
  simp +contextual (maxDischargeDepth := 40) [State.entered, hk, hw]

@[simp] theorem State.answered_frame (verb : Nat) (r : Req) (t : Ticket) (a : Answer) (hk : Within parts s₀ s)
    (hw : [.requests, .counters, .events, .almanac, .harrow] ⊆ parts := by simp_all) :
    Within parts s₀ (State.answered s verb r t a) := by
  simp only [List.cons_subset, List.nil_subset, and_true] at hw
  unfold State.answered; (split <;> simp +contextual (maxDischargeDepth := 40) [hk, hw])

@[simp] theorem State.serve_frame (verb : Nat) (r : Req) (lenOk : Bool) (checks : State → List Check)
    (run : State → Ticket → State × Answer) (hk : Within parts s₀ s) (hr : ∀ u t, Within parts s₀ u → Within parts s₀ (run u t).1)
    (hw : [.requests, .counters, .events, .almanac, .harrow] ⊆ parts := by simp_all) :
    Within parts s₀ (State.serve s verb r lenOk checks run) := by
  simp only [List.cons_subset, List.nil_subset, and_true] at hw
  have he : Within parts s₀ (run (s.entered verb r) (s.ticketFor r)).1 := hr _ _ (by simp [hk, hw])
  unfold State.serve
  split
  · exact hk
  · dsimp only
    split
    · simp [hk, hw]
    · split
      · simp [hk, hw]
      · exact State.answered_frame _ _ _ _ he

@[simp] theorem State.storeWrite_frame (sel a : Nat) (bs : List Byte) (hk : Within parts s₀ s)
    (hw : [.nor, .psram] ⊆ parts := by simp_all) :
    Within parts s₀ (State.storeWrite s sel a bs) := by
  simp only [List.cons_subset, List.nil_subset, and_true] at hw
  simp +contextual (maxDischargeDepth := 40) [State.storeWrite, hk, hw]

@[simp] theorem State.physWrite_frame (a : Nat) (bs : List Byte) (hk : Within parts s₀ s)
    (hw : [.sram, .nor, .psram, .fabric] ⊆ parts := by simp_all) : Within parts s₀ (State.physWrite s a bs) := by
  simp only [List.cons_subset, List.nil_subset, and_true] at hw
  simp +contextual (maxDischargeDepth := 40) [State.physWrite, hk, hw]

@[simp] theorem State.virtWrite_frame (h v : Nat) (bs : List Byte) (hk : Within parts s₀ s)
    (hw : [.sram, .nor, .psram, .fabric] ⊆ parts := by simp_all) : Within parts s₀ (State.virtWrite s h v bs) := by
  simp only [List.cons_subset, List.nil_subset, and_true] at hw
  unfold State.virtWrite
  refine Within.foldl _ _ hk fun u x hu => ?_
  dsimp only
  split
  · exact State.physWrite_frame _ _ hu
  · exact hu

@[simp] theorem State.wipeBank_frame (k : Nat) (hk : Within parts s₀ s)
    (hw : [.sram, .fabric] ⊆ parts := by simp_all) : Within parts s₀ (State.wipeBank s k) := by
  simp only [List.cons_subset, List.nil_subset, and_true] at hw
  simp +contextual (maxDischargeDepth := 40) [State.wipeBank, hk, hw]

@[simp] theorem State.bankOn_frame (k : Nat) (hk : Within parts s₀ s)
    (hw : [.sram, .fabric] ⊆ parts := by simp_all) :
    Within parts s₀ (State.bankOn s k) := by
  simp only [List.cons_subset, List.nil_subset, and_true] at hw
  simp +contextual (maxDischargeDepth := 40) [State.bankOn, hk, hw]

@[simp] theorem State.enterCache_frame (h p : Nat) (hk : Within parts s₀ s)
    (hw : [.fabric] ⊆ parts := by simp_all) :
    Within parts s₀ (State.enterCache s h p) := by
  simp only [List.cons_subset, List.nil_subset, and_true] at hw
  simp +contextual (maxDischargeDepth := 40) [State.enterCache, hk, hw]

@[simp] theorem State.correct_frame (dir : Access) (p n : Nat) (hk : Within parts s₀ s)
    (hw : [.counters, .events, .fabric] ⊆ parts := by simp_all) :
    Within parts s₀ (State.correct s dir p n) := by
  simp only [List.cons_subset, List.nil_subset, and_true] at hw
  simp +contextual (maxDischargeDepth := 40) [State.correct, hk, hw]

@[simp] theorem State.touchRun_frame (a : Agent) (dir : Access) (v n : Nat) (hk : Within parts s₀ s)
    (hw : [.counters, .events, .storage, .fabric, .power] ⊆ parts := by simp_all) :
    Within parts s₀ (State.touchRun s a dir v n) := by
  simp only [List.cons_subset, List.nil_subset, and_true] at hw
  unfold State.touchRun; dsimp only; (repeat' split) <;> simp_all +contextual (maxDischargeDepth := 40)

@[simp] theorem State.touch_frame (a : Agent) (x : Piece) (hk : Within parts s₀ s)
    (hw : [.counters, .events, .storage, .fabric, .power] ⊆ parts := by simp_all) :
    Within parts s₀ (State.touch s a x) := by
  simp only [List.cons_subset, List.nil_subset, and_true] at hw
  simp +contextual (maxDischargeDepth := 40) [State.touch, hk, hw]

@[simp] theorem State.accessed_frame (a : Agent) (l : List Piece) (hk : Within parts s₀ s)
    (hw : [.counters, .events, .storage, .fabric, .power] ⊆ parts := by simp_all) :
    Within parts s₀ (State.accessed s a l) := by
  simp only [List.cons_subset, List.nil_subset, and_true] at hw
  simp +contextual (maxDischargeDepth := 40) [State.accessed, hk, hw]

@[simp] theorem State.faultRecord_frame (c : Cursor) (hk : Within parts s₀ s)
    (hw : [.counters, .almanac] ⊆ parts := by simp_all) : Within parts s₀ (State.faultRecord s c) := by
  simp only [List.cons_subset, List.nil_subset, and_true] at hw
  simp +contextual (maxDischargeDepth := 40) [State.faultRecord, hk, hw]

@[simp] theorem State.dropCursors_frame (a : Agent) (hk : Within parts s₀ s)
    (hw : [.fabric] ⊆ parts := by simp_all) : Within parts s₀ (State.dropCursors s a) := by
  simp only [List.cons_subset, List.nil_subset, and_true] at hw
  simp +contextual (maxDischargeDepth := 40) [State.dropCursors, hk, hw]

@[simp] theorem State.showFault_frame (c : Cursor) (hk : Within parts s₀ s)
    (hw : [.fabric] ⊆ parts := by simp_all) : Within parts s₀ (State.showFault s c) := by
  simp only [List.cons_subset, List.nil_subset, and_true] at hw
  simp +contextual (maxDischargeDepth := 40) [State.showFault, hk, hw]

@[simp] theorem State.unresolved_frame (c : Cursor) (hk : Within parts s₀ s)
    (hw : [.counters, .events, .almanac, .fabric] ⊆ parts := by simp_all) :
    Within parts s₀ (State.unresolved s c) := by
  simp only [List.cons_subset, List.nil_subset, and_true] at hw
  simp +contextual (maxDischargeDepth := 40) [State.unresolved, hk, hw]

@[simp] theorem State.noteFault_frame (a : Agent) (dir : Access) (v index kind : Nat) (hk : Within parts s₀ s)
    (hw : [.counters, .events, .almanac, .fabric] ⊆ parts := by simp_all) :
    Within parts s₀ (State.noteFault s a dir v index kind).1 := by
  simp only [List.cons_subset, List.nil_subset, and_true] at hw
  simp +contextual (maxDischargeDepth := 40) [State.noteFault, hk, hw]

@[simp] theorem State.noteResolved_frame (c : Cursor) (lost : Bool) (hk : Within parts s₀ s)
    (hw : [.counters, .events, .fabric] ⊆ parts := by simp_all) :
    Within parts s₀ (State.noteResolved s c lost) := by
  simp only [List.cons_subset, List.nil_subset, and_true] at hw
  simp +contextual (maxDischargeDepth := 40) [State.noteResolved, hk, hw]

@[simp] theorem State.reach_frame (a : Agent) (l : List Piece) (hk : Within parts s₀ s)
    (hw : [.counters, .events, .almanac, .storage, .fabric, .power] ⊆ parts := by simp_all) :
    Within parts s₀ (State.reach s a l).1 := by
  simp only [List.cons_subset, List.nil_subset, and_true] at hw
  unfold State.reach; dsimp only; (repeat' split) <;> simp_all +contextual (maxDischargeDepth := 40)

@[simp] theorem State.access_frame (a : Agent) (l : List Piece) (hk : Within parts s₀ s)
    (hw : [.counters, .events, .almanac, .storage, .fabric, .power] ⊆ parts := by simp_all) :
    Within parts s₀ (State.access s a l).1 := by
  simp only [List.cons_subset, List.nil_subset, and_true] at hw
  simp +contextual (maxDischargeDepth := 40) [State.access, hk, hw]

@[simp] theorem State.writeOne_frame (a : Agent) (w : Nat × List Byte) (hk : Within parts s₀ s)
    (hw : [.sram, .nor, .psram, .fabric] ⊆ parts := by simp_all) :
    Within parts s₀ (State.writeOne s a w) := by
  simp only [List.cons_subset, List.nil_subset, and_true] at hw
  simp +contextual (maxDischargeDepth := 40) [State.writeOne, hk, hw]

@[simp] theorem State.put_frame (a : Agent) (ws : List (Nat × List Byte)) (hk : Within parts s₀ s)
    (hw : [.counters, .events, .almanac, .storage, .sram, .nor, .psram, .fabric, .power] ⊆ parts := by simp_all) :
    Within parts s₀ (State.put s a ws).1 := by
  simp only [List.cons_subset, List.nil_subset, and_true] at hw
  have h := State.reach_frame a (writeParts ws) hk
  unfold State.put
  (repeat' split) <;> simp_all +contextual (maxDischargeDepth := 40)

@[simp] theorem State.store_frame (a : Agent) (ws : List (Nat × List Byte)) (hk : Within parts s₀ s)
    (hw : [.counters, .events, .almanac, .storage, .sram, .nor, .psram, .fabric, .power] ⊆ parts := by simp_all) :
    Within parts s₀ (State.store s a ws).1 := by
  simp only [List.cons_subset, List.nil_subset, and_true] at hw
  simp +contextual (maxDischargeDepth := 40) [State.store, hk, hw]

@[simp] theorem State.fwAccess_frame (a : Agent) (l : List Piece) (n : Nat) (hk : Within parts s₀ s) (hw : [.counters, .events, .almanac, .storage, .sram, .fabric, .power] ⊆ parts := by simp_all) : Within parts s₀ (State.fwAccess a l n s).1 := by
  simp only [List.cons_subset, List.nil_subset, and_true] at hw
  induction n generalizing s with
  | zero => exact hk
  | succ n ih =>
    unfold State.fwAccess
    split
    · simp +contextual (maxDischargeDepth := 40) [hk, hw]
    · rename_i f _
      have h := State.noteFault_frame a f.dir f.vaddr f.index f.kind hk
      split <;> rename_i e <;> rw [e] at h
      · exact h
      · split
        · exact h
        · refine ih (State.noteResolved_frame _ _ (State.ite_frame _ _ (State.bankOn_frame _ h) fun u hu => ?_))
          simp +contextual (maxDischargeDepth := 40) [hu, hw]

@[simp] theorem State.firmware_frame (a : Agent) (h : Nat) (l : List Piece) (hk : Within parts s₀ s)
    (hw : [.counters, .events, .almanac, .storage, .sram, .fabric, .power] ⊆ parts := by simp_all) :
    Within parts s₀ (State.firmware s a h l).1 := by
  simp only [List.cons_subset, List.nil_subset, and_true] at hw
  unfold State.firmware; exact State.fwAccess_frame a _ 65 hk

@[simp] theorem State.clearRc_frame (n : Noun) (w : Nat) (hk : Within parts s₀ s)
    (hw : [.counters] ⊆ parts := by simp_all) : Within parts s₀ (State.clearRc s n w) := by
  simp only [List.cons_subset, List.nil_subset, and_true] at hw
  simp +contextual (maxDischargeDepth := 40) [State.clearRc, hk, hw]

@[simp] theorem State.command_frame (kind : CmdKind) (dest : Nat) (payload : List Byte) (notBefore : Nat := 0)
    (ticket : Option Ticket := none) (hk : Within parts s₀ s)
    (hw : [.yoke] ⊆ parts := by simp_all) : Within parts s₀ (State.command s kind dest payload notBefore ticket) := by
  simp only [List.cons_subset, List.nil_subset, and_true] at hw
  simp +contextual (maxDischargeDepth := 40) [State.command, hk, hw]

@[simp] theorem State.mergeBody_frame (k cls : Nat) (body : List Byte) (hk : Within parts s₀ s)
    (hw : [.counters, .events, .almanac, .storage, .sram, .nor, .psram, .fabric, .power, .yoke] ⊆ parts := by simp_all) :
    Within parts s₀ (State.mergeBody s k cls body) := by
  simp only [List.cons_subset, List.nil_subset, and_true] at hw
  have h := State.store_frame .yoke [(s.reg nYOKE 1 + (k - 1) * 8192, body)] hk
  unfold State.mergeBody
  split <;> simp_all +contextual (maxDischargeDepth := 40)

@[simp] theorem State.takeWaiting_frame (hk : Within parts s₀ s)
    (hw : [.counters, .events, .almanac, .storage, .sram, .nor, .psram, .fabric, .power, .yoke] ⊆ parts := by simp_all) :
    Within parts s₀ (State.takeWaiting s) := by
  simp only [List.cons_subset, List.nil_subset, and_true] at hw
  refine State.each_frame _ _ hk fun u k hu => ?_
  split
  · split
    · exact hu
    · exact State.mergeBody_frame _ _ _ hu
  · exact hu

@[simp] theorem State.ackEvents_frame (mask : Nat) (hk : Within parts s₀ s)
    (hw : [.events] ⊆ parts := by simp_all) : Within parts s₀ (State.ackEvents s mask) := by
  simp only [List.cons_subset, List.nil_subset, and_true] at hw
  simp +contextual (maxDischargeDepth := 40) [State.ackEvents, hk, hw]

@[simp] theorem State.writeNow_frame (n : Noun) (ws : List (Nat × Nat × Nat)) (hk : Within parts s₀ s)
    (hw : [.config, .events] ⊆ parts := by simp_all) :
    Within parts s₀ (State.writeNow s n ws) := by
  simp only [List.cons_subset, List.nil_subset, and_true] at hw
  simp +contextual (maxDischargeDepth := 40) [State.writeNow, hk, hw]

@[simp] theorem State.writeShadow_frame (r : Req) (n : Noun) (ws : List (Nat × Nat × Nat)) (hk : Within parts s₀ s)
    (hw : [.shadow] ⊆ parts := by simp_all) :
    Within parts s₀ (State.writeShadow s r n ws) := by
  simp only [List.cons_subset, List.nil_subset, and_true] at hw
  simp +contextual (maxDischargeDepth := 40) [State.writeShadow, hk, hw]

@[simp] theorem State.stageLegacy_frame (t : Ticket) (n : Noun) (ws : List (Nat × Nat × Nat)) (hk : Within parts s₀ s)
    (hw : [.shadow] ⊆ parts := by simp_all) :
    Within parts s₀ (State.stageLegacy s t n ws).1 := by
  simp only [List.cons_subset, List.nil_subset, and_true] at hw
  unfold State.stageLegacy; dsimp only; (repeat' split) <;> simp_all +contextual (maxDischargeDepth := 40)

@[simp] theorem State.saveAutostart_frame (w : Words) (epoch : Nat) (ok : Bool) (hk : Within parts s₀ s)
    (hw : [.nor] ⊆ parts := by simp_all) :
    Within parts s₀ (State.saveAutostart s w epoch ok) := by
  simp only [List.cons_subset, List.nil_subset, and_true] at hw
  simp +contextual (maxDischargeDepth := 40) [State.saveAutostart, hk, hw]

@[simp] theorem State.atApply_frame (named : Option Nat) (hk : Within parts s₀ s)
    (hw : [.drill] ⊆ parts := by simp_all) : Within parts s₀ (State.atApply s named) := by
  simp only [List.cons_subset, List.nil_subset, and_true] at hw
  unfold State.atApply; (split <;> simp +contextual (maxDischargeDepth := 40) [hk, hw])

@[simp] theorem State.runCommit_frame (r : Req) (t : Ticket) (h : Shadow) (checkTicks : Nat) (saveOk : Bool) (hk : Within parts s₀ s)
    (hw : [.shadow, .yoke] ⊆ parts := by simp_all) :
    Within parts s₀ (State.runCommit s r t h checkTicks saveOk).1 := by
  simp only [List.cons_subset, List.nil_subset, and_true] at hw
  unfold State.runCommit; dsimp only; (repeat' split) <;> simp_all +contextual (maxDischargeDepth := 40)

@[simp] theorem State.dropShadow_frame (status : Nat) (hk : Within parts s₀ s)
    (hw : [.requests, .shadow, .counters, .events, .almanac, .harrow] ⊆ parts := by simp_all) : Within parts s₀ (State.dropShadow s status) := by
  simp only [List.cons_subset, List.nil_subset, and_true] at hw
  simp +contextual (maxDischargeDepth := 40) [State.dropShadow, hk, hw]

@[simp] theorem State.setRun_frame (run : Option PendingRun) (hk : Within parts s₀ s)
    (hw : [.requests, .shadow, .counters, .events, .almanac, .harrow] ⊆ parts := by simp_all) : Within parts s₀ (State.setRun s run) := by
  simp only [List.cons_subset, List.nil_subset, and_true] at hw
  unfold State.setRun; dsimp only; (repeat' split) <;> simp_all +contextual (maxDischargeDepth := 40)

@[simp] theorem State.putObj_frame (n : Nat) (o : Obj) (hk : Within parts s₀ s)
    (hw : [.thresher] ⊆ parts := by simp_all) : Within parts s₀ (State.putObj s n o) := by
  simp only [List.cons_subset, List.nil_subset, and_true] at hw
  simp +contextual (maxDischargeDepth := 40) [State.putObj, hk, hw]

@[simp] theorem State.dropObj_frame (n id : Nat) (hk : Within parts s₀ s)
    (hw : [.thresher] ⊆ parts := by simp_all) : Within parts s₀ (State.dropObj s n id) := by
  simp only [List.cons_subset, List.nil_subset, and_true] at hw
  simp +contextual (maxDischargeDepth := 40) [State.dropObj, hk, hw]

@[simp] theorem State.freeEngine_frame (n : Nat) (hk : Within parts s₀ s)
    (hw : [.thresher] ⊆ parts := by simp_all) : Within parts s₀ (State.freeEngine s n) := by
  simp only [List.cons_subset, List.nil_subset, and_true] at hw
  simp +contextual (maxDischargeDepth := 40) [State.freeEngine, hk, hw]

@[simp] theorem State.closeJob_frame (n reason : Nat) (hk : Within parts s₀ s)
    (hw : [.requests, .counters, .events, .almanac, .fabric, .harrow, .thresher] ⊆ parts := by simp_all) :
    Within parts s₀ (State.closeJob s n reason) := by
  simp only [List.cons_subset, List.nil_subset, and_true] at hw
  unfold State.closeJob; dsimp only; (repeat' split) <;> simp_all +contextual (maxDischargeDepth := 40)

@[simp] theorem State.saveCtx_frame (n : Nat) (hk : Within parts s₀ s)
    (hw : [.counters, .events, .almanac, .storage, .sram, .nor, .psram, .fabric, .power, .thresher, .free] ⊆ parts := by simp_all) :
    Within parts s₀ (State.saveCtx s n).1 := by
  simp only [List.cons_subset, List.nil_subset, and_true] at hw
  have h := State.put_frame (thrAgent n) [(s.saveAddr n, savedBytes s.freeCount)] (State.free_frame (s.freeCount + 2048) hk)
  unfold State.saveCtx
  split <;> simp_all +contextual (maxDischargeDepth := 40)

@[simp] theorem State.restoreCtx_frame (n : Nat) (hk : Within parts s₀ s)
    (hw : [.counters, .events, .almanac, .storage, .fabric, .power, .thresher] ⊆ parts := by simp_all) :
    Within parts s₀ (State.restoreCtx s n).1 := by
  simp only [List.cons_subset, List.nil_subset, and_true] at hw
  have h := State.access_frame (thrAgent n) [⟨.read, s.saveAddr n, 2048⟩] hk
  unfold State.restoreCtx
  (repeat' split) <;> simp_all +contextual (maxDischargeDepth := 40)

@[simp] theorem State.runCtx_frame (n : Nat) (hk : Within parts s₀ s)
    (hw : [.thresher] ⊆ parts := by simp_all) : Within parts s₀ (State.runCtx s n) := by
  simp only [List.cons_subset, List.nil_subset, and_true] at hw
  simp +contextual (maxDischargeDepth := 40) [State.runCtx, hk, hw]

@[simp] theorem State.dispatchN_frame (n : Nat) (hk : Within parts s₀ s) (hw : [.requests, .counters, .events, .almanac, .storage, .fabric, .power, .harrow, .thresher] ⊆ parts := by simp_all) : Within parts s₀ (State.dispatchN n s) := by
  simp only [List.cons_subset, List.nil_subset, and_true] at hw
  induction n generalizing s with
  | zero => exact hk
  | succ n ih =>
    unfold State.dispatchN
    split
    · split
      · exact hk
      · rename_i k _
        have h := State.restoreCtx_frame k hk
        split <;> rename_i e <;> rw [e] at h
        · exact State.runCtx_frame k h
        · split
          · exact ih (State.modCtx_frame _ _ h)
          · exact h
        · exact ih (State.closeJob_frame k 4 h)
    · exact hk

@[simp] theorem State.dispatch_frame (hk : Within parts s₀ s)
    (hw : [.requests, .counters, .events, .almanac, .storage, .fabric, .power, .harrow, .thresher] ⊆ parts := by simp_all) :
    Within parts s₀ (State.dispatch s) := by
  simp only [List.cons_subset, List.nil_subset, and_true] at hw
  exact State.dispatchN_frame 5 hk

@[simp] theorem State.endJob_frame (n reason : Nat) (hk : Within parts s₀ s)
    (hw : [.requests, .counters, .events, .almanac, .storage, .fabric, .power, .harrow, .thresher] ⊆ parts := by simp_all) :
    Within parts s₀ (State.endJob s n reason) := by
  simp only [List.cons_subset, List.nil_subset, and_true] at hw
  simp +contextual (maxDischargeDepth := 40) [State.endJob, hk, hw]

@[simp] theorem State.parkCtx_frame (n st : Nat) (hk : Within parts s₀ s)
    (hw : [.requests, .counters, .events, .almanac, .storage, .sram, .nor, .psram, .fabric, .power, .harrow, .thresher, .free] ⊆ parts := by simp_all) :
    Within parts s₀ (State.parkCtx s n st) := by
  simp only [List.cons_subset, List.nil_subset, and_true] at hw
  have h := State.saveCtx_frame n hk
  unfold State.parkCtx
  (repeat' split) <;> simp_all +contextual (maxDischargeDepth := 40)

@[simp] theorem State.suspendCtx_frame (n : Nat) (hk : Within parts s₀ s)
    (hw : [.requests, .counters, .events, .almanac, .storage, .sram, .nor, .psram, .fabric, .power, .harrow, .thresher, .free] ⊆ parts := by simp_all) :
    Within parts s₀ (State.suspendCtx s n) := by
  simp only [List.cons_subset, List.nil_subset, and_true] at hw
  simp +contextual (maxDischargeDepth := 40) [State.suspendCtx, hk, hw]

@[simp] theorem State.resumeCtx_frame (n : Nat) (hk : Within parts s₀ s)
    (hw : [.requests, .counters, .events, .almanac, .storage, .sram, .nor, .psram, .fabric, .power, .harrow, .thresher, .free] ⊆ parts := by simp_all) :
    Within parts s₀ (State.resumeCtx s n) := by
  simp only [List.cons_subset, List.nil_subset, and_true] at hw
  unfold State.resumeCtx; (repeat' split) <;> simp_all +contextual (maxDischargeDepth := 40)

@[simp] theorem State.stopJob_frame (n reason : Nat) (hk : Within parts s₀ s)
    (hw : [.requests, .counters, .events, .almanac, .storage, .fabric, .power, .harrow, .thresher] ⊆ parts := by simp_all) : Within parts s₀ (State.stopJob s n reason) := by
  simp only [List.cons_subset, List.nil_subset, and_true] at hw
  simp +contextual (maxDischargeDepth := 40) [State.stopJob, hk, hw]

@[simp] theorem State.endJobs_frame (reason : Nat) (hk : Within parts s₀ s)
    (hw : [.requests, .counters, .events, .almanac, .storage, .fabric, .power, .harrow, .thresher] ⊆ parts := by simp_all) : Within parts s₀ (State.endJobs s reason) := by
  simp only [List.cons_subset, List.nil_subset, and_true] at hw
  simp +contextual (maxDischargeDepth := 40) [State.endJobs, hk, hw]

@[simp] theorem State.clearObjects_frame (n : Nat) (hk : Within parts s₀ s)
    (hw : [.thresher] ⊆ parts := by simp_all) : Within parts s₀ (State.clearObjects s n) := by
  simp only [List.cons_subset, List.nil_subset, and_true] at hw
  simp +contextual (maxDischargeDepth := 40) [State.clearObjects, hk, hw]

@[simp] theorem State.leaveL3_frame (hk : Within parts s₀ s)
    (hw : [.requests, .counters, .events, .almanac, .storage, .fabric, .power, .usb, .harrow, .thresher] ⊆ parts := by simp_all) : Within parts s₀ (State.leaveL3 s) := by
  simp only [List.cons_subset, List.nil_subset, and_true] at hw
  simp +contextual (maxDischargeDepth := 40) [State.leaveL3, hk, hw]

@[simp] theorem State.relevel_frame (row : Nat) (hk : Within parts s₀ s)
    (hw : [.requests, .counters, .events, .almanac, .storage, .fabric, .level, .power, .usb, .harrow, .thresher] ⊆ parts := by simp_all) : Within parts s₀ (State.relevel s row) := by
  simp only [List.cons_subset, List.nil_subset, and_true] at hw
  simp +contextual (maxDischargeDepth := 40) [State.relevel, hk, hw]

@[simp] theorem State.fail_frame (row : Nat) (f : Fail → Fail) (hk : Within parts s₀ s)
    (hw : [.requests, .counters, .events, .almanac, .storage, .fabric, .level, .power, .usb, .harrow, .thresher] ⊆ parts := by simp_all) : Within parts s₀ (State.fail s row f) := by
  simp only [List.cons_subset, List.nil_subset, and_true] at hw
  simp +contextual (maxDischargeDepth := 40) [State.fail, hk, hw]

@[simp] theorem State.portFault_frame (k : Nat) (hk : Within parts s₀ s)
    (hw : [.counters, .events] ⊆ parts := by simp_all) : Within parts s₀ (State.portFault s k) := by
  simp only [List.cons_subset, List.nil_subset, and_true] at hw
  simp +contextual (maxDischargeDepth := 40) [State.portFault, hk, hw]

@[simp] theorem State.sentFault_frame (c : Nat) (hk : Within parts s₀ s)
    (hw : [.counters, .events] ⊆ parts := by simp_all) : Within parts s₀ (State.sentFault s c) := by
  simp only [List.cons_subset, List.nil_subset, and_true] at hw
  simp +contextual (maxDischargeDepth := 40) [State.sentFault, hk, hw]

@[simp] theorem State.takeUnit_frame (k sel j : Nat) (p : Profile) (v : Nat) (ok stuck : Bool) (hk : Within parts s₀ s)
    (hw : [.counters, .events, .almanac, .ports] ⊆ parts := by simp_all) :
    Within parts s₀ (State.takeUnit s k sel j p v ok stuck).1 := by
  simp only [List.cons_subset, List.nil_subset, and_true] at hw
  simp +contextual (maxDischargeDepth := 40) [State.takeUnit, hk, hw]

@[simp] theorem State.takeUnits_frame (k sel : Nat) (p : Profile) (us : List (Nat × Bool × Bool)) (hk : Within parts s₀ s)
    (hw : [.counters, .events, .almanac, .ports] ⊆ parts := by simp_all) :
    Within parts s₀ (State.takeUnits s k sel p us).1 := by
  simp only [List.cons_subset, List.nil_subset, and_true] at hw
  simp +contextual (maxDischargeDepth := 40) [State.takeUnits, hk, hw]

@[simp] theorem State.drawUnits_frame (k ix n : Nat) (p : Profile) (hk : Within parts s₀ s)
    (hw : [.harrow] ⊆ parts := by simp_all) : Within parts s₀ (State.drawUnits s k ix n p) := by
  simp only [List.cons_subset, List.nil_subset, and_true] at hw
  simp +contextual (maxDischargeDepth := 40) [State.drawUnits, hk, hw]

@[simp] theorem State.undraw_frame (k ix clocked : Nat) (p : Profile) (hk : Within parts s₀ s)
    (hw : [.harrow] ⊆ parts := by simp_all) :
    Within parts s₀ (State.undraw s k ix clocked p) := by
  simp only [List.cons_subset, List.nil_subset, and_true] at hw
  unfold State.undraw; (split <;> simp +contextual (maxDischargeDepth := 40) [hk, hw])

@[simp] theorem State.clearSelections_frame (ix : Nat) (hk : Within parts s₀ s)
    (hw : [.harrow] ⊆ parts := by simp_all) : Within parts s₀ (State.clearSelections s ix) := by
  simp only [List.cons_subset, List.nil_subset, and_true] at hw
  simp +contextual (maxDischargeDepth := 40) [State.clearSelections, hk, hw]

@[simp] theorem State.applySelections_frame (ix : Nat) (p : Profile) (us : List Nat) (hk : Within parts s₀ s)
    (hw : [.counters, .events, .almanac, .harrow] ⊆ parts := by simp_all) :
    Within parts s₀ (State.applySelections s ix p us).1 := by
  simp only [List.cons_subset, List.nil_subset, and_true] at hw
  simp +contextual (maxDischargeDepth := 40) [State.applySelections, hk, hw]

@[simp] theorem State.hardFault_frame (hk : Within parts s₀ s)
    (hw : [.requests, .counters, .events, .almanac, .drill, .storage, .fabric, .level, .power, .usb, .harrow, .thresher] ⊆ parts := by simp_all) : Within parts s₀ (State.hardFault s) := by
  simp only [List.cons_subset, List.nil_subset, and_true] at hw
  simp +contextual (maxDischargeDepth := 40) [State.hardFault, hk, hw]

@[simp] theorem State.drillFault_frame (hk : Within parts s₀ s)
    (hw : [.requests, .counters, .events, .almanac, .drill, .storage, .fabric, .level, .power, .usb, .harrow, .thresher] ⊆ parts := by simp_all) :
    Within parts s₀ (State.drillFault s) := by
  simp only [List.cons_subset, List.nil_subset, and_true] at hw
  simp +contextual (maxDischargeDepth := 40) [State.drillFault, hk, hw]

@[simp] theorem State.writeBack_frame (u : State) (ws : List (Nat × List Byte)) (hk : Within parts s₀ s) (hu : Within parts s₀ u) (hw : [.requests, .counters, .events, .almanac, .drill, .storage, .sram, .nor, .psram, .fabric, .level, .power, .usb, .harrow, .thresher] ⊆ parts := by simp_all) : Within parts s₀ (State.writeBack s u ws) := by
  simp only [List.cons_subset, List.nil_subset, and_true] at hw
  have h := State.store_frame .drill ws hk
  have g := State.store_frame .drill ws hu
  unfold State.writeBack
  split <;> simp_all +contextual (maxDischargeDepth := 40)

@[simp] theorem State.launchCsp_frame (f e : Nat) (hk : Within parts s₀ s)
    (hw : [.drill, .ports, .harrow] ⊆ parts := by simp_all) : Within parts s₀ (State.launchCsp s f e) := by
  simp only [List.cons_subset, List.nil_subset, and_true] at hw
  simp +contextual (maxDischargeDepth := 40) [State.launchCsp, hk, hw]

@[simp] theorem State.launchTrigger_frame (e : Nat) (hk : Within parts s₀ s)
    (hw : [.counters, .events, .almanac, .drill, .sent] ⊆ parts := by simp_all) : Within parts s₀ (State.launchTrigger s e) := by
  simp only [List.cons_subset, List.nil_subset, and_true] at hw
  simp +contextual (maxDischargeDepth := 40) [State.launchTrigger, hk, hw]

@[simp] theorem State.releasePort_frame (k : Nat) (hk : Within parts s₀ s)
    (hw : [.ports] ⊆ parts := by simp_all) : Within parts s₀ (State.releasePort s k) := by
  simp only [List.cons_subset, List.nil_subset, and_true] at hw
  simp +contextual (maxDischargeDepth := 40) [State.releasePort, hk, hw]

@[simp] theorem State.finishEntry_frame (f e t : Nat) (ok : Bool) (hk : Within parts s₀ s)
    (hw : [.drill] ⊆ parts := by simp_all) : Within parts s₀ (State.finishEntry s f e t ok) := by
  simp only [List.cons_subset, List.nil_subset, and_true] at hw
  simp +contextual (maxDischargeDepth := 40) [State.finishEntry, hk, hw]

@[simp] theorem State.completeCsp_frame (f e t : Nat) (us : List (Nat × Bool × Bool)) (hk : Within parts s₀ s)
    (hw : [.counters, .events, .almanac, .drill, .ports, .harrow] ⊆ parts := by simp_all) :
    Within parts s₀ (State.completeCsp s f e t us).1 := by
  simp only [List.cons_subset, List.nil_subset, and_true] at hw
  simp +contextual (maxDischargeDepth := 40) [State.completeCsp, hk, hw]

@[simp] theorem State.receiveCsp_frame (f e t : Nat) (sdi : List Bool) (hk : Within parts s₀ s)
    (hw : [.counters, .events, .almanac, .drill, .ports, .harrow] ⊆ parts := by simp_all) :
    Within parts s₀ (State.receiveCsp s f e t sdi).1 := by
  simp only [List.cons_subset, List.nil_subset, and_true] at hw
  simp +contextual (maxDischargeDepth := 40) [State.receiveCsp, hk, hw]

@[simp] theorem State.completeTrigger_frame (e t : Nat) (hk : Within parts s₀ s)
    (hw : [.requests, .counters, .events, .almanac, .drill, .storage, .sent, .sram, .nor, .psram, .fabric, .level, .power, .usb, .harrow, .thresher] ⊆ parts := by simp_all) : Within parts s₀ (State.completeTrigger s e t) := by
  simp only [List.cons_subset, List.nil_subset, and_true] at hw
  simp +contextual (maxDischargeDepth := 40) [State.completeTrigger, hk, hw]

@[simp] theorem State.abortPort_frame (f e clocked : Nat) (hk : Within parts s₀ s)
    (hw : [.ports] ⊆ parts := by simp_all) : Within parts s₀ (State.abortPort s f e clocked) := by
  simp only [List.cons_subset, List.nil_subset, and_true] at hw
  simp +contextual (maxDischargeDepth := 40) [State.abortPort, hk, hw]

@[simp] theorem State.abortSelections_frame (f e clocked : Nat) (hk : Within parts s₀ s)
    (hw : [.counters, .events, .almanac, .harrow] ⊆ parts := by simp_all) :
    Within parts s₀ (State.abortSelections s f e clocked) := by
  simp only [List.cons_subset, List.nil_subset, and_true] at hw
  simp +contextual (maxDischargeDepth := 40) [State.abortSelections, hk, hw]

@[simp] theorem State.missDeadline_frame (f e : Nat) (hk : Within parts s₀ s)
    (hw : [.counters, .events, .almanac, .drill] ⊆ parts := by simp_all) : Within parts s₀ (State.missDeadline s f e) := by
  simp only [List.cons_subset, List.nil_subset, and_true] at hw
  simp +contextual (maxDischargeDepth := 40) [State.missDeadline, hk, hw]

@[simp] theorem State.discardWrite_frame (f e : Nat) (hk : Within parts s₀ s)
    (hw : [.fabric] ⊆ parts := by simp_all) :
    Within parts s₀ (State.discardWrite s f e) := by
  simp only [List.cons_subset, List.nil_subset, and_true] at hw
  simp +contextual (maxDischargeDepth := 40) [State.discardWrite, hk, hw]

@[simp] theorem State.parkPorts_frame (hk : Within parts s₀ s)
    (hw : [.ports, .sent] ⊆ parts := by simp_all) : Within parts s₀ (State.parkPorts s) := by
  simp only [List.cons_subset, List.nil_subset, and_true] at hw
  exact hk.step fun p n => by cases p <;> simp_all [Part.same, State.parkPorts]

@[simp] theorem State.detachRecord_frame (hk : Within parts s₀ s)
    (hw : [.requests, .counters, .events, .almanac, .power, .harrow] ⊆ parts := by simp_all) : Within parts s₀ (State.detachRecord s) := by
  simp only [List.cons_subset, List.nil_subset, and_true] at hw
  simp +contextual (maxDischargeDepth := 40) [State.detachRecord, hk, hw]

@[simp] theorem State.detachPark_frame (hk : Within parts s₀ s)
    (hw : [.requests, .counters, .events, .almanac, .ports, .sent, .power, .harrow] ⊆ parts := by simp_all) : Within parts s₀ (State.detachPark s) := by
  simp only [List.cons_subset, List.nil_subset, and_true] at hw
  simp +contextual (maxDischargeDepth := 40) [State.detachPark, hk, hw]

@[simp] theorem State.startRecovery_frame (k : Nat) (hk : Within parts s₀ s)
    (hw : [.ports] ⊆ parts := by simp_all) : Within parts s₀ (State.startRecovery s k) := by
  simp only [List.cons_subset, List.nil_subset, and_true] at hw
  simp +contextual (maxDischargeDepth := 40) [State.startRecovery, hk, hw]

@[simp] theorem State.resetPort_frame (k : Nat) (hk : Within parts s₀ s)
    (hw : [.counters, .ports] ⊆ parts := by simp_all) : Within parts s₀ (State.resetPort s k) := by
  simp only [List.cons_subset, List.nil_subset, and_true] at hw
  simp +contextual (maxDischargeDepth := 40) [State.resetPort, hk, hw]

@[simp] theorem State.hold_frame (ss : List Slot) (hk : Within parts s₀ s)
    (hw : [.sheaf] ⊆ parts := by simp_all) : Within parts s₀ (State.hold s ss) := by
  simp only [List.cons_subset, List.nil_subset, and_true] at hw
  simp +contextual (maxDischargeDepth := 40) [State.hold, hk, hw]

@[simp] theorem State.closeEntry_frame (e : Nat) (hk : Within parts s₀ s)
    (hw : [.sent, .edges] ⊆ parts := by simp_all) : Within parts s₀ (State.closeEntry s e) := by
  simp only [List.cons_subset, List.nil_subset, and_true] at hw
  unfold State.closeEntry; (repeat' split) <;> simp_all +contextual (maxDischargeDepth := 40)

@[simp] theorem State.endCollect_frame (e : Nat) (hk : Within parts s₀ s)
    (hw : [.drill] ⊆ parts := by simp_all) : Within parts s₀ (State.endCollect s e) := by
  simp only [List.cons_subset, List.nil_subset, and_true] at hw
  simp +contextual (maxDischargeDepth := 40) [State.endCollect, hk, hw]

@[simp] theorem State.assemble_frame (hk : Within parts s₀ s)
    (hw : [.sheaf, .sent, .edges, .yoke] ⊆ parts := by simp_all) :
    Within parts s₀ (State.assemble s) := by
  simp only [List.cons_subset, List.nil_subset, and_true] at hw
  simp +contextual (maxDischargeDepth := 40) [State.assemble, hk, hw]

@[simp] theorem State.assemblerFault_frame (hk : Within parts s₀ s)
    (hw : [.requests, .counters, .events, .almanac, .drill, .sheaf, .storage, .fabric, .level, .power, .usb, .harrow, .thresher] ⊆ parts := by simp_all) :
    Within parts s₀ (State.assemblerFault s) := by
  simp only [List.cons_subset, List.nil_subset, and_true] at hw
  simp +contextual (maxDischargeDepth := 40) [State.assemblerFault, hk, hw]

@[simp] theorem State.copyTarget_frame (buffer period layout k : Nat) (hk : Within parts s₀ s)
    (hw : [.counters, .events, .almanac, .storage, .twoWire, .fabric, .power] ⊆ parts := by simp_all) :
    Within parts s₀ (State.copyTarget s buffer period layout k) := by
  simp only [List.cons_subset, List.nil_subset, and_true] at hw
  have h := fun l => State.access_frame .mirrorCopy l hk
  unfold State.copyTarget
  dsimp only
  split
  · exact hk
  · split <;> rename_i e
    · exact mirror_frame _ ((congrArg (fun p => Within parts s₀ p.1) e).mp (h _))
    · exact (congrArg (fun p => Within parts s₀ p.1) e).mp (h _)

@[simp] theorem State.refreshMirror_frame (hk : Within parts s₀ s)
    (hw : [.counters, .events, .almanac, .storage, .twoWire, .fabric, .power] ⊆ parts := by simp_all) :
    Within parts s₀ (State.refreshMirror s) := by
  simp only [List.cons_subset, List.nil_subset, and_true] at hw
  unfold State.refreshMirror; (repeat' split) <;> simp_all +contextual (maxDischargeDepth := 40)

@[simp] theorem State.publish_frame (a : Assembly) (hk : Within parts s₀ s)
    (hw : [.counters, .events, .almanac, .sheaf, .ports, .storage, .twoWire, .fabric, .power] ⊆ parts := by simp_all) : Within parts s₀ (State.publish s a) := by
  simp only [List.cons_subset, List.nil_subset, and_true] at hw
  simp +contextual (maxDischargeDepth := 40) [State.publish, hk, hw]

@[simp] theorem State.unpublish_frame (why : Nat) (hk : Within parts s₀ s)
    (hw : [.counters, .events, .almanac] ⊆ parts := by simp_all) : Within parts s₀ (State.unpublish s why) := by
  simp only [List.cons_subset, List.nil_subset, and_true] at hw
  simp +contextual (maxDischargeDepth := 40) [State.unpublish, hk, hw]

@[simp] theorem State.endSheaf_frame (hk : Within parts s₀ s)
    (hw : [.counters, .events, .almanac, .drill, .sheaf, .ports, .storage, .twoWire, .fabric, .power] ⊆ parts := by simp_all) : Within parts s₀ (State.endSheaf s) := by
  simp only [List.cons_subset, List.nil_subset, and_true] at hw
  unfold State.endSheaf; (repeat' split) <;> simp_all +contextual (maxDischargeDepth := 40)

@[simp] theorem State.serialDone_frame (c : Nat) (m : Nat × Nat × Bool) (hk : Within parts s₀ s)
    (hw : [.counters, .events, .almanac, .sent] ⊆ parts := by simp_all) : Within parts s₀ (State.serialDone s c m) := by
  simp only [List.cons_subset, List.nil_subset, and_true] at hw
  simp +contextual (maxDischargeDepth := 40) [State.serialDone, hk, hw]

@[simp] theorem State.serialNibble_frame (c n : Nat) (hk : Within parts s₀ s)
    (hw : [.counters, .events, .almanac, .sent] ⊆ parts := by simp_all) : Within parts s₀ (State.serialNibble s c n) := by
  simp only [List.cons_subset, List.nil_subset, and_true] at hw
  unfold State.serialNibble; (split <;> simp +contextual (maxDischargeDepth := 40) [hk, hw])

@[simp] theorem State.deliverSent_frame (c : Nat) (f : SentFrame) (hk : Within parts s₀ s)
    (hw : [.sent, .harrow] ⊆ parts := by simp_all) : Within parts s₀ (State.deliverSent s c f) := by
  simp only [List.cons_subset, List.nil_subset, and_true] at hw
  unfold State.deliverSent; dsimp only; (repeat' split) <;> simp_all +contextual (maxDischargeDepth := 40)

@[simp] theorem State.errorSent_frame (c : Nat) (d : Decoded) (hk : Within parts s₀ s)
    (hw : [.counters, .events, .almanac, .sent] ⊆ parts := by simp_all) : Within parts s₀ (State.errorSent s c d) := by
  simp only [List.cons_subset, List.nil_subset, and_true] at hw
  simp +contextual (maxDischargeDepth := 40) [State.errorSent, hk, hw]

@[simp] theorem State.goodSent_frame (c : Nat) (f : SentFrame) (ps : List Pick) (hk : Within parts s₀ s)
    (hw : [.counters, .events, .almanac, .sent, .harrow] ⊆ parts := by simp_all) :
    Within parts s₀ (State.goodSent s c f ps) := by
  simp only [List.cons_subset, List.nil_subset, and_true] at hw
  unfold State.goodSent; dsimp only; (repeat' split) <;> simp_all +contextual (maxDischargeDepth := 40)

@[simp] theorem State.takeSent_frame (c : Nat) (pulses : List Nat) (nextPulse syncEnd : Nat) (hk : Within parts s₀ s)
    (hw : [.counters, .events, .almanac, .sent, .harrow] ⊆ parts := by simp_all) :
    Within parts s₀ (State.takeSent s c pulses nextPulse syncEnd) := by
  simp only [List.cons_subset, List.nil_subset, and_true] at hw
  simp +contextual (maxDischargeDepth := 40) [State.takeSent, hk, hw]

@[simp] theorem State.acceptEdge_frame (i stamp : Nat) (hk : Within parts s₀ s)
    (hw : [.counters, .events, .edges] ⊆ parts := by simp_all) : Within parts s₀ (State.acceptEdge s i stamp) := by
  simp only [List.cons_subset, List.nil_subset, and_true] at hw
  simp +contextual (maxDischargeDepth := 40) [State.acceptEdge, hk, hw]

@[simp] theorem State.nackAddress_frame (k : Nat) (hk : Within parts s₀ s)
    (hw : [.counters, .twoWire] ⊆ parts := by simp_all) : Within parts s₀ (State.nackAddress s k) := by
  simp only [List.cons_subset, List.nil_subset, and_true] at hw
  simp +contextual (maxDischargeDepth := 40) [State.nackAddress, hk, hw]

@[simp] theorem State.nackData_frame (k : Nat) (hk : Within parts s₀ s)
    (hw : [.counters, .twoWire] ⊆ parts := by simp_all) : Within parts s₀ (State.nackData s k) := by
  simp only [List.cons_subset, List.nil_subset, and_true] at hw
  simp +contextual (maxDischargeDepth := 40) [State.nackData, hk, hw]

@[simp] theorem State.twtEvent_frame (k : Nat) (hk : Within parts s₀ s)
    (hw : [.counters, .events] ⊆ parts := by simp_all) : Within parts s₀ (State.twtEvent s k) := by
  simp only [List.cons_subset, List.nil_subset, and_true] at hw
  simp +contextual (maxDischargeDepth := 40) [State.twtEvent, hk, hw]

@[simp] theorem State.twtOut_frame (k : Nat) (bs : List Byte) (hk : Within parts s₀ s)
    (hw : [.counters, .twoWire] ⊆ parts := by simp_all) : Within parts s₀ (State.twtOut s k bs) := by
  simp only [List.cons_subset, List.nil_subset, and_true] at hw
  simp +contextual (maxDischargeDepth := 40) [State.twtOut, hk, hw]

@[simp] theorem State.collect_frame (ch : Nat) (hk : Within parts s₀ s)
    (hw : [.requests, .shadow, .level] ⊆ parts := by simp_all) : Within parts s₀ (State.collect s ch) := by
  simp only [List.cons_subset, List.nil_subset, and_true] at hw
  unfold State.collect; dsimp only; (repeat' split) <;> simp_all +contextual (maxDischargeDepth := 40)

@[simp] theorem State.pecFailed_frame (k : Nat) (hk : Within parts s₀ s)
    (hw : [.counters, .events, .twoWire] ⊆ parts := by simp_all) :
    Within parts s₀ (State.pecFailed s k) := by
  simp only [List.cons_subset, List.nil_subset, and_true] at hw
  simp +contextual (maxDischargeDepth := 40) [State.pecFailed, hk, hw]

@[simp] theorem State.setPointer_frame (k p : Nat) (hk : Within parts s₀ s)
    (hw : [.twoWire] ⊆ parts := by simp_all) :
    Within parts s₀ (State.setPointer s k p) := by
  simp only [List.cons_subset, List.nil_subset, and_true] at hw
  simp +contextual (maxDischargeDepth := 40) [State.setPointer, hk, hw]

@[simp] theorem State.writeRequest_frame (k : Nat) (data : List Byte) (pec : Byte) (hk : Within parts s₀ s)
    (hw : [.requests, .counters, .events, .twoWire] ⊆ parts := by simp_all) :
    Within parts s₀ (State.writeRequest s k data pec) := by
  simp only [List.cons_subset, List.nil_subset, and_true] at hw
  simp +contextual (maxDischargeDepth := 40) [State.writeRequest, hk, hw]

@[simp] theorem State.readReply_frame (k clocked : Nat) (phases : List Byte) (hk : Within parts s₀ s)
    (hw : [.requests, .shadow, .counters, .twoWire, .level] ⊆ parts := by simp_all) :
    Within parts s₀ (State.readReply s k clocked phases) := by
  simp only [List.cons_subset, List.nil_subset, and_true] at hw
  unfold State.readReply; dsimp only; (repeat' split) <;> simp_all +contextual (maxDischargeDepth := 40)

@[simp] theorem State.readRegisters_frame (k p count : Nat) (phases : List Byte) (hk : Within parts s₀ s)
    (hw : [.counters, .twoWire] ⊆ parts := by simp_all) :
    Within parts s₀ (State.readRegisters s k p count phases) := by
  simp only [List.cons_subset, List.nil_subset, and_true] at hw
  simp +contextual (maxDischargeDepth := 40) [State.readRegisters, hk, hw]

@[simp] theorem State.readTarget_frame (k : Nat) (pointer : Option Byte) (count : Nat) (hk : Within parts s₀ s)
    (hw : [.requests, .shadow, .counters, .twoWire, .level] ⊆ parts := by simp_all) :
    Within parts s₀ (State.readTarget s k pointer count) := by
  simp only [List.cons_subset, List.nil_subset, and_true] at hw
  simp +contextual (maxDischargeDepth := 40) [State.readTarget, hk, hw]

@[simp] theorem State.readVirtual_frame (a k : Nat) (pointer : Option Byte) (count : Nat) (hk : Within parts s₀ s)
    (hw : [.counters, .twoWire] ⊆ parts := by simp_all) :
    Within parts s₀ (State.readVirtual s a k pointer count) := by
  simp only [List.cons_subset, List.nil_subset, and_true] at hw
  unfold State.readVirtual
  dsimp only
  split
  · exact State.nackData_frame 1 hk
  · exact mirror_frame _ (State.twtOut_frame 1 _ hk)

@[simp] theorem State.clearMbx0_frame (hk : Within parts s₀ s)
    (hw : [.requests] ⊆ parts := by simp_all) : Within parts s₀ (State.clearMbx0 s) := by
  simp only [List.cons_subset, List.nil_subset, and_true] at hw
  simp +contextual (maxDischargeDepth := 40) [State.clearMbx0, hk, hw]

@[simp] theorem State.leaveSuspend_frame (hk : Within parts s₀ s)
    (hw : [.requests, .shadow, .counters, .events, .almanac, .usb, .harrow] ⊆ parts := by simp_all) : Within parts s₀ (State.leaveSuspend s) := by
  simp only [List.cons_subset, List.nil_subset, and_true] at hw
  simp +contextual (maxDischargeDepth := 40) [State.leaveSuspend, hk, hw]

@[simp] theorem State.resetFunction_frame (hk : Within parts s₀ s)
    (hw : [.requests, .usb] ⊆ parts := by simp_all) : Within parts s₀ (State.resetFunction s) := by
  simp only [List.cons_subset, List.nil_subset, and_true] at hw
  simp +contextual (maxDischargeDepth := 40) [State.resetFunction, hk, hw]

@[simp] theorem State.suspendStream_frame (e : Nat) (hk : Within parts s₀ s)
    (hw : [.counters, .usb] ⊆ parts := by simp_all) : Within parts s₀ (State.suspendStream s e) := by
  simp only [List.cons_subset, List.nil_subset, and_true] at hw
  simp +contextual (maxDischargeDepth := 40) [State.suspendStream, hk, hw]

@[simp] theorem State.abandonBulk_frame (ep : BulkEp) (hk : Within parts s₀ s)
    (hw : [.counters, .almanac, .usb] ⊆ parts := by simp_all) :
    Within parts s₀ (State.abandonBulk s ep) := by
  simp only [List.cons_subset, List.nil_subset, and_true] at hw
  unfold State.abandonBulk; dsimp only; (repeat' split) <;> simp_all +contextual (maxDischargeDepth := 40)

@[simp] theorem State.skipSheaf_frame (e : Nat) (hk : Within parts s₀ s)
    (hw : [.counters, .usb] ⊆ parts := by simp_all) : Within parts s₀ (State.skipSheaf s e) := by
  simp only [List.cons_subset, List.nil_subset, and_true] at hw
  simp +contextual (maxDischargeDepth := 40) [State.skipSheaf, hk, hw]

@[simp] theorem State.abandonCopy_frame (e : Nat) (hk : Within parts s₀ s)
    (hw : [.counters, .usb] ⊆ parts := by simp_all) :
    Within parts s₀ (State.abandonCopy s e) := by
  simp only [List.cons_subset, List.nil_subset, and_true] at hw
  simp +contextual (maxDischargeDepth := 40) [State.abandonCopy, hk, hw]

@[simp] theorem State.streamTake_frame (e : Nat) (hk : Within parts s₀ s)
    (hw : [.counters, .usb] ⊆ parts := by simp_all) : Within parts s₀ (State.streamTake s e) := by
  simp only [List.cons_subset, List.nil_subset, and_true] at hw
  simp +contextual (maxDischargeDepth := 40) [State.streamTake, hk, hw]

@[simp] theorem State.drawChunks_frame (e : Nat) (d : Delivery) (hk : Within parts s₀ s)
    (hw : [.harrow] ⊆ parts := by simp_all) : Within parts s₀ (State.drawChunks s e d).1 := by
  simp only [List.cons_subset, List.nil_subset, and_true] at hw
  simp +contextual (maxDischargeDepth := 40) [State.drawChunks, hk, hw]

@[simp] theorem State.copyRange_frame (e : Nat) (d : Delivery) (hk : Within parts s₀ s)
    (hw : [.counters, .events, .almanac, .storage, .sram, .nor, .psram, .fabric, .power] ⊆ parts := by simp_all) :
    Within parts s₀ (State.copyRange s e d).1 := by
  simp only [List.cons_subset, List.nil_subset, and_true] at hw
  have h := State.access_frame .usb [⟨.read, d.src, d.len⟩] hk
  unfold State.copyRange
  split
  · rename_i e
    exact State.store_frame .usb _ ((congrArg (fun p => Within parts s₀ p.1) e).mp h)
  · exact h

@[simp] theorem State.endTransfer_frame (v : Nat) (hk : Within parts s₀ s)
    (hw : [.counters, .almanac, .usb] ⊆ parts := by simp_all) :
    Within parts s₀ (State.endTransfer s v) := by
  simp only [List.cons_subset, List.nil_subset, and_true] at hw
  simp +contextual (maxDischargeDepth := 40) [State.endTransfer, hk, hw]

@[simp] theorem State.startDelivery_frame (e : Nat) (d : Delivery) (hk : Within parts s₀ s)
    (hw : [.usb] ⊆ parts := by simp_all) : Within parts s₀ (State.startDelivery s e d) := by
  simp only [List.cons_subset, List.nil_subset, and_true] at hw
  simp +contextual (maxDischargeDepth := 40) [State.startDelivery, hk, hw]

@[simp] theorem State.tryStart_frame (e : Nat) (hk : Within parts s₀ s)
    (hw : [.counters, .events, .almanac, .usb, .harrow] ⊆ parts := by simp_all) : Within parts s₀ (State.tryStart s e) := by
  simp only [List.cons_subset, List.nil_subset, and_true] at hw
  unfold State.tryStart; dsimp only; (repeat' split) <;> simp_all +contextual (maxDischargeDepth := 40)

@[simp] theorem State.silent_frame (e : Nat) (hk : Within parts s₀ s)
    (hw : [.counters, .usb] ⊆ parts := by simp_all) : Within parts s₀ (State.silent s e) := by
  simp only [List.cons_subset, List.nil_subset, and_true] at hw
  simp +contextual (maxDischargeDepth := 40) [State.silent, hk, hw]

@[simp] theorem State.advanceDelivery_frame (e : Nat) (d : Delivery) (i : Nat) (hk : Within parts s₀ s)
    (hw : [.counters, .usb] ⊆ parts := by simp_all) :
    Within parts s₀ (State.advanceDelivery s e d i) := by
  simp only [List.cons_subset, List.nil_subset, and_true] at hw
  simp +contextual (maxDischargeDepth := 40) [State.advanceDelivery, hk, hw]

@[simp] theorem State.sendChunk_frame (e : Nat) (d : Delivery) (i : Nat) (hk : Within parts s₀ s)
    (hw : [.counters, .events, .almanac, .usb, .harrow] ⊆ parts := by simp_all) :
    Within parts s₀ (State.sendChunk s e d i) := by
  simp only [List.cons_subset, List.nil_subset, and_true] at hw
  unfold State.sendChunk; dsimp only; (repeat' split) <;> simp_all +contextual (maxDischargeDepth := 40)

@[simp] theorem State.controlAck_frame (ok : Bool) (hk : Within parts s₀ s)
    (hw : [.usb] ⊆ parts := by simp_all) : Within parts s₀ (State.controlAck s ok) := by
  simp only [List.cons_subset, List.nil_subset, and_true] at hw
  simp +contextual (maxDischargeDepth := 40) [State.controlAck, hk, hw]

@[simp] theorem State.sendDescriptor_frame (bs : List Byte) (hk : Within parts s₀ s)
    (hw : [.usb] ⊆ parts := by simp_all) : Within parts s₀ (State.sendDescriptor s bs) := by
  simp only [List.cons_subset, List.nil_subset, and_true] at hw
  simp +contextual (maxDischargeDepth := 40) [State.sendDescriptor, hk, hw]

@[simp] theorem State.disconnect_frame (p : Nat) (hk : Within parts s₀ s)
    (hw : [.counters, .events, .usb] ⊆ parts := by simp_all) :
    Within parts s₀ (State.disconnect s p) := by
  simp only [List.cons_subset, List.nil_subset, and_true] at hw
  simp +contextual (maxDischargeDepth := 40) [State.disconnect, hk, hw]

@[simp] theorem State.settleHub_frame (hk : Within parts s₀ s)
    (hw : [.counters, .events, .usb] ⊆ parts := by simp_all) : Within parts s₀ (State.settleHub s) := by
  simp only [List.cons_subset, List.nil_subset, and_true] at hw
  simp +contextual (maxDischargeDepth := 40) [State.settleHub, hk, hw]

@[simp] theorem State.overCurrent_frame (p : Nat) (hk : Within parts s₀ s)
    (hw : [.counters, .events, .almanac, .usb] ⊆ parts := by simp_all) :
    Within parts s₀ (State.overCurrent s p) := by
  simp only [List.cons_subset, List.nil_subset, and_true] at hw
  simp +contextual (maxDischargeDepth := 40) [State.overCurrent, hk, hw]

@[simp] theorem State.almWrite_frame (a : Nat) (bs : List Byte) (hk : Within parts s₀ s)
    (hw : [.almanac] ⊆ parts := by simp_all) : Within parts s₀ (State.almWrite s a bs) := by
  simp only [List.cons_subset, List.nil_subset, and_true] at hw
  simp +contextual (maxDischargeDepth := 40) [State.almWrite, hk, hw]

@[simp] theorem State.saveCounters_frame (hk : Within parts s₀ s)
    (hw : [.almanac] ⊆ parts := by simp_all) : Within parts s₀ (State.saveCounters s) := by
  simp only [List.cons_subset, List.nil_subset, and_true] at hw
  simp +contextual (maxDischargeDepth := 40) [State.saveCounters, hk, hw]

@[simp] theorem State.markBad_frame (region i : Nat) (hk : Within parts s₀ s)
    (hw : [.counters, .events, .almanac, .free] ⊆ parts := by simp_all) : Within parts s₀ (State.markBad s region i) := by
  simp only [List.cons_subset, List.nil_subset, and_true] at hw
  simp +contextual (maxDischargeDepth := 40) [State.markBad, hk, hw]

@[simp] theorem State.copyFirst_frame (r : AlmRec) (seq : Nat) (zoneOk : Bool) (hk : Within parts s₀ s)
    (hw : [.counters, .events, .almanac, .free] ⊆ parts := by simp_all) :
    Within parts s₀ (State.copyFirst s r seq zoneOk) := by
  simp only [List.cons_subset, List.nil_subset, and_true] at hw
  unfold State.copyFirst; dsimp only; (repeat' split) <;> simp_all +contextual (maxDischargeDepth := 40)

@[simp] theorem State.writeRecord_frame (r : AlmRec) (zoneOk : Bool) (hk : Within parts s₀ s)
    (hw : [.counters, .events, .almanac, .free] ⊆ parts := by simp_all) :
    Within parts s₀ (State.writeRecord s r zoneOk) := by
  simp only [List.cons_subset, List.nil_subset, and_true] at hw
  simp +contextual (maxDischargeDepth := 40) [State.writeRecord, hk, hw]

@[simp] theorem State.writeHeader_frame (hk : Within parts s₀ s)
    (hw : [.almanac] ⊆ parts := by simp_all) : Within parts s₀ (State.writeHeader s) := by
  simp only [List.cons_subset, List.nil_subset, and_true] at hw
  unfold State.writeHeader
  split
  · exact State.almWrite_frame _ _ hk
  · exact hk

@[simp] theorem State.advance_frame (n : Nat) (hk : Within parts s₀ s)
    (hw : [.requests, .counters, .events, .almanac, .storage, .fabric, .power, .harrow, .thresher] ⊆ parts := by simp_all) : Within parts s₀ (State.advance s n) := by
  simp only [List.cons_subset, List.nil_subset, and_true] at hw
  unfold State.advance; (repeat' split) <;> simp_all +contextual (maxDischargeDepth := 40)

@[simp] theorem State.takeObj_frame (n : Nat) (o : Obj) (hk : Within parts s₀ s)
    (hw : [.thresher] ⊆ parts := by simp_all) :
    Within parts s₀ (State.takeObj s n o) := by
  simp only [List.cons_subset, List.nil_subset, and_true] at hw
  simp +contextual (maxDischargeDepth := 40) [State.takeObj, hk, hw]

@[simp] theorem State.poisoned_frame (n : Nat) (hk : Within parts s₀ s)
    (hw : [.requests, .counters, .events, .almanac, .storage, .fabric, .power, .harrow, .thresher] ⊆ parts := by simp_all) :
    Within parts s₀ (State.poisoned s n) := by
  simp only [List.cons_subset, List.nil_subset, and_true] at hw
  simp +contextual (maxDischargeDepth := 40) [State.poisoned, hk, hw]

@[simp] theorem State.finish_frame (n : Nat) (r : KernelResult) (next : State → State) (hk : Within parts s₀ s) (hn : ∀ u, Within parts s₀ u → Within parts s₀ (next u))
    (hw : [.requests, .counters, .events, .almanac, .storage, .sram, .nor, .psram, .fabric, .power, .harrow, .thresher, .free] ⊆ parts := by simp_all) :
    Within parts s₀ (State.finish s n r next) := by
  simp only [List.cons_subset, List.nil_subset, and_true] at hw
  have h := State.store_frame (thrAgent n) r.writes hk
  unfold State.finish
  split <;> rename_i e <;> rw [e] at h
  · have g := Within.foldl (fun s o => State.takeObj s n o) r.objs h fun u o hu => State.takeObj_frame n o hu
    dsimp only
    split <;> simp_all +contextual (maxDischargeDepth := 40)
  · simp +contextual (maxDischargeDepth := 40) [h, hw]
  · simp +contextual (maxDischargeDepth := 40) [h, hw]

@[simp] theorem State.perform_frame (n : Nat) (j : Job) (reads : List Piece) (result : Option KernelResult) (next : State → State) (hk : Within parts s₀ s) (hn : ∀ u, Within parts s₀ u → Within parts s₀ (next u))
    (hw : [.requests, .counters, .events, .almanac, .storage, .sram, .nor, .psram, .fabric, .power, .harrow, .thresher, .free] ⊆ parts := by simp_all) :
    Within parts s₀ (State.perform s n j reads result next) := by
  simp only [List.cons_subset, List.nil_subset, and_true] at hw
  have h := State.access_frame (thrAgent n) reads hk
  unfold State.perform
  split
  · exact State.finish_frame n _ next hk hn
  · split <;> rename_i e <;> rw [e] at h
    · split
      · exact State.finish_frame n _ next h hn
      · exact hk
    · simp +contextual (maxDischargeDepth := 40) [h, hw]
    · simp +contextual (maxDischargeDepth := 40) [h, hw]

@[simp] theorem State.service_frame (n op : Nat) (f : Job → ThrInstr → State) (hk : Within parts s₀ s) (hf : ∀ j i, Within parts s₀ (f j i)) :
    Within parts s₀ (State.service s n op f) := by
  unfold State.service
  split
  · split
    · exact hf _ _
    · exact hk
  · exact hk

@[simp] theorem State.kernel_frame (n op : Nat) (f : ThrInstr → Option KernelResult) (hk : Within parts s₀ s)
    (hw : [.requests, .counters, .events, .almanac, .storage, .sram, .nor, .psram, .fabric, .power, .harrow, .thresher, .free] ⊆ parts := by simp_all) :
    Within parts s₀ (State.kernel s n op f) := by
  simp only [List.cons_subset, List.nil_subset, and_true] at hw
  simp +contextual (maxDischargeDepth := 40) [State.kernel, hk, hw]

@[simp] theorem State.hardened_frame (n op : Nat) (u : Option Upset) (f : List Limb → List Comp → List Comp → List (List (List LastOp))) (hk : Within parts s₀ s)
    (hw : [.requests, .counters, .events, .almanac, .storage, .sram, .nor, .psram, .fabric, .power, .harrow, .thresher, .free] ⊆ parts := by simp_all) :
    Within parts s₀ (State.hardened s n op u f) := by
  simp only [List.cons_subset, List.nil_subset, and_true] at hw
  simp +contextual (maxDischargeDepth := 40) [State.hardened, hk, hw]

@[simp] theorem State.skipSample_frame (n : Nat) (hk : Within parts s₀ s)
    (hw : [.requests, .counters, .events, .almanac, .storage, .fabric, .power, .harrow, .thresher] ⊆ parts := by simp_all) : Within parts s₀ (State.skipSample s n) := by
  simp only [List.cons_subset, List.nil_subset, and_true] at hw
  simp +contextual (maxDischargeDepth := 40) [State.skipSample, hk, hw]

@[simp] theorem State.feature_frame (n : Nat) (j : Job) (i : ThrInstr) (m d : Obj) (hk : Within parts s₀ s)
    (hw : [.requests, .counters, .events, .almanac, .storage, .sram, .nor, .psram, .fabric, .power, .harrow, .thresher, .free] ⊆ parts := by simp_all) :
    Within parts s₀ (State.feature s n j i m d) := by
  simp only [List.cons_subset, List.nil_subset, and_true] at hw
  unfold State.feature; (repeat' split) <;> simp_all +contextual (maxDischargeDepth := 40)

@[simp] theorem State.waitFor_frame (n st : Nat) (hk : Within parts s₀ s)
    (hw : [.requests, .counters, .events, .almanac, .storage, .sram, .nor, .psram, .fabric, .power, .harrow, .thresher, .free] ⊆ parts := by simp_all) :
    Within parts s₀ (State.waitFor s n st) := by
  simp only [List.cons_subset, List.nil_subset, and_true] at hw
  unfold State.waitFor
  split
  · simp +contextual (maxDischargeDepth := 40) [hk, hw]
  · simp +contextual (maxDischargeDepth := 40) [hk, hw]

@[simp] theorem State.rerandThen_frame (n : Nat) (j : Job) (h pool : Nat) (next : State → State) (hk : Within parts s₀ s) (hn : ∀ u, Within parts s₀ u → Within parts s₀ (next u))
    (hw : [.requests, .counters, .events, .almanac, .storage, .sram, .nor, .psram, .fabric, .power, .harrow, .thresher, .free] ⊆ parts := by simp_all) :
    Within parts s₀ (State.rerandThen s n j h pool next) := by
  simp only [List.cons_subset, List.nil_subset, and_true] at hw
  unfold State.rerandThen
  split
  · exact State.waitFor_frame n 6 hk
  · exact State.perform_frame n j _ _ next hk hn

@[simp] theorem State.handOff_frame (n : Nat) (hk : Within parts s₀ s)
    (hw : [.requests, .counters, .events, .almanac, .storage, .sram, .nor, .psram, .fabric, .power, .harrow, .thresher, .free] ⊆ parts := by simp_all) :
    Within parts s₀ (State.handOff s n) := by
  simp only [List.cons_subset, List.nil_subset, and_true] at hw
  simp +contextual (maxDischargeDepth := 40) [State.handOff, hk, hw]

@[simp] theorem State.sampleDue_frame (pub : Option Nat) (n : Nat) (hk : Within parts s₀ s)
    (hw : [.thresher] ⊆ parts := by simp_all) : Within parts s₀ (State.sampleDue s pub n) := by
  simp only [List.cons_subset, List.nil_subset, and_true] at hw
  unfold State.sampleDue; (split <;> simp +contextual (maxDischargeDepth := 40) [hk, hw])

@[simp] theorem State.samples_frame (pub : Option Nat) (hk : Within parts s₀ s)
    (hw : [.requests, .counters, .events, .almanac, .storage, .fabric, .power, .harrow, .thresher] ⊆ parts := by simp_all) : Within parts s₀ (State.samples s pub) := by
  simp only [List.cons_subset, List.nil_subset, and_true] at hw
  simp +contextual (maxDischargeDepth := 40) [State.samples, hk, hw]

@[simp] theorem State.finishLoad_frame (n id vaddr received : Nat) (hk : Within parts s₀ s)
    (hw : [.requests, .counters, .events, .almanac, .storage, .fabric, .power, .harrow, .thresher] ⊆ parts := by simp_all) :
    Within parts s₀ (State.finishLoad s n id vaddr received).1 := by
  simp only [List.cons_subset, List.nil_subset, and_true] at hw
  simp +contextual (maxDischargeDepth := 40) [State.finishLoad, hk, hw]

@[simp] theorem State.stewardWrite_frame (n v : Nat) (bs : List Byte) (hk : Within parts s₀ s)
    (hw : [.counters, .events, .almanac, .storage, .sram, .nor, .psram, .fabric, .power] ⊆ parts := by simp_all) :
    Within parts s₀ (State.stewardWrite s n v bs).1 := by
  simp only [List.cons_subset, List.nil_subset, and_true] at hw
  have h := State.firmware_frame .steward (6 + n) [⟨.write, v, bs.length⟩] hk
  unfold State.stewardWrite
  split <;> simp_all +contextual (maxDischargeDepth := 40)

@[simp] theorem State.loadChunk_frame (r : Req) (hk : Within parts s₀ s)
    (hw : [.requests, .counters, .events, .almanac, .storage, .sram, .nor, .psram, .fabric, .power, .harrow, .thresher] ⊆ parts := by simp_all) :
    Within parts s₀ (State.loadChunk s r).1 := by
  simp only [List.cons_subset, List.nil_subset, and_true] at hw
  have h := fun v bs => State.stewardWrite_frame (pf r 0 1) v bs hk
  have g : ∀ (v : Nat) bs (t : State) b, s.stewardWrite (pf r 0 1) v bs = (t, b) → Within parts s₀ t := fun v bs t b e => by
    have := h v bs; rw [e] at this; exact this
  unfold State.loadChunk
  extract_lets n id data off old fresh received vaddr restart vaddr'
  split
  · exact hk
  · split
    · exact hk
    · split
      · exact State.dropObj_frame _ _ hk
      · split <;> rename_i e
        · exact g _ _ _ _ e
        · dsimp only
          split
          · exact State.finishLoad_frame _ _ _ _ (g _ _ _ _ e)
          · exact State.putObj_frame _ _ (g _ _ _ _ e)

@[simp] theorem State.loadStore_frame (r : Req) (hk : Within parts s₀ s)
    (hw : [.requests, .counters, .events, .almanac, .storage, .sram, .nor, .psram, .fabric, .power, .harrow, .thresher] ⊆ parts := by simp_all) :
    Within parts s₀ (State.loadStore s r).1 := by
  simp only [List.cons_subset, List.nil_subset, and_true] at hw
  have h := State.firmware_frame .storage (6 + pf r 0 1) [⟨.write, pf r 4 4, pf r 12 4⟩] hk
  unfold State.loadStore
  dsimp only
  (repeat' split) <;> simp_all +contextual (maxDischargeDepth := 40)

@[simp] theorem State.allocate_frame (r : Req) (hk : Within parts s₀ s)
    (hw : [.requests, .counters, .events, .almanac, .storage, .sram, .nor, .psram, .fabric, .power, .harrow, .thresher] ⊆ parts := by simp_all) :
    Within parts s₀ (State.allocate s r).1 := by
  simp only [List.cons_subset, List.nil_subset, and_true] at hw
  have h := fun v bs => State.stewardWrite_frame (pf r 0 1) v bs hk
  unfold State.allocate
  dsimp only
  split
  · exact hk
  · split
    · exact State.dropObj_frame _ _ hk
    · split <;> rename_i e
      · exact (congrArg (fun p => Within parts s₀ p.1) e).mp (h _ _)
      · exact State.finishLoad_frame _ _ _ _ ((congrArg (fun p => Within parts s₀ p.1) e).mp (h _ _))

@[simp] theorem State.unload_frame (r : Req) (hk : Within parts s₀ s)
    (hw : [.thresher] ⊆ parts := by simp_all) : Within parts s₀ (State.unload s r).1 := by
  simp only [List.cons_subset, List.nil_subset, and_true] at hw
  unfold State.unload; dsimp only; (repeat' split) <;> simp_all +contextual (maxDischargeDepth := 40)

@[simp] theorem State.thrLoad_frame (r : Req) (hk : Within parts s₀ s)
    (hw : [.requests, .counters, .events, .almanac, .storage, .sram, .nor, .psram, .fabric, .power, .harrow, .thresher] ⊆ parts := by simp_all) : Within parts s₀ (State.thrLoad s r) := by
  simp only [List.cons_subset, List.nil_subset, and_true] at hw
  unfold State.thrLoad
  refine State.serve_frame _ _ _ _ _ hk fun u t hu => ?_
  split
  · exact State.loadChunk_frame r hu
  · exact State.loadStore_frame r hu
  · exact State.unload_frame r hu
  · exact State.allocate_frame r hu

theorem State.takeReturn_frame (n : Nat) (j : Job) (bs : List Byte) (t : State) (hk : Within parts s₀ s)
    (e : State.takeReturn s n j bs = some t)
    (hw : [.sram, .nor, .psram, .fabric, .thresher] ⊆ parts := by simp_all) : Within parts s₀ t := by
  simp only [List.cons_subset, List.nil_subset, and_true] at hw
  unfold State.takeReturn at e
  rw [Option.bind_eq_some_iff] at e
  obtain ⟨d, -, e⟩ := e
  dsimp only at e
  split at e
  · cases e; simp [hk, hw]
  · cases e

@[simp] theorem State.powerLog_frame (code : Nat) (hk : Within parts s₀ s)
    (hw : [.counters, .almanac, .free] ⊆ parts := by simp_all) : Within parts s₀ (State.powerLog s code) := by
  simp only [List.cons_subset, List.nil_subset, and_true] at hw
  simp +contextual (maxDischargeDepth := 40) [State.powerLog, hk, hw]

@[simp] theorem State.abandonFallow_frame (hk : Within parts s₀ s)
    (hw : [.requests, .counters, .events, .almanac, .power, .yoke, .harrow, .free] ⊆ parts := by simp_all) : Within parts s₀ (State.abandonFallow s) := by
  simp only [List.cons_subset, List.nil_subset, and_true] at hw
  unfold State.abandonFallow; (repeat' split) <;> simp_all +contextual (maxDischargeDepth := 40)

@[simp] theorem State.stewardEnds_frame (hk : Within parts s₀ s)
    (hw : [.counters, .events, .almanac, .harrow, .update] ⊆ parts := by simp_all) : Within parts s₀ (State.stewardEnds s) := by
  simp only [List.cons_subset, List.nil_subset, and_true] at hw
  simp +contextual (maxDischargeDepth := 40) [State.stewardEnds, hk, hw]

@[simp] theorem State.restartSteward_frame (cause : Nat) (hk : Within parts s₀ s)
    (hw : [.requests, .shadow, .counters, .events, .almanac, .boot, .power, .yoke, .harrow, .update, .free] ⊆ parts := by simp_all) : Within parts s₀ (State.restartSteward s cause) := by
  simp only [List.cons_subset, List.nil_subset, and_true] at hw
  simp +contextual (maxDischargeDepth := 40) [State.restartSteward, hk, hw]

@[simp] theorem State.stewardDown_frame (hk : Within parts s₀ s)
    (hw : [.requests, .shadow, .counters, .events, .almanac, .storage, .fabric, .boot, .level, .power, .usb, .yoke, .harrow, .update, .thresher, .free] ⊆ parts := by simp_all) :
    Within parts s₀ (State.stewardDown s) := by
  simp only [List.cons_subset, List.nil_subset, and_true] at hw
  simp +contextual (maxDischargeDepth := 40) [State.stewardDown, hk, hw]

@[simp] theorem State.wakeBank_frame (k : Nat) (hk : Within parts s₀ s)
    (hw : [.fabric] ⊆ parts := by simp_all) :
    Within parts s₀ (State.wakeBank s k) := by
  simp only [List.cons_subset, List.nil_subset, and_true] at hw
  simp +contextual (maxDischargeDepth := 40) [State.wakeBank, hk, hw]

@[simp] theorem State.gateBank_frame (k : Nat) (st : BankState) (hk : Within parts s₀ s)
    (hw : [.sram, .fabric] ⊆ parts := by simp_all) : Within parts s₀ (State.gateBank s k st) := by
  simp only [List.cons_subset, List.nil_subset, and_true] at hw
  simp +contextual (maxDischargeDepth := 40) [State.gateBank, hk, hw]

@[simp] theorem State.settlePower_frame (hk : Within parts s₀ s)
    (hw : [.requests, .counters, .events, .almanac, .power, .harrow] ⊆ parts := by simp_all) : Within parts s₀ (State.settlePower s) := by
  simp only [List.cons_subset, List.nil_subset, and_true] at hw
  simp +contextual (maxDischargeDepth := 40) [State.settlePower, hk, hw]

@[simp] theorem State.failServed_frame (hk : Within parts s₀ s)
    (hw : [.requests, .counters, .events, .almanac, .harrow] ⊆ parts := by simp_all) : Within parts s₀ (State.failServed s) := by
  simp only [List.cons_subset, List.nil_subset, and_true] at hw
  unfold State.failServed; (split <;> simp +contextual (maxDischargeDepth := 40) [hk, hw])

@[simp] theorem State.starveSlave_frame (v : Nat) (hk : Within parts s₀ s)
    (hw : [.ports] ⊆ parts := by simp_all) : Within parts s₀ (State.starveSlave s v) := by
  simp only [List.cons_subset, List.nil_subset, and_true] at hw
  simp +contextual (maxDischargeDepth := 40) [State.starveSlave, hk, hw]

@[simp] theorem State.endOperation_frame (a : Agent) (v : Nat) (hk : Within parts s₀ s)
    (hw : [.requests, .counters, .events, .almanac, .drill, .sheaf, .ports, .storage, .fabric, .level, .power, .usb, .yoke, .harrow, .thresher] ⊆ parts := by simp_all) : Within parts s₀ (State.endOperation s a v) := by
  simp only [List.cons_subset, List.nil_subset, and_true] at hw
  unfold State.endOperation; (split <;> simp +contextual (maxDischargeDepth := 40) [hk, hw])

@[simp] theorem State.stewardB00_frame (a : Agent) (bank : Option Nat) (kind : Nat) (hk : Within parts s₀ s)
    (hw : [.requests, .shadow, .counters, .events, .almanac, .storage, .sram, .fabric, .boot, .level, .power, .usb, .yoke, .harrow, .update, .thresher, .free] ⊆ parts := by simp_all) :
    Within parts s₀ (State.stewardB00 s a bank kind) := by
  simp only [List.cons_subset, List.nil_subset, and_true] at hw
  simp +contextual (maxDischargeDepth := 40) [State.stewardB00, hk, hw]

@[simp] theorem State.suspend_frame (a : Agent) (hk : Within parts s₀ s)
    (hw : [.requests, .counters, .events, .almanac, .storage, .sram, .nor, .psram, .fabric, .power, .harrow, .thresher, .free] ⊆ parts := by simp_all) : Within parts s₀ (State.suspend s a) := by
  simp only [List.cons_subset, List.nil_subset, and_true] at hw
  unfold State.suspend; (split <;> simp +contextual (maxDischargeDepth := 40) [hk, hw])

@[simp] theorem State.takeFault_frame (a : Agent) (dir : Access) (v index kind : Nat) (hk : Within parts s₀ s)
    (hw : [.requests, .shadow, .counters, .events, .almanac, .drill, .sheaf, .ports, .storage, .sram, .nor, .psram, .fabric, .boot, .level, .power, .usb, .yoke, .harrow, .update, .thresher, .free] ⊆ parts := by simp_all) :
    Within parts s₀ (State.takeFault s a dir v index kind) := by
  simp only [List.cons_subset, List.nil_subset, and_true] at hw
  have h := State.noteFault_frame a dir v index kind hk
  unfold State.takeFault
  dsimp only
  split <;> simp_all +contextual (maxDischargeDepth := 40)

@[simp] theorem State.foundBad_frame (w : Nat) (hk : Within parts s₀ s)
    (hw : [.fabric, .level] ⊆ parts := by simp_all) :
    Within parts s₀ (State.foundBad s w) := by
  simp only [List.cons_subset, List.nil_subset, and_true] at hw
  simp +contextual (maxDischargeDepth := 40) [State.foundBad, hk, hw]

@[simp] theorem State.resolve_frame (c : Cursor) (lost : Bool) (hk : Within parts s₀ s)
    (hw : [.requests, .counters, .events, .almanac, .storage, .twoWire, .sram, .nor, .psram, .fabric, .power, .yoke, .harrow, .thresher, .free] ⊆ parts := by simp_all) : Within parts s₀ (State.resolve s c lost) := by
  simp only [List.cons_subset, List.nil_subset, and_true] at hw
  unfold State.resolve; (split <;> simp +contextual (maxDischargeDepth := 40) [hk, hw])

@[simp] theorem State.giveUp_frame (c : Cursor) (hk : Within parts s₀ s)
    (hw : [.requests, .counters, .events, .almanac, .drill, .sheaf, .ports, .storage, .fabric, .level, .power, .usb, .yoke, .harrow, .thresher] ⊆ parts := by simp_all) :
    Within parts s₀ (State.giveUp s c) := by
  simp only [List.cons_subset, List.nil_subset, and_true] at hw
  simp +contextual (maxDischargeDepth := 40) [State.giveUp, hk, hw]

@[simp] theorem State.carryPower_frame (k : Nat) (hk : Within parts s₀ s)
    (hw : [.sram, .fabric] ⊆ parts := by simp_all) : Within parts s₀ (State.carryPower s k) := by
  simp only [List.cons_subset, List.nil_subset, and_true] at hw
  unfold State.carryPower; (split <;> simp +contextual (maxDischargeDepth := 40) [hk, hw])

@[simp] theorem State.carryPowers_frame (hk : Within parts s₀ s)
    (hw : [.requests, .counters, .events, .almanac, .sram, .fabric, .power, .harrow] ⊆ parts := by simp_all) :
    Within parts s₀ (State.carryPowers s) := by
  simp only [List.cons_subset, List.nil_subset, and_true] at hw
  simp +contextual (maxDischargeDepth := 40) [State.carryPowers, hk, hw]

@[simp] theorem State.loseContent_frame (k : Nat) (hk : Within parts s₀ s)
    (hw : [.counters, .almanac, .fabric] ⊆ parts := by simp_all) :
    Within parts s₀ (State.loseContent s k) := by
  simp only [List.cons_subset, List.nil_subset, and_true] at hw
  unfold State.loseContent; dsimp only; (repeat' split) <;> simp_all +contextual (maxDischargeDepth := 40)

@[simp] theorem State.scrubWord_frame (a : Nat) (bad : Bool) (hk : Within parts s₀ s)
    (hw : [.counters, .events, .almanac, .fabric, .level] ⊆ parts := by simp_all) : Within parts s₀ (State.scrubWord s a bad) := by
  simp only [List.cons_subset, List.nil_subset, and_true] at hw
  simp +contextual (maxDischargeDepth := 40) [State.scrubWord, hk, hw]

@[simp] theorem State.emptyCache_frame (h : Nat) (hk : Within parts s₀ s)
    (hw : [.fabric] ⊆ parts := by simp_all) :
    Within parts s₀ (State.emptyCache s h) := by
  simp only [List.cons_subset, List.nil_subset, and_true] at hw
  simp +contextual (maxDischargeDepth := 40) [State.emptyCache, hk, hw]

@[simp] theorem State.setPool_frame (e : Nat) (a : Nat × Nat) (hk : Within parts s₀ s)
    (hw : [.fabric] ⊆ parts := by simp_all) : Within parts s₀ (State.setPool s e a) := by
  simp only [List.cons_subset, List.nil_subset, and_true] at hw
  simp +contextual (maxDischargeDepth := 40) [State.setPool, hk, hw]

@[simp] theorem State.carve_frame (r : Req) (hk : Within parts s₀ s)
    (hw : [.requests, .counters, .events, .almanac, .fabric, .harrow] ⊆ parts := by simp_all) : Within parts s₀ (State.carve s r) := by
  simp only [List.cons_subset, List.nil_subset, and_true] at hw
  unfold State.carve
  refine State.serve_frame _ _ _ _ _ hk fun u t hu => ?_
  (repeat' split) <;> simp_all +contextual (maxDischargeDepth := 40)

@[simp] theorem State.sendProgram_frame (sel : Nat) (p : Program) (hk : Within parts s₀ s)
    (hw : [.counters, .storage, .power] ⊆ parts := by simp_all) : Within parts s₀ (State.sendProgram s sel p) := by
  simp only [List.cons_subset, List.nil_subset, and_true] at hw
  unfold State.sendProgram; dsimp only; (repeat' split) <;> simp_all +contextual (maxDischargeDepth := 40)

@[simp] theorem State.closeGather_frame (sel : Nat) (hk : Within parts s₀ s)
    (hw : [.counters, .storage, .power] ⊆ parts := by simp_all) : Within parts s₀ (State.closeGather s sel) := by
  simp only [List.cons_subset, List.nil_subset, and_true] at hw
  unfold State.closeGather; (split <;> simp +contextual (maxDischargeDepth := 40) [hk, hw])

@[simp] theorem State.gatherByte_frame (a : Agent) (sel off : Nat) (b : Byte) (hk : Within parts s₀ s)
    (hw : [.counters, .storage, .power] ⊆ parts := by simp_all) :
    Within parts s₀ (State.gatherByte s a sel off b) := by
  simp only [List.cons_subset, List.nil_subset, and_true] at hw
  simp +contextual (maxDischargeDepth := 40) [State.gatherByte, hk, hw]

@[simp] theorem State.programByte_frame (sel a : Nat) (b : Byte) (hk : Within parts s₀ s)
    (hw : [.nor, .psram, .free] ⊆ parts := by simp_all) : Within parts s₀ (State.programByte s sel a b) := by
  simp only [List.cons_subset, List.nil_subset, and_true] at hw
  unfold State.programByte
  dsimp only
  have h : Within parts s₀ s.freeByte.2 := State.freeByte_frame hk
  split <;> split <;> simp [hk, h, hw]

@[simp] theorem State.nextProgram_frame (sel : Nat) (hk : Within parts s₀ s)
    (hw : [.counters, .storage, .power] ⊆ parts := by simp_all) : Within parts s₀ (State.nextProgram s sel) := by
  simp only [List.cons_subset, List.nil_subset, and_true] at hw
  unfold State.nextProgram; (split <;> simp +contextual (maxDischargeDepth := 40) [hk, hw])

@[simp] theorem State.pulseRst_frame (c : List Nat) (hk : Within parts s₀ s)
    (hw : [.storage] ⊆ parts := by simp_all) :
    Within parts s₀ (State.pulseRst s c) := by
  simp only [List.cons_subset, List.nil_subset, and_true] at hw
  simp +contextual (maxDischargeDepth := 40) [State.pulseRst, hk, hw]

@[simp] theorem State.resetStorage_frame (hk : Within parts s₀ s)
    (hw : [.storage] ⊆ parts := by simp_all) :
    Within parts s₀ (State.resetStorage s) := by
  simp only [List.cons_subset, List.nil_subset, and_true] at hw
  simp +contextual (maxDischargeDepth := 40) [State.resetStorage, hk, hw]

@[simp] theorem State.resumeLoads_frame (hk : Within parts s₀ s)
    (hw : [.requests, .counters, .events, .almanac, .storage, .sram, .nor, .psram, .fabric, .power, .harrow, .thresher] ⊆ parts := by simp_all) :
    Within parts s₀ (State.resumeLoads s) := by
  simp only [List.cons_subset, List.nil_subset, and_true] at hw
  unfold State.resumeLoads
  split
  · exact hk
  · refine Within.foldl _ _ hk fun u x hu => ?_
    have h := State.loadStore_frame x.req hu
    split <;> rename_i e <;> rw [e] at h
    · exact State.complete_frame _ _ _ h
    · exact h

@[simp] theorem State.freeSelect_frame (sel : Nat) (hk : Within parts s₀ s)
    (hw : [.requests, .counters, .events, .almanac, .storage, .sram, .nor, .psram, .fabric, .power, .harrow, .thresher] ⊆ parts := by simp_all) : Within parts s₀ (State.freeSelect s sel) := by
  simp only [List.cons_subset, List.nil_subset, and_true] at hw
  simp +contextual (maxDischargeDepth := 40) [State.freeSelect, hk, hw]

@[simp] theorem State.poll_frame (sel : Nat) (p : Program) (status : Nat) (hk : Within parts s₀ s)
    (hw : [.time, .storage] ⊆ parts := by simp_all) :
    Within parts s₀ (State.poll s sel p status) := by
  simp only [List.cons_subset, List.nil_subset, and_true] at hw
  simp +contextual (maxDischargeDepth := 40) [State.poll, hk, hw]

@[simp] theorem State.finishProgram_frame (sel : Nat) (p : Program) (hk : Within parts s₀ s)
    (hw : [.requests, .counters, .events, .almanac, .storage, .sram, .nor, .psram, .fabric, .power, .harrow, .thresher, .free] ⊆ parts := by simp_all) :
    Within parts s₀ (State.finishProgram s sel p) := by
  simp only [List.cons_subset, List.nil_subset, and_true] at hw
  simp +contextual (maxDischargeDepth := 40) [State.finishProgram, hk, hw]

@[simp] theorem State.storageFault_frame (a : Agent) (dir : Access) (v index : Nat) (hk : Within parts s₀ s)
    (hw : [.requests, .shadow, .counters, .events, .almanac, .drill, .sheaf, .ports, .storage, .sram, .nor, .psram, .fabric, .boot, .level, .power, .usb, .yoke, .harrow, .update, .thresher, .free] ⊆ parts := by simp_all) :
    Within parts s₀ (State.storageFault s a dir v index) := by
  simp only [List.cons_subset, List.nil_subset, and_true] at hw
  simp +contextual (maxDischargeDepth := 40) [State.storageFault, hk, hw]

@[simp] theorem State.spoil_frame (sel a n : Nat) (hk : Within parts s₀ s)
    (hw : [.nor, .psram, .free] ⊆ parts := by simp_all) : Within parts s₀ (State.spoil s sel a n) := by
  simp only [List.cons_subset, List.nil_subset, and_true] at hw
  unfold State.spoil
  exact Within.foldl _ _ hk fun u x hu => State.storeWrite_frame _ _ _ (State.freeByte_frame hu)

@[simp] theorem State.stopStorage_frame (hk : Within parts s₀ s)
    (hw : [.storage, .nor, .psram, .free] ⊆ parts := by simp_all) : Within parts s₀ (State.stopStorage s) := by
  simp only [List.cons_subset, List.nil_subset, and_true] at hw
  unfold State.stopStorage
  refine State.modCsp8_frame _ (State.each_frame _ _ hk fun u x hu => ?_)
  split
  · exact State.spoil_frame _ _ _ hu
  · exact hu

@[simp] theorem State.dropWrites_frame (a : Agent) (sel : Nat) (hk : Within parts s₀ s)
    (hw : [.storage] ⊆ parts := by simp_all) :
    Within parts s₀ (State.dropWrites s a sel) := by
  simp only [List.cons_subset, List.nil_subset, and_true] at hw
  simp +contextual (maxDischargeDepth := 40) [State.dropWrites, hk, hw]

@[simp] theorem State.cutEntry_frame (f e : Nat) (hk : Within parts s₀ s)
    (hw : [.counters, .events, .almanac, .drill, .ports, .harrow] ⊆ parts := by simp_all) : Within parts s₀ (State.cutEntry s f e) := by
  simp only [List.cons_subset, List.nil_subset, and_true] at hw
  simp +contextual (maxDischargeDepth := 40) [State.cutEntry, hk, hw]

@[simp] theorem State.cutEntries_frame (hk : Within parts s₀ s)
    (hw : [.counters, .events, .almanac, .drill, .ports, .harrow] ⊆ parts := by simp_all) : Within parts s₀ (State.cutEntries s) := by
  simp only [List.cons_subset, List.nil_subset, and_true] at hw
  have h : Within parts s₀ ((usedEntries s.reg).foldl (fun s (f, e) => s.cutEntry f e) s) :=
    Within.foldl _ _ hk fun u x hu => State.cutEntry_frame _ _ hu
  exact h.step fun p n => by cases p <;> simp_all [Part.same, State.cutEntries]

@[simp] theorem State.dropPeriod_frame (hk : Within parts s₀ s)
    (hw : [.drill, .sheaf] ⊆ parts := by simp_all) : Within parts s₀ (State.dropPeriod s) := by
  simp only [List.cons_subset, List.nil_subset, and_true] at hw
  simp +contextual (maxDischargeDepth := 40) [State.dropPeriod, hk, hw]

@[simp] theorem State.completeAll_frame (status : Nat) (hk : Within parts s₀ s)
    (hw : [.requests, .counters, .events, .almanac, .harrow] ⊆ parts := by simp_all) : Within parts s₀ (State.completeAll s status) := by
  simp only [List.cons_subset, List.nil_subset, and_true] at hw
  simp +contextual (maxDischargeDepth := 40) [State.completeAll, hk, hw]

@[simp] theorem State.resetDevice_frame (power : Bool) (cause : Nat) (hk : Within parts s₀ s)
    (hd : Part.device ⊆ parts := by assumption) :
    Within parts s₀ (State.resetDevice s power cause) := by
  have hw := hd
  simp only [Part.device, List.cons_subset, List.nil_subset, and_true] at hw
  have h : Within parts s₀ s.stopStorage := State.stopStorage_frame hk
  refine h.step fun p n => ?_
  cases p <;> first | rfl | exact absurd (by simp [hw]) n

@[simp] theorem State.keepFailed_frame (o : State) (hk : Within parts s₀ s)
    (hw : [.fabric] ⊆ parts := by simp_all) :
    Within parts s₀ (State.keepFailed o s) := by
  simp only [List.cons_subset, List.nil_subset, and_true] at hw
  simp +contextual (maxDischargeDepth := 40) [State.keepFailed, hk, hw]

@[simp] theorem State.loseBackup_frame (hk : Within parts s₀ s)
    (hw : [.power] ⊆ parts := by simp_all) : Within parts s₀ (State.loseBackup s) := by
  simp only [List.cons_subset, List.nil_subset, and_true] at hw
  simp +contextual (maxDischargeDepth := 40) [State.loseBackup, hk, hw]

@[simp] theorem State.lastLevel_frame (row : Nat) (hk : Within parts s₀ s)
    (hw : [.counters, .events, .almanac, .free] ⊆ parts := by simp_all) :
    Within parts s₀ (State.lastLevel s row) := by
  simp only [List.cons_subset, List.nil_subset, and_true] at hw
  simp +contextual (maxDischargeDepth := 40) [State.lastLevel, hk, hw]

@[simp] theorem State.stopSwitching_frame (hk : Within parts s₀ s)
    (hd : Part.device ⊆ parts := by assumption) : Within parts s₀ (State.stopSwitching s) := by
  have hw := hd
  simp only [Part.device, List.cons_subset, List.nil_subset, and_true] at hw
  simp +contextual (maxDischargeDepth := 40) [State.stopSwitching, hk, hw, hd]

@[simp] theorem State.powerUp_frame (hk : Within parts s₀ s)
    (hw : [.boot, .level, .power] ⊆ parts := by simp_all) : Within parts s₀ (State.powerUp s) := by
  simp only [List.cons_subset, List.nil_subset, and_true] at hw
  simp +contextual (maxDischargeDepth := 40) [State.powerUp, hk, hw]

@[simp] theorem State.release_frame (p : Straps) (hk : Within parts s₀ s)
    (hw : [.time, .shadow, .boot, .yoke] ⊆ parts := by simp_all) : Within parts s₀ (State.release s p) := by
  simp only [List.cons_subset, List.nil_subset, and_true] at hw
  simp +contextual (maxDischargeDepth := 40) [State.release, hk, hw]

@[simp] theorem State.clearZone_frame (seq : Nat) (hk : Within parts s₀ s)
    (hw : [.almanac] ⊆ parts := by simp_all) : Within parts s₀ (State.clearZone s seq) := by
  simp only [List.cons_subset, List.nil_subset, and_true] at hw
  simp +contextual (maxDischargeDepth := 40) [State.clearZone, hk, hw]

@[simp] theorem State.afterCommit_frame (r : AlmRec) (seq : Nat) (hk : Within parts s₀ s)
    (hd : Part.device ⊆ parts := by assumption) : Within parts s₀ (State.afterCommit s r seq) := by
  have hw := hd
  simp only [Part.device, List.cons_subset, List.nil_subset, and_true] at hw
  simp +contextual (maxDischargeDepth := 40) [State.afterCommit, hk, hw, hd]

@[simp] theorem State.startSlot_frame (ch e : Nat) (hk : Within parts s₀ s)
    (hw : [.counters, .events, .almanac, .harrow] ⊆ parts := by simp_all) : Within parts s₀ (State.startSlot s ch e) := by
  simp only [List.cons_subset, List.nil_subset, and_true] at hw
  simp +contextual (maxDischargeDepth := 40) [State.startSlot, hk, hw]

@[simp] theorem State.startSlots_frame (ch : Nat) (slots : List Nat) (hk : Within parts s₀ s)
    (hw : [.counters, .events, .almanac, .harrow] ⊆ parts := by simp_all) :
    Within parts s₀ (State.startSlots s ch slots) := by
  simp only [List.cons_subset, List.nil_subset, and_true] at hw
  simp +contextual (maxDischargeDepth := 40) [State.startSlots, hk, hw]

@[simp] theorem State.disarm_frame (mask reason : Nat) (hk : Within parts s₀ s)
    (hw : [.counters, .events, .almanac, .harrow] ⊆ parts := by simp_all) : Within parts s₀ (State.disarm s mask reason).1 := by
  simp only [List.cons_subset, List.nil_subset, and_true] at hw
  simp +contextual (maxDischargeDepth := 40) [State.disarm, hk, hw]

@[simp] theorem State.sealHarrow_frame (hk : Within parts s₀ s)
    (hw : [.counters, .events, .almanac, .level, .harrow, .seal] ⊆ parts := by simp_all) : Within parts s₀ (State.sealHarrow s).1 := by
  simp only [List.cons_subset, List.nil_subset, and_true] at hw
  simp +contextual (maxDischargeDepth := 40) [State.sealHarrow, hk, hw]

@[simp] theorem State.harrowDisarm_frame (r : Req) (hk : Within parts s₀ s)
    (hw : [.requests, .counters, .events, .almanac, .level, .harrow, .seal] ⊆ parts := by simp_all) : Within parts s₀ (State.harrowDisarm s r) := by
  simp only [List.cons_subset, List.nil_subset, and_true] at hw
  unfold State.harrowDisarm
  refine State.serve_frame _ _ _ _ _ hk fun u t hu => ?_
  (repeat' split) <;> simp_all +contextual (maxDischargeDepth := 40)

@[simp] theorem State.openWindow_frame (e : Nat) (hk : Within parts s₀ s)
    (hw : [.harrow] ⊆ parts := by simp_all) : Within parts s₀ (State.openWindow s e) := by
  simp only [List.cons_subset, List.nil_subset, and_true] at hw
  simp +contextual (maxDischargeDepth := 40) [State.openWindow, hk, hw]

@[simp] theorem State.harrowLine_frame (previous : Nat) (hk : Within parts s₀ s)
    (hw : [.counters, .events, .almanac, .harrow] ⊆ parts := by simp_all) : Within parts s₀ (State.harrowLine s previous) := by
  simp only [List.cons_subset, List.nil_subset, and_true] at hw
  simp +contextual (maxDischargeDepth := 40) [State.harrowLine, hk, hw]

@[simp] theorem State.clockLog_frame (code before after : Nat) (hk : Within parts s₀ s)
    (hw : [.counters, .almanac] ⊆ parts := by simp_all) :
    Within parts s₀ (State.clockLog s code before after) := by
  simp only [List.cons_subset, List.nil_subset, and_true] at hw
  simp +contextual (maxDischargeDepth := 40) [State.clockLog, hk, hw]

@[simp] theorem State.tryFailover_frame (hk : Within parts s₀ s)
    (hw : [.clock] ⊆ parts := by simp_all) : Within parts s₀ (State.tryFailover s) := by
  simp only [List.cons_subset, List.nil_subset, and_true] at hw
  simp +contextual (maxDischargeDepth := 40) [State.tryFailover, hk, hw]

@[simp] theorem State.rereference_frame (src : Nat) (hk : Within parts s₀ s)
    (hw : [.clock] ⊆ parts := by simp_all) : Within parts s₀ (State.rereference s src) := by
  simp only [List.cons_subset, List.nil_subset, and_true] at hw
  simp +contextual (maxDischargeDepth := 40) [State.rereference, hk, hw]

@[simp] theorem State.stopReceivers_frame (hk : Within parts s₀ s)
    (hw : [.ports, .sent] ⊆ parts := by simp_all) : Within parts s₀ (State.stopReceivers s) := by
  simp only [List.cons_subset, List.nil_subset, and_true] at hw
  exact hk.step fun p n => by cases p <;> simp_all [Part.same, State.stopReceivers]

@[simp] theorem State.enterRc_frame (hk : Within parts s₀ s)
    (hw : [.requests, .counters, .events, .almanac, .drill, .sheaf, .ports, .storage, .sent, .fabric, .clock, .level, .power, .usb, .yoke, .harrow, .thresher] ⊆ parts := by simp_all) : Within parts s₀ (State.enterRc s) := by
  simp only [List.cons_subset, List.nil_subset, and_true] at hw
  simp +contextual (maxDischargeDepth := 40) [State.enterRc, hk, hw]

@[simp] theorem State.yokeLog_frame (position code : Nat) (hk : Within parts s₀ s)
    (hw : [.counters, .almanac] ⊆ parts := by simp_all) : Within parts s₀ (State.yokeLog s position code) := by
  simp only [List.cons_subset, List.nil_subset, and_true] at hw
  simp +contextual (maxDischargeDepth := 40) [State.yokeLog, hk, hw]

@[simp] theorem State.pump_frame (k : Nat) (hk : Within parts s₀ s)
    (hw : [.yoke] ⊆ parts := by simp_all) : Within parts s₀ (State.pump s k) := by
  simp only [List.cons_subset, List.nil_subset, and_true] at hw
  unfold State.pump; (repeat' split) <;> simp_all +contextual (maxDischargeDepth := 40)

@[simp] theorem State.forward_frame (ticket : Option Ticket) (k : Nat) (message : List Byte) (hk : Within parts s₀ s)
    (hw : [.yoke] ⊆ parts := by simp_all) :
    Within parts s₀ (State.forward s ticket k message) := by
  simp only [List.cons_subset, List.nil_subset, and_true] at hw
  simp +contextual (maxDischargeDepth := 40) [State.forward, hk, hw]

@[simp] theorem State.dropForwards_frame (k status : Nat) (hk : Within parts s₀ s)
    (hw : [.requests, .counters, .events, .almanac, .yoke, .harrow] ⊆ parts := by simp_all) : Within parts s₀ (State.dropForwards s k status) := by
  simp only [List.cons_subset, List.nil_subset, and_true] at hw
  simp +contextual (maxDischargeDepth := 40) [State.dropForwards, hk, hw]

@[simp] theorem State.fixEntry_frame (hk : Within parts s₀ s)
    (hw : [.requests, .counters, .events, .almanac, .power, .yoke, .harrow] ⊆ parts := by simp_all) : Within parts s₀ (State.fixEntry s) := by
  simp only [List.cons_subset, List.nil_subset, and_true] at hw
  unfold State.fixEntry; (repeat' split) <;> simp_all +contextual (maxDischargeDepth := 40)

@[simp] theorem State.fixAlone_frame (hk : Within parts s₀ s)
    (hw : [.requests, .counters, .events, .almanac, .power, .harrow] ⊆ parts := by simp_all) : Within parts s₀ (State.fixAlone s) := by
  simp only [List.cons_subset, List.nil_subset, and_true] at hw
  unfold State.fixAlone; (split <;> simp +contextual (maxDischargeDepth := 40) [hk, hw])

@[simp] theorem State.refuseFallow_frame (hk : Within parts s₀ s)
    (hw : [.requests, .counters, .events, .almanac, .power, .yoke, .harrow, .free] ⊆ parts := by simp_all) : Within parts s₀ (State.refuseFallow s) := by
  simp only [List.cons_subset, List.nil_subset, and_true] at hw
  unfold State.refuseFallow; (split <;> simp +contextual (maxDischargeDepth := 40) [hk, hw])

@[simp] theorem State.startRanging_frame (k : Nat) (hk : Within parts s₀ s)
    (hw : [.yoke] ⊆ parts := by simp_all) : Within parts s₀ (State.startRanging s k) := by
  simp only [List.cons_subset, List.nil_subset, and_true] at hw
  simp +contextual (maxDischargeDepth := 40) [State.startRanging, hk, hw]

@[simp] theorem State.joinDone_frame (k : Nat) (hk : Within parts s₀ s)
    (hw : [.counters, .events, .almanac, .yoke] ⊆ parts := by simp_all) : Within parts s₀ (State.joinDone s k) := by
  simp only [List.cons_subset, List.nil_subset, and_true] at hw
  simp +contextual (maxDischargeDepth := 40) [State.joinDone, hk, hw]

@[simp] theorem State.commandDone_frame (c : Command) (hk : Within parts s₀ s)
    (hw : [.requests, .counters, .events, .almanac, .power, .yoke, .harrow] ⊆ parts := by simp_all) : Within parts s₀ (State.commandDone s c) := by
  simp only [List.cons_subset, List.nil_subset, and_true] at hw
  unfold State.commandDone; (split <;> simp +contextual (maxDischargeDepth := 40) [hk, hw])

@[simp] theorem State.settleCommands_frame (hk : Within parts s₀ s)
    (hw : [.requests, .counters, .events, .almanac, .power, .yoke, .harrow] ⊆ parts := by simp_all) : Within parts s₀ (State.settleCommands s) := by
  simp only [List.cons_subset, List.nil_subset, and_true] at hw
  simp +contextual (maxDischargeDepth := 40) [State.settleCommands, hk, hw]

@[simp] theorem State.unjoin_frame (k state : Nat) (hk : Within parts s₀ s)
    (hw : [.requests, .counters, .events, .almanac, .power, .yoke, .harrow] ⊆ parts := by simp_all) : Within parts s₀ (State.unjoin s k state) := by
  simp only [List.cons_subset, List.nil_subset, and_true] at hw
  simp +contextual (maxDischargeDepth := 40) [State.unjoin, hk, hw]

@[simp] theorem State.acknowledge_frame (k seq answer : Nat) (busy : Bool) (hk : Within parts s₀ s)
    (hw : [.requests, .counters, .events, .almanac, .power, .yoke, .harrow, .free] ⊆ parts := by simp_all) :
    Within parts s₀ (State.acknowledge s k seq answer busy) := by
  simp only [List.cons_subset, List.nil_subset, and_true] at hw
  unfold State.acknowledge; (split <;> simp +contextual (maxDischargeDepth := 40) [hk, hw])

@[simp] theorem State.countSending_frame (c : Command) (hk : Within parts s₀ s)
    (hw : [.counters, .yoke] ⊆ parts := by simp_all) : Within parts s₀ (State.countSending s c) := by
  simp only [List.cons_subset, List.nil_subset, and_true] at hw
  simp +contextual (maxDischargeDepth := 40) [State.countSending, hk, hw]

@[simp] theorem State.sendCommand_frame (hk : Within parts s₀ s)
    (hw : [.counters, .events, .almanac, .yoke, .harrow] ⊆ parts := by simp_all) : Within parts s₀ (State.sendCommand s) := by
  simp only [List.cons_subset, List.nil_subset, and_true] at hw
  unfold State.sendCommand; dsimp only; (repeat' split) <;> simp_all +contextual (maxDischargeDepth := 40)

@[simp] theorem State.takeEcho_frame (k : Nat) (roundTrip : Int) (hk : Within parts s₀ s)
    (hw : [.requests, .counters, .events, .almanac, .power, .yoke, .harrow] ⊆ parts := by simp_all) : Within parts s₀ (State.takeEcho s k roundTrip) := by
  simp only [List.cons_subset, List.nil_subset, and_true] at hw
  simp +contextual (maxDischargeDepth := 40) [State.takeEcho, hk, hw]

@[simp] theorem State.readSection_frame (k : Nat) (hk : Within parts s₀ s)
    (hw : [.yoke] ⊆ parts := by simp_all) : Within parts s₀ (State.readSection s k) := by
  simp only [List.cons_subset, List.nil_subset, and_true] at hw
  unfold State.readSection; dsimp only; (repeat' split) <;> simp_all +contextual (maxDischargeDepth := 40)

@[simp] theorem State.takeSection_frame (k : Nat) (reply : List Byte) (hk : Within parts s₀ s)
    (hw : [.yoke] ⊆ parts := by simp_all) :
    Within parts s₀ (State.takeSection s k reply) := by
  simp only [List.cons_subset, List.nil_subset, and_true] at hw
  unfold State.takeSection; dsimp only; (repeat' split) <;> simp_all +contextual (maxDischargeDepth := 40)

@[simp] theorem State.replyArrived_frame (k : Nat) (reply : List Byte) (hk : Within parts s₀ s)
    (hw : [.requests, .counters, .events, .almanac, .yoke, .harrow] ⊆ parts := by simp_all) :
    Within parts s₀ (State.replyArrived s k reply) := by
  simp only [List.cons_subset, List.nil_subset, and_true] at hw
  unfold State.replyArrived; dsimp only; (repeat' split) <;> simp_all +contextual (maxDischargeDepth := 40)

@[simp] theorem State.takeFragment_frame (k offset : Nat) (fragment : List Byte) (hk : Within parts s₀ s)
    (hw : [.requests, .counters, .events, .almanac, .yoke, .harrow] ⊆ parts := by simp_all) :
    Within parts s₀ (State.takeFragment s k offset fragment) := by
  simp only [List.cons_subset, List.nil_subset, and_true] at hw
  simp +contextual (maxDischargeDepth := 40) [State.takeFragment, hk, hw]

@[simp] theorem State.takeHeader_frame (k : Nat) (g : Segment) (hk : Within parts s₀ s)
    (hw : [.requests, .counters, .events, .almanac, .power, .yoke, .harrow, .free] ⊆ parts := by simp_all) : Within parts s₀ (State.takeHeader s k g) := by
  simp only [List.cons_subset, List.nil_subset, and_true] at hw
  simp +contextual (maxDischargeDepth := 40) [State.takeHeader, hk, hw]

@[simp] theorem State.edgeHit_frame (k : Nat) (hk : Within parts s₀ s)
    (hw : [.counters, .events, .almanac, .yoke] ⊆ parts := by simp_all) : Within parts s₀ (State.edgeHit s k) := by
  simp only [List.cons_subset, List.nil_subset, and_true] at hw
  simp +contextual (maxDischargeDepth := 40) [State.edgeHit, hk, hw]

@[simp] theorem State.reject_frame (k : Nat) (hk : Within parts s₀ s)
    (hw : [.requests, .counters, .events, .almanac, .power, .yoke, .harrow] ⊆ parts := by simp_all) : Within parts s₀ (State.reject s k) := by
  simp only [List.cons_subset, List.nil_subset, and_true] at hw
  simp +contextual (maxDischargeDepth := 40) [State.reject, hk, hw]

@[simp] theorem State.mergeSegment_frame (k cls : Nat) (g : Segment) (hk : Within parts s₀ s)
    (hw : [.counters, .events, .almanac, .storage, .sram, .nor, .psram, .fabric, .power, .yoke] ⊆ parts := by simp_all) :
    Within parts s₀ (State.mergeSegment s k cls g) := by
  simp only [List.cons_subset, List.nil_subset, and_true] at hw
  simp +contextual (maxDischargeDepth := 40) [State.mergeSegment, hk, hw]

@[simp] theorem State.classify_frame (k : Nat) (e : Int) (g : Segment) (hk : Within parts s₀ s)
    (hw : [.requests, .counters, .events, .almanac, .storage, .sram, .nor, .psram, .fabric, .power, .yoke, .harrow, .free] ⊆ parts := by simp_all) : Within parts s₀ (State.classify s k e g) := by
  simp only [List.cons_subset, List.nil_subset, and_true] at hw
  simp +contextual (maxDischargeDepth := 40) [State.classify, hk, hw]

@[simp] theorem yokeCtl_frame (op : Nat) (lead : Bool) (r : Req) (run : State → Ticket → State × Answer) (hk : Within parts s₀ s)
    (hr : ∀ u t, Within parts s₀ u → Within parts s₀ (run u t).1)
    (hw : [.requests, .counters, .events, .almanac, .harrow] ⊆ parts := by simp_all) : Within parts s₀ (yokeCtl op lead r s run) := by
  unfold yokeCtl
  exact State.serve_frame _ _ _ _ _ hk hr

@[simp] theorem State.moveTo_frame (position : Nat) (hk : Within parts s₀ s)
    (hw : [.level, .yoke] ⊆ parts := by simp_all) : Within parts s₀ (State.moveTo s position) := by
  simp only [List.cons_subset, List.nil_subset, and_true] at hw
  simp +contextual (maxDischargeDepth := 40) [State.moveTo, hk, hw]

@[simp] theorem State.dropOut_frame (hk : Within parts s₀ s)
    (hw : [.requests, .counters, .events, .almanac, .level, .power, .yoke, .harrow] ⊆ parts := by simp_all) : Within parts s₀ (State.dropOut s) := by
  simp only [List.cons_subset, List.nil_subset, and_true] at hw
  simp +contextual (maxDischargeDepth := 40) [State.dropOut, hk, hw]

@[simp] theorem State.startLeaving_frame (ticket : Option Ticket) (hk : Within parts s₀ s)
    (hw : [.requests, .counters, .events, .almanac, .yoke, .harrow] ⊆ parts := by simp_all) : Within parts s₀ (State.startLeaving s ticket) := by
  simp only [List.cons_subset, List.nil_subset, and_true] at hw
  simp +contextual (maxDischargeDepth := 40) [State.startLeaving, hk, hw]

@[simp] theorem State.executedFrame_frame (f : Frame) (answer : Nat) (hk : Within parts s₀ s)
    (hw : [.yoke] ⊆ parts := by simp_all) :
    Within parts s₀ (State.executedFrame s f answer) := by
  simp only [List.cons_subset, List.nil_subset, and_true] at hw
  simp +contextual (maxDischargeDepth := 40) [State.executedFrame, hk, hw]

@[simp] theorem State.repeatFrame_frame (kind : CmdKind) (f : Frame) (payload : List Byte) (hk : Within parts s₀ s)
    (hw : [.yoke] ⊆ parts := by simp_all) :
    Within parts s₀ (State.repeatFrame s kind f payload) := by
  simp only [List.cons_subset, List.nil_subset, and_true] at hw
  simp +contextual (maxDischargeDepth := 40) [State.repeatFrame, hk, hw]

@[simp] theorem State.frame_frame (kind : CmdKind) (f : Frame) (payload : List Byte) (run : State → State × Nat) (hk : Within parts s₀ s) (hr : ∀ u, Within parts s₀ u → Within parts s₀ (run u).1)
    (hw : [.yoke] ⊆ parts := by simp_all) :
    Within parts s₀ (State.frame s kind f payload run) := by
  simp only [List.cons_subset, List.nil_subset, and_true] at hw
  have h := State.repeatFrame_frame kind f payload hk
  unfold State.frame
  dsimp only
  split
  · exact h
  · split
    · simp +contextual (maxDischargeDepth := 40) [hw, h]
    · exact State.executedFrame_frame _ _ (hr _ h)

@[simp] theorem State.readBody_frame (hk : Within parts s₀ s)
    (hw : [.counters, .events, .almanac, .storage, .fabric, .power] ⊆ parts := by simp_all) :
    Within parts s₀ (State.readBody s).1 := by
  simp only [List.cons_subset, List.nil_subset, and_true] at hw
  have h := State.access_frame .yoke [s.bodyPiece] hk
  unfold State.readBody
  dsimp only
  split <;> simp_all +contextual (maxDischargeDepth := 40)

@[simp] theorem State.segmentBytes_frame (echo : Bool) (hk : Within parts s₀ s)
    (hw : [.counters, .events, .almanac, .storage, .fabric, .power] ⊆ parts := by simp_all) :
    Within parts s₀ (State.segmentBytes s echo).1 := by
  simp only [List.cons_subset, List.nil_subset, and_true] at hw
  have h := State.readBody_frame hk
  unfold State.segmentBytes
  dsimp only
  (repeat' split) <;> simp_all +contextual (maxDischargeDepth := 40)

@[simp] theorem State.putWords_frame (words : Tab) (keys : List Nat) (hk : Within parts s₀ s)
    (hw : [.config] ⊆ parts := by simp_all) :
    Within parts s₀ (State.putWords s words keys) := by
  simp only [List.cons_subset, List.nil_subset, and_true] at hw
  simp +contextual (maxDischargeDepth := 40) [State.putWords, hk, hw]

@[simp] theorem State.measureFurrows_frame (hk : Within parts s₀ s)
    (hw : [.drill] ⊆ parts := by simp_all) : Within parts s₀ (State.measureFurrows s) := by
  simp only [List.cons_subset, List.nil_subset, and_true] at hw
  simp +contextual (maxDischargeDepth := 40) [State.measureFurrows, hk, hw]

@[simp] theorem State.takeLayout_frame (hk : Within parts s₀ s)
    (hw : [.sheaf] ⊆ parts := by simp_all) : Within parts s₀ (State.takeLayout s) := by
  simp only [List.cons_subset, List.nil_subset, and_true] at hw
  simp +contextual (maxDischargeDepth := 40) [State.takeLayout, hk, hw]

@[simp] theorem State.applyMap_frame (o : State) (hk : Within parts s₀ s)
    (hw : [.fabric] ⊆ parts := by simp_all) :
    Within parts s₀ (State.applyMap o s) := by
  simp only [List.cons_subset, List.nil_subset, and_true] at hw
  simp +contextual (maxDischargeDepth := 40) [State.applyMap, hk, hw]

@[simp] theorem State.applyPeriod_frame (o : State) (hk : Within parts s₀ s)
    (hw : [.time] ⊆ parts := by simp_all) : Within parts s₀ (State.applyPeriod o s) := by
  simp only [List.cons_subset, List.nil_subset, and_true] at hw
  simp +contextual (maxDischargeDepth := 40) [State.applyPeriod, hk, hw]

@[simp] theorem State.applyInputs_frame (o : State) (hk : Within parts s₀ s)
    (hw : [.ports, .sent, .edges] ⊆ parts := by simp_all) : Within parts s₀ (State.applyInputs o s) := by
  simp only [List.cons_subset, List.nil_subset, and_true] at hw
  exact hk.step fun p n => by cases p <;> simp_all [Part.same, State.applyInputs]

@[simp] theorem State.recarve_frame (hk : Within parts s₀ s)
    (hw : [.fabric] ⊆ parts := by simp_all) :
    Within parts s₀ (State.recarve s) := by
  simp only [List.cons_subset, List.nil_subset, and_true] at hw
  unfold State.recarve; (repeat' split) <;> simp_all +contextual (maxDischargeDepth := 40)

@[simp] theorem State.applyUsb_frame (o : State) (hk : Within parts s₀ s)
    (hw : [.counters, .events, .fabric, .usb] ⊆ parts := by simp_all) : Within parts s₀ (State.applyUsb o s) := by
  simp only [List.cons_subset, List.nil_subset, and_true] at hw
  simp +contextual (maxDischargeDepth := 40) [State.applyUsb, hk, hw]

@[simp] theorem State.applyThresher_frame (o : State) (hk : Within parts s₀ s)
    (hw : [.requests, .counters, .events, .almanac, .storage, .fabric, .power, .harrow, .thresher] ⊆ parts := by simp_all) : Within parts s₀ (State.applyThresher o s) := by
  simp only [List.cons_subset, List.nil_subset, and_true] at hw
  simp +contextual (maxDischargeDepth := 40) [State.applyThresher, hk, hw]

@[simp] theorem State.applyYoke_frame (o : State) (hk : Within parts s₀ s)
    (hw : [.requests, .counters, .events, .almanac, .power, .yoke, .harrow] ⊆ parts := by simp_all) : Within parts s₀ (State.applyYoke o s) := by
  simp only [List.cons_subset, List.nil_subset, and_true] at hw
  simp +contextual (maxDischargeDepth := 40) [State.applyYoke, hk, hw]

@[simp] theorem State.copyAon_frame (hk : Within parts s₀ s)
    (hw : [.power] ⊆ parts := by simp_all) : Within parts s₀ (State.copyAon s) := by
  simp only [List.cons_subset, List.nil_subset, and_true] at hw
  simp +contextual (maxDischargeDepth := 40) [State.copyAon, hk, hw]

@[simp] theorem State.loadRtc_frame (hk : Within parts s₀ s)
    (hw : [.power] ⊆ parts := by simp_all) : Within parts s₀ (State.loadRtc s) := by
  simp only [List.cons_subset, List.nil_subset, and_true] at hw
  simp +contextual (maxDischargeDepth := 40) [State.loadRtc, hk, hw]

@[simp] theorem State.applyPower_frame (o : State) (v1Word : Option Nat) (hk : Within parts s₀ s)
    (hw : [.power] ⊆ parts := by simp_all) :
    Within parts s₀ (State.applyPower o s v1Word) := by
  simp only [List.cons_subset, List.nil_subset, and_true] at hw
  unfold State.applyPower; (repeat' split) <;> simp_all +contextual (maxDischargeDepth := 40)

@[simp] theorem State.applyClock_frame (o : State) (hk : Within parts s₀ s)
    (hw : [.clock] ⊆ parts := by simp_all) : Within parts s₀ (State.applyClock o s) := by
  simp only [List.cons_subset, List.nil_subset, and_true] at hw
  simp +contextual (maxDischargeDepth := 40) [State.applyClock, hk, hw]

@[simp] theorem State.applyUnits_frame (o : State) (v1Word : Option Nat) (hk : Within parts s₀ s)
    (hw : [.time, .requests, .counters, .events, .almanac, .ports, .storage, .sent, .edges, .fabric, .clock, .power, .usb, .yoke, .harrow, .thresher] ⊆ parts := by simp_all) :
    Within parts s₀ (State.applyUnits o s v1Word) := by
  simp only [List.cons_subset, List.nil_subset, and_true] at hw
  simp +contextual (maxDischargeDepth := 40) [State.applyUnits, hk, hw]

@[simp] theorem State.applySet_frame (words : Tab) (keys : List Nat) (epoch : Nat) (hk : Within parts s₀ s)
    (hw : [.time, .requests, .shadow, .config, .counters, .events, .almanac, .drill, .sheaf, .ports, .storage, .sent, .edges, .fabric, .clock, .level, .power, .usb, .yoke, .harrow, .thresher] ⊆ parts := by simp_all) :
    Within parts s₀ (State.applySet s words keys epoch) := by
  simp only [List.cons_subset, List.nil_subset, and_true] at hw
  unfold State.applySet
  simp +contextual (maxDischargeDepth := 40) [hk, hw]

@[simp] theorem State.applyWord_frame (key value : Nat) (hk : Within parts s₀ s)
    (hw : [.time, .requests, .shadow, .config, .counters, .events, .almanac, .drill, .sheaf, .ports, .storage, .sent, .edges, .fabric, .clock, .level, .power, .usb, .yoke, .harrow, .thresher] ⊆ parts := by simp_all) : Within parts s₀ (State.applyWord s key value) := by
  simp only [List.cons_subset, List.nil_subset, and_true] at hw
  unfold State.applyWord
  simp +contextual (maxDischargeDepth := 40) [hk, hw]

@[simp] theorem State.saveSlots_frame (x : SlotState) (hk : Within parts s₀ s)
    (hw : [.nor] ⊆ parts := by simp_all) : Within parts s₀ (State.saveSlots s x) := by
  simp only [List.cons_subset, List.nil_subset, and_true] at hw
  simp +contextual (maxDischargeDepth := 40) [State.saveSlots, hk, hw]

@[simp] theorem State.imageLog_frame (slot code part : Nat) (hk : Within parts s₀ s)
    (hw : [.counters, .almanac] ⊆ parts := by simp_all) : Within parts s₀ (State.imageLog s slot code part) := by
  simp only [List.cons_subset, List.nil_subset, and_true] at hw
  simp +contextual (maxDischargeDepth := 40) [State.imageLog, hk, hw]

@[simp] theorem State.tryImages_frame (l : List Nat) (hk : Within parts s₀ s)
    (hw : [.counters, .almanac, .update] ⊆ parts := by simp_all) : Within parts s₀ (State.tryImages s l).1 := by
  simp only [List.cons_subset, List.nil_subset, and_true] at hw
  induction l generalizing s with
  | nil => exact hk
  | cons a t ih =>
    unfold State.tryImages
    (repeat' split) <;> simp +contextual (maxDischargeDepth := 40) [hk, ih, hw]

@[simp] theorem State.resetRecord_frame (hk : Within parts s₀ s)
    (hw : [.counters, .almanac] ⊆ parts := by simp_all) : Within parts s₀ (State.resetRecord s) := by
  simp only [List.cons_subset, List.nil_subset, and_true] at hw
  simp +contextual (maxDischargeDepth := 40) [State.resetRecord, hk, hw]

@[simp] theorem State.applyReset_frame (hk : Within parts s₀ s)
    (hw : [.time, .requests, .shadow, .config, .counters, .events, .almanac, .drill, .sheaf, .ports, .storage, .sent, .edges, .fabric, .clock, .level, .power, .usb, .yoke, .harrow, .thresher] ⊆ parts := by simp_all) : Within parts s₀ (State.applyReset s) := by
  simp only [List.cons_subset, List.nil_subset, and_true] at hw
  simp +contextual (maxDischargeDepth := 40) [State.applyReset, hk, hw]

@[simp] theorem State.applyAutostart_frame (hk : Within parts s₀ s)
    (hw : [.time, .requests, .shadow, .config, .counters, .events, .almanac, .drill, .sheaf, .ports, .storage, .sent, .edges, .fabric, .clock, .level, .power, .usb, .yoke, .harrow, .thresher] ⊆ parts := by simp_all) : Within parts s₀ (State.applyAutostart s) := by
  simp only [List.cons_subset, List.nil_subset, and_true] at hw
  unfold State.applyAutostart; dsimp only; (repeat' split) <;> simp_all +contextual (maxDischargeDepth := 40)

@[simp] theorem State.reportBackup_frame (hk : Within parts s₀ s)
    (hw : [.counters, .events, .almanac, .power] ⊆ parts := by simp_all) : Within parts s₀ (State.reportBackup s) := by
  simp only [List.cons_subset, List.nil_subset, and_true] at hw
  simp +contextual (maxDischargeDepth := 40) [State.reportBackup, hk, hw]

@[simp] theorem State.allocatePool_frame (hk : Within parts s₀ s)
    (hw : [.fabric] ⊆ parts := by simp_all) : Within parts s₀ (State.allocatePool s) := by
  simp only [List.cons_subset, List.nil_subset, and_true] at hw
  unfold State.allocatePool
  split
  · exact hk
  · refine State.each_frame _ _ hk fun u x hu => ?_
    dsimp only
    split
    · exact hu
    · split
      · simp [hu, hw]
      · exact hu

@[simp] theorem State.takeFraming_frame (hk : Within parts s₀ s)
    (hw : [.shadow] ⊆ parts := by simp_all) : Within parts s₀ (State.takeFraming s) := by
  simp only [List.cons_subset, List.nil_subset, and_true] at hw
  simp +contextual (maxDischargeDepth := 40) [State.takeFraming, hk, hw]

@[simp] theorem State.startWork_frame (hk : Within parts s₀ s)
    (hw : [.shadow, .almanac, .fabric, .boot, .level, .harrow] ⊆ parts := by simp_all) : Within parts s₀ (State.startWork s) := by
  simp only [List.cons_subset, List.nil_subset, and_true] at hw
  simp +contextual (maxDischargeDepth := 40) [State.startWork, hk, hw]

@[simp] theorem State.openMailboxes_frame (hk : Within parts s₀ s)
    (hw : [.events, .boot, .level, .yoke] ⊆ parts := by simp_all) : Within parts s₀ (State.openMailboxes s) := by
  simp only [List.cons_subset, List.nil_subset, and_true] at hw
  simp +contextual (maxDischargeDepth := 40) [State.openMailboxes, hk, hw]

@[simp] theorem State.finishSwap_frame (hk : Within parts s₀ s)
    (hw : [.requests, .counters, .events, .almanac, .nor, .harrow, .update] ⊆ parts := by simp_all) : Within parts s₀ (State.finishSwap s) := by
  simp only [List.cons_subset, List.nil_subset, and_true] at hw
  unfold State.finishSwap; (split <;> simp +contextual (maxDischargeDepth := 40) [hk, hw])

@[simp] theorem State.finishTrial_frame (hk : Within parts s₀ s)
    (hw : [.counters, .events, .almanac, .nor, .update] ⊆ parts := by simp_all) : Within parts s₀ (State.finishTrial s) := by
  simp only [List.cons_subset, List.nil_subset, and_true] at hw
  simp +contextual (maxDischargeDepth := 40) [State.finishTrial, hk, hw]

@[simp] theorem State.revertSwap_frame (hk : Within parts s₀ s)
    (hw : [.nor, .boot, .update] ⊆ parts := by simp_all) : Within parts s₀ (State.revertSwap s) := by
  simp only [List.cons_subset, List.nil_subset, and_true] at hw
  simp +contextual (maxDischargeDepth := 40) [State.revertSwap, hk, hw]

@[simp] theorem State.deepStart_frame (hk : Within parts s₀ s)
    (hd : Part.device ⊆ parts := by assumption) :
    Within parts s₀ (State.deepStart s) := by
  have hw := hd
  simp only [Part.device, List.cons_subset, List.nil_subset, and_true] at hw
  have h : Within parts s₀ (State.keepFailed s (s.resetDevice false s.boot.cause)) :=
    State.keepFailed_frame _ (State.resetDevice_frame _ _ hk)
  exact h.step fun p n => by cases p <;> simp_all [Part.same, State.deepStart]

@[simp] theorem State.wakeUp_frame (src : Nat) (hk : Within parts s₀ s)
    (hd : Part.device ⊆ parts := by assumption) : Within parts s₀ (State.wakeUp s src) := by
  have hw := hd
  simp only [Part.device, List.cons_subset, List.nil_subset, and_true] at hw
  have h : ∀ (u : State) (c : Clk), Within parts s₀ u → Within parts s₀ { u with clk := c } := fun u c hu =>
    hu.step fun p n => by cases p <;> simp_all [Part.same]
  unfold State.wakeUp
  split
  · exact hk
  · dsimp only
    split
    · exact State.deepStart_frame (State.modYoke_frame _ (h _ _ (State.modPw_frame _ hk)))
    · exact State.modBoot_frame _ (State.modYoke_frame _ (h _ _ (State.modPw_frame _ hk)))

@[simp] theorem State.wakeSignal_frame (hk : Within parts s₀ s)
    (hw : [.yoke] ⊆ parts := by simp_all) : Within parts s₀ (State.wakeSignal s) := by
  simp only [List.cons_subset, List.nil_subset, and_true] at hw
  unfold State.wakeSignal; (repeat' split) <;> simp_all +contextual (maxDischargeDepth := 40)

@[simp] theorem State.wakeBy_frame (src : Nat) (hk : Within parts s₀ s)
    (hd : Part.device ⊆ parts := by assumption) : Within parts s₀ (State.wakeBy s src) := by
  have hw := hd
  simp only [Part.device, List.cons_subset, List.nil_subset, and_true] at hw
  simp +contextual (maxDischargeDepth := 40) [State.wakeBy, hk, hw, hd]

@[simp] theorem State.wakePending_frame (b : Nat) (hk : Within parts s₀ s)
    (hw : [.requests, .counters, .events, .almanac, .power, .yoke, .harrow, .free] ⊆ parts := by simp_all) : Within parts s₀ (State.wakePending s b) := by
  simp only [List.cons_subset, List.nil_subset, and_true] at hw
  unfold State.wakePending; (split <;> simp +contextual (maxDischargeDepth := 40) [hk, hw])

@[simp] theorem State.wakeAgreed_frame (b : Nat) (hk : Within parts s₀ s)
    (hw : [.requests, .counters, .events, .almanac, .yoke, .harrow] ⊆ parts := by simp_all) : Within parts s₀ (State.wakeAgreed s b) := by
  simp only [List.cons_subset, List.nil_subset, and_true] at hw
  unfold State.wakeAgreed; (split <;> simp +contextual (maxDischargeDepth := 40) [hk, hw])

@[simp] theorem State.wakeSource_frame (b : Nat) (hk : Within parts s₀ s)
    (hd : Part.device ⊆ parts := by assumption) : Within parts s₀ (State.wakeSource s b) := by
  have hw := hd
  simp only [Part.device, List.cons_subset, List.nil_subset, and_true] at hw
  unfold State.wakeSource; dsimp only; (repeat' split) <;> simp_all +contextual (maxDischargeDepth := 40)

@[simp] theorem State.recoverChain_frame (k : Nat) (hk : Within parts s₀ s)
    (hw : [.counters, .ports] ⊆ parts := by simp_all) : Within parts s₀ (State.recoverChain s k) := by
  simp only [List.cons_subset, List.nil_subset, and_true] at hw
  simp +contextual (maxDischargeDepth := 40) [State.recoverChain, hk, hw]

@[simp] theorem State.wipeUnretained_frame (hk : Within parts s₀ s)
    (hw : [.sram, .fabric] ⊆ parts := by simp_all) : Within parts s₀ (State.wipeUnretained s) := by
  simp only [List.cons_subset, List.nil_subset, and_true] at hw
  simp +contextual (maxDischargeDepth := 40) [State.wipeUnretained, hk, hw]

@[simp] theorem State.sleepMem_frame (deep : Bool) (hk : Within parts s₀ s)
    (hw : [.sram, .fabric] ⊆ parts := by simp_all) :
    Within parts s₀ (State.sleepMem s deep) := by
  simp only [List.cons_subset, List.nil_subset, and_true] at hw
  have h := State.modMem_frame (parts := parts) (fun m => { m with cursors := [] }) hk
  unfold State.sleepMem
  dsimp only
  split
  · exact State.modMem_frame _ h
  · exact State.wipeUnretained_frame h

@[simp] theorem State.enterFallow_frame (deep : Bool) (sleepMs : Nat) (agreed : Bool) (latched : Option Nat) (hk : Within parts s₀ s)
    (hd : Part.device ⊆ parts := by assumption) :
    Within parts s₀ (State.enterFallow s deep sleepMs agreed latched) := by
  have hw := hd
  simp only [Part.device, List.cons_subset, List.nil_subset, and_true] at hw
  have idle : ∀ u, Within parts s₀ u → Within parts s₀ { u with sent := u.sent.map SentChan.idle, edge := u.edge.map EdgeIn.idle } := fun u h =>
    (h.step fun p n => by cases p <;> simp_all [Part.same])
  have wake : ∀ u, Within parts s₀ u → Within parts s₀ (match latched with | some b => u.wakeBy b | none => u) := fun u h => by
    split
    · exact State.wakeBy_frame _ h
    · exact h
  have objs : ∀ u, Within parts s₀ u → Within parts s₀ (u.each (List.range 4) State.clearObjects) := fun u h =>
    State.each_frame _ _ h fun v k hv => State.clearObjects_frame _ hv
  have ports : ∀ u, Within parts s₀ u → Within parts s₀ (u.each (List.range 8) State.recoverChain) := fun u h =>
    State.each_frame _ _ h fun v k hv => State.recoverChain_frame _ hv
  unfold State.enterFallow
  exact wake _ (State.sleepMem_frame _ (idle _ (State.modSheaf_frame _ (State.modDrill_frame _ (State.modYoke_frame _ (State.modPw_frame _
    (State.bump_frame _ _ _ _ (State.completeAll_frame _ (State.dropUsb_frame (State.parkPorts_frame (ports _ (objs _
      (State.endJobs_frame _ (State.endEpisodes_frame _ hk))))))))))))))

@[simp] theorem State.wakeVerb_frame (r : Req) (hk : Within parts s₀ s)
    (hw : [.requests, .counters, .events, .almanac, .power, .yoke, .harrow, .free] ⊆ parts := by simp_all) : Within parts s₀ (State.wakeVerb s r) := by
  simp only [List.cons_subset, List.nil_subset, and_true] at hw
  unfold State.wakeVerb
  refine State.serve_frame _ _ _ _ _ hk fun u t hu => ?_
  (repeat' split) <;> simp_all +contextual (maxDischargeDepth := 40)

@[simp] theorem State.moveBank_frame (k : Nat) (st : BankState) (hk : Within parts s₀ s)
    (hw : [.sram, .fabric] ⊆ parts := by simp_all) : Within parts s₀ (State.moveBank s k st) := by
  simp only [List.cons_subset, List.nil_subset, and_true] at hw
  simp +contextual (maxDischargeDepth := 40) [State.moveBank, hk, hw]

@[simp] theorem State.powerVerb_frame (r : Req) (hk : Within parts s₀ s)
    (hw : [.requests, .counters, .events, .almanac, .sram, .fabric, .power, .harrow] ⊆ parts := by simp_all) : Within parts s₀ (State.powerVerb s r) := by
  simp only [List.cons_subset, List.nil_subset, and_true] at hw
  unfold State.powerVerb
  refine State.serve_frame _ _ _ _ _ hk fun u t hu => ?_
  (repeat' split) <;> simp_all +contextual (maxDischargeDepth := 40)

@[simp] theorem State.detachLine_frame (hk : Within parts s₀ s)
    (hw : [.requests, .counters, .events, .almanac, .drill, .ports, .sent, .power, .yoke, .harrow] ⊆ parts := by simp_all) : Within parts s₀ (State.detachLine s) := by
  simp only [List.cons_subset, List.nil_subset, and_true] at hw
  simp +contextual (maxDischargeDepth := 40) [State.detachLine, hk, hw]

@[simp] theorem State.cutUnguarded_frame (hk : Within parts s₀ s)
    (hw : [.counters, .events, .almanac, .drill, .ports, .harrow] ⊆ parts := by simp_all) : Within parts s₀ (State.cutUnguarded s) := by
  simp only [List.cons_subset, List.nil_subset, and_true] at hw
  simp +contextual (maxDischargeDepth := 40) [State.cutUnguarded, hk, hw]

@[simp] theorem State.floatBank_frame (b : Nat) (hk : Within parts s₀ s)
    (hw : [.ports, .sent, .edges] ⊆ parts := by simp_all) : Within parts s₀ (State.floatBank s b) := by
  simp only [List.cons_subset, List.nil_subset, and_true] at hw
  unfold State.floatBank
  split
  · exact State.each_frame _ _ hk fun u x hu => State.modPort_frame _ _ hu
  · exact hk.step fun p n => by cases p <;> simp_all [Part.same]

@[simp] theorem State.startBackup_frame (trigger : Nat) (hk : Within parts s₀ s)
    (hw : [.power] ⊆ parts := by simp_all) : Within parts s₀ (State.startBackup s trigger) := by
  simp only [List.cons_subset, List.nil_subset, and_true] at hw
  simp +contextual (maxDischargeDepth := 40) [State.startBackup, hk, hw]

@[simp] theorem State.setFence_frame (u : UnitOf) (f : Option Fence) (hk : Within parts s₀ s)
    (hw : [.ports, .storage, .sent, .edges, .twoWire, .usb, .yoke, .thresher] ⊆ parts := by simp_all) : Within parts s₀ (State.setFence s u f) := by
  simp only [List.cons_subset, List.nil_subset, and_true] at hw
  unfold State.setFence; (split <;> simp +contextual (maxDischargeDepth := 40) [hk, hw])

@[simp] theorem State.endRequests_frame (ts : List Ticket) (status : Nat) (hk : Within parts s₀ s)
    (hw : [.requests, .counters, .events, .almanac, .harrow] ⊆ parts := by simp_all) :
    Within parts s₀ (State.endRequests s ts status).1 := by
  simp only [List.cons_subset, List.nil_subset, and_true] at hw
  simp +contextual (maxDischargeDepth := 40) [State.endRequests, hk, hw]

@[simp] theorem State.endStaging_frame (status : Nat) (hk : Within parts s₀ s)
    (hw : [.requests, .counters, .events, .almanac, .harrow, .update] ⊆ parts := by simp_all) : Within parts s₀ (State.endStaging s status).1 := by
  simp only [List.cons_subset, List.nil_subset, and_true] at hw
  unfold State.endStaging; (split <;> simp +contextual (maxDischargeDepth := 40) [hk, hw])

@[simp] theorem State.resetCtx_frame (n : Nat) (hk : Within parts s₀ s)
    (hw : [.requests, .counters, .events, .almanac, .storage, .fabric, .power, .harrow, .thresher] ⊆ parts := by simp_all) : Within parts s₀ (State.resetCtx s n).1 := by
  simp only [List.cons_subset, List.nil_subset, and_true] at hw
  simp +contextual (maxDischargeDepth := 40) [State.resetCtx, hk, hw]

@[simp] theorem State.fenceStorage_frame (hk : Within parts s₀ s)
    (hw : [.requests, .shadow, .counters, .events, .almanac, .storage, .harrow, .update] ⊆ parts := by simp_all) :
    Within parts s₀ (State.fenceStorage s).1 := by
  simp only [List.cons_subset, List.nil_subset, and_true] at hw
  unfold State.fenceStorage; dsimp only; (repeat' split) <;> simp_all +contextual (maxDischargeDepth := 40)

@[simp] theorem State.fenceUnit_frame (u : UnitOf) (hk : Within parts s₀ s)
    (hw : [.requests, .shadow, .counters, .events, .almanac, .storage, .twoWire, .fabric, .power, .usb, .yoke, .harrow, .update, .thresher] ⊆ parts := by simp_all) : Within parts s₀ (State.fenceUnit s u).1 := by
  simp only [List.cons_subset, List.nil_subset, and_true] at hw
  unfold State.fenceUnit; (split <;> simp +contextual (maxDischargeDepth := 40) [hk, hw])

@[simp] theorem State.resetSent_frame (c : Nat) (hk : Within parts s₀ s)
    (hw : [.counters, .sent, .harrow] ⊆ parts := by simp_all) : Within parts s₀ (State.resetSent s c) := by
  simp only [List.cons_subset, List.nil_subset, and_true] at hw
  simp +contextual (maxDischargeDepth := 40) [State.resetSent, hk, hw]

@[simp] theorem State.resetEdge_frame (b : Nat) (hk : Within parts s₀ s)
    (hw : [.counters, .edges] ⊆ parts := by simp_all) : Within parts s₀ (State.resetEdge s b) := by
  simp only [List.cons_subset, List.nil_subset, and_true] at hw
  simp +contextual (maxDischargeDepth := 40) [State.resetEdge, hk, hw]

@[simp] theorem State.portLine_frame (k : Nat) (hk : Within parts s₀ s)
    (hw : [.time, .counters, .ports, .storage, .sent, .edges, .twoWire, .usb, .yoke, .thresher] ⊆ parts := by simp_all) : Within parts s₀ (State.portLine s k) := by
  simp only [List.cons_subset, List.nil_subset, and_true] at hw
  unfold State.portLine; (repeat' split) <;> simp_all +contextual (maxDischargeDepth := 40)

@[simp] theorem State.inputLine_frame (u : UnitOf) (clear : State → State) (hk :
    Within parts s₀ s) (hc : ∀ v, Within parts s₀ v → Within parts s₀ (clear v))
    (hw : [.time, .ports, .storage, .sent, .edges, .twoWire, .usb, .yoke, .thresher] ⊆ parts := by simp_all) :
    Within parts s₀ (State.inputLine s u clear) := by
  simp only [List.cons_subset, List.nil_subset, and_true] at hw
  unfold State.inputLine
  split
  · exact hk
  · split
    · exact hc _ (State.setFence_frame _ _ hk)
    · exact State.setFence_frame _ _ hk
    · exact hk

@[simp] theorem State.fenceLine_frame (hk : Within parts s₀ s)
    (hw : [.time, .counters, .ports, .storage, .sent, .edges, .twoWire, .usb, .yoke, .harrow, .thresher] ⊆ parts := by simp_all) : Within parts s₀ (State.fenceLine s) := by
  simp only [List.cons_subset, List.nil_subset, and_true] at hw
  unfold State.fenceLine
  refine State.each_frame _ _ (State.each_frame _ _ (State.each_frame _ _ hk fun u x hu => ?_) fun u x hu => ?_) fun u x hu => ?_
  · simp [hu, hw]
  · exact State.inputLine_frame _ _ hu fun v hv => by simp [hv, hw]
  · exact State.inputLine_frame _ _ hu fun v hv => by simp [hv, hw]

@[simp] theorem State.restoreUnit_frame (u : UnitOf) (hk : Within parts s₀ s)
    (hw : [.requests, .counters, .events, .almanac, .storage, .twoWire, .sram, .nor, .psram, .fabric, .level, .power, .usb, .yoke, .harrow, .thresher] ⊆ parts := by simp_all) : Within parts s₀ (State.restoreUnit s u) := by
  simp only [List.cons_subset, List.nil_subset, and_true] at hw
  unfold State.restoreUnit; (split <;> simp +contextual (maxDischargeDepth := 40) [hk, hw])

@[simp] theorem State.stageOp_frame (r : Req) (t : Ticket) (hk : Within parts s₀ s)
    (hw : [.requests, .counters, .events, .almanac, .nor, .harrow, .update] ⊆ parts := by simp_all) : Within parts s₀ (State.stageOp s r t).1 := by
  simp only [List.cons_subset, List.nil_subset, and_true] at hw
  unfold State.stageOp; (split <;> simp +contextual (maxDischargeDepth := 40) [hk, hw])

@[simp] theorem State.stageVerb_frame (r : Req) (hk : Within parts s₀ s)
    (hw : [.requests, .counters, .events, .almanac, .nor, .harrow, .update] ⊆ parts := by simp_all) : Within parts s₀ (State.stageVerb s r) := by
  simp only [List.cons_subset, List.nil_subset, and_true] at hw
  unfold State.stageVerb
  refine State.serve_frame _ _ _ _ _ hk fun u t hu => ?_
  (repeat' split) <;> simp_all +contextual (maxDischargeDepth := 40)

@[simp] theorem State.settleAbandon_frame (ch : Nat) (hk : Within parts s₀ s)
    (hw : [.requests, .counters, .events, .almanac, .harrow] ⊆ parts := by simp_all) : Within parts s₀ (State.settleAbandon s ch) := by
  simp only [List.cons_subset, List.nil_subset, and_true] at hw
  unfold State.settleAbandon; (split <;> simp +contextual (maxDischargeDepth := 40) [hk, hw])

@[simp] theorem State.eraseImage_frame (slot length : Nat) (hk : Within parts s₀ s)
    (hw : [.nor] ⊆ parts := by simp_all) : Within parts s₀ (State.eraseImage s slot length) := by
  simp only [List.cons_subset, List.nil_subset, and_true] at hw
  simp +contextual (maxDischargeDepth := 40) [State.eraseImage, hk, hw]

@[simp] theorem State.programChunk_frame (slot off : Nat) (data : List Byte) (hk : Within parts s₀ s)
    (hw : [.nor, .psram, .free] ⊆ parts := by simp_all) :
    Within parts s₀ (State.programChunk s slot off data) := by
  simp only [List.cons_subset, List.nil_subset, and_true] at hw
  simp +contextual (maxDischargeDepth := 40) [State.programChunk, hk, hw]

@[simp] theorem State.finishStaging_frame (t : Ticket) (g : Staging) (hk : Within parts s₀ s)
    (hw : [.requests, .counters, .events, .almanac, .nor, .boot, .harrow, .update] ⊆ parts := by simp_all) : Within parts s₀ (State.finishStaging s t g) := by
  simp only [List.cons_subset, List.nil_subset, and_true] at hw
  simp +contextual (maxDischargeDepth := 40) [State.finishStaging, hk, hw]

@[simp] theorem State.failChunk_frame (t : Ticket) (off : Nat) (rest : List (Ticket × Nat × List Byte)) (g : Staging)
    (hk : Within parts s₀ s)
    (hw : [.requests, .counters, .events, .almanac, .harrow, .update] ⊆ parts := by simp_all) : Within parts s₀ (State.failChunk s t off rest g) := by
  simp only [List.cons_subset, List.nil_subset, and_true] at hw
  simp +contextual (maxDischargeDepth := 40) [State.failChunk, hk, hw]

@[simp] theorem State.romSwap_frame (hk : Within parts s₀ s)
    (hw : [.requests, .counters, .events, .almanac, .storage, .fabric, .boot, .level, .power, .usb, .harrow, .thresher] ⊆ parts := by simp_all) : Within parts s₀ (State.romSwap s) := by
  simp only [List.cons_subset, List.nil_subset, and_true] at hw
  simp +contextual (maxDischargeDepth := 40) [State.romSwap, hk, hw]

@[simp] theorem State.holdFrame_frame (ch : Channel) (b : List Byte) (hk : Within parts s₀ s)
    (hw : [.requests, .counters, .events, .almanac, .harrow] ⊆ parts := by simp_all) :
    Within parts s₀ (State.holdFrame s ch b) := by
  simp only [List.cons_subset, List.nil_subset, and_true] at hw
  unfold State.holdFrame; dsimp only; (repeat' split) <;> simp_all +contextual (maxDischargeDepth := 40)

@[simp] theorem State.holdReceived_frame (ch : Channel) (hk : Within parts s₀ s)
    (hw : [.requests, .counters, .events, .almanac, .harrow] ⊆ parts := by simp_all) : Within parts s₀ (State.holdReceived s ch) := by
  simp only [List.cons_subset, List.nil_subset, and_true] at hw
  simp +contextual (maxDischargeDepth := 40) [State.holdReceived, hk, hw]

@[simp] theorem State.parkJob_frame (n : Nat) (hk : Within parts s₀ s)
    (hw : [.requests, .counters, .events, .almanac, .storage, .fabric, .power, .harrow, .update, .thresher] ⊆ parts := by simp_all) : Within parts s₀ (State.parkJob s n) := by
  simp only [List.cons_subset, List.nil_subset, and_true] at hw
  unfold State.parkJob; dsimp only; (repeat' split) <;> simp_all +contextual (maxDischargeDepth := 40)

@[simp] theorem State.markRequests_frame (own : Ticket) (hk : Within parts s₀ s)
    (hw : [.update] ⊆ parts := by simp_all) : Within parts s₀ (State.markRequests s own) := by
  simp only [List.cons_subset, List.nil_subset, and_true] at hw
  simp +contextual (maxDischargeDepth := 40) [State.markRequests, hk, hw]

@[simp] theorem State.swapAtLine_frame (hk : Within parts s₀ s)
    (hw : [.requests, .shadow, .counters, .events, .almanac, .storage, .nor, .psram, .fabric, .boot, .power, .yoke, .harrow, .update, .thresher, .free] ⊆ parts := by simp_all) : Within parts s₀ (State.swapAtLine s) := by
  simp only [List.cons_subset, List.nil_subset, and_true] at hw
  unfold State.swapAtLine; (split <;> simp +contextual (maxDischargeDepth := 40) [hk, hw])

@[simp] theorem State.endPeriod_frame (hk : Within parts s₀ s)
    (hw : [.counters, .events, .almanac, .drill, .sheaf, .ports, .storage, .twoWire, .fabric, .power, .usb] ⊆ parts := by simp_all) : Within parts s₀ (State.endPeriod s).1 := by
  simp only [List.cons_subset, List.nil_subset, and_true] at hw
  simp +contextual (maxDischargeDepth := 40) [State.endPeriod, hk, hw]

@[simp] theorem State.beginLine_frame (e : LineEnd) (p : Nat) (hk : Within parts s₀ s)
    (hw : [.time, .events, .drill, .yoke] ⊆ parts := by simp_all) : Within parts s₀ (State.beginLine s e p) := by
  simp only [List.cons_subset, List.nil_subset, and_true] at hw
  simp +contextual (maxDischargeDepth := 40) [State.beginLine, hk, hw]

@[simp] theorem State.recheckCommit_frame (hk : Within parts s₀ s)
    (hw : [.requests, .shadow, .counters, .events, .almanac, .harrow] ⊆ parts := by simp_all) : Within parts s₀ (State.recheckCommit s) := by
  simp only [List.cons_subset, List.nil_subset, and_true] at hw
  unfold State.recheckCommit; (repeat' split) <;> simp_all +contextual (maxDischargeDepth := 40)

@[simp] theorem State.applyGrant_frame (hk : Within parts s₀ s)
    (hw : [.time, .requests, .shadow, .config, .counters, .events, .almanac, .drill, .sheaf, .ports, .storage, .sent, .edges, .fabric, .clock, .level, .power, .usb, .yoke, .harrow, .thresher] ⊆ parts := by simp_all) : Within parts s₀ (State.applyGrant s) := by
  simp only [List.cons_subset, List.nil_subset, and_true] at hw
  unfold State.applyGrant; (split <;> simp +contextual (maxDischargeDepth := 40) [hk, hw])

@[simp] theorem State.noteCompat_frame (ch : Nat) (hk : Within parts s₀ s)
    (hw : [.shadow] ⊆ parts := by simp_all) : Within parts s₀ (State.noteCompat s ch) := by
  simp only [List.cons_subset, List.nil_subset, and_true] at hw
  simp +contextual (maxDischargeDepth := 40) [State.noteCompat, hk, hw]

@[simp] theorem State.saveSet_frame (c : PendingCommit) (hk : Within parts s₀ s)
    (hw : [.nor] ⊆ parts := by simp_all) :
    Within parts s₀ (State.saveSet s c) := by
  simp only [List.cons_subset, List.nil_subset, and_true] at hw
  unfold State.saveSet; (repeat' split) <;> simp_all +contextual (maxDischargeDepth := 40)

@[simp] theorem State.applyCommit_frame (hk : Within parts s₀ s)
    (hw : [.time, .requests, .shadow, .config, .counters, .events, .almanac, .drill, .sheaf, .ports, .storage, .sent, .edges, .nor, .fabric, .clock, .level, .power, .usb, .yoke, .harrow, .thresher] ⊆ parts := by simp_all) : Within parts s₀ (State.applyCommit s) := by
  simp only [List.cons_subset, List.nil_subset, and_true] at hw
  unfold State.applyCommit; (split <;> simp +contextual (maxDischargeDepth := 40) [hk, hw])

@[simp] theorem State.startDrill_frame (hk : Within parts s₀ s)
    (hw : [.time, .requests, .counters, .events, .almanac, .drill, .sheaf, .storage, .fabric, .level, .power, .usb, .yoke, .harrow, .thresher] ⊆ parts := by simp_all) : Within parts s₀ (State.startDrill s) := by
  simp only [List.cons_subset, List.nil_subset, and_true] at hw
  unfold State.startDrill; dsimp only; (repeat' split) <;> simp_all +contextual (maxDischargeDepth := 40)

@[simp] theorem State.stopDrill_frame (hk : Within parts s₀ s)
    (hw : [.drill] ⊆ parts := by simp_all) : Within parts s₀ (State.stopDrill s) := by
  simp only [List.cons_subset, List.nil_subset, and_true] at hw
  simp +contextual (maxDischargeDepth := 40) [State.stopDrill, hk, hw]

@[simp] theorem State.applyRun_frame (hk : Within parts s₀ s)
    (hw : [.time, .requests, .shadow, .counters, .events, .almanac, .drill, .sheaf, .storage, .fabric, .level, .power, .usb, .yoke, .harrow, .thresher] ⊆ parts := by simp_all) : Within parts s₀ (State.applyRun s) := by
  simp only [List.cons_subset, List.nil_subset, and_true] at hw
  unfold State.applyRun; (split <;> simp +contextual (maxDischargeDepth := 40) [hk, hw])

@[simp] theorem State.applyLegacyWrite_frame (w : LegacyWrite) (hk : Within parts s₀ s)
    (hw : [.time, .requests, .shadow, .config, .counters, .events, .almanac, .drill, .sheaf, .ports, .storage, .sent, .edges, .fabric, .clock, .level, .power, .usb, .yoke, .harrow, .thresher] ⊆ parts := by simp_all) : Within parts s₀ (State.applyLegacyWrite s w) := by
  simp only [List.cons_subset, List.nil_subset, and_true] at hw
  simp +contextual (maxDischargeDepth := 40) [State.applyLegacyWrite, hk, hw]

@[simp] theorem State.applyLegacy_frame (hk : Within parts s₀ s)
    (hw : [.time, .requests, .shadow, .config, .counters, .events, .almanac, .drill, .sheaf, .ports, .storage, .sent, .edges, .fabric, .clock, .level, .power, .usb, .yoke, .harrow, .thresher] ⊆ parts := by simp_all) : Within parts s₀ (State.applyLegacy s) := by
  simp only [List.cons_subset, List.nil_subset, and_true] at hw
  simp +contextual (maxDischargeDepth := 40) [State.applyLegacy, hk, hw]

@[simp] theorem State.resumeDrill_frame (hk : Within parts s₀ s)
    (hw : [.requests, .counters, .events, .almanac, .drill, .storage, .fabric, .level, .power, .usb, .harrow, .thresher] ⊆ parts := by simp_all) : Within parts s₀ (State.resumeDrill s) := by
  simp only [List.cons_subset, List.nil_subset, and_true] at hw
  simp +contextual (maxDischargeDepth := 40) [State.resumeDrill, hk, hw]

@[simp] theorem State.beginRecovery_frame (hk : Within parts s₀ s)
    (hw : [.time, .requests, .counters, .events, .almanac, .ports, .storage, .sent, .edges, .twoWire, .fabric, .level, .power, .usb, .yoke, .harrow, .thresher] ⊆ parts := by simp_all) : Within parts s₀ (State.beginRecovery s) := by
  simp only [List.cons_subset, List.nil_subset, and_true] at hw
  have h : Within parts s₀ s.fenceLine := State.fenceLine_frame hk
  unfold State.beginRecovery
  dsimp only
  split
  · exact h
  · refine State.each_frame _ _ h fun u x hu => ?_
    split
    · split
      · exact State.startRecovery_frame _ hu
      · exact hu
    · exact hu

@[simp] theorem State.reportMissed_frame (missed : List (Nat × Nat)) (hk : Within parts s₀ s)
    (hw : [.counters, .events, .almanac] ⊆ parts := by simp_all) :
    Within parts s₀ (State.reportMissed s missed) := by
  simp only [List.cons_subset, List.nil_subset, and_true] at hw
  simp +contextual (maxDischargeDepth := 40) [State.reportMissed, hk, hw]

@[simp] theorem State.reportUnfit_frame (hk : Within parts s₀ s)
    (hw : [.counters, .events, .almanac] ⊆ parts := by simp_all) : Within parts s₀ (State.reportUnfit s) := by
  simp only [List.cons_subset, List.nil_subset, and_true] at hw
  simp +contextual (maxDischargeDepth := 40) [State.reportUnfit, hk, hw]

@[simp] theorem State.beginEntries_frame (hk : Within parts s₀ s)
    (hw : [.counters, .events, .almanac, .drill, .sheaf] ⊆ parts := by simp_all) : Within parts s₀ (State.beginEntries s) := by
  simp only [List.cons_subset, List.nil_subset, and_true] at hw
  unfold State.beginEntries
  dsimp only
  refine State.ite_frame _ _ (State.reportMissed_frame _ (State.modSheaf_frame _ ?_)) fun u hu => State.reportUnfit_frame hu
  exact hk.step fun p n => by cases p <;> simp_all [Part.same]

@[simp] theorem State.countCarried_frame (hk : Within parts s₀ s)
    (hw : [.time, .counters] ⊆ parts := by simp_all) : Within parts s₀ (State.countCarried s) := by
  simp only [List.cons_subset, List.nil_subset, and_true] at hw
  simp +contextual (maxDischargeDepth := 40) [State.countCarried, hk, hw]

@[simp] theorem State.fallowLine_frame (hk : Within parts s₀ s)
    (hd : Part.device ⊆ parts := by assumption) : Within parts s₀ (State.fallowLine s) := by
  have hw := hd
  simp only [Part.device, List.cons_subset, List.nil_subset, and_true] at hw
  unfold State.fallowLine; (split <;> simp +contextual (maxDischargeDepth := 40) [hk, hw, hd])

@[simp] theorem State.idle_frame (hk : Within parts s₀ s)
    (hw : [.time] ⊆ parts := by simp_all) :
    Within parts s₀ (State.idle s) := by
  simp only [List.cons_subset, List.nil_subset, and_true] at hw
  simp +contextual (maxDischargeDepth := 40) [State.idle, hk, hw]

end Sys2Proof.Machine
end

