-- ==== Sys2Proof/Laws/FrameExec.lean ====
section
/-! SUPPORT. What every command leaves alone: one lemma for each meaning. -/

namespace Sys2Proof.Machine

set_option Elab.async false

variable {parts : List Part} {s₀ s : State}

/-- From s, every next state of an outcome differs in the named parts at most. -/
def Outcome.Within (parts : List Part) (s : State) (o : Host.Outcome State Fault Refusal) : Prop :=
  ∀ t, o = .next t → Sys2Proof.Machine.Within parts s t

theorem Outcome.withinNext {s t : State} (h : Sys2Proof.Machine.Within parts s t) :
    Outcome.Within parts s (.next t) := fun _ e => by cases e; exact h

@[simp] theorem Outcome.frame_next (s t : State) : Outcome.Within parts s (.next t) ↔ Sys2Proof.Machine.Within parts s t :=
  ⟨fun h => h t rfl, Outcome.withinNext⟩

@[simp] theorem Outcome.frame_ite (c : Prop) [Decidable c] (a b : Host.Outcome State Fault Refusal) (x : Outcome.Within parts s a)
    (y : Outcome.Within parts s b) : Outcome.Within parts s (if c then a else b) := by split <;> assumption

theorem execBadFrame_frame (ch : Channel) (magic version : Byte)
    (hw : [.requests, .counters] ⊆ parts := by simp_all) : Outcome.Within parts s (execBadFrame ch magic version s) := by
  simp only [List.cons_subset, List.nil_subset, and_true] at hw
  simp +contextual (maxDischargeDepth := 40) [execBadFrame, hw]

theorem execNoSuchVerb_frame (verb : Byte) (r : Req)
    (hw : [.requests, .counters, .events, .almanac, .harrow] ⊆ parts := by simp_all) : Outcome.Within parts s (execNoSuchVerb verb r s) := by
  simp only [List.cons_subset, List.nil_subset, and_true] at hw
  simp +contextual (maxDischargeDepth := 40) [execNoSuchVerb, hw]

theorem execDescribe_frame (r : Req)
    (hw : [.requests, .counters, .events, .almanac, .harrow] ⊆ parts := by simp_all) : Outcome.Within parts s (execDescribe r s) := by
  simp only [List.cons_subset, List.nil_subset, and_true] at hw
  simp +contextual (maxDischargeDepth := 40) [execDescribe, hw]

theorem execGet_frame (r : Req)
    (hw : [.requests, .counters, .events, .almanac, .harrow] ⊆ parts := by simp_all) : Outcome.Within parts s (execGet r s) := by
  simp only [List.cons_subset, List.nil_subset, and_true] at hw
  simp +contextual (maxDischargeDepth := 40) [execGet, hw]

theorem execStage_frame (r : Req)
    (hw : [.requests, .shadow, .config, .counters, .events, .almanac, .harrow] ⊆ parts := by simp_all) : Outcome.Within parts s (execStage r s) := by
  simp only [List.cons_subset, List.nil_subset, and_true] at hw
  simp +contextual (maxDischargeDepth := 40) [execStage, hw]

theorem execCommit_frame (r : Req) (checkTicks : Nat) (saveOk : Bool)
    (hw : [.requests, .shadow, .counters, .events, .almanac, .yoke, .harrow] ⊆ parts := by simp_all) : Outcome.Within parts s (execCommit r checkTicks saveOk s) := by
  simp only [List.cons_subset, List.nil_subset, and_true] at hw
  unfold execCommit; exact Outcome.withinNext (State.serve_frame _ _ _ _ _ (Within.refl s) fun u t hu => by (repeat' split) <;> simp_all +contextual (maxDischargeDepth := 40))

theorem execDiscard_frame (r : Req)
    (hw : [.requests, .shadow, .counters, .events, .almanac, .harrow] ⊆ parts := by simp_all) : Outcome.Within parts s (execDiscard r s) := by
  simp only [List.cons_subset, List.nil_subset, and_true] at hw
  simp +contextual (maxDischargeDepth := 40) [execDiscard, hw]

theorem execShadowTimeout_frame
    (hw : [.time, .shadow] ⊆ parts := by simp_all) : Outcome.Within parts s (execShadowTimeout s) := by
  simp only [List.cons_subset, List.nil_subset, and_true] at hw
  unfold execShadowTimeout; (split <;> simp +contextual (maxDischargeDepth := 40) [hw])

theorem execStart_frame (r : Req)
    (hw : [.requests, .shadow, .counters, .events, .almanac, .boot, .harrow] ⊆ parts := by simp_all) : Outcome.Within parts s (execStart r s) := by
  simp only [List.cons_subset, List.nil_subset, and_true] at hw
  unfold execStart; exact Outcome.withinNext (State.serve_frame _ _ _ _ _ (Within.refl s) fun u t hu => by (repeat' split) <;> simp_all +contextual (maxDischargeDepth := 40))

theorem execStop_frame (r : Req)
    (hw : [.requests, .shadow, .counters, .events, .almanac, .boot, .harrow] ⊆ parts := by simp_all) : Outcome.Within parts s (execStop r s) := by
  simp only [List.cons_subset, List.nil_subset, and_true] at hw
  simp +contextual (maxDischargeDepth := 40) [execStop, hw]

theorem execSnap_frame (r : Req) (reused : Bool)
    (hw : [.requests, .counters, .events, .almanac, .storage, .sram, .fabric, .power, .harrow] ⊆ parts := by simp_all) : Outcome.Within parts s (execSnap r reused s) := by
  simp only [List.cons_subset, List.nil_subset, and_true] at hw
  unfold execSnap
  refine Outcome.withinNext (State.serve_frame _ _ _ _ _ (Within.refl s) fun u t hu => ?_)
  split
  · exact hu
  · split
    · exact hu
    · split <;> rename_i e <;> exact Within.pair (State.firmware_frame _ _ _ hu) e

theorem execEvents_frame (r : Req)
    (hw : [.requests, .counters, .events, .almanac, .harrow] ⊆ parts := by simp_all) : Outcome.Within parts s (execEvents r s) := by
  simp only [List.cons_subset, List.nil_subset, and_true] at hw
  simp +contextual (maxDischargeDepth := 40) [execEvents, hw]

theorem execEntryLaunch_frame (furrow : Fin 9) (entry : Fin 32)
    (hw : [.time, .counters, .events, .almanac, .drill, .ports, .sent, .harrow] ⊆ parts := by simp_all) : Outcome.Within parts s (execEntryLaunch furrow entry s) := by
  simp only [List.cons_subset, List.nil_subset, and_true] at hw
  unfold execEntryLaunch; dsimp only; (repeat' split) <;> simp_all +contextual (maxDischargeDepth := 40)

theorem execEntryComplete_frame (furrow : Fin 9) (entry : Fin 32) (sdi : List Bool) (t : Stamp)
    (hw : [.time, .requests, .counters, .events, .almanac, .drill, .ports, .storage, .sent, .sram, .nor, .psram, .fabric, .level, .power, .usb, .harrow, .thresher] ⊆ parts := by simp_all) :
    Outcome.Within parts s (execEntryComplete furrow entry sdi t s) := by
  simp only [List.cons_subset, List.nil_subset, and_true] at hw
  unfold execEntryComplete; dsimp only; (repeat' split) <;> simp_all +contextual (maxDischargeDepth := 40)

theorem execStartBitTimeout_frame (port : Fin 8) (entry : Fin 32)
    (hw : [.time, .requests, .counters, .events, .almanac, .drill, .ports, .storage, .sram, .nor, .psram, .fabric, .level, .power, .usb, .harrow, .thresher] ⊆ parts := by simp_all) : Outcome.Within parts s (execStartBitTimeout port entry s) := by
  simp only [List.cons_subset, List.nil_subset, and_true] at hw
  simp +contextual (maxDischargeDepth := 40) [execStartBitTimeout, hw]

theorem execDeadlineAbort_frame (furrow : Fin 9) (entry : Fin 32) (clocked : Nat) (wireDone : Bool)
    (hw : [.time, .counters, .events, .almanac, .drill, .ports, .sent, .fabric, .harrow] ⊆ parts := by simp_all) :
    Outcome.Within parts s (execDeadlineAbort furrow entry clocked wireDone s) := by
  simp only [List.cons_subset, List.nil_subset, and_true] at hw
  simp +contextual (maxDischargeDepth := 40) [execDeadlineAbort, hw]

theorem execRecoveryFrameEnd_frame (port : Fin 8)
    (hw : [.time, .requests, .counters, .events, .almanac, .ports, .sent, .power, .harrow] ⊆ parts := by simp_all) : Outcome.Within parts s (execRecoveryFrameEnd port s) := by
  simp only [List.cons_subset, List.nil_subset, and_true] at hw
  unfold execRecoveryFrameEnd; dsimp only; (repeat' split) <;> simp_all +contextual (maxDischargeDepth := 40)

theorem execTxPrefetchComplete_frame (port : Fin 8) (entry : Fin 32)
    (hw : [.requests, .counters, .events, .almanac, .drill, .storage, .fabric, .level, .power, .usb, .harrow, .thresher] ⊆ parts := by simp_all) : Outcome.Within parts s (execTxPrefetchComplete port entry s) := by
  simp only [List.cons_subset, List.nil_subset, and_true] at hw
  unfold execTxPrefetchComplete
  dsimp only
  split
  · split <;> rename_i e <;> refine Outcome.withinNext ?_ <;> have h : Within parts s _ := Within.pair (State.access_frame _ _ (Within.refl s)) e
    · exact State.modEntry_frame _ _ h
    · exact h
    · exact State.drillFault_frame h
  · exact Outcome.withinNext (Within.refl s)

theorem execDrillHardFault_frame (assembler : Bool)
    (hw : [.requests, .counters, .events, .almanac, .drill, .sheaf, .storage, .fabric, .level, .power, .usb, .harrow, .thresher] ⊆ parts := by simp_all) : Outcome.Within parts s (execDrillHardFault assembler s) := by
  simp only [List.cons_subset, List.nil_subset, and_true] at hw
  simp +contextual (maxDischargeDepth := 40) [execDrillHardFault, hw]

theorem execAssemblyStart_frame
    (hw : [.time, .requests, .counters, .events, .almanac, .drill, .sheaf, .storage, .sent, .edges, .sram, .nor, .psram, .fabric, .level, .power, .usb, .yoke, .harrow, .thresher] ⊆ parts := by simp_all) : Outcome.Within parts s (execAssemblyStart s) := by
  simp only [List.cons_subset, List.nil_subset, and_true] at hw
  have hc : Within parts s ((s.at (s.tm.capture + s.limit)).each (List.range (entryCount s.reg 8)) State.endCollect) :=
    State.each_frame _ _ (State.at_frame _ (Within.refl s)) fun u k hu => State.endCollect_frame _ hu
  unfold execAssemblyStart
  dsimp only
  split
  · split <;> rename_i e <;> have h := Within.pair (State.store_frame _ _ hc) e
    · exact Outcome.withinNext h
    · exact Outcome.withinNext (State.drillFault_frame h)
    · split <;> rename_i e <;> have g := Within.pair (State.access_frame _ _ h) e
      · exact Outcome.withinNext g
      · exact Outcome.withinNext (State.assemblerFault_frame g)
      · exact Outcome.withinNext (State.assemble_frame g)
  · exact Outcome.withinNext (Within.refl s)

theorem execAssemblyComplete_frame
    (hw : [.time, .requests, .counters, .events, .almanac, .drill, .sheaf, .storage, .sram, .nor, .psram, .fabric, .level, .power, .usb, .harrow, .thresher] ⊆ parts := by simp_all) : Outcome.Within parts s (execAssemblyComplete s) := by
  simp only [List.cons_subset, List.nil_subset, and_true] at hw
  unfold execAssemblyComplete
  split
  · split
    · exact Outcome.withinNext (Within.refl s)
    · dsimp only
      split <;> rename_i e <;> have h : Within parts s _ := Within.pair (State.store_frame _ _ (State.at_frame _ (Within.refl s))) e
      · exact Outcome.withinNext (State.modSheaf_frame _ h)
      · exact Outcome.withinNext h
      · exact Outcome.withinNext (State.assemblerFault_frame h)
  · exact Outcome.withinNext (Within.refl s)

theorem execSlaveTransactionStart_frame (port : Fin 8)
    (hw : [.ports] ⊆ parts := by simp_all) : Outcome.Within parts s (execSlaveTransactionStart port s) := by
  simp only [List.cons_subset, List.nil_subset, and_true] at hw
  simp +contextual (maxDischargeDepth := 40) [execSlaveTransactionStart, hw]

theorem execSlaveTransactionEnd_frame (port : Fin 8) (units : Nat) (starved : Bool)
    (hw : [.counters, .events, .almanac, .ports, .storage, .fabric, .power, .free] ⊆ parts := by simp_all) :
    Outcome.Within parts s (execSlaveTransactionEnd port units starved s) := by
  simp only [List.cons_subset, List.nil_subset, and_true] at hw
  unfold execSlaveTransactionEnd; dsimp only; (repeat' split) <;> simp_all +contextual (maxDischargeDepth := 40)

theorem execSentFrameEnd_frame (c : Fin 24) (pulses : List Nat) (nextPulse : Nat) (syncEnd t : Stamp)
    (hw : [.time, .counters, .events, .almanac, .sent, .harrow] ⊆ parts := by simp_all) :
    Outcome.Within parts s (execSentFrameEnd c pulses nextPulse syncEnd t s) := by
  simp only [List.cons_subset, List.nil_subset, and_true] at hw
  unfold execSentFrameEnd; dsimp only; (repeat' split) <;> simp_all +contextual (maxDischargeDepth := 40)

theorem execSentAbsentTimeout_frame (c : Fin 24)
    (hw : [.time, .counters, .events, .almanac, .sent] ⊆ parts := by simp_all) : Outcome.Within parts s (execSentAbsentTimeout c s) := by
  simp only [List.cons_subset, List.nil_subset, and_true] at hw
  simp +contextual (maxDischargeDepth := 40) [execSentAbsentTimeout, hw]

theorem execEdgeSeen_frame (i : Fin 32) (level : Bool) (t : Stamp)
    (hw : [.time, .counters, .events, .edges] ⊆ parts := by simp_all) : Outcome.Within parts s (execEdgeSeen i level t s) := by
  simp only [List.cons_subset, List.nil_subset, and_true] at hw
  simp +contextual (maxDischargeDepth := 40) [execEdgeSeen, hw]

theorem execEdgeAccept_frame (i : Fin 32)
    (hw : [.time, .counters, .events, .edges] ⊆ parts := by simp_all) : Outcome.Within parts s (execEdgeAccept i s) := by
  simp only [List.cons_subset, List.nil_subset, and_true] at hw
  unfold execEdgeAccept; dsimp only; (repeat' split) <;> simp_all +contextual (maxDischargeDepth := 40)

theorem execTwtRequestWrite_frame (target : Fin 2) (data : List Byte) (pec : Byte)
    (hw : [.requests, .counters, .events, .twoWire] ⊆ parts := by simp_all) : Outcome.Within parts s (execTwtRequestWrite target data pec s) := by
  simp only [List.cons_subset, List.nil_subset, and_true] at hw
  simp +contextual (maxDischargeDepth := 40) [execTwtRequestWrite, hw]

theorem execTwtReplyRead_frame (target : Fin 2) (clocked : Nat) (pecClocked : Bool)
    (hw : [.requests, .shadow, .counters, .twoWire, .level] ⊆ parts := by simp_all) : Outcome.Within parts s (execTwtReplyRead target clocked pecClocked s) := by
  simp only [List.cons_subset, List.nil_subset, and_true] at hw
  simp +contextual (maxDischargeDepth := 40) [execTwtReplyRead, hw]

theorem execTwtRegisterRead_frame (target : Fin 2) (pointer : Option Byte) (count : Nat)
    (hw : [.requests, .shadow, .counters, .twoWire, .level] ⊆ parts := by simp_all) : Outcome.Within parts s (execTwtRegisterRead target pointer count s) := by
  simp only [List.cons_subset, List.nil_subset, and_true] at hw
  simp +contextual (maxDischargeDepth := 40) [execTwtRegisterRead, hw]

theorem execTwtRegisterWrite_frame (target : Fin 2) (pointer : Byte) (data : TwtData)
    (hw : [.requests, .counters, .events, .twoWire] ⊆ parts := by simp_all) : Outcome.Within parts s (execTwtRegisterWrite target pointer data s) := by
  simp only [List.cons_subset, List.nil_subset, and_true] at hw
  simp +contextual (maxDischargeDepth := 40) [execTwtRegisterWrite, hw]

theorem execVirtualTargetRead_frame (address : BitVec 7) (pointer : Option Byte) (count : Nat)
    (hw : [.requests, .shadow, .counters, .twoWire, .level] ⊆ parts := by simp_all) : Outcome.Within parts s (execVirtualTargetRead address pointer count s) := by
  simp only [List.cons_subset, List.nil_subset, and_true] at hw
  unfold execVirtualTargetRead; (repeat' split) <;> simp_all +contextual (maxDischargeDepth := 40)

theorem execTwtBusTimeout_frame (target : Fin 2)
    (hw : [.counters, .events, .twoWire] ⊆ parts := by simp_all) : Outcome.Within parts s (execTwtBusTimeout target s) := by
  simp only [List.cons_subset, List.nil_subset, and_true] at hw
  simp +contextual (maxDischargeDepth := 40) [execTwtBusTimeout, hw]

theorem execUsbPullupEnable_frame
    (hw : [.time, .usb] ⊆ parts := by simp_all) : Outcome.Within parts s (execUsbPullupEnable s) := by
  simp only [List.cons_subset, List.nil_subset, and_true] at hw
  simp +contextual (maxDischargeDepth := 40) [execUsbPullupEnable, hw]

theorem execVbusDetected_frame
    (hw : [.usb] ⊆ parts := by simp_all) : Outcome.Within parts s (execVbusDetected s) := by
  simp only [List.cons_subset, List.nil_subset, and_true] at hw
  simp +contextual (maxDischargeDepth := 40) [execVbusDetected, hw]

theorem execUsbBusReset_frame
    (hw : [.requests, .shadow, .counters, .events, .almanac, .usb, .harrow, .free] ⊆ parts := by simp_all) : Outcome.Within parts s (execUsbBusReset s) := by
  simp only [List.cons_subset, List.nil_subset, and_true] at hw
  simp +contextual (maxDischargeDepth := 40) [execUsbBusReset, hw]

theorem execVbusLost_frame
    (hw : [.requests, .shadow, .counters, .events, .almanac, .usb, .harrow] ⊆ parts := by simp_all) : Outcome.Within parts s (execVbusLost s) := by
  simp only [List.cons_subset, List.nil_subset, and_true] at hw
  simp +contextual (maxDischargeDepth := 40) [execVbusLost, hw]

theorem execUsbSuspend_frame
    (hw : [.requests, .shadow, .counters, .events, .almanac, .usb, .harrow] ⊆ parts := by simp_all) : Outcome.Within parts s (execUsbSuspend s) := by
  simp only [List.cons_subset, List.nil_subset, and_true] at hw
  simp +contextual (maxDischargeDepth := 40) [execUsbSuspend, hw]

theorem execUsbResume_frame
    (hw : [.requests, .shadow, .counters, .events, .almanac, .usb, .harrow] ⊆ parts := by simp_all) : Outcome.Within parts s (execUsbResume s) := by
  simp only [List.cons_subset, List.nil_subset, and_true] at hw
  simp +contextual (maxDischargeDepth := 40) [execUsbResume, hw]

theorem execRemoteWake_frame
    (hw : [.time, .usb] ⊆ parts := by simp_all) : Outcome.Within parts s (execRemoteWake s) := by
  simp only [List.cons_subset, List.nil_subset, and_true] at hw
  simp +contextual (maxDischargeDepth := 40) [execRemoteWake, hw]

theorem execEp3Report_frame
    (hw : [.events, .usb] ⊆ parts := by simp_all) : Outcome.Within parts s (execEp3Report s) := by
  simp only [List.cons_subset, List.nil_subset, and_true] at hw
  unfold execEp3Report; (repeat' split) <;> simp_all +contextual (maxDischargeDepth := 40)

theorem execEp3ReportAck_frame
    (hw : [.events] ⊆ parts := by simp_all) : Outcome.Within parts s (execEp3ReportAck s) := by
  simp only [List.cons_subset, List.nil_subset, and_true] at hw
  simp +contextual (maxDischargeDepth := 40) [execEp3ReportAck, hw]

theorem execEp2ReplyRead_frame
    (hw : [.requests, .shadow, .level, .usb] ⊆ parts := by simp_all) : Outcome.Within parts s (execEp2ReplyRead s) := by
  simp only [List.cons_subset, List.nil_subset, and_true] at hw
  unfold execEp2ReplyRead; (split <;> simp +contextual (maxDischargeDepth := 40) [hw])

theorem execBulkTransferFault_frame (ep : BulkEp)
    (hw : [.counters, .almanac, .usb] ⊆ parts := by simp_all) : Outcome.Within parts s (execBulkTransferFault ep s) := by
  simp only [List.cons_subset, List.nil_subset, and_true] at hw
  unfold execBulkTransferFault; (repeat' split) <;> simp_all +contextual (maxDischargeDepth := 40)

theorem execStreamCopyComplete_frame (ep : Fin 2)
    (hw : [.counters, .events, .almanac, .storage, .sram, .nor, .psram, .fabric, .power, .usb, .harrow] ⊆ parts := by simp_all) : Outcome.Within parts s (execStreamCopyComplete ep s) := by
  simp only [List.cons_subset, List.nil_subset, and_true] at hw
  unfold execStreamCopyComplete
  dsimp only
  split
  · split <;> rename_i e <;> have h : Within parts s _ := Within.pair (State.copyRange_frame _ _ (Within.refl s)) e
    · exact Outcome.withinNext (State.modStream_frame _ _ (State.drawChunks_frame _ _ h))
    · exact Outcome.withinNext h
    · exact Outcome.withinNext (State.abandonCopy_frame _ h)
  · exact Outcome.withinNext (Within.refl s)

theorem execIsoInToken_frame (ep : Fin 2)
    (hw : [.counters, .events, .almanac, .usb, .harrow] ⊆ parts := by simp_all) : Outcome.Within parts s (execIsoInToken ep s) := by
  simp only [List.cons_subset, List.nil_subset, and_true] at hw
  unfold execIsoInToken; dsimp only; (repeat' split) <;> simp_all +contextual (maxDischargeDepth := 40)

theorem execSetInterface_frame (ep : Fin 2) (alt : Fin 4)
    (hw : [.usb] ⊆ parts := by simp_all) : Outcome.Within parts s (execSetInterface ep alt s) := by
  simp only [List.cons_subset, List.nil_subset, and_true] at hw
  simp +contextual (maxDischargeDepth := 40) [execSetInterface, hw]

theorem execUsbControlRequest_frame (q : UsbRequest)
    (hw : [.usb] ⊆ parts := by simp_all) : Outcome.Within parts s (execUsbControlRequest q s) := by
  simp only [List.cons_subset, List.nil_subset, and_true] at hw
  unfold execUsbControlRequest; dsimp only; (repeat' split) <;> simp_all +contextual (maxDischargeDepth := 40)

theorem execSetPortPower_frame (port : Fin 5)
    (hw : [.counters, .events, .usb] ⊆ parts := by simp_all) : Outcome.Within parts s (execSetPortPower port s) := by
  simp only [List.cons_subset, List.nil_subset, and_true] at hw
  simp +contextual (maxDischargeDepth := 40) [execSetPortPower, hw]

theorem execClearPortPower_frame (port : Fin 5)
    (hw : [.requests, .counters, .events, .usb] ⊆ parts := by simp_all) : Outcome.Within parts s (execClearPortPower port s) := by
  simp only [List.cons_subset, List.nil_subset, and_true] at hw
  simp +contextual (maxDischargeDepth := 40) [execClearPortPower, hw]

theorem execClearTtBuffer_frame
    (hw : [.usb] ⊆ parts := by simp_all) : Outcome.Within parts s (execClearTtBuffer s) := by
  simp only [List.cons_subset, List.nil_subset, and_true] at hw
  simp +contextual (maxDischargeDepth := 40) [execClearTtBuffer, hw]

theorem execResetTt_frame
    (hw : [.usb] ⊆ parts := by simp_all) : Outcome.Within parts s (execResetTt s) := by
  simp only [List.cons_subset, List.nil_subset, and_true] at hw
  simp +contextual (maxDischargeDepth := 40) [execResetTt, hw]

theorem execHubOverCurrent_frame (oci : OciChange)
    (hw : [.time, .counters, .events, .almanac, .usb] ⊆ parts := by simp_all) : Outcome.Within parts s (execHubOverCurrent oci s) := by
  simp only [List.cons_subset, List.nil_subset, and_true] at hw
  unfold execHubOverCurrent; dsimp only; (repeat' split) <;> simp_all +contextual (maxDischargeDepth := 40)

theorem execHubConnectChange_frame (port : Fin 4) (connected : Bool) (speed : Fin 3)
    (hw : [.counters, .events, .usb] ⊆ parts := by simp_all) :
    Outcome.Within parts s (execHubConnectChange port connected speed s) := by
  simp only [List.cons_subset, List.nil_subset, and_true] at hw
  simp +contextual (maxDischargeDepth := 40) [execHubConnectChange, hw]

theorem execHubClassRequest_frame (port : Fin 4) (q : HubRequest)
    (hw : [.usb] ⊆ parts := by simp_all) : Outcome.Within parts s (execHubClassRequest port q s) := by
  simp only [List.cons_subset, List.nil_subset, and_true] at hw
  unfold execHubClassRequest; dsimp only; (repeat' split) <;> simp_all +contextual (maxDischargeDepth := 40)

theorem execUsbFailure_frame
    (hw : [.requests, .counters, .events, .almanac, .storage, .fabric, .level, .power, .usb, .harrow, .thresher] ⊆ parts := by simp_all) : Outcome.Within parts s (execUsbFailure s) := by
  simp only [List.cons_subset, List.nil_subset, and_true] at hw
  simp +contextual (maxDischargeDepth := 40) [execUsbFailure, hw]

theorem execHarrowDelayExpiry_frame (slot : Fin 4)
    (hw : [.time, .requests, .counters, .events, .almanac, .sent, .harrow] ⊆ parts := by simp_all) : Outcome.Within parts s (execHarrowDelayExpiry slot s) := by
  simp only [List.cons_subset, List.nil_subset, and_true] at hw
  unfold execHarrowDelayExpiry; dsimp only; (repeat' split) <;> simp_all +contextual (maxDischargeDepth := 40)

theorem execEmul_frame (c : Fin 4) (upset : Option Upset)
    (hw : [.requests, .counters, .events, .almanac, .storage, .sram, .nor, .psram, .fabric, .power, .harrow, .thresher, .free] ⊆ parts := by simp_all) : Outcome.Within parts s (execEmul c upset s) := by
  simp only [List.cons_subset, List.nil_subset, and_true] at hw
  simp +contextual (maxDischargeDepth := 40) [execEmul, hw]

theorem execEadd_frame (c : Fin 4) (upset : Option Upset)
    (hw : [.requests, .counters, .events, .almanac, .storage, .sram, .nor, .psram, .fabric, .power, .harrow, .thresher, .free] ⊆ parts := by simp_all) : Outcome.Within parts s (execEadd c upset s) := by
  simp only [List.cons_subset, List.nil_subset, and_true] at hw
  simp +contextual (maxDischargeDepth := 40) [execEadd, hw]

theorem execEsub_frame (c : Fin 4)
    (hw : [.requests, .counters, .events, .almanac, .storage, .sram, .nor, .psram, .fabric, .power, .harrow, .thresher, .free] ⊆ parts := by simp_all) : Outcome.Within parts s (execEsub c s) := by
  simp only [List.cons_subset, List.nil_subset, and_true] at hw
  simp +contextual (maxDischargeDepth := 40) [execEsub, hw]

theorem execEmac_frame (c : Fin 4)
    (hw : [.requests, .counters, .events, .almanac, .storage, .sram, .nor, .psram, .fabric, .power, .harrow, .thresher, .free] ⊆ parts := by simp_all) : Outcome.Within parts s (execEmac c s) := by
  simp only [List.cons_subset, List.nil_subset, and_true] at hw
  simp +contextual (maxDischargeDepth := 40) [execEmac, hw]

theorem execNtt_frame (c : Fin 4)
    (hw : [.requests, .counters, .events, .almanac, .storage, .sram, .nor, .psram, .fabric, .power, .harrow, .thresher, .free] ⊆ parts := by simp_all) : Outcome.Within parts s (execNtt c s) := by
  simp only [List.cons_subset, List.nil_subset, and_true] at hw
  simp +contextual (maxDischargeDepth := 40) [execNtt, hw]

theorem execIntt_frame (c : Fin 4)
    (hw : [.requests, .counters, .events, .almanac, .storage, .sram, .nor, .psram, .fabric, .power, .harrow, .thresher, .free] ⊆ parts := by simp_all) : Outcome.Within parts s (execIntt c s) := by
  simp only [List.cons_subset, List.nil_subset, and_true] at hw
  simp +contextual (maxDischargeDepth := 40) [execIntt, hw]

theorem execAutomorph_frame (c : Fin 4)
    (hw : [.requests, .counters, .events, .almanac, .storage, .sram, .nor, .psram, .fabric, .power, .harrow, .thresher, .free] ⊆ parts := by simp_all) : Outcome.Within parts s (execAutomorph c s) := by
  simp only [List.cons_subset, List.nil_subset, and_true] at hw
  simp +contextual (maxDischargeDepth := 40) [execAutomorph, hw]

theorem execBaseconv_frame (c : Fin 4)
    (hw : [.requests, .counters, .events, .almanac, .storage, .sram, .nor, .psram, .fabric, .power, .harrow, .thresher, .free] ⊆ parts := by simp_all) : Outcome.Within parts s (execBaseconv c s) := by
  simp only [List.cons_subset, List.nil_subset, and_true] at hw
  simp +contextual (maxDischargeDepth := 40) [execBaseconv, hw]

theorem execRescale_frame (c : Fin 4)
    (hw : [.requests, .counters, .events, .almanac, .storage, .sram, .nor, .psram, .fabric, .power, .harrow, .thresher, .free] ⊆ parts := by simp_all) : Outcome.Within parts s (execRescale c s) := by
  simp only [List.cons_subset, List.nil_subset, and_true] at hw
  simp +contextual (maxDischargeDepth := 40) [execRescale, hw]

theorem execDecomp_frame (c : Fin 4)
    (hw : [.requests, .counters, .events, .almanac, .storage, .sram, .nor, .psram, .fabric, .power, .harrow, .thresher, .free] ⊆ parts := by simp_all) : Outcome.Within parts s (execDecomp c s) := by
  simp only [List.cons_subset, List.nil_subset, and_true] at hw
  simp +contextual (maxDischargeDepth := 40) [execDecomp, hw]

theorem execPolyeval_frame (c : Fin 4) (upset : Option Upset)
    (hw : [.requests, .counters, .events, .almanac, .storage, .sram, .nor, .psram, .fabric, .power, .harrow, .thresher, .free] ⊆ parts := by simp_all) : Outcome.Within parts s (execPolyeval c upset s) := by
  simp only [List.cons_subset, List.nil_subset, and_true] at hw
  unfold execPolyeval; exact Outcome.withinNext (State.service_frame _ _ _ (Within.refl s) fun j i => by dsimp only; (repeat' split) <;> simp_all +contextual (maxDischargeDepth := 40))

theorem execFeature_frame (c : Fin 4)
    (hw : [.requests, .counters, .events, .almanac, .storage, .sram, .nor, .psram, .fabric, .power, .harrow, .thresher, .free] ⊆ parts := by simp_all) : Outcome.Within parts s (execFeature c s) := by
  simp only [List.cons_subset, List.nil_subset, and_true] at hw
  unfold execFeature
  refine Outcome.withinNext (State.service_frame _ _ _ (Within.refl s) fun j i => ?_)
  split
  · split
    · exact State.finish_frame _ _ _ (Within.refl s) fun u hu => State.advance_frame _ hu
    · split <;> rename_i e <;> have h : Within parts s _ := Within.pair (State.access_frame _ _ (Within.refl s)) e
      · exact State.feature_frame _ _ _ _ _ h
      · exact State.suspendCtx_frame _ h
      · exact State.endJob_frame _ _ h
  · exact (Within.refl s)

theorem execRerand_frame (c : Fin 4)
    (hw : [.requests, .counters, .events, .almanac, .storage, .sram, .nor, .psram, .fabric, .power, .harrow, .thresher, .free] ⊆ parts := by simp_all) : Outcome.Within parts s (execRerand c s) := by
  simp only [List.cons_subset, List.nil_subset, and_true] at hw
  simp +contextual (maxDischargeDepth := 40) [execRerand, hw]

theorem execHandoff_frame (c : Fin 4)
    (hw : [.requests, .counters, .events, .almanac, .storage, .sram, .nor, .psram, .fabric, .power, .harrow, .thresher, .free] ⊆ parts := by simp_all) : Outcome.Within parts s (execHandoff c s) := by
  simp only [List.cons_subset, List.nil_subset, and_true] at hw
  simp +contextual (maxDischargeDepth := 40) [execHandoff, hw]

theorem execZero_frame (c : Fin 4)
    (hw : [.requests, .counters, .events, .almanac, .storage, .sram, .nor, .psram, .fabric, .power, .harrow, .thresher, .free] ⊆ parts := by simp_all) : Outcome.Within parts s (execZero c s) := by
  simp only [List.cons_subset, List.nil_subset, and_true] at hw
  simp +contextual (maxDischargeDepth := 40) [execZero, hw]

theorem execDrop_frame (c : Fin 4)
    (hw : [.requests, .counters, .events, .almanac, .storage, .sram, .nor, .psram, .fabric, .power, .harrow, .thresher, .free] ⊆ parts := by simp_all) : Outcome.Within parts s (execDrop c s) := by
  simp only [List.cons_subset, List.nil_subset, and_true] at hw
  simp +contextual (maxDischargeDepth := 40) [execDrop, hw]

theorem execEndIteration_frame (c : Fin 4)
    (hw : [.requests, .counters, .events, .almanac, .storage, .sram, .nor, .psram, .fabric, .power, .harrow, .thresher, .free] ⊆ parts := by simp_all) : Outcome.Within parts s (execEndIteration c s) := by
  simp only [List.cons_subset, List.nil_subset, and_true] at hw
  unfold execEndIteration; exact Outcome.withinNext (State.service_frame _ _ _ (Within.refl s) fun j i => by dsimp only; (repeat' split) <;> simp_all +contextual (maxDischargeDepth := 40))

theorem execPreemptionPoint_frame
    (hw : [.requests, .counters, .events, .almanac, .storage, .sram, .nor, .psram, .fabric, .power, .harrow, .thresher, .free] ⊆ parts := by simp_all) : Outcome.Within parts s (execPreemptionPoint s) := by
  simp only [List.cons_subset, List.nil_subset, and_true] at hw
  unfold execPreemptionPoint; (repeat' split) <;> simp_all +contextual (maxDischargeDepth := 40)

theorem execTimeSliceExpiry_frame
    (hw : [.time, .requests, .counters, .events, .almanac, .storage, .sram, .nor, .psram, .fabric, .power, .harrow, .thresher, .free] ⊆ parts := by simp_all) : Outcome.Within parts s (execTimeSliceExpiry s) := by
  simp only [List.cons_subset, List.nil_subset, and_true] at hw
  unfold execTimeSliceExpiry; dsimp only; (repeat' split) <;> simp_all +contextual (maxDischargeDepth := 40)

theorem execLaneIdleGate_frame
    (hw : [.time, .thresher] ⊆ parts := by simp_all) : Outcome.Within parts s (execLaneIdleGate s) := by
  simp only [List.cons_subset, List.nil_subset, and_true] at hw
  simp +contextual (maxDischargeDepth := 40) [execLaneIdleGate, hw]

theorem execHandoffTimeout_frame (c : Fin 4)
    (hw : [.time, .requests, .counters, .events, .almanac, .storage, .fabric, .power, .harrow, .thresher] ⊆ parts := by simp_all) : Outcome.Within parts s (execHandoffTimeout c s) := by
  simp only [List.cons_subset, List.nil_subset, and_true] at hw
  unfold execHandoffTimeout; dsimp only; (repeat' split) <;> simp_all +contextual (maxDischargeDepth := 40)

theorem execThresherControlError_frame
    (hw : [.requests, .counters, .events, .almanac, .storage, .fabric, .level, .power, .usb, .harrow, .thresher] ⊆ parts := by simp_all) : Outcome.Within parts s (execThresherControlError s) := by
  simp only [List.cons_subset, List.nil_subset, and_true] at hw
  simp +contextual (maxDischargeDepth := 40) [execThresherControlError, hw]

theorem execThrLoadInlineChunk_frame (r : Req)
    (hw : [.requests, .counters, .events, .almanac, .storage, .sram, .nor, .psram, .fabric, .power, .harrow, .thresher] ⊆ parts := by simp_all) : Outcome.Within parts s (execThrLoadInlineChunk r s) := by
  simp only [List.cons_subset, List.nil_subset, and_true] at hw
  simp +contextual (maxDischargeDepth := 40) [execThrLoadInlineChunk, hw]

theorem execThrLoadFromStore_frame (r : Req)
    (hw : [.requests, .counters, .events, .almanac, .storage, .sram, .nor, .psram, .fabric, .power, .harrow, .thresher] ⊆ parts := by simp_all) : Outcome.Within parts s (execThrLoadFromStore r s) := by
  simp only [List.cons_subset, List.nil_subset, and_true] at hw
  simp +contextual (maxDischargeDepth := 40) [execThrLoadFromStore, hw]

theorem execThrUnload_frame (r : Req)
    (hw : [.requests, .counters, .events, .almanac, .storage, .sram, .nor, .psram, .fabric, .power, .harrow, .thresher] ⊆ parts := by simp_all) : Outcome.Within parts s (execThrUnload r s) := by
  simp only [List.cons_subset, List.nil_subset, and_true] at hw
  simp +contextual (maxDischargeDepth := 40) [execThrUnload, hw]

theorem execThrAllocate_frame (r : Req)
    (hw : [.requests, .counters, .events, .almanac, .storage, .sram, .nor, .psram, .fabric, .power, .harrow, .thresher] ⊆ parts := by simp_all) : Outcome.Within parts s (execThrAllocate r s) := by
  simp only [List.cons_subset, List.nil_subset, and_true] at hw
  simp +contextual (maxDischargeDepth := 40) [execThrAllocate, hw]

theorem execThrLoadOwnerTimeout_frame (c : Fin 4) (id : Fin 64)
    (hw : [.time, .requests, .counters, .events, .almanac, .harrow, .thresher] ⊆ parts := by simp_all) : Outcome.Within parts s (execThrLoadOwnerTimeout c id s) := by
  simp only [List.cons_subset, List.nil_subset, and_true] at hw
  unfold execThrLoadOwnerTimeout; (split <;> simp +contextual (maxDischargeDepth := 40) [hw])

theorem execThrSubmit_frame (r : Req)
    (hw : [.requests, .counters, .events, .almanac, .storage, .sram, .fabric, .power, .harrow, .thresher] ⊆ parts := by simp_all) : Outcome.Within parts s (execThrSubmit r s) := by
  simp only [List.cons_subset, List.nil_subset, and_true] at hw
  unfold execThrSubmit
  refine Outcome.withinNext (State.serve_frame _ _ _ _ _ (Within.refl s) fun u t hu => ?_)
  dsimp only
  split
  · exact hu
  · split <;> rename_i e <;> have h := Within.pair (State.firmware_frame _ _ _ hu) e
    · exact h
    · split
      · exact h
      · exact State.modCtx_frame _ _ h

theorem execThrCancel_frame (r : Req)
    (hw : [.requests, .counters, .events, .almanac, .storage, .fabric, .power, .harrow, .thresher] ⊆ parts := by simp_all) : Outcome.Within parts s (execThrCancel r s) := by
  simp only [List.cons_subset, List.nil_subset, and_true] at hw
  simp +contextual (maxDischargeDepth := 40) [execThrCancel, hw]

theorem execThrStatus_frame (r : Req)
    (hw : [.requests, .counters, .events, .almanac, .storage, .sram, .fabric, .power, .harrow] ⊆ parts := by simp_all) : Outcome.Within parts s (execThrStatus r s) := by
  simp only [List.cons_subset, List.nil_subset, and_true] at hw
  unfold execThrStatus
  refine Outcome.withinNext (State.serve_frame _ _ _ _ _ (Within.refl s) fun u t hu => ?_)
  dsimp only
  split <;> rename_i e <;> exact Within.pair (State.firmware_frame _ _ _ hu) e

theorem execThrReturn_frame (r : Req)
    (hw : [.requests, .counters, .events, .almanac, .storage, .sram, .nor, .psram, .fabric, .power, .harrow, .thresher] ⊆ parts := by simp_all) : Outcome.Within parts s (execThrReturn r s) := by
  simp only [List.cons_subset, List.nil_subset, and_true] at hw
  unfold execThrReturn
  refine Outcome.withinNext (State.serve_frame _ _ _ _ _ (Within.refl s) fun u t hu => ?_)
  dsimp only
  split
  · exact hu
  · split
    · exact State.modCtx_frame _ _ hu
    · split <;> rename_i e <;> have h := Within.pair (State.firmware_frame _ _ _ hu) e
      · exact h
      · split
        · exact State.modCtx_frame _ _ h
        · rename_i e
          exact State.dispatch_frame (State.modCtx_frame _ _ (State.takeReturn_frame _ _ _ _ h e))

theorem execPlotFault_frame (agent : Agent) (dir : Access) (vaddr : BitVec 32) (index : Nat) (ext : ExtCause)
    (hw : [.requests, .shadow, .counters, .events, .almanac, .drill, .sheaf, .ports, .storage, .sram, .nor, .psram, .fabric, .boot, .level, .power, .usb, .yoke, .harrow, .update, .thresher, .free] ⊆ parts := by simp_all) :
    Outcome.Within parts s (execPlotFault agent dir vaddr index ext s) := by
  simp only [List.cons_subset, List.nil_subset, and_true] at hw
  unfold execPlotFault; dsimp only; (repeat' split) <;> simp_all +contextual (maxDischargeDepth := 40)

theorem execFaultResolve_frame
    (hw : [.time, .requests, .counters, .events, .almanac, .drill, .sheaf, .ports, .storage, .twoWire, .sram, .nor, .psram, .fabric, .level, .power, .usb, .yoke, .harrow, .thresher, .free] ⊆ parts := by simp_all) : Outcome.Within parts s (execFaultResolve s) := by
  simp only [List.cons_subset, List.nil_subset, and_true] at hw
  unfold execFaultResolve; (repeat' split) <;> simp_all +contextual (maxDischargeDepth := 40)

theorem execBankWakeComplete_frame (b : Fin 64)
    (hw : [.requests, .counters, .events, .almanac, .storage, .twoWire, .sram, .nor, .psram, .fabric, .power, .yoke, .harrow, .thresher, .free] ⊆ parts := by simp_all) : Outcome.Within parts s (execBankWakeComplete b s) := by
  simp only [List.cons_subset, List.nil_subset, and_true] at hw
  unfold execBankWakeComplete; dsimp only; (repeat' split) <;> simp_all +contextual (maxDischargeDepth := 40)

theorem execBankWakeTimeout_frame (b : Fin 64)
    (hw : [.requests, .counters, .events, .almanac, .drill, .sheaf, .ports, .storage, .fabric, .level, .power, .usb, .yoke, .harrow, .thresher] ⊆ parts := by simp_all) : Outcome.Within parts s (execBankWakeTimeout b s) := by
  simp only [List.cons_subset, List.nil_subset, and_true] at hw
  simp +contextual (maxDischargeDepth := 40) [execBankWakeTimeout, hw]

theorem execBankIdleGate_frame (b : Fin 64)
    (hw : [.time, .sram, .fabric] ⊆ parts := by simp_all) : Outcome.Within parts s (execBankIdleGate b s) := by
  simp only [List.cons_subset, List.nil_subset, and_true] at hw
  simp +contextual (maxDischargeDepth := 40) [execBankIdleGate, hw]

theorem execEccScrub_frame (found : List (BitVec 22 × Bool))
    (hw : [.counters, .events, .almanac, .fabric, .level] ⊆ parts := by simp_all) : Outcome.Within parts s (execEccScrub found s) := by
  simp only [List.cons_subset, List.nil_subset, and_true] at hw
  simp +contextual (maxDischargeDepth := 40) [execEccScrub, hw]

theorem execCarveAllocate_frame (r : Req)
    (hw : [.requests, .counters, .events, .almanac, .fabric, .harrow] ⊆ parts := by simp_all) : Outcome.Within parts s (execCarveAllocate r s) := by
  simp only [List.cons_subset, List.nil_subset, and_true] at hw
  simp +contextual (maxDischargeDepth := 40) [execCarveAllocate, hw]

theorem execCarveRelease_frame (r : Req)
    (hw : [.requests, .counters, .events, .almanac, .fabric, .harrow] ⊆ parts := by simp_all) : Outcome.Within parts s (execCarveRelease r s) := by
  simp only [List.cons_subset, List.nil_subset, and_true] at hw
  simp +contextual (maxDischargeDepth := 40) [execCarveRelease, hw]

theorem execCarveQuery_frame (r : Req)
    (hw : [.requests, .counters, .events, .almanac, .fabric, .harrow] ⊆ parts := by simp_all) : Outcome.Within parts s (execCarveQuery r s) := by
  simp only [List.cons_subset, List.nil_subset, and_true] at hw
  simp +contextual (maxDischargeDepth := 40) [execCarveQuery, hw]

theorem execNorWindowWrite_frame (agent : Agent) (sel : Fin 2) (offset : BitVec 28) (data : List Byte)
    (hw : [.counters, .storage, .power] ⊆ parts := by simp_all) :
    Outcome.Within parts s (execNorWindowWrite agent sel offset data s) := by
  simp only [List.cons_subset, List.nil_subset, and_true] at hw
  simp +contextual (maxDischargeDepth := 40) [execNorWindowWrite, hw]

theorem execNorGatherEnd_frame (sel : Fin 2)
    (hw : [.time, .counters, .storage, .power] ⊆ parts := by simp_all) : Outcome.Within parts s (execNorGatherEnd sel s) := by
  simp only [List.cons_subset, List.nil_subset, and_true] at hw
  unfold execNorGatherEnd; (split <;> simp +contextual (maxDischargeDepth := 40) [hw])

theorem execNorStatusPoll_frame (sel : Fin 2) (status : Byte)
    (hw : [.time, .requests, .counters, .events, .almanac, .storage, .sram, .nor, .psram, .fabric, .power, .harrow, .thresher, .free] ⊆ parts := by simp_all) : Outcome.Within parts s (execNorStatusPoll sel status s) := by
  simp only [List.cons_subset, List.nil_subset, and_true] at hw
  unfold execNorStatusPoll; dsimp only; (repeat' split) <;> simp_all +contextual (maxDischargeDepth := 40)

theorem execNorProgramDone_frame (sel : Fin 2)
    (hw : [.time, .requests, .counters, .events, .almanac, .storage, .sram, .nor, .psram, .fabric, .power, .harrow, .thresher, .free] ⊆ parts := by simp_all) : Outcome.Within parts s (execNorProgramDone sel s) := by
  simp only [List.cons_subset, List.nil_subset, and_true] at hw
  unfold execNorProgramDone; (repeat' split) <;> simp_all +contextual (maxDischargeDepth := 40)

theorem execProgramTimeout_frame (sel : Fin 2)
    (hw : [.time, .requests, .shadow, .counters, .events, .almanac, .drill, .sheaf, .ports, .storage, .sram, .nor, .psram, .fabric, .boot, .level, .power, .usb, .yoke, .harrow, .update, .thresher, .free] ⊆ parts := by simp_all) : Outcome.Within parts s (execProgramTimeout sel s) := by
  simp only [List.cons_subset, List.nil_subset, and_true] at hw
  unfold execProgramTimeout; dsimp only; (repeat' split) <;> simp_all +contextual (maxDischargeDepth := 40)

theorem execExternalAccessTimeout_frame (agent : Agent) (sel : Fin 2) (vaddr : BitVec 32) (index : Nat) (dir : Access)
    (hw : [.requests, .shadow, .counters, .events, .almanac, .drill, .sheaf, .ports, .storage, .sram, .nor, .psram, .fabric, .boot, .level, .power, .usb, .yoke, .harrow, .update, .thresher, .free] ⊆ parts := by simp_all) :
    Outcome.Within parts s (execExternalAccessTimeout agent sel vaddr index dir s) := by
  simp only [List.cons_subset, List.nil_subset, and_true] at hw
  simp +contextual (maxDischargeDepth := 40) [execExternalAccessTimeout, hw]

theorem execCsp8IdleGate_frame
    (hw : [.time, .power] ⊆ parts := by simp_all) : Outcome.Within parts s (execCsp8IdleGate s) := by
  simp only [List.cons_subset, List.nil_subset, and_true] at hw
  simp +contextual (maxDischargeDepth := 40) [execCsp8IdleGate, hw]

theorem execAlmanacRead_frame (r : Req)
    (hw : [.requests, .counters, .events, .almanac, .harrow] ⊆ parts := by simp_all) : Outcome.Within parts s (execAlmanacRead r s) := by
  simp only [List.cons_subset, List.nil_subset, and_true] at hw
  simp +contextual (maxDischargeDepth := 40) [execAlmanacRead, hw]

theorem execAlmanacMark_frame (r : Req)
    (hw : [.requests, .counters, .events, .almanac, .harrow] ⊆ parts := by simp_all) : Outcome.Within parts s (execAlmanacMark r s) := by
  simp only [List.cons_subset, List.nil_subset, and_true] at hw
  simp +contextual (maxDischargeDepth := 40) [execAlmanacMark, hw]

theorem execAlmanacClearFirst_frame (r : Req)
    (hw : [.requests, .counters, .events, .almanac, .harrow] ⊆ parts := by simp_all) : Outcome.Within parts s (execAlmanacClearFirst r s) := by
  simp only [List.cons_subset, List.nil_subset, and_true] at hw
  simp +contextual (maxDischargeDepth := 40) [execAlmanacClearFirst, hw]

theorem execAlmanacRecordCommit_frame (ring zone : ReadBack)
    (hd : Part.device ⊆ parts := by assumption) : Outcome.Within parts s (execAlmanacRecordCommit ring zone s) := by
  have hw := hd
  simp only [Part.device, List.cons_subset, List.nil_subset, and_true] at hw
  unfold execAlmanacRecordCommit; (split <;> simp +contextual (maxDischargeDepth := 40) [hw, hd])

theorem execRecordDrop_frame
    (hw : [.almanac] ⊆ parts := by simp_all) : Outcome.Within parts s (execRecordDrop s) := by
  simp only [List.cons_subset, List.nil_subset, and_true] at hw
  simp +contextual (maxDischargeDepth := 40) [execRecordDrop, hw]

theorem execMergeWindowClose_frame (key : MergeKey)
    (hw : [.time, .counters, .almanac] ⊆ parts := by simp_all) : Outcome.Within parts s (execMergeWindowClose key s) := by
  simp only [List.cons_subset, List.nil_subset, and_true] at hw
  unfold execMergeWindowClose; (split <;> simp +contextual (maxDischargeDepth := 40) [hw])

theorem execAlmanacScanDone_frame
    (hw : [.counters, .almanac, .power] ⊆ parts := by simp_all) : Outcome.Within parts s (execAlmanacScanDone s) := by
  simp only [List.cons_subset, List.nil_subset, and_true] at hw
  have scan : ∀ (a : Alm) por, (a.scanned por).bytes = a.bytes := fun _ _ => by simp only [Alm.scanned]
  unfold execAlmanacScanDone
  split
  · simp [hw]
  · dsimp only
    refine Outcome.withinNext (State.saveCounters_frame ?_)
    split <;> simp +contextual (maxDischargeDepth := 40) [scan, hw]

theorem execEp6Read_frame
    (hw : [.almanac] ⊆ parts := by simp_all) : Outcome.Within parts s (execEp6Read s) := by
  simp only [List.cons_subset, List.nil_subset, and_true] at hw
  simp +contextual (maxDischargeDepth := 40) [execEp6Read, hw]

theorem execEp6TransferEnd_frame
    (hw : [.time, .almanac] ⊆ parts := by simp_all) : Outcome.Within parts s (execEp6TransferEnd s) := by
  simp only [List.cons_subset, List.nil_subset, and_true] at hw
  simp +contextual (maxDischargeDepth := 40) [execEp6TransferEnd, hw]

theorem execIntNCoalesceExpiry_frame
    (hw : [.time, .events] ⊆ parts := by simp_all) : Outcome.Within parts s (execIntNCoalesceExpiry s) := by
  simp only [List.cons_subset, List.nil_subset, and_true] at hw
  unfold execIntNCoalesceExpiry; (split <;> simp +contextual (maxDischargeDepth := 40) [hw])

theorem execHarrowArm_frame (r : Req)
    (hw : [.requests, .counters, .events, .almanac, .harrow] ⊆ parts := by simp_all) : Outcome.Within parts s (execHarrowArm r s) := by
  simp only [List.cons_subset, List.nil_subset, and_true] at hw
  simp +contextual (maxDischargeDepth := 40) [execHarrowArm, hw]

theorem execConsentExpiry_frame (ch : Channel)
    (hw : [.time, .harrow] ⊆ parts := by simp_all) : Outcome.Within parts s (execConsentExpiry ch s) := by
  simp only [List.cons_subset, List.nil_subset, and_true] at hw
  unfold execConsentExpiry; (split <;> simp +contextual (maxDischargeDepth := 40) [hw])

theorem execHarrowSet_frame (r : Req)
    (hw : [.requests, .counters, .events, .almanac, .harrow] ⊆ parts := by simp_all) : Outcome.Within parts s (execHarrowSet r s) := by
  simp only [List.cons_subset, List.nil_subset, and_true] at hw
  simp +contextual (maxDischargeDepth := 40) [execHarrowSet, hw]

theorem execHarrowDisarmSlots_frame (r : Req)
    (hw : [.requests, .counters, .events, .almanac, .level, .harrow, .seal] ⊆ parts := by simp_all) : Outcome.Within parts s (execHarrowDisarmSlots r s) := by
  simp only [List.cons_subset, List.nil_subset, and_true] at hw
  simp +contextual (maxDischargeDepth := 40) [execHarrowDisarmSlots, hw]

theorem execHarrowDisarmAll_frame (r : Req)
    (hw : [.requests, .counters, .events, .almanac, .level, .harrow, .seal] ⊆ parts := by simp_all) : Outcome.Within parts s (execHarrowDisarmAll r s) := by
  simp only [List.cons_subset, List.nil_subset, and_true] at hw
  simp +contextual (maxDischargeDepth := 40) [execHarrowDisarmAll, hw]

theorem execHarrowSeal_frame (r : Req)
    (hw : [.requests, .counters, .events, .almanac, .level, .harrow, .seal] ⊆ parts := by simp_all) : Outcome.Within parts s (execHarrowSeal r s) := by
  simp only [List.cons_subset, List.nil_subset, and_true] at hw
  simp +contextual (maxDischargeDepth := 40) [execHarrowSeal, hw]

theorem execHarrowWindowClose_frame (slot : Fin 4)
    (hw : [.counters, .events, .almanac, .harrow] ⊆ parts := by simp_all) : Outcome.Within parts s (execHarrowWindowClose slot s) := by
  simp only [List.cons_subset, List.nil_subset, and_true] at hw
  simp +contextual (maxDischargeDepth := 40) [execHarrowWindowClose, hw]

theorem execTestEnChange_frame (high : Bool)
    (hw : [.boot] ⊆ parts := by simp_all) : Outcome.Within parts s (execTestEnChange high s) := by
  simp only [List.cons_subset, List.nil_subset, and_true] at hw
  simp +contextual (maxDischargeDepth := 40) [execTestEnChange, hw]

theorem execReferenceLost_frame
    (hw : [.counters, .events, .almanac, .clock] ⊆ parts := by simp_all) : Outcome.Within parts s (execReferenceLost s) := by
  simp only [List.cons_subset, List.nil_subset, and_true] at hw
  simp +contextual (maxDischargeDepth := 40) [execReferenceLost, hw]

theorem execPllUnlock_frame
    (hw : [.counters, .events, .almanac, .clock] ⊆ parts := by simp_all) : Outcome.Within parts s (execPllUnlock s) := by
  simp only [List.cons_subset, List.nil_subset, and_true] at hw
  simp +contextual (maxDischargeDepth := 40) [execPllUnlock, hw]

theorem execHoldoverExpiry_frame
    (hw : [.time, .requests, .counters, .events, .almanac, .drill, .sheaf, .ports, .storage, .sent, .fabric, .clock, .level, .power, .usb, .yoke, .harrow, .thresher] ⊆ parts := by simp_all) : Outcome.Within parts s (execHoldoverExpiry s) := by
  simp only [List.cons_subset, List.nil_subset, and_true] at hw
  unfold execHoldoverExpiry; (split <;> simp +contextual (maxDischargeDepth := 40) [hw])

theorem execSourceQualified_frame (src : Source)
    (hw : [.clock] ⊆ parts := by simp_all) : Outcome.Within parts s (execSourceQualified src s) := by
  simp only [List.cons_subset, List.nil_subset, and_true] at hw
  unfold execSourceQualified; dsimp only; (repeat' split) <;> simp_all +contextual (maxDischargeDepth := 40)

theorem execSourceSwitchComplete_frame
    (hw : [.counters, .almanac, .clock] ⊆ parts := by simp_all) : Outcome.Within parts s (execSourceSwitchComplete s) := by
  simp only [List.cons_subset, List.nil_subset, and_true] at hw
  unfold execSourceSwitchComplete; (split <;> simp +contextual (maxDischargeDepth := 40) [hw])

theorem execRelockComplete_frame
    (hw : [.requests, .counters, .events, .almanac, .storage, .fabric, .clock, .level, .power, .usb, .harrow, .thresher] ⊆ parts := by simp_all) : Outcome.Within parts s (execRelockComplete s) := by
  simp only [List.cons_subset, List.nil_subset, and_true] at hw
  unfold execRelockComplete; (split <;> simp +contextual (maxDischargeDepth := 40) [hw])

theorem execSwitchBack_frame
    (hw : [.clock] ⊆ parts := by simp_all) : Outcome.Within parts s (execSwitchBack s) := by
  simp only [List.cons_subset, List.nil_subset, and_true] at hw
  simp +contextual (maxDischargeDepth := 40) [execSwitchBack, hw]

theorem execNoReferenceAtBoot_frame
    (hw : [.time, .requests, .counters, .events, .almanac, .storage, .fabric, .clock, .level, .power, .usb, .harrow, .thresher] ⊆ parts := by simp_all) : Outcome.Within parts s (execNoReferenceAtBoot s) := by
  simp only [List.cons_subset, List.nil_subset, and_true] at hw
  simp +contextual (maxDischargeDepth := 40) [execNoReferenceAtBoot, hw]

theorem execAonCalibrationRun_frame (ticks : Nat)
    (hw : [.clock, .power] ⊆ parts := by simp_all) : Outcome.Within parts s (execAonCalibrationRun ticks s) := by
  simp only [List.cons_subset, List.nil_subset, and_true] at hw
  simp +contextual (maxDischargeDepth := 40) [execAonCalibrationRun, hw]

theorem execTimebaseRealign_frame (cycles : Nat)
    (hw : [.time, .clock, .power] ⊆ parts := by simp_all) : Outcome.Within parts s (execTimebaseRealign cycles s) := by
  simp only [List.cons_subset, List.nil_subset, and_true] at hw
  unfold execTimebaseRealign; (split <;> simp +contextual (maxDischargeDepth := 40) [hw])

theorem execSyncInEdge_frame (t : Stamp)
    (hw : [.time, .counters] ⊆ parts := by simp_all) : Outcome.Within parts s (execSyncInEdge t s) := by
  simp only [List.cons_subset, List.nil_subset, and_true] at hw
  unfold execSyncInEdge; dsimp only; (repeat' split) <;> simp_all +contextual (maxDischargeDepth := 40)

theorem execMarkerSend_frame
    (hw : [.time, .counters, .events, .almanac, .power, .yoke, .harrow] ⊆ parts := by simp_all) : Outcome.Within parts s (execMarkerSend s) := by
  simp only [List.cons_subset, List.nil_subset, and_true] at hw
  simp +contextual (maxDischargeDepth := 40) [execMarkerSend, hw]

theorem execJoinRequestReceived_frame (position : Fin 7) (serial : BitVec 64) (crcOk : Bool)
    (hw : [.requests, .counters, .events, .almanac, .power, .yoke, .harrow] ⊆ parts := by simp_all) :
    Outcome.Within parts s (execJoinRequestReceived position serial crcOk s) := by
  simp only [List.cons_subset, List.nil_subset, and_true] at hw
  simp +contextual (maxDischargeDepth := 40) [execJoinRequestReceived, hw]

theorem execSegmentReceived_frame (position : Fin 7) (start : Option Int) (g : Segment)
    (hw : [.requests, .counters, .events, .almanac, .storage, .sram, .nor, .psram, .fabric, .power, .yoke, .harrow, .free] ⊆ parts := by simp_all) :
    Outcome.Within parts s (execSegmentReceived position start g s) := by
  simp only [List.cons_subset, List.nil_subset, and_true] at hw
  unfold execSegmentReceived; (repeat' split) <;> simp_all +contextual (maxDischargeDepth := 40)

theorem execTrimRunEnd_frame
    (hw : [.yoke] ⊆ parts := by simp_all) : Outcome.Within parts s (execTrimRunEnd s) := by
  simp only [List.cons_subset, List.nil_subset, and_true] at hw
  simp +contextual (maxDischargeDepth := 40) [execTrimRunEnd, hw]

theorem execMemberLost_frame (position : Fin 7)
    (hw : [.requests, .counters, .events, .almanac, .power, .yoke, .harrow] ⊆ parts := by simp_all) : Outcome.Within parts s (execMemberLost position s) := by
  simp only [List.cons_subset, List.nil_subset, and_true] at hw
  simp +contextual (maxDischargeDepth := 40) [execMemberLost, hw]

theorem execReleaseRetryTimer_frame
    (hw : [.yoke] ⊆ parts := by simp_all) : Outcome.Within parts s (execReleaseRetryTimer s) := by
  simp only [List.cons_subset, List.nil_subset, and_true] at hw
  simp +contextual (maxDischargeDepth := 40) [execReleaseRetryTimer, hw]

theorem execYokeCtlForward_frame (r : Req)
    (hw : [.requests, .counters, .events, .almanac, .yoke, .harrow] ⊆ parts := by simp_all) : Outcome.Within parts s (execYokeCtlForward r s) := by
  simp only [List.cons_subset, List.nil_subset, and_true] at hw
  simp +contextual (maxDischargeDepth := 40) [execYokeCtlForward, hw]

theorem execYokeCtlStatus_frame (r : Req)
    (hw : [.requests, .counters, .events, .almanac, .yoke, .harrow] ⊆ parts := by simp_all) : Outcome.Within parts s (execYokeCtlStatus r s) := by
  simp only [List.cons_subset, List.nil_subset, and_true] at hw
  simp +contextual (maxDischargeDepth := 40) [execYokeCtlStatus, hw]

theorem execYokeCtlRelease_frame (r : Req)
    (hw : [.requests, .counters, .events, .almanac, .yoke, .harrow] ⊆ parts := by simp_all) : Outcome.Within parts s (execYokeCtlRelease r s) := by
  simp only [List.cons_subset, List.nil_subset, and_true] at hw
  simp +contextual (maxDischargeDepth := 40) [execYokeCtlRelease, hw]

theorem execYokeCtlRerange_frame (r : Req)
    (hw : [.requests, .counters, .events, .almanac, .yoke, .harrow] ⊆ parts := by simp_all) : Outcome.Within parts s (execYokeCtlRerange r s) := by
  simp only [List.cons_subset, List.nil_subset, and_true] at hw
  simp +contextual (maxDischargeDepth := 40) [execYokeCtlRerange, hw]

theorem execYokeCtlLeave_frame (r : Req)
    (hw : [.requests, .counters, .events, .almanac, .yoke, .harrow] ⊆ parts := by simp_all) : Outcome.Within parts s (execYokeCtlLeave r s) := by
  simp only [List.cons_subset, List.nil_subset, and_true] at hw
  simp +contextual (maxDischargeDepth := 40) [execYokeCtlLeave, hw]

theorem execMarkerReceived_frame (m : Marker) (t : Stamp)
    (hw : [.time, .requests, .counters, .events, .almanac, .level, .power, .yoke, .harrow] ⊆ parts := by simp_all) : Outcome.Within parts s (execMarkerReceived m t s) := by
  simp only [List.cons_subset, List.nil_subset, and_true] at hw
  unfold execMarkerReceived; dsimp only; (repeat' split) <;> simp_all +contextual (maxDischargeDepth := 40)

theorem execOrphanTimeout_frame
    (hw : [.time, .requests, .counters, .events, .almanac, .drill, .sheaf, .ports, .storage, .sent, .fabric, .clock, .level, .power, .usb, .yoke, .harrow, .thresher] ⊆ parts := by simp_all) : Outcome.Within parts s (execOrphanTimeout s) := by
  simp only [List.cons_subset, List.nil_subset, and_true] at hw
  unfold execOrphanTimeout; dsimp only; (repeat' split) <;> simp_all +contextual (maxDischargeDepth := 40)

theorem execMbx_frame (f : Frame) (fragment : List Byte)
    (hw : [.requests, .yoke] ⊆ parts := by simp_all) : Outcome.Within parts s (execMbx f fragment s) := by
  simp only [List.cons_subset, List.nil_subset, and_true] at hw
  have h : Within parts s (s.repeatFrame .mbx f fragment) := State.repeatFrame_frame _ _ _ (Within.refl s)
  unfold execMbx
  dsimp only
  split
  · exact Outcome.withinNext (State.modYoke_frame _ h)
  · refine Outcome.withinNext (State.frame_frame _ _ _ _ (Within.refl s) fun u hu => ?_)
    (repeat' split) <;> simp +contextual (maxDischargeDepth := 40) [hu, hw]

theorem execJoinAccept_frame (f : Frame) (serial : BitVec 64) (g : GrantPlan)
    (hw : [.time, .yoke] ⊆ parts := by simp_all) :
    Outcome.Within parts s (execJoinAccept f serial g s) := by
  simp only [List.cons_subset, List.nil_subset, and_true] at hw
  simp +contextual (maxDischargeDepth := 40) [execJoinAccept, hw]

theorem execRange_frame (f : Frame) (tTaNs : BitVec 32)
    (hw : [.yoke] ⊆ parts := by simp_all) : Outcome.Within parts s (execRange f tTaNs s) := by
  simp only [List.cons_subset, List.nil_subset, and_true] at hw
  simp +contextual (maxDischargeDepth := 40) [execRange, hw]

theorem execSetDelay_frame (f : Frame) (d : BitVec 32)
    (hw : [.requests, .counters, .events, .almanac, .storage, .fabric, .level, .power, .usb, .yoke, .harrow, .thresher] ⊆ parts := by simp_all) : Outcome.Within parts s (execSetDelay f d s) := by
  simp only [List.cons_subset, List.nil_subset, and_true] at hw
  simp +contextual (maxDischargeDepth := 40) [execSetDelay, hw]

theorem execTrim_frame (f : Frame) (correction : BitVec 16)
    (hw : [.yoke] ⊆ parts := by simp_all) : Outcome.Within parts s (execTrim f correction s) := by
  simp only [List.cons_subset, List.nil_subset, and_true] at hw
  simp +contextual (maxDischargeDepth := 40) [execTrim, hw]

theorem execGrant_frame (f : Frame) (g : GrantPlan)
    (hw : [.yoke] ⊆ parts := by simp_all) : Outcome.Within parts s (execGrant f g s) := by
  simp only [List.cons_subset, List.nil_subset, and_true] at hw
  simp +contextual (maxDischargeDepth := 40) [execGrant, hw]

theorem execQuarantine_frame (f : Frame)
    (hw : [.requests, .counters, .events, .almanac, .level, .power, .yoke, .harrow] ⊆ parts := by simp_all) : Outcome.Within parts s (execQuarantine f s) := by
  simp only [List.cons_subset, List.nil_subset, and_true] at hw
  simp +contextual (maxDischargeDepth := 40) [execQuarantine, hw]

theorem execRelease_frame (f : Frame)
    (hw : [.requests, .counters, .events, .almanac, .level, .power, .yoke, .harrow] ⊆ parts := by simp_all) : Outcome.Within parts s (execRelease f s) := by
  simp only [List.cons_subset, List.nil_subset, and_true] at hw
  simp +contextual (maxDischargeDepth := 40) [execRelease, hw]

theorem execReplyResend_frame (f : Frame) (offset : BitVec 16)
    (hw : [.yoke] ⊆ parts := by simp_all) : Outcome.Within parts s (execReplyResend f offset s) := by
  simp only [List.cons_subset, List.nil_subset, and_true] at hw
  simp +contextual (maxDischargeDepth := 40) [execReplyResend, hw]

theorem execReplyDone_frame (f : Frame)
    (hw : [.requests, .shadow, .level, .yoke] ⊆ parts := by simp_all) : Outcome.Within parts s (execReplyDone f s) := by
  simp only [List.cons_subset, List.nil_subset, and_true] at hw
  simp +contextual (maxDischargeDepth := 40) [execReplyDone, hw]

theorem execFallowPropose_frame (f : Frame) (id : Byte) (deep : Bool) (sleepMs : BitVec 32)
    (hw : [.yoke] ⊆ parts := by simp_all) :
    Outcome.Within parts s (execFallowPropose f id deep sleepMs s) := by
  simp only [List.cons_subset, List.nil_subset, and_true] at hw
  simp +contextual (maxDischargeDepth := 40) [execFallowPropose, hw]

theorem execFallowCommit_frame (f : Frame) (id : Byte) (pc : Period)
    (hw : [.yoke] ⊆ parts := by simp_all) : Outcome.Within parts s (execFallowCommit f id pc s) := by
  simp only [List.cons_subset, List.nil_subset, and_true] at hw
  simp +contextual (maxDischargeDepth := 40) [execFallowCommit, hw]

theorem execFallowAbort_frame (f : Frame) (id : Byte)
    (hw : [.yoke] ⊆ parts := by simp_all) : Outcome.Within parts s (execFallowAbort f id s) := by
  simp only [List.cons_subset, List.nil_subset, and_true] at hw
  simp +contextual (maxDischargeDepth := 40) [execFallowAbort, hw]

theorem execAcceptLapse_frame
    (hw : [.yoke] ⊆ parts := by simp_all) : Outcome.Within parts s (execAcceptLapse s) := by
  simp only [List.cons_subset, List.nil_subset, and_true] at hw
  unfold execAcceptLapse; (split <;> simp +contextual (maxDischargeDepth := 40) [hw])

theorem execCommitMarkerMissing_frame
    (hw : [.time] ⊆ parts := by simp_all) : Outcome.Within parts s (execCommitMarkerMissing s) := by
  simp only [List.cons_subset, List.nil_subset, and_true] at hw
  unfold execCommitMarkerMissing; (split <;> simp +contextual (maxDischargeDepth := 40) [hw])

theorem execSegmentSend_frame
    (hw : [.time, .requests, .counters, .events, .almanac, .storage, .fabric, .level, .power, .yoke, .harrow] ⊆ parts := by simp_all) : Outcome.Within parts s (execSegmentSend s) := by
  simp only [List.cons_subset, List.nil_subset, and_true] at hw
  have at' : Within parts s (s.at s.segmentAt) := State.at_frame _ (Within.refl s)
  have sent := State.segmentBytes_frame s.yoke.echo.isSome at'
  have out : ∀ (c : Bool) u, Within parts s u → Within parts s (if c then u.dropOut else u) := fun c u h => by
    split
    · exact State.dropOut_frame h
    · exact h
  unfold execSegmentSend
  extract_lets may at1 echo
  split
  · exact Outcome.withinNext (Within.refl s)
  · split
    rename_i e
    have h := Within.pair sent e
    split
    split
    rename_i e
    have g := Within.pair (State.drawUnit_frame _ _ _ _ h) e
    extract_lets drop
    split
    rename_i e
    refine Outcome.withinNext (out _ _ (State.modEv_frame _ (State.modYoke_frame _ (Within.pair ?_ e))))
    refine Within.foldlFst _ _ _ g fun q p hq => ?_
    dsimp only
    (repeat' split) <;> first | exact hq | exact State.injected_frame _ hq

theorem execJoinRequestSend_frame
    (hw : [.time, .yoke] ⊆ parts := by simp_all) : Outcome.Within parts s (execJoinRequestSend s) := by
  simp only [List.cons_subset, List.nil_subset, and_true] at hw
  simp +contextual (maxDischargeDepth := 40) [execJoinRequestSend, hw]

theorem execDnRxForward_frame (position : Fin 7) (atNs : Int) (bytes : List Byte)
    (hw : [.power, .yoke] ⊆ parts := by simp_all) :
    Outcome.Within parts s (execDnRxForward position atNs bytes s) := by
  simp only [List.cons_subset, List.nil_subset, and_true] at hw
  unfold execDnRxForward; dsimp only; (repeat' split) <;> simp_all +contextual (maxDischargeDepth := 40)

theorem execDnRxIdle_frame
    (hw : [.power] ⊆ parts := by simp_all) : Outcome.Within parts s (execDnRxIdle s) := by
  simp only [List.cons_subset, List.nil_subset, and_true] at hw
  simp +contextual (maxDischargeDepth := 40) [execDnRxIdle, hw]

theorem execYokePhyFailure_frame
    (hw : [.requests, .counters, .events, .almanac, .storage, .fabric, .level, .power, .usb, .harrow, .thresher] ⊆ parts := by simp_all) : Outcome.Within parts s (execYokePhyFailure s) := by
  simp only [List.cons_subset, List.nil_subset, and_true] at hw
  simp +contextual (maxDischargeDepth := 40) [execYokePhyFailure, hw]

theorem execBootImageVerify_frame
    (hw : [.requests, .counters, .events, .almanac, .storage, .fabric, .boot, .level, .power, .usb, .harrow, .update, .thresher] ⊆ parts := by simp_all) : Outcome.Within parts s (execBootImageVerify s) := by
  simp only [List.cons_subset, List.nil_subset, and_true] at hw
  have h : Within parts s (s.tryImages s.bootOrder).1 := State.tryImages_frame _ (Within.refl s)
  unfold execBootImageVerify
  split
  · simp [hw]
  · split <;> rename_i e <;> rw [e] at h <;> simp +contextual (maxDischargeDepth := 40) [h, hw]

theorem execFurtherPartFail_frame (part : Fin 16)
    (hw : [.requests, .shadow, .counters, .events, .almanac, .boot, .power, .usb, .yoke, .harrow, .update, .free] ⊆ parts := by simp_all) : Outcome.Within parts s (execFurtherPartFail part s) := by
  simp only [List.cons_subset, List.nil_subset, and_true] at hw
  simp +contextual (maxDischargeDepth := 40) [execFurtherPartFail, hw]

theorem execWatchdogPrewarning_frame
    (hw : [.counters, .events] ⊆ parts := by simp_all) : Outcome.Within parts s (execWatchdogPrewarning s) := by
  simp only [List.cons_subset, List.nil_subset, and_true] at hw
  simp +contextual (maxDischargeDepth := 40) [execWatchdogPrewarning, hw]

theorem execWatchdogExpiry_frame
    (hw : [.requests, .shadow, .counters, .events, .almanac, .storage, .fabric, .boot, .level, .power, .usb, .yoke, .harrow, .update, .thresher, .free] ⊆ parts := by simp_all) : Outcome.Within parts s (execWatchdogExpiry s) := by
  simp only [List.cons_subset, List.nil_subset, and_true] at hw
  simp +contextual (maxDischargeDepth := 40) [execWatchdogExpiry, hw]

theorem execMailboxesReady_frame
    (hw : [.time, .requests, .shadow, .config, .counters, .events, .almanac, .drill, .sheaf, .ports, .storage, .sent, .edges, .nor, .fabric, .clock, .boot, .level, .power, .usb, .yoke, .harrow, .update, .thresher] ⊆ parts := by simp_all) : Outcome.Within parts s (execMailboxesReady s) := by
  simp only [List.cons_subset, List.nil_subset, and_true] at hw
  unfold execMailboxesReady; dsimp only; (repeat' split) <;> simp_all +contextual (maxDischargeDepth := 40)

theorem execAutostartStart_frame
    (hw : [.time, .requests, .shadow, .counters, .events, .almanac, .boot, .harrow] ⊆ parts := by simp_all) : Outcome.Within parts s (execAutostartStart s) := by
  simp only [List.cons_subset, List.nil_subset, and_true] at hw
  simp +contextual (maxDischargeDepth := 40) [execAutostartStart, hw]

theorem execResetNAssert_frame
    (hd : Part.device ⊆ parts := by assumption) : Outcome.Within parts s (execResetNAssert s) := by
  have hw := hd
  simp only [Part.device, List.cons_subset, List.nil_subset, and_true] at hw
  simp +contextual (maxDischargeDepth := 40) [execResetNAssert, hw, hd]

theorem execResetRelease_frame (pins : Straps)
    (hw : [.time, .shadow, .boot, .yoke] ⊆ parts := by simp_all) : Outcome.Within parts s (execResetRelease pins s) := by
  simp only [List.cons_subset, List.nil_subset, and_true] at hw
  simp +contextual (maxDischargeDepth := 40) [execResetRelease, hw]

theorem execFallowResume_frame (crcOk : Bool)
    (hd : Part.device ⊆ parts := by assumption) : Outcome.Within parts s (execFallowResume crcOk s) := by
  have hw := hd
  simp only [Part.device, List.cons_subset, List.nil_subset, and_true] at hw
  unfold execFallowResume; (split <;> simp +contextual (maxDischargeDepth := 40) [hw, hd])

theorem execWakeSource_frame (bit : Fin 11)
    (hd : Part.device ⊆ parts := by assumption) : Outcome.Within parts s (execWakeSource bit s) := by
  have hw := hd
  simp only [Part.device, List.cons_subset, List.nil_subset, and_true] at hw
  simp +contextual (maxDischargeDepth := 40) [execWakeSource, hw, hd]

theorem execSleepTimerExpiry_frame
    (hd : Part.device ⊆ parts := by assumption) : Outcome.Within parts s (execSleepTimerExpiry s) := by
  have hw := hd
  simp only [Part.device, List.cons_subset, List.nil_subset, and_true] at hw
  unfold execSleepTimerExpiry; (split <;> simp +contextual (maxDischargeDepth := 40) [hw, hd])

theorem execListenWindow_frame (heard : Heard)
    (hd : Part.device ⊆ parts := by assumption) : Outcome.Within parts s (execListenWindow heard s) := by
  have hw := hd
  simp only [Part.device, List.cons_subset, List.nil_subset, and_true] at hw
  unfold execListenWindow; (repeat' split) <;> simp_all +contextual (maxDischargeDepth := 40)

theorem execWakeBurstDetected_frame
    (hd : Part.device ⊆ parts := by assumption) : Outcome.Within parts s (execWakeBurstDetected s) := by
  have hw := hd
  simp only [Part.device, List.cons_subset, List.nil_subset, and_true] at hw
  simp +contextual (maxDischargeDepth := 40) [execWakeBurstDetected, hw, hd]

theorem execFallow_frame (r : Req)
    (hw : [.requests, .counters, .events, .almanac, .power, .yoke, .harrow] ⊆ parts := by simp_all) : Outcome.Within parts s (execFallow r s) := by
  simp only [List.cons_subset, List.nil_subset, and_true] at hw
  simp +contextual (maxDischargeDepth := 40) [execFallow, hw]

theorem execWakeCancel_frame (r : Req)
    (hw : [.requests, .counters, .events, .almanac, .power, .yoke, .harrow, .free] ⊆ parts := by simp_all) : Outcome.Within parts s (execWakeCancel r s) := by
  simp only [List.cons_subset, List.nil_subset, and_true] at hw
  simp +contextual (maxDischargeDepth := 40) [execWakeCancel, hw]

theorem execWakeHold_frame (r : Req)
    (hw : [.requests, .counters, .events, .almanac, .power, .yoke, .harrow, .free] ⊆ parts := by simp_all) : Outcome.Within parts s (execWakeHold r s) := by
  simp only [List.cons_subset, List.nil_subset, and_true] at hw
  simp +contextual (maxDischargeDepth := 40) [execWakeHold, hw]

theorem execWakeHoldExpiry_frame
    (hw : [.time, .power] ⊆ parts := by simp_all) : Outcome.Within parts s (execWakeHoldExpiry s) := by
  simp only [List.cons_subset, List.nil_subset, and_true] at hw
  unfold execWakeHoldExpiry; (split <;> simp +contextual (maxDischargeDepth := 40) [hw])

theorem execPowerQuery_frame (r : Req)
    (hw : [.requests, .counters, .events, .almanac, .sram, .fabric, .power, .harrow] ⊆ parts := by simp_all) : Outcome.Within parts s (execPowerQuery r s) := by
  simp only [List.cons_subset, List.nil_subset, and_true] at hw
  simp +contextual (maxDischargeDepth := 40) [execPowerQuery, hw]

theorem execPowerSetBanks_frame (r : Req)
    (hw : [.requests, .counters, .events, .almanac, .sram, .fabric, .power, .harrow] ⊆ parts := by simp_all) : Outcome.Within parts s (execPowerSetBanks r s) := by
  simp only [List.cons_subset, List.nil_subset, and_true] at hw
  simp +contextual (maxDischargeDepth := 40) [execPowerSetBanks, hw]

theorem execDetach_frame (r : Req)
    (hw : [.requests, .counters, .events, .almanac, .storage, .fabric, .power, .yoke, .harrow, .thresher, .free] ⊆ parts := by simp_all) : Outcome.Within parts s (execDetach r s) := by
  simp only [List.cons_subset, List.nil_subset, and_true] at hw
  simp +contextual (maxDischargeDepth := 40) [execDetach, hw]

theorem execDetachRelease_frame
    (hw : [.requests, .counters, .events, .almanac, .storage, .fabric, .level, .power, .usb, .harrow, .thresher] ⊆ parts := by simp_all) : Outcome.Within parts s (execDetachRelease s) := by
  simp only [List.cons_subset, List.nil_subset, and_true] at hw
  simp +contextual (maxDischargeDepth := 40) [execDetachRelease, hw]

theorem execDetachCycle_frame
    (hd : Part.device ⊆ parts := by assumption) : Outcome.Within parts s (execDetachCycle s) := by
  have hw := hd
  simp only [Part.device, List.cons_subset, List.nil_subset, and_true] at hw
  simp +contextual (maxDischargeDepth := 40) [execDetachCycle, hw, hd]

theorem execEmergencyDetach_frame
    (hd : Part.device ⊆ parts := by assumption) : Outcome.Within parts s (execEmergencyDetach s) := by
  have hw := hd
  simp only [Part.device, List.cons_subset, List.nil_subset, and_true] at hw
  have park : ∀ u, Within parts s u → Within parts s { u with csp := u.csp.map CspPort.finish, sent := u.sent.map SentChan.untriggered } := fun u h =>
    h.step fun p n => by cases p <;> simp_all [Part.same]
  have wake : Within parts s (if s.pw.state == .run then s.abandonFallow else s.wakeBy 6) := by split <;> simp [hw, hd]
  unfold execEmergencyDetach
  split
  · simp [hw]
  · dsimp only
    refine Outcome.withinNext (State.fail_frame _ _ (State.log_frame _ _ _ _ _ (State.modPw_frame _ (State.modYoke_frame _ (park _
      (State.modDrill_frame _ ?_))))))
    exact State.dropPeriod_frame (State.cutUnguarded_frame (State.dropUsb_frame (State.endEpisodes_frame _ wake)))

theorem execPrsntSettled_frame
    (hw : [.power] ⊆ parts := by simp_all) : Outcome.Within parts s (execPrsntSettled s) := by
  simp only [List.cons_subset, List.nil_subset, and_true] at hw
  simp +contextual (maxDischargeDepth := 40) [execPrsntSettled, hw]

theorem execPrsntChange_frame (high : Bool)
    (hd : Part.device ⊆ parts := by assumption) : Outcome.Within parts s (execPrsntChange high s) := by
  have hw := hd
  simp only [Part.device, List.cons_subset, List.nil_subset, and_true] at hw
  simp +contextual (maxDischargeDepth := 40) [execPrsntChange, hw, hd]

theorem execVinUvloRise_frame (vin10mv vbakMv : BitVec 16) (pins : Straps)
    (hw : [.time, .shadow, .boot, .level, .power, .yoke] ⊆ parts := by simp_all) :
    Outcome.Within parts s (execVinUvloRise vin10mv vbakMv pins s) := by
  simp only [List.cons_subset, List.nil_subset, and_true] at hw
  simp +contextual (maxDischargeDepth := 40) [execVinUvloRise, hw]

theorem execVinLowWarning_frame (vin10mv : BitVec 16)
    (hw : [.counters, .events, .almanac, .power, .free] ⊆ parts := by simp_all) : Outcome.Within parts s (execVinLowWarning vin10mv s) := by
  simp only [List.cons_subset, List.nil_subset, and_true] at hw
  simp +contextual (maxDischargeDepth := 40) [execVinLowWarning, hw]

theorem execVinUndervoltage_frame (vin10mv : BitVec 16)
    (hd : Part.device ⊆ parts := by assumption) : Outcome.Within parts s (execVinUndervoltage vin10mv s) := by
  have hw := hd
  simp only [Part.device, List.cons_subset, List.nil_subset, and_true] at hw
  simp +contextual (maxDischargeDepth := 40) [execVinUndervoltage, hw, hd]

theorem execVinHighWarning_frame (vin10mv : BitVec 16)
    (hw : [.counters, .events, .almanac, .power, .free] ⊆ parts := by simp_all) : Outcome.Within parts s (execVinHighWarning vin10mv s) := by
  simp only [List.cons_subset, List.nil_subset, and_true] at hw
  simp +contextual (maxDischargeDepth := 40) [execVinHighWarning, hw]

theorem execVinOvervoltage_frame (vin10mv : BitVec 16)
    (hd : Part.device ⊆ parts := by assumption) : Outcome.Within parts s (execVinOvervoltage vin10mv s) := by
  have hw := hd
  simp only [Part.device, List.cons_subset, List.nil_subset, and_true] at hw
  simp +contextual (maxDischargeDepth := 40) [execVinOvervoltage, hw, hd]

theorem execVinOvervoltageRecover_frame (vin10mv : BitVec 16)
    (hw : [.boot, .level, .power] ⊆ parts := by simp_all) : Outcome.Within parts s (execVinOvervoltageRecover vin10mv s) := by
  simp only [List.cons_subset, List.nil_subset, and_true] at hw
  unfold execVinOvervoltageRecover; dsimp only; (repeat' split) <;> simp_all +contextual (maxDischargeDepth := 40)

theorem execVsysOverload_frame
    (hw : [.counters, .events, .almanac, .power, .free] ⊆ parts := by simp_all) : Outcome.Within parts s (execVsysOverload s) := by
  simp only [List.cons_subset, List.nil_subset, and_true] at hw
  simp +contextual (maxDischargeDepth := 40) [execVsysOverload, hw]

theorem execVsysCollapse_frame
    (hd : Part.device ⊆ parts := by assumption) : Outcome.Within parts s (execVsysCollapse s) := by
  have hw := hd
  simp only [Part.device, List.cons_subset, List.nil_subset, and_true] at hw
  simp +contextual (maxDischargeDepth := 40) [execVsysCollapse, hw, hd]

theorem execBankSupplyLost_frame (b : Fin 4)
    (hd : Part.device ⊆ parts := by assumption) : Outcome.Within parts s (execBankSupplyLost b s) := by
  have hw := hd
  simp only [Part.device, List.cons_subset, List.nil_subset, and_true] at hw
  simp +contextual (maxDischargeDepth := 40) [execBankSupplyLost, hw, hd]

theorem execBankSupplyRestored_frame (b : Fin 4) (is1v8 : Bool)
    (hw : [.power] ⊆ parts := by simp_all) : Outcome.Within parts s (execBankSupplyRestored b is1v8 s) := by
  simp only [List.cons_subset, List.nil_subset, and_true] at hw
  simp +contextual (maxDischargeDepth := 40) [execBankSupplyRestored, hw]

theorem execThermalWarning_frame
    (hw : [.counters, .events, .almanac, .free] ⊆ parts := by simp_all) : Outcome.Within parts s (execThermalWarning s) := by
  simp only [List.cons_subset, List.nil_subset, and_true] at hw
  simp +contextual (maxDischargeDepth := 40) [execThermalWarning, hw]

theorem execThermalShutdown_frame
    (hw : [.counters, .events, .almanac, .power, .free] ⊆ parts := by simp_all) : Outcome.Within parts s (execThermalShutdown s) := by
  simp only [List.cons_subset, List.nil_subset, and_true] at hw
  unfold execThermalShutdown; dsimp only; (repeat' split) <;> simp_all +contextual (maxDischargeDepth := 40)

theorem execThermalRestart_frame
    (hw : [.boot, .level, .power] ⊆ parts := by simp_all) : Outcome.Within parts s (execThermalRestart s) := by
  simp only [List.cons_subset, List.nil_subset, and_true] at hw
  unfold execThermalRestart; dsimp only; (repeat' split) <;> simp_all +contextual (maxDischargeDepth := 40)

theorem execVbakMeasure_frame (vbakMv vresMv : BitVec 16)
    (hw : [.counters, .events, .almanac, .power, .free] ⊆ parts := by simp_all) : Outcome.Within parts s (execVbakMeasure vbakMv vresMv s) := by
  simp only [List.cons_subset, List.nil_subset, and_true] at hw
  simp +contextual (maxDischargeDepth := 40) [execVbakMeasure, hw]

theorem execBackupStateLost_frame
    (hw : [.power] ⊆ parts := by simp_all) : Outcome.Within parts s (execBackupStateLost s) := by
  simp only [List.cons_subset, List.nil_subset, and_true] at hw
  simp +contextual (maxDischargeDepth := 40) [execBackupStateLost, hw]

theorem execRtcAlarm_frame
    (hd : Part.device ⊆ parts := by assumption) : Outcome.Within parts s (execRtcAlarm s) := by
  have hw := hd
  simp only [Part.device, List.cons_subset, List.nil_subset, and_true] at hw
  simp +contextual (maxDischargeDepth := 40) [execRtcAlarm, hw, hd]

theorem execAlarmInput_frame (k : Fin 4) (rtc : BitVec 64)
    (hd : Part.device ⊆ parts := by assumption) : Outcome.Within parts s (execAlarmInput k rtc s) := by
  have hw := hd
  simp only [Part.device, List.cons_subset, List.nil_subset, and_true] at hw
  unfold execAlarmInput; dsimp only; (repeat' split) <;> simp_all +contextual (maxDischargeDepth := 40)

theorem execBackupRecordWrite_frame
    (hw : [.almanac, .power, .free] ⊆ parts := by simp_all) : Outcome.Within parts s (execBackupRecordWrite s) := by
  simp only [List.cons_subset, List.nil_subset, and_true] at hw
  unfold execBackupRecordWrite; (split <;> simp +contextual (maxDischargeDepth := 40) [hw])

theorem execBackupWriteAbort_frame
    (hw : [.almanac, .power, .free] ⊆ parts := by simp_all) : Outcome.Within parts s (execBackupWriteAbort s) := by
  simp only [List.cons_subset, List.nil_subset, and_true] at hw
  unfold execBackupWriteAbort; (split <;> simp +contextual (maxDischargeDepth := 40) [hw])

theorem execAlarmHoldoffEnd_frame
    (hw : [.power] ⊆ parts := by simp_all) : Outcome.Within parts s (execAlarmHoldoffEnd s) := by
  simp only [List.cons_subset, List.nil_subset, and_true] at hw
  simp +contextual (maxDischargeDepth := 40) [execAlarmHoldoffEnd, hw]

theorem execResetUnit_frame (r : Req)
    (hw : [.requests, .shadow, .counters, .events, .almanac, .ports, .storage, .sent, .edges, .twoWire, .fabric, .power, .usb, .yoke, .harrow, .update, .thresher] ⊆ parts := by simp_all) : Outcome.Within parts s (execResetUnit r s) := by
  simp only [List.cons_subset, List.nil_subset, and_true] at hw
  unfold execResetUnit; exact Outcome.withinNext (State.serve_frame _ _ _ _ _ (Within.refl s) fun u t hu => by (repeat' split) <;> simp_all +contextual (maxDischargeDepth := 40))

theorem execUnitResetComplete_frame (noun : BitVec 16)
    (hw : [.time, .requests, .counters, .events, .almanac, .ports, .storage, .sent, .edges, .twoWire, .sram, .nor, .psram, .fabric, .level, .power, .usb, .yoke, .harrow, .thresher] ⊆ parts := by simp_all) : Outcome.Within parts s (execUnitResetComplete noun s) := by
  simp only [List.cons_subset, List.nil_subset, and_true] at hw
  unfold execUnitResetComplete; (repeat' split) <;> simp_all +contextual (maxDischargeDepth := 40)

theorem execUpdateStageBegin_frame (r : Req)
    (hw : [.requests, .counters, .events, .almanac, .nor, .harrow, .update] ⊆ parts := by simp_all) : Outcome.Within parts s (execUpdateStageBegin r s) := by
  simp only [List.cons_subset, List.nil_subset, and_true] at hw
  simp +contextual (maxDischargeDepth := 40) [execUpdateStageBegin, hw]

theorem execUpdateStageChunk_frame (r : Req)
    (hw : [.requests, .counters, .events, .almanac, .nor, .harrow, .update] ⊆ parts := by simp_all) : Outcome.Within parts s (execUpdateStageChunk r s) := by
  simp only [List.cons_subset, List.nil_subset, and_true] at hw
  simp +contextual (maxDischargeDepth := 40) [execUpdateStageChunk, hw]

theorem execUpdateStageFinish_frame (r : Req)
    (hw : [.requests, .counters, .events, .almanac, .nor, .harrow, .update] ⊆ parts := by simp_all) : Outcome.Within parts s (execUpdateStageFinish r s) := by
  simp only [List.cons_subset, List.nil_subset, and_true] at hw
  simp +contextual (maxDischargeDepth := 40) [execUpdateStageFinish, hw]

theorem execUpdateStageAbandon_frame (r : Req)
    (hw : [.requests, .counters, .events, .almanac, .nor, .harrow, .update] ⊆ parts := by simp_all) : Outcome.Within parts s (execUpdateStageAbandon r s) := by
  simp only [List.cons_subset, List.nil_subset, and_true] at hw
  simp +contextual (maxDischargeDepth := 40) [execUpdateStageAbandon, hw]

theorem execStagingTimeout_frame
    (hw : [.time, .requests, .counters, .events, .almanac, .harrow, .update] ⊆ parts := by simp_all) : Outcome.Within parts s (execStagingTimeout s) := by
  simp only [List.cons_subset, List.nil_subset, and_true] at hw
  unfold execStagingTimeout; (split <;> simp +contextual (maxDischargeDepth := 40) [hw])

theorem execUpdateStageCompletion_frame (flashOk : Bool)
    (hw : [.requests, .counters, .events, .almanac, .nor, .psram, .boot, .harrow, .update, .free] ⊆ parts := by simp_all) : Outcome.Within parts s (execUpdateStageCompletion flashOk s) := by
  simp only [List.cons_subset, List.nil_subset, and_true] at hw
  unfold execUpdateStageCompletion; (repeat' split) <;> simp_all +contextual (maxDischargeDepth := 40)

theorem execUpdateSwap_frame (r : Req)
    (hw : [.requests, .counters, .events, .almanac, .storage, .nor, .fabric, .boot, .level, .power, .usb, .harrow, .update, .thresher] ⊆ parts := by simp_all) : Outcome.Within parts s (execUpdateSwap r s) := by
  simp only [List.cons_subset, List.nil_subset, and_true] at hw
  unfold execUpdateSwap; exact Outcome.withinNext (State.serve_frame _ _ _ _ _ (Within.refl s) fun u t hu => by (repeat' split) <;> simp_all +contextual (maxDischargeDepth := 40))

theorem execTrialClear_frame
    (hw : [.time, .nor, .update] ⊆ parts := by simp_all) : Outcome.Within parts s (execTrialClear s) := by
  simp only [List.cons_subset, List.nil_subset, and_true] at hw
  unfold execTrialClear; (split <;> simp +contextual (maxDischargeDepth := 40) [hw])

theorem execCaptureLine_frame
    (hd : Part.device ⊆ parts := by assumption) : Outcome.Within parts s (execCaptureLine s) := by
  have hw := hd
  simp only [Part.device, List.cons_subset, List.nil_subset, and_true] at hw
  simp +contextual (maxDischargeDepth := 40) [execCaptureLine, hw, hd]

end Sys2Proof.Machine
end

