-- ==== Sys2Proof/Laws/Kept.lean ====
section
/-! SUPPORT. What every operation keeps from one state to the next: the queue, the numbered things, the seal, the identity and
the canonical forms. One lemma for each operation; together they say what a step can never do. -/

namespace Sys2Proof.Machine

/-- What t keeps of s. -/
structure Kept (s t : State) : Prop where
  pending : t.pending = s.pending
  serial : t.boot.serial = s.boot.serial
  sealed : s.hw.sealed = true → t.hw.sealed = true
  chans : s.mb.chans.length = 4 → t.mb.chans.length = 4
  entries : s.drill.entries.length = 288 → t.drill.entries.length = 288
  csp : s.csp.length = 8 → t.csp.length = 8
  sent : s.sent.length = 24 → t.sent.length = 24
  edge : s.edge.length = 32 → t.edge.length = 32
  banks : s.banks.length = 4 → t.banks.length = 4
  twt : s.twt.length = 2 → t.twt.length = 2
  mirror : s.mirror.length = 64 → t.mirror.length = 64
  sramBanks : s.mem.banks.length = 64 → t.mem.banks.length = 64
  streams : s.usb.streams.length = 2 → t.usb.streams.length = 2
  ports : s.usb.ports.length = 4 → t.usb.ports.length = 4
  positions : s.yoke.positions.length = 7 → t.yoke.positions.length = 7
  episodes : s.hw.episodes.length = 4 → t.hw.episodes.length = 4
  ctxs : s.thr.ctxs.length = 4 → t.thr.ctxs.length = 4
  sram : Memory.wf sramEmpty s.mem.sram = true → Memory.wf sramEmpty t.mem.sram = true
  nor : Memory.wf flashEmpty s.mem.nor = true → Memory.wf flashEmpty t.mem.nor = true
  psram : Memory.wf flashEmpty s.mem.psram = true → Memory.wf flashEmpty t.mem.psram = true
  alm : Memory.wf almEmpty s.alm.bytes = true → Memory.wf almEmpty t.alm.bytes = true
  cfg : Tab.wf resetWord s.cfg = true → Tab.wf resetWord t.cfg = true
  cnt : Tab.wf (fun _ => 0) s.cnt = true → Tab.wf (fun _ => 0) t.cnt = true

@[simp] theorem Kept.refl (s : State) : Kept s s := by constructor <;> simp

theorem Kept.trans {s t u : State} (a : Kept s t) (b : Kept t u) : Kept s u := by
  constructor <;> first
    | exact b.pending.trans a.pending
    | exact b.serial.trans a.serial
    | exact fun h => b.chans (a.chans h)
    | exact fun h => b.entries (a.entries h)
    | exact fun h => b.csp (a.csp h)
    | exact fun h => b.sent (a.sent h)
    | exact fun h => b.edge (a.edge h)
    | exact fun h => b.banks (a.banks h)
    | exact fun h => b.twt (a.twt h)
    | exact fun h => b.mirror (a.mirror h)
    | exact fun h => b.sramBanks (a.sramBanks h)
    | exact fun h => b.streams (a.streams h)
    | exact fun h => b.ports (a.ports h)
    | exact fun h => b.positions (a.positions h)
    | exact fun h => b.episodes (a.episodes h)
    | exact fun h => b.ctxs (a.ctxs h)
    | exact fun h => b.sealed (a.sealed h)
    | exact fun h => b.sram (a.sram h)
    | exact fun h => b.nor (a.nor h)
    | exact fun h => b.psram (a.psram h)
    | exact fun h => b.alm (a.alm h)
    | exact fun h => b.cfg (a.cfg h)
    | exact fun h => b.cnt (a.cnt h)

theorem Kept.inv {s t : State} (k : Kept s t) (h : s.Inv) : t.Inv := by
  obtain ⟨h1, h2⟩ := h
  simp only [State.shape, State.canonical, State.Inv, Bool.and_eq_true, beq_iff_eq] at *
  obtain ⟨⟨⟨⟨⟨a, b⟩, c⟩, d⟩, e⟩, f⟩ := h2
  obtain ⟨⟨⟨⟨⟨⟨⟨⟨⟨⟨⟨⟨⟨g1, g2⟩, g3⟩, g4⟩, g5⟩, g6⟩, g7⟩, g8⟩, g9⟩, g10⟩, g11⟩, g12⟩, g13⟩, g14⟩ := h1
  exact ⟨⟨⟨⟨⟨⟨⟨⟨⟨⟨⟨⟨⟨⟨k.chans g1, k.entries g2⟩, k.csp g3⟩, k.sent g4⟩, k.edge g5⟩, k.banks g6⟩, k.twt g7⟩, k.mirror g8⟩,
    k.sramBanks g9⟩, k.streams g10⟩, k.ports g11⟩, k.positions g12⟩, k.episodes g13⟩, k.ctxs g14⟩,
    ⟨⟨⟨⟨⟨k.sram a, k.nor b⟩, k.psram c⟩, k.alm d⟩, k.cfg e⟩, k.cnt f⟩⟩

variable {s₀ s : State}

/-! ### Choices and folds -/

@[simp] theorem Kept.ite (c : Prop) [Decidable c] {a b : State} (x : Kept s₀ a) (y : Kept s₀ b) : Kept s₀ (if c then a else b) := by
  split <;> assumption

@[simp] theorem Kept.iteFst {α : Type} (c : Prop) [Decidable c] {a b : State × α} (x : Kept s₀ a.1) (y : Kept s₀ b.1) :
    Kept s₀ (if c then a else b).1 := by split <;> assumption

/-- A state that stands in a pair. -/
theorem Kept.pair {α : Type} {p : State × α} {t : State} {a : α} (h : Kept s₀ p.1) (e : p = (t, a)) : Kept s₀ t := by
  rw [e] at h; exact h

@[simp] theorem Kept.foldl {α : Type} (f : State → α → State) (l : List α) (h : Kept s₀ s)
    (hf : ∀ u x, Kept s₀ u → Kept s₀ (f u x)) : Kept s₀ (l.foldl f s) := by
  induction l generalizing s with
  | nil => exact h
  | cons a t ih => exact ih (hf s a h)

@[simp] theorem Kept.foldlFst {α β : Type} (f : State × β → α → State × β) (l : List α) (p : State × β) (h : Kept s₀ p.1)
    (hf : ∀ q x, Kept s₀ q.1 → Kept s₀ (f q x).1) : Kept s₀ (l.foldl f p).1 := by
  induction l generalizing p with
  | nil => exact h
  | cons a t ih => exact ih (f p a) (hf p a h)

@[simp] theorem State.ite_kept (b : Bool) (f : State → State) (h : Kept s₀ s) (hf : ∀ u, Kept s₀ u → Kept s₀ (f u)) :
    Kept s₀ (s.ite b f) := by unfold State.ite; split <;> simp_all

@[simp] theorem State.each_kept (l : List Nat) (f : State → Nat → State) (h : Kept s₀ s)
    (hf : ∀ u x, Kept s₀ u → Kept s₀ (f u x)) : Kept s₀ (s.each l f) := Kept.foldl f l h hf

/-! ### Updates of one component -/

@[simp] theorem State.modTm_kept (f : Tm → Tm) (h : Kept s₀ s) : Kept s₀ (s.modTm f) := { h with }
@[simp] theorem State.modEv_kept (f : Ev → Ev) (h : Kept s₀ s) : Kept s₀ (s.modEv f) := { h with }
@[simp] theorem State.modSheaf_kept (f : Sheaf → Sheaf) (h : Kept s₀ s) : Kept s₀ (s.modSheaf f) := { h with }
@[simp] theorem State.modCsp8_kept (f : Csp8 → Csp8) (h : Kept s₀ s) : Kept s₀ (s.modCsp8 f) := { h with }
@[simp] theorem State.modClk_kept (f : Clk → Clk) (h : Kept s₀ s) : Kept s₀ (s.modClk f) := { h with }
@[simp] theorem State.modLev_kept (f : Lev → Lev) (h : Kept s₀ s) : Kept s₀ (s.modLev f) := { h with }
@[simp] theorem State.modPw_kept (f : Pw → Pw) (h : Kept s₀ s) : Kept s₀ (s.modPw f) := { h with }
@[simp] theorem State.modBackup_kept (f : Backup → Backup) (h : Kept s₀ s) : Kept s₀ (s.modBackup f) := { h with }
@[simp] theorem State.modUpd_kept (f : Upd → Upd) (h : Kept s₀ s) : Kept s₀ (s.modUpd f) := { h with }
@[simp] theorem State.modPort_kept (k : Nat) (f : CspPort → CspPort) (h : Kept s₀ s) : Kept s₀ (s.modPort k f) :=
  { h with csp := fun z => by simpa using h.csp z }
@[simp] theorem State.modSent_kept (k : Nat) (f : SentChan → SentChan) (h : Kept s₀ s) : Kept s₀ (s.modSent k f) :=
  { h with sent := fun z => by simpa using h.sent z }
@[simp] theorem State.modEdge_kept (k : Nat) (f : EdgeIn → EdgeIn) (h : Kept s₀ s) : Kept s₀ (s.modEdge k f) :=
  { h with edge := fun z => by simpa using h.edge z }
@[simp] theorem State.modBank_kept (k : Nat) (f : EdgeBank → EdgeBank) (h : Kept s₀ s) : Kept s₀ (s.modBank k f) :=
  { h with banks := fun z => by simpa using h.banks z }
@[simp] theorem State.modTwt_kept (k : Nat) (f : Twt → Twt) (h : Kept s₀ s) : Kept s₀ (s.modTwt k f) :=
  { h with twt := fun z => by simpa using h.twt z }
@[simp] theorem State.modSram_kept (k : Nat) (f : Bank → Bank) (h : Kept s₀ s) : Kept s₀ (s.modSram k f) :=
  { h with sramBanks := fun z => by simpa using h.sramBanks z }
@[simp] theorem State.modStream_kept (k : Nat) (f : Stream → Stream) (h : Kept s₀ s) : Kept s₀ (s.modStream k f) :=
  { h with streams := fun z => by simpa using h.streams z }
@[simp] theorem State.modHub_kept (k : Nat) (f : HubPort → HubPort) (h : Kept s₀ s) : Kept s₀ (s.modHub k f) :=
  { h with ports := fun z => by simpa using h.ports z }
@[simp] theorem State.modPos_kept (k : Nat) (f : Position → Position) (h : Kept s₀ s) : Kept s₀ (s.modPos k f) :=
  { h with positions := fun z => by simpa using h.positions z }
@[simp] theorem State.modEpisode_kept (k : Nat) (f : Episode → Episode) (h : Kept s₀ s) : Kept s₀ (s.modEpisode k f) :=
  { h with episodes := fun z => by simpa using h.episodes z }
@[simp] theorem State.modCtx_kept (k : Nat) (f : Ctx → Ctx) (h : Kept s₀ s) : Kept s₀ (s.modCtx k f) :=
  { h with ctxs := fun z => by simpa using h.ctxs z }
@[simp] theorem State.modChan_kept (k : Nat) (f : Chan → Chan) (h : Kept s₀ s) : Kept s₀ (s.modChan k f) :=
  { h with chans := fun z => by simpa using h.chans z }
@[simp] theorem State.modEntry_kept (k : Nat) (f : EntryRt → EntryRt) (h : Kept s₀ s) : Kept s₀ (s.modEntry k f) :=
  { h with entries := fun z => by simpa using h.entries z }
@[simp] theorem State.modMb_kept (f : Mb → Mb) (h : Kept s₀ s) (x : ∀ m, m.chans.length = 4 → (f m).chans.length = 4) :
    Kept s₀ (s.modMb f) := { h with chans := fun z => x _ (h.chans z) }
@[simp] theorem State.modDrill_kept (f : Drill → Drill) (h : Kept s₀ s) (x : ∀ d, d.entries.length = 288 → (f d).entries.length = 288) :
    Kept s₀ (s.modDrill f) := { h with entries := fun z => x _ (h.entries z) }
@[simp] theorem State.modThr_kept (f : Thr → Thr) (h : Kept s₀ s) (x : ∀ t, t.ctxs.length = 4 → (f t).ctxs.length = 4) :
    Kept s₀ (s.modThr f) := { h with ctxs := fun z => x _ (h.ctxs z) }
@[simp] theorem State.modYoke_kept (f : Yoke → Yoke) (h : Kept s₀ s) (x : ∀ y, y.positions.length = 7 → (f y).positions.length = 7) :
    Kept s₀ (s.modYoke f) := { h with positions := fun z => x _ (h.positions z) }
@[simp] theorem State.modBoot_kept (f : Boot → Boot) (h : Kept s₀ s) (x : ∀ b, (f b).serial = b.serial) :
    Kept s₀ (s.modBoot f) := { h with serial := (x _).trans h.serial }
@[simp] theorem State.modUsb_kept (f : Usb → Usb) (h : Kept s₀ s) (x : ∀ u, u.streams.length = 2 → (f u).streams.length = 2)
    (y : ∀ u, u.ports.length = 4 → (f u).ports.length = 4) : Kept s₀ (s.modUsb f) :=
  { h with streams := fun z => x _ (h.streams z), ports := fun z => y _ (h.ports z) }
@[simp] theorem State.modHw_kept (f : Hw → Hw) (h : Kept s₀ s) (x : ∀ w, w.episodes.length = 4 → (f w).episodes.length = 4)
    (y : ∀ w, w.sealed = true → (f w).sealed = true) : Kept s₀ (s.modHw f) :=
  { h with episodes := fun z => x _ (h.episodes z), sealed := fun z => y _ (h.sealed z) }
@[simp] theorem State.modAlm_kept (f : Alm → Alm) (h : Kept s₀ s)
    (x : ∀ a, Memory.wf almEmpty a.bytes = true → Memory.wf almEmpty (f a).bytes = true) : Kept s₀ (s.modAlm f) :=
  { h with alm := fun z => x _ (h.alm z) }
@[simp] theorem State.modMem_kept (f : Mem → Mem) (h : Kept s₀ s) (x : ∀ m, m.banks.length = 64 → (f m).banks.length = 64)
    (a : ∀ m, Memory.wf sramEmpty m.sram = true → Memory.wf sramEmpty (f m).sram = true)
    (b : ∀ m, Memory.wf flashEmpty m.nor = true → Memory.wf flashEmpty (f m).nor = true)
    (c : ∀ m, Memory.wf flashEmpty m.psram = true → Memory.wf flashEmpty (f m).psram = true) : Kept s₀ (s.modMem f) :=
  { h with
    sramBanks := fun z => x _ (h.sramBanks z)
    sram := fun z => a _ (h.sram z)
    nor := fun z => b _ (h.nor z)
    psram := fun z => c _ (h.psram z) }
@[simp] theorem State.setReg_kept (n w v : Nat) (h : Kept s₀ s) : Kept s₀ (s.setReg n w v) :=
  { h with cfg := fun z => Tab.wf_set _ _ _ _ (h.cfg z) }
@[simp] theorem State.bumpBy_kept (n w lo wd k : Nat) (h : Kept s₀ s) : Kept s₀ (s.bumpBy n w lo wd k) :=
  { h with cnt := fun z => Tab.wf_set _ _ _ _ (h.cnt z) }
@[simp] theorem State.bump_kept (n w lo wd : Nat) (h : Kept s₀ s) : Kept s₀ (s.bump n w lo wd) := State.bumpBy_kept n w lo wd 1 h
@[simp] theorem State.clearCount_kept (n w lo : Nat) (h : Kept s₀ s) : Kept s₀ (s.clearCount n w lo) :=
  { h with cnt := fun z => Tab.wf_set _ _ _ _ (h.cnt z) }
@[simp] theorem State.clearCounts_kept (n : Nat) (h : Kept s₀ s) : Kept s₀ (s.clearCounts n) :=
  { h with cnt := fun z => Tab.wf_filter _ _ _ (h.cnt z) }
@[simp] theorem State.at_kept (t : Nat) (h : Kept s₀ s) : Kept s₀ (s.at t) := State.modTm_kept _ h
@[simp] theorem State.tick_kept (h : Kept s₀ s) : Kept s₀ s.tick := State.modTm_kept _ h
@[simp] theorem State.free_kept (n : Nat) (h : Kept s₀ s) : Kept s₀ { s with freeCount := n } := { h with }

/-- One virtual target's copy changes (06 R218). -/
theorem mirror_kept (k : Nat) {f : Mirror → Mirror} (h : Kept s₀ s) : Kept s₀ { s with mirror := updAt s.mirror k f } :=
  { h with mirror := fun z => by simpa using h.mirror z }

end Sys2Proof.Machine
end

