-- ==== Sys2Proof/Laws/KeptOps.lean ====
section
/-! SUPPORT. What every operation of the model keeps: one lemma for each. -/

namespace Sys2Proof.Machine

set_option Elab.async false

variable {s₀ s : State}

@[simp] theorem State.freeByte_kept (hk : Kept s₀ s) : Kept s₀ s.freeByte.2 := State.free_kept _ hk

@[simp] theorem State.settleInt_kept (hk : Kept s₀ s) : Kept s₀ (State.settleInt s) := by
  simp +contextual (maxDischargeDepth := 40) [State.settleInt, hk]

@[simp] theorem State.raise_kept (k : Nat) (hk : Kept s₀ s) : Kept s₀ (State.raise s k) := by
  simp +contextual (maxDischargeDepth := 40) [State.raise, hk]

@[simp] theorem State.raiseOnce_kept (k : Nat) (hk : Kept s₀ s) : Kept s₀ (State.raiseOnce s k) := by
  simp +contextual (maxDischargeDepth := 40) [State.raiseOnce, hk]

@[simp] theorem State.tellDrops_kept (hk : Kept s₀ s) : Kept s₀ (State.tellDrops s) := by
  simp +contextual (maxDischargeDepth := 40) [State.tellDrops, hk]

@[simp] theorem State.enqueue_kept (r : AlmRec) (hk : Kept s₀ s) : Kept s₀ (State.enqueue s r) := by
  simp +contextual (maxDischargeDepth := 40) [State.enqueue, hk]

@[simp] theorem State.closeWindow_kept (w : MergeWin) (at' : Nat) (hk : Kept s₀ s) : Kept s₀ (State.closeWindow s w at') := by
  simp +contextual (maxDischargeDepth := 40) [State.closeWindow, hk]

@[simp] theorem State.record_kept (r : AlmRec) (hk : Kept s₀ s) : Kept s₀ (State.record s r) := by
  unfold State.record; dsimp only; (repeat' split) <;> simp_all +contextual (maxDischargeDepth := 40)

@[simp] theorem State.log_kept (type source index code : Nat) (detail : List Byte := []) (hk : Kept s₀ s) :
    Kept s₀ (State.log s type source index code detail) := by
  simp +contextual (maxDischargeDepth := 40) [State.log, hk]

@[simp] theorem State.closeAllWindows_kept (hk : Kept s₀ s) : Kept s₀ (State.closeAllWindows s) := by
  simp +contextual (maxDischargeDepth := 40) [State.closeAllWindows, hk]

@[simp] theorem State.endEpisodeAt_kept (e reason last : Nat) (hk : Kept s₀ s) :
    Kept s₀ (State.endEpisodeAt s e reason last) := by
  simp +contextual (maxDischargeDepth := 40) [State.endEpisodeAt, hk]

@[simp] theorem State.endEpisode_kept (e reason : Nat) (hk : Kept s₀ s) : Kept s₀ (State.endEpisode s e reason) := by
  simp +contextual (maxDischargeDepth := 40) [State.endEpisode, hk]

@[simp] theorem State.endEpisodes_kept (reason : Nat) (hk : Kept s₀ s) : Kept s₀ (State.endEpisodes s reason) := by
  simp +contextual (maxDischargeDepth := 40) [State.endEpisodes, hk]

@[simp] theorem State.injected_kept (e : Nat) (hk : Kept s₀ s) : Kept s₀ (State.injected s e) := by
  simp +contextual (maxDischargeDepth := 40) [State.injected, hk]

@[simp] theorem State.drawSlot_kept (e width : Nat) (hk : Kept s₀ s) : Kept s₀ (State.drawSlot s e width).1 := by
  simp +contextual (maxDischargeDepth := 40) [State.drawSlot, hk]

@[simp] theorem State.drawUnit_kept (target k : Nat) (j : Option Nat) (width : Nat) (hk : Kept s₀ s) :
    Kept s₀ (State.drawUnit s target k j width).1 := by
  unfold State.drawUnit
  refine Kept.foldlFst _ _ _ hk fun q x hq => ?_
  obtain ⟨u, ps⟩ := q
  have hd : Kept s₀ (u.drawSlot x width).1 := State.drawSlot_kept _ _ hq
  dsimp only
  split
  · exact hq
  · split <;> simp_all

@[simp] theorem State.stream6_kept (e : List Byte) (hk : Kept s₀ s) : Kept s₀ (State.stream6 s e) := by
  simp +contextual (maxDischargeDepth := 40) [State.stream6, hk]

@[simp] theorem State.queueReply_kept (ch : Nat) (r : Reply) (hk : Kept s₀ s) : Kept s₀ (State.queueReply s ch r) := by
  simp +contextual (maxDischargeDepth := 40) [State.queueReply, hk]

@[simp] theorem State.sendReply_kept (ch : Nat) (r : Reply) (hk : Kept s₀ s) : Kept s₀ (State.sendReply s ch r) := by
  unfold State.sendReply; dsimp only; (repeat' split) <;> simp_all +contextual (maxDischargeDepth := 40)

@[simp] theorem State.answer_kept (ch : Nat) (id : Nat) (r : Reply) (st : HistState) (hk : Kept s₀ s) :
    Kept s₀ (State.answer s ch id r st) := by
  simp +contextual (maxDischargeDepth := 40) [State.answer, hk]

@[simp] theorem State.complete_kept (t : Ticket) (status : Nat) (payload : List Byte := []) (hk : Kept s₀ s) :
    Kept s₀ (State.complete s t status payload) := by
  unfold State.complete; (split <;> simp +contextual (maxDischargeDepth := 40) [hk])

@[simp] theorem State.completeOpt_kept (t : Option Ticket) (status : Nat) (payload : List Byte := []) (hk : Kept s₀ s) :
    Kept s₀ (State.completeOpt s t status payload) := by
  unfold State.completeOpt; (split <;> simp +contextual (maxDischargeDepth := 40) [hk])

@[simp] theorem State.dropUsb_kept (hk : Kept s₀ s) : Kept s₀ (State.dropUsb s) := by
  simp +contextual (maxDischargeDepth := 40) [State.dropUsb, hk]

@[simp] theorem State.newTable_kept (hk : Kept s₀ s) : Kept s₀ (State.newTable s) := by
  simp +contextual (maxDischargeDepth := 40) [State.newTable, hk]

@[simp] theorem State.replay_kept (verb : Nat) (r : Req) (h : Hist) (hk : Kept s₀ s) : Kept s₀ (State.replay s verb r h) := by
  unfold State.replay; (repeat' split) <;> simp_all +contextual (maxDischargeDepth := 40)

@[simp] theorem State.settle_kept (verb : Nat) (r : Req) (t : Ticket) (a : Answer) (hk : Kept s₀ s) :
    Kept s₀ (State.settle s verb r t a) := by
  unfold State.settle; (split <;> simp +contextual (maxDischargeDepth := 40) [hk])

@[simp] theorem State.remember_kept (r : Req) (id : Nat) (hk : Kept s₀ s) : Kept s₀ (State.remember s r id) := by
  simp +contextual (maxDischargeDepth := 40) [State.remember, hk]

@[simp] theorem State.received_kept (verb : Nat) (r : Req) (hk : Kept s₀ s) : Kept s₀ (State.received s verb r) := by
  simp +contextual (maxDischargeDepth := 40) [State.received, hk]

@[simp] theorem State.numbered_kept (verb : Nat) (r : Req) (hk : Kept s₀ s) : Kept s₀ (State.numbered s verb r) := by
  simp +contextual (maxDischargeDepth := 40) [State.numbered, hk]

@[simp] theorem State.entered_kept (verb : Nat) (r : Req) (hk : Kept s₀ s) : Kept s₀ (State.entered s verb r) := by
  simp +contextual (maxDischargeDepth := 40) [State.entered, hk]

@[simp] theorem State.answered_kept (verb : Nat) (r : Req) (t : Ticket) (a : Answer) (hk : Kept s₀ s) :
    Kept s₀ (State.answered s verb r t a) := by
  unfold State.answered; (split <;> simp +contextual (maxDischargeDepth := 40) [hk])

@[simp] theorem State.serve_kept (verb : Nat) (r : Req) (lenOk : Bool) (checks : State → List Check)
    (run : State → Ticket → State × Answer) (hk : Kept s₀ s) (hr : ∀ u t, Kept s₀ u → Kept s₀ (run u t).1) :
    Kept s₀ (State.serve s verb r lenOk checks run) := by
  have he : Kept s₀ (run (s.entered verb r) (s.ticketFor r)).1 := hr _ _ (by simp [hk])
  unfold State.serve
  split
  · exact hk
  · dsimp only
    split
    · simp [hk]
    · split
      · simp [hk]
      · exact State.answered_kept _ _ _ _ he

@[simp] theorem State.storeWrite_kept (sel a : Nat) (bs : List Byte) (hk : Kept s₀ s) :
    Kept s₀ (State.storeWrite s sel a bs) := by
  simp +contextual (maxDischargeDepth := 40) [State.storeWrite, hk]

@[simp] theorem State.physWrite_kept (a : Nat) (bs : List Byte) (hk : Kept s₀ s) : Kept s₀ (State.physWrite s a bs) := by
  simp +contextual (maxDischargeDepth := 40) [State.physWrite, hk]

@[simp] theorem State.virtWrite_kept (h v : Nat) (bs : List Byte) (hk : Kept s₀ s) : Kept s₀ (State.virtWrite s h v bs) := by
  unfold State.virtWrite
  refine Kept.foldl _ _ hk fun u x hu => ?_
  dsimp only
  split
  · exact State.physWrite_kept _ _ hu
  · exact hu

@[simp] theorem State.wipeBank_kept (k : Nat) (hk : Kept s₀ s) : Kept s₀ (State.wipeBank s k) := by
  simp +contextual (maxDischargeDepth := 40) [State.wipeBank, hk]

@[simp] theorem State.bankOn_kept (k : Nat) (hk : Kept s₀ s) : Kept s₀ (State.bankOn s k) := by
  simp +contextual (maxDischargeDepth := 40) [State.bankOn, hk]

@[simp] theorem State.enterCache_kept (h p : Nat) (hk : Kept s₀ s) : Kept s₀ (State.enterCache s h p) := by
  simp +contextual (maxDischargeDepth := 40) [State.enterCache, hk]

@[simp] theorem State.correct_kept (dir : Access) (p n : Nat) (hk : Kept s₀ s) : Kept s₀ (State.correct s dir p n) := by
  simp +contextual (maxDischargeDepth := 40) [State.correct, hk]

@[simp] theorem State.touchRun_kept (a : Agent) (dir : Access) (v n : Nat) (hk : Kept s₀ s) : Kept s₀ (State.touchRun s a dir v n) := by
  unfold State.touchRun; dsimp only; (repeat' split) <;> simp_all +contextual (maxDischargeDepth := 40)

@[simp] theorem State.touch_kept (a : Agent) (x : Piece) (hk : Kept s₀ s) : Kept s₀ (State.touch s a x) := by
  simp +contextual (maxDischargeDepth := 40) [State.touch, hk]

@[simp] theorem State.accessed_kept (a : Agent) (l : List Piece) (hk : Kept s₀ s) : Kept s₀ (State.accessed s a l) := by
  simp +contextual (maxDischargeDepth := 40) [State.accessed, hk]

@[simp] theorem State.faultRecord_kept (c : Cursor) (hk : Kept s₀ s) : Kept s₀ (State.faultRecord s c) := by
  simp +contextual (maxDischargeDepth := 40) [State.faultRecord, hk]

@[simp] theorem State.dropCursors_kept (a : Agent) (hk : Kept s₀ s) : Kept s₀ (State.dropCursors s a) := by
  simp +contextual (maxDischargeDepth := 40) [State.dropCursors, hk]

@[simp] theorem State.showFault_kept (c : Cursor) (hk : Kept s₀ s) : Kept s₀ (State.showFault s c) := by
  simp +contextual (maxDischargeDepth := 40) [State.showFault, hk]

@[simp] theorem State.unresolved_kept (c : Cursor) (hk : Kept s₀ s) : Kept s₀ (State.unresolved s c) := by
  simp +contextual (maxDischargeDepth := 40) [State.unresolved, hk]

@[simp] theorem State.noteFault_kept (a : Agent) (dir : Access) (v index kind : Nat) (hk : Kept s₀ s) : Kept s₀ (State.noteFault s a dir v index kind).1 := by
  simp +contextual (maxDischargeDepth := 40) [State.noteFault, hk]

@[simp] theorem State.noteResolved_kept (c : Cursor) (lost : Bool) (hk : Kept s₀ s) : Kept s₀ (State.noteResolved s c lost) := by
  simp +contextual (maxDischargeDepth := 40) [State.noteResolved, hk]

@[simp] theorem State.reach_kept (a : Agent) (l : List Piece) (hk : Kept s₀ s) : Kept s₀ (State.reach s a l).1 := by
  unfold State.reach; dsimp only; (repeat' split) <;> simp_all +contextual (maxDischargeDepth := 40)

@[simp] theorem State.access_kept (a : Agent) (l : List Piece) (hk : Kept s₀ s) : Kept s₀ (State.access s a l).1 := by
  simp +contextual (maxDischargeDepth := 40) [State.access, hk]

@[simp] theorem State.writeOne_kept (a : Agent) (w : Nat × List Byte) (hk : Kept s₀ s) : Kept s₀ (State.writeOne s a w) := by
  simp +contextual (maxDischargeDepth := 40) [State.writeOne, hk]

@[simp] theorem State.put_kept (a : Agent) (ws : List (Nat × List Byte)) (hk : Kept s₀ s) : Kept s₀ (State.put s a ws).1 := by
  have h := State.reach_kept a (writeParts ws) hk
  unfold State.put
  (repeat' split) <;> simp_all +contextual (maxDischargeDepth := 40)

@[simp] theorem State.store_kept (a : Agent) (ws : List (Nat × List Byte)) (hk : Kept s₀ s) : Kept s₀ (State.store s a ws).1 := by
  simp +contextual (maxDischargeDepth := 40) [State.store, hk]

@[simp] theorem State.fwAccess_kept (a : Agent) (l : List Piece) (n : Nat) (hk : Kept s₀ s) : Kept s₀ (State.fwAccess a l n s).1 := by
  induction n generalizing s with
  | zero => exact hk
  | succ n ih =>
    unfold State.fwAccess
    split
    · simp +contextual (maxDischargeDepth := 40) [hk]
    · rename_i f _
      have h := State.noteFault_kept a f.dir f.vaddr f.index f.kind hk
      split <;> rename_i e <;> rw [e] at h
      · exact h
      · split
        · exact h
        · refine ih (State.noteResolved_kept _ _ (State.ite_kept _ _ (State.bankOn_kept _ h) fun u hu => ?_))
          simp +contextual (maxDischargeDepth := 40) [hu]

@[simp] theorem State.firmware_kept (a : Agent) (h : Nat) (l : List Piece) (hk : Kept s₀ s) : Kept s₀ (State.firmware s a h l).1 := by
  unfold State.firmware; exact State.fwAccess_kept a _ 65 hk

@[simp] theorem State.clearRc_kept (n : Noun) (w : Nat) (hk : Kept s₀ s) : Kept s₀ (State.clearRc s n w) := by
  simp +contextual (maxDischargeDepth := 40) [State.clearRc, hk]

@[simp] theorem State.command_kept (kind : CmdKind) (dest : Nat) (payload : List Byte) (notBefore : Nat := 0)
    (ticket : Option Ticket := none) (hk : Kept s₀ s) : Kept s₀ (State.command s kind dest payload notBefore ticket) := by
  simp +contextual (maxDischargeDepth := 40) [State.command, hk]

@[simp] theorem State.mergeBody_kept (k cls : Nat) (body : List Byte) (hk : Kept s₀ s) : Kept s₀ (State.mergeBody s k cls body) := by
  have h := State.store_kept .yoke [(s.reg nYOKE 1 + (k - 1) * 8192, body)] hk
  unfold State.mergeBody
  split <;> simp_all +contextual (maxDischargeDepth := 40)

@[simp] theorem State.takeWaiting_kept (hk : Kept s₀ s) : Kept s₀ (State.takeWaiting s) := by
  refine State.each_kept _ _ hk fun u k hu => ?_
  split
  · split
    · exact hu
    · exact State.mergeBody_kept _ _ _ hu
  · exact hu

@[simp] theorem State.ackEvents_kept (mask : Nat) (hk : Kept s₀ s) : Kept s₀ (State.ackEvents s mask) := by
  simp +contextual (maxDischargeDepth := 40) [State.ackEvents, hk]

@[simp] theorem State.writeNow_kept (n : Noun) (ws : List (Nat × Nat × Nat)) (hk : Kept s₀ s) :
    Kept s₀ (State.writeNow s n ws) := by
  simp +contextual (maxDischargeDepth := 40) [State.writeNow, hk]

@[simp] theorem State.writeShadow_kept (r : Req) (n : Noun) (ws : List (Nat × Nat × Nat)) (hk : Kept s₀ s) :
    Kept s₀ (State.writeShadow s r n ws) := by
  simp +contextual (maxDischargeDepth := 40) [State.writeShadow, hk]

@[simp] theorem State.stageLegacy_kept (t : Ticket) (n : Noun) (ws : List (Nat × Nat × Nat)) (hk : Kept s₀ s) :
    Kept s₀ (State.stageLegacy s t n ws).1 := by
  unfold State.stageLegacy; dsimp only; (repeat' split) <;> simp_all +contextual (maxDischargeDepth := 40)

@[simp] theorem State.saveAutostart_kept (w : Words) (epoch : Nat) (ok : Bool) (hk : Kept s₀ s) :
    Kept s₀ (State.saveAutostart s w epoch ok) := by
  simp +contextual (maxDischargeDepth := 40) [State.saveAutostart, hk]

@[simp] theorem State.atApply_kept (named : Option Nat) (hk : Kept s₀ s) : Kept s₀ (State.atApply s named) := by
  unfold State.atApply; (split <;> simp +contextual (maxDischargeDepth := 40) [hk])

@[simp] theorem State.runCommit_kept (r : Req) (t : Ticket) (h : Shadow) (checkTicks : Nat) (saveOk : Bool) (hk : Kept s₀ s) :
    Kept s₀ (State.runCommit s r t h checkTicks saveOk).1 := by
  unfold State.runCommit; dsimp only; (repeat' split) <;> simp_all +contextual (maxDischargeDepth := 40)

@[simp] theorem State.dropShadow_kept (status : Nat) (hk : Kept s₀ s) : Kept s₀ (State.dropShadow s status) := by
  simp +contextual (maxDischargeDepth := 40) [State.dropShadow, hk]

@[simp] theorem State.setRun_kept (run : Option PendingRun) (hk : Kept s₀ s) : Kept s₀ (State.setRun s run) := by
  unfold State.setRun; dsimp only; (repeat' split) <;> simp_all +contextual (maxDischargeDepth := 40)

@[simp] theorem State.putObj_kept (n : Nat) (o : Obj) (hk : Kept s₀ s) : Kept s₀ (State.putObj s n o) := by
  simp +contextual (maxDischargeDepth := 40) [State.putObj, hk]

@[simp] theorem State.dropObj_kept (n id : Nat) (hk : Kept s₀ s) : Kept s₀ (State.dropObj s n id) := by
  simp +contextual (maxDischargeDepth := 40) [State.dropObj, hk]

@[simp] theorem State.freeEngine_kept (n : Nat) (hk : Kept s₀ s) : Kept s₀ (State.freeEngine s n) := by
  simp +contextual (maxDischargeDepth := 40) [State.freeEngine, hk]

@[simp] theorem State.closeJob_kept (n reason : Nat) (hk : Kept s₀ s) : Kept s₀ (State.closeJob s n reason) := by
  unfold State.closeJob; dsimp only; (repeat' split) <;> simp_all +contextual (maxDischargeDepth := 40)

@[simp] theorem State.saveCtx_kept (n : Nat) (hk : Kept s₀ s) : Kept s₀ (State.saveCtx s n).1 := by
  have h := State.put_kept (thrAgent n) [(s.saveAddr n, savedBytes s.freeCount)] (State.free_kept (s.freeCount + 2048) hk)
  unfold State.saveCtx
  split <;> simp_all +contextual (maxDischargeDepth := 40)

@[simp] theorem State.restoreCtx_kept (n : Nat) (hk : Kept s₀ s) : Kept s₀ (State.restoreCtx s n).1 := by
  have h := State.access_kept (thrAgent n) [⟨.read, s.saveAddr n, 2048⟩] hk
  unfold State.restoreCtx
  (repeat' split) <;> simp_all +contextual (maxDischargeDepth := 40)

@[simp] theorem State.runCtx_kept (n : Nat) (hk : Kept s₀ s) : Kept s₀ (State.runCtx s n) := by
  simp +contextual (maxDischargeDepth := 40) [State.runCtx, hk]

@[simp] theorem State.dispatchN_kept (n : Nat) (hk : Kept s₀ s) : Kept s₀ (State.dispatchN n s) := by
  induction n generalizing s with
  | zero => exact hk
  | succ n ih =>
    unfold State.dispatchN
    split
    · split
      · exact hk
      · rename_i k _
        have h := State.restoreCtx_kept k hk
        split <;> rename_i e <;> rw [e] at h
        · exact State.runCtx_kept k h
        · split
          · exact ih (State.modCtx_kept _ _ h)
          · exact h
        · exact ih (State.closeJob_kept k 4 h)
    · exact hk

@[simp] theorem State.dispatch_kept (hk : Kept s₀ s) : Kept s₀ (State.dispatch s) := by
  exact State.dispatchN_kept 5 hk

@[simp] theorem State.endJob_kept (n reason : Nat) (hk : Kept s₀ s) : Kept s₀ (State.endJob s n reason) := by
  simp +contextual (maxDischargeDepth := 40) [State.endJob, hk]

@[simp] theorem State.parkCtx_kept (n st : Nat) (hk : Kept s₀ s) : Kept s₀ (State.parkCtx s n st) := by
  have h := State.saveCtx_kept n hk
  unfold State.parkCtx
  (repeat' split) <;> simp_all +contextual (maxDischargeDepth := 40)

@[simp] theorem State.suspendCtx_kept (n : Nat) (hk : Kept s₀ s) : Kept s₀ (State.suspendCtx s n) := by
  simp +contextual (maxDischargeDepth := 40) [State.suspendCtx, hk]

@[simp] theorem State.resumeCtx_kept (n : Nat) (hk : Kept s₀ s) : Kept s₀ (State.resumeCtx s n) := by
  unfold State.resumeCtx; (repeat' split) <;> simp_all +contextual (maxDischargeDepth := 40)

@[simp] theorem State.stopJob_kept (n reason : Nat) (hk : Kept s₀ s) : Kept s₀ (State.stopJob s n reason) := by
  simp +contextual (maxDischargeDepth := 40) [State.stopJob, hk]

@[simp] theorem State.endJobs_kept (reason : Nat) (hk : Kept s₀ s) : Kept s₀ (State.endJobs s reason) := by
  simp +contextual (maxDischargeDepth := 40) [State.endJobs, hk]

@[simp] theorem State.clearObjects_kept (n : Nat) (hk : Kept s₀ s) : Kept s₀ (State.clearObjects s n) := by
  simp +contextual (maxDischargeDepth := 40) [State.clearObjects, hk]

@[simp] theorem State.leaveL3_kept (hk : Kept s₀ s) : Kept s₀ (State.leaveL3 s) := by
  simp +contextual (maxDischargeDepth := 40) [State.leaveL3, hk]

@[simp] theorem State.relevel_kept (row : Nat) (hk : Kept s₀ s) : Kept s₀ (State.relevel s row) := by
  simp +contextual (maxDischargeDepth := 40) [State.relevel, hk]

@[simp] theorem State.fail_kept (row : Nat) (f : Fail → Fail) (hk : Kept s₀ s) : Kept s₀ (State.fail s row f) := by
  simp +contextual (maxDischargeDepth := 40) [State.fail, hk]

@[simp] theorem State.portFault_kept (k : Nat) (hk : Kept s₀ s) : Kept s₀ (State.portFault s k) := by
  simp +contextual (maxDischargeDepth := 40) [State.portFault, hk]

@[simp] theorem State.sentFault_kept (c : Nat) (hk : Kept s₀ s) : Kept s₀ (State.sentFault s c) := by
  simp +contextual (maxDischargeDepth := 40) [State.sentFault, hk]

@[simp] theorem State.takeUnit_kept (k sel j : Nat) (p : Profile) (v : Nat) (ok stuck : Bool) (hk : Kept s₀ s) :
    Kept s₀ (State.takeUnit s k sel j p v ok stuck).1 := by
  simp +contextual (maxDischargeDepth := 40) [State.takeUnit, hk]

@[simp] theorem State.takeUnits_kept (k sel : Nat) (p : Profile) (us : List (Nat × Bool × Bool)) (hk : Kept s₀ s) :
    Kept s₀ (State.takeUnits s k sel p us).1 := by
  simp +contextual (maxDischargeDepth := 40) [State.takeUnits, hk]

@[simp] theorem State.drawUnits_kept (k ix n : Nat) (p : Profile) (hk : Kept s₀ s) : Kept s₀ (State.drawUnits s k ix n p) := by
  simp +contextual (maxDischargeDepth := 40) [State.drawUnits, hk]

@[simp] theorem State.undraw_kept (k ix clocked : Nat) (p : Profile) (hk : Kept s₀ s) :
    Kept s₀ (State.undraw s k ix clocked p) := by
  unfold State.undraw; (split <;> simp +contextual (maxDischargeDepth := 40) [hk])

@[simp] theorem State.clearSelections_kept (ix : Nat) (hk : Kept s₀ s) : Kept s₀ (State.clearSelections s ix) := by
  simp +contextual (maxDischargeDepth := 40) [State.clearSelections, hk]

@[simp] theorem State.applySelections_kept (ix : Nat) (p : Profile) (us : List Nat) (hk : Kept s₀ s) :
    Kept s₀ (State.applySelections s ix p us).1 := by
  simp +contextual (maxDischargeDepth := 40) [State.applySelections, hk]

@[simp] theorem State.hardFault_kept (hk : Kept s₀ s) : Kept s₀ (State.hardFault s) := by
  simp +contextual (maxDischargeDepth := 40) [State.hardFault, hk]

@[simp] theorem State.drillFault_kept (hk : Kept s₀ s) : Kept s₀ (State.drillFault s) := by
  simp +contextual (maxDischargeDepth := 40) [State.drillFault, hk]

@[simp] theorem State.writeBack_kept (u : State) (ws : List (Nat × List Byte)) (hk : Kept s₀ s) (hu : Kept s₀ u) : Kept s₀ (State.writeBack s u ws) := by
  have h := State.store_kept .drill ws hk
  have g := State.store_kept .drill ws hu
  unfold State.writeBack
  split <;> simp_all +contextual (maxDischargeDepth := 40)

@[simp] theorem State.launchCsp_kept (f e : Nat) (hk : Kept s₀ s) : Kept s₀ (State.launchCsp s f e) := by
  simp +contextual (maxDischargeDepth := 40) [State.launchCsp, hk]

@[simp] theorem State.launchTrigger_kept (e : Nat) (hk : Kept s₀ s) : Kept s₀ (State.launchTrigger s e) := by
  simp +contextual (maxDischargeDepth := 40) [State.launchTrigger, hk]

@[simp] theorem State.releasePort_kept (k : Nat) (hk : Kept s₀ s) : Kept s₀ (State.releasePort s k) := by
  simp +contextual (maxDischargeDepth := 40) [State.releasePort, hk]

@[simp] theorem State.finishEntry_kept (f e t : Nat) (ok : Bool) (hk : Kept s₀ s) : Kept s₀ (State.finishEntry s f e t ok) := by
  simp +contextual (maxDischargeDepth := 40) [State.finishEntry, hk]

@[simp] theorem State.completeCsp_kept (f e t : Nat) (us : List (Nat × Bool × Bool)) (hk : Kept s₀ s) : Kept s₀ (State.completeCsp s f e t us).1 := by
  simp +contextual (maxDischargeDepth := 40) [State.completeCsp, hk]

@[simp] theorem State.receiveCsp_kept (f e t : Nat) (sdi : List Bool) (hk : Kept s₀ s) : Kept s₀ (State.receiveCsp s f e t sdi).1 := by
  simp +contextual (maxDischargeDepth := 40) [State.receiveCsp, hk]

@[simp] theorem State.completeTrigger_kept (e t : Nat) (hk : Kept s₀ s) : Kept s₀ (State.completeTrigger s e t) := by
  simp +contextual (maxDischargeDepth := 40) [State.completeTrigger, hk]

@[simp] theorem State.abortPort_kept (f e clocked : Nat) (hk : Kept s₀ s) : Kept s₀ (State.abortPort s f e clocked) := by
  simp +contextual (maxDischargeDepth := 40) [State.abortPort, hk]

@[simp] theorem State.abortSelections_kept (f e clocked : Nat) (hk : Kept s₀ s) :
    Kept s₀ (State.abortSelections s f e clocked) := by
  simp +contextual (maxDischargeDepth := 40) [State.abortSelections, hk]

@[simp] theorem State.missDeadline_kept (f e : Nat) (hk : Kept s₀ s) : Kept s₀ (State.missDeadline s f e) := by
  simp +contextual (maxDischargeDepth := 40) [State.missDeadline, hk]

@[simp] theorem State.discardWrite_kept (f e : Nat) (hk : Kept s₀ s) : Kept s₀ (State.discardWrite s f e) := by
  simp +contextual (maxDischargeDepth := 40) [State.discardWrite, hk]

@[simp] theorem State.parkPorts_kept (hk : Kept s₀ s) : Kept s₀ (State.parkPorts s) :=
  { hk with csp := fun z => by simpa [State.parkPorts] using hk.csp z, sent := fun z => by simpa [State.parkPorts] using hk.sent z }

@[simp] theorem State.detachRecord_kept (hk : Kept s₀ s) : Kept s₀ (State.detachRecord s) := by
  simp +contextual (maxDischargeDepth := 40) [State.detachRecord, hk]

@[simp] theorem State.detachPark_kept (hk : Kept s₀ s) : Kept s₀ (State.detachPark s) := by
  simp +contextual (maxDischargeDepth := 40) [State.detachPark, hk]

@[simp] theorem State.startRecovery_kept (k : Nat) (hk : Kept s₀ s) : Kept s₀ (State.startRecovery s k) := by
  simp +contextual (maxDischargeDepth := 40) [State.startRecovery, hk]

@[simp] theorem State.resetPort_kept (k : Nat) (hk : Kept s₀ s) : Kept s₀ (State.resetPort s k) := by
  simp +contextual (maxDischargeDepth := 40) [State.resetPort, hk]

@[simp] theorem State.hold_kept (ss : List Slot) (hk : Kept s₀ s) : Kept s₀ (State.hold s ss) := by
  simp +contextual (maxDischargeDepth := 40) [State.hold, hk]

@[simp] theorem State.closeEntry_kept (e : Nat) (hk : Kept s₀ s) : Kept s₀ (State.closeEntry s e) := by
  unfold State.closeEntry; (repeat' split) <;> simp_all +contextual (maxDischargeDepth := 40)

@[simp] theorem State.endCollect_kept (e : Nat) (hk : Kept s₀ s) : Kept s₀ (State.endCollect s e) := by
  simp +contextual (maxDischargeDepth := 40) [State.endCollect, hk]

@[simp] theorem State.assemble_kept (hk : Kept s₀ s) : Kept s₀ (State.assemble s) := by
  simp +contextual (maxDischargeDepth := 40) [State.assemble, hk]

@[simp] theorem State.assemblerFault_kept (hk : Kept s₀ s) : Kept s₀ (State.assemblerFault s) := by
  simp +contextual (maxDischargeDepth := 40) [State.assemblerFault, hk]

@[simp] theorem State.copyTarget_kept (buffer period layout k : Nat) (hk : Kept s₀ s) : Kept s₀ (State.copyTarget s buffer period layout k) := by
  have h := fun l => State.access_kept .mirrorCopy l hk
  unfold State.copyTarget
  dsimp only
  split
  · exact hk
  · split <;> rename_i e
    · exact mirror_kept _ ((congrArg (fun p => Kept s₀ p.1) e).mp (h _))
    · exact (congrArg (fun p => Kept s₀ p.1) e).mp (h _)

@[simp] theorem State.refreshMirror_kept (hk : Kept s₀ s) : Kept s₀ (State.refreshMirror s) := by
  unfold State.refreshMirror; (repeat' split) <;> simp_all +contextual (maxDischargeDepth := 40)

@[simp] theorem State.publish_kept (a : Assembly) (hk : Kept s₀ s) : Kept s₀ (State.publish s a) := by
  simp +contextual (maxDischargeDepth := 40) [State.publish, hk]

@[simp] theorem State.unpublish_kept (why : Nat) (hk : Kept s₀ s) : Kept s₀ (State.unpublish s why) := by
  simp +contextual (maxDischargeDepth := 40) [State.unpublish, hk]

@[simp] theorem State.endSheaf_kept (hk : Kept s₀ s) : Kept s₀ (State.endSheaf s) := by
  unfold State.endSheaf; (repeat' split) <;> simp_all +contextual (maxDischargeDepth := 40)

@[simp] theorem State.serialDone_kept (c : Nat) (m : Nat × Nat × Bool) (hk : Kept s₀ s) : Kept s₀ (State.serialDone s c m) := by
  simp +contextual (maxDischargeDepth := 40) [State.serialDone, hk]

@[simp] theorem State.serialNibble_kept (c n : Nat) (hk : Kept s₀ s) : Kept s₀ (State.serialNibble s c n) := by
  unfold State.serialNibble; (split <;> simp +contextual (maxDischargeDepth := 40) [hk])

@[simp] theorem State.deliverSent_kept (c : Nat) (f : SentFrame) (hk : Kept s₀ s) : Kept s₀ (State.deliverSent s c f) := by
  unfold State.deliverSent; dsimp only; (repeat' split) <;> simp_all +contextual (maxDischargeDepth := 40)

@[simp] theorem State.errorSent_kept (c : Nat) (d : Decoded) (hk : Kept s₀ s) : Kept s₀ (State.errorSent s c d) := by
  simp +contextual (maxDischargeDepth := 40) [State.errorSent, hk]

@[simp] theorem State.goodSent_kept (c : Nat) (f : SentFrame) (ps : List Pick) (hk : Kept s₀ s) : Kept s₀ (State.goodSent s c f ps) := by
  unfold State.goodSent; dsimp only; (repeat' split) <;> simp_all +contextual (maxDischargeDepth := 40)

@[simp] theorem State.takeSent_kept (c : Nat) (pulses : List Nat) (nextPulse syncEnd : Nat) (hk : Kept s₀ s) :
    Kept s₀ (State.takeSent s c pulses nextPulse syncEnd) := by
  simp +contextual (maxDischargeDepth := 40) [State.takeSent, hk]

@[simp] theorem State.acceptEdge_kept (i stamp : Nat) (hk : Kept s₀ s) : Kept s₀ (State.acceptEdge s i stamp) := by
  simp +contextual (maxDischargeDepth := 40) [State.acceptEdge, hk]

@[simp] theorem State.nackAddress_kept (k : Nat) (hk : Kept s₀ s) : Kept s₀ (State.nackAddress s k) := by
  simp +contextual (maxDischargeDepth := 40) [State.nackAddress, hk]

@[simp] theorem State.nackData_kept (k : Nat) (hk : Kept s₀ s) : Kept s₀ (State.nackData s k) := by
  simp +contextual (maxDischargeDepth := 40) [State.nackData, hk]

@[simp] theorem State.twtEvent_kept (k : Nat) (hk : Kept s₀ s) : Kept s₀ (State.twtEvent s k) := by
  simp +contextual (maxDischargeDepth := 40) [State.twtEvent, hk]

@[simp] theorem State.twtOut_kept (k : Nat) (bs : List Byte) (hk : Kept s₀ s) : Kept s₀ (State.twtOut s k bs) := by
  simp +contextual (maxDischargeDepth := 40) [State.twtOut, hk]

@[simp] theorem State.collect_kept (ch : Nat) (hk : Kept s₀ s) : Kept s₀ (State.collect s ch) := by
  unfold State.collect; dsimp only; (repeat' split) <;> simp_all +contextual (maxDischargeDepth := 40)

@[simp] theorem State.pecFailed_kept (k : Nat) (hk : Kept s₀ s) : Kept s₀ (State.pecFailed s k) := by
  simp +contextual (maxDischargeDepth := 40) [State.pecFailed, hk]

@[simp] theorem State.setPointer_kept (k p : Nat) (hk : Kept s₀ s) : Kept s₀ (State.setPointer s k p) := by
  simp +contextual (maxDischargeDepth := 40) [State.setPointer, hk]

@[simp] theorem State.writeRequest_kept (k : Nat) (data : List Byte) (pec : Byte) (hk : Kept s₀ s) : Kept s₀ (State.writeRequest s k data pec) := by
  simp +contextual (maxDischargeDepth := 40) [State.writeRequest, hk]

@[simp] theorem State.readReply_kept (k clocked : Nat) (phases : List Byte) (hk : Kept s₀ s) : Kept s₀ (State.readReply s k clocked phases) := by
  unfold State.readReply; dsimp only; (repeat' split) <;> simp_all +contextual (maxDischargeDepth := 40)

@[simp] theorem State.readRegisters_kept (k p count : Nat) (phases : List Byte) (hk : Kept s₀ s) : Kept s₀ (State.readRegisters s k p count phases) := by
  simp +contextual (maxDischargeDepth := 40) [State.readRegisters, hk]

@[simp] theorem State.readTarget_kept (k : Nat) (pointer : Option Byte) (count : Nat) (hk : Kept s₀ s) : Kept s₀ (State.readTarget s k pointer count) := by
  simp +contextual (maxDischargeDepth := 40) [State.readTarget, hk]

@[simp] theorem State.readVirtual_kept (a k : Nat) (pointer : Option Byte) (count : Nat) (hk : Kept s₀ s) : Kept s₀ (State.readVirtual s a k pointer count) := by
  unfold State.readVirtual
  dsimp only
  split
  · exact State.nackData_kept 1 hk
  · exact mirror_kept _ (State.twtOut_kept 1 _ hk)

@[simp] theorem State.clearMbx0_kept (hk : Kept s₀ s) : Kept s₀ (State.clearMbx0 s) := by
  simp +contextual (maxDischargeDepth := 40) [State.clearMbx0, hk]

@[simp] theorem State.leaveSuspend_kept (hk : Kept s₀ s) : Kept s₀ (State.leaveSuspend s) := by
  simp +contextual (maxDischargeDepth := 40) [State.leaveSuspend, hk]

@[simp] theorem State.resetFunction_kept (hk : Kept s₀ s) : Kept s₀ (State.resetFunction s) := by
  simp +contextual (maxDischargeDepth := 40) [State.resetFunction, hk]

@[simp] theorem State.suspendStream_kept (e : Nat) (hk : Kept s₀ s) : Kept s₀ (State.suspendStream s e) := by
  simp +contextual (maxDischargeDepth := 40) [State.suspendStream, hk]

@[simp] theorem State.abandonBulk_kept (ep : BulkEp) (hk : Kept s₀ s) : Kept s₀ (State.abandonBulk s ep) := by
  unfold State.abandonBulk; dsimp only; (repeat' split) <;> simp_all +contextual (maxDischargeDepth := 40)

@[simp] theorem State.skipSheaf_kept (e : Nat) (hk : Kept s₀ s) : Kept s₀ (State.skipSheaf s e) := by
  simp +contextual (maxDischargeDepth := 40) [State.skipSheaf, hk]

@[simp] theorem State.abandonCopy_kept (e : Nat) (hk : Kept s₀ s) : Kept s₀ (State.abandonCopy s e) := by
  simp +contextual (maxDischargeDepth := 40) [State.abandonCopy, hk]

@[simp] theorem State.streamTake_kept (e : Nat) (hk : Kept s₀ s) : Kept s₀ (State.streamTake s e) := by
  simp +contextual (maxDischargeDepth := 40) [State.streamTake, hk]

@[simp] theorem State.drawChunks_kept (e : Nat) (d : Delivery) (hk : Kept s₀ s) : Kept s₀ (State.drawChunks s e d).1 := by
  simp +contextual (maxDischargeDepth := 40) [State.drawChunks, hk]

@[simp] theorem State.copyRange_kept (e : Nat) (d : Delivery) (hk : Kept s₀ s) : Kept s₀ (State.copyRange s e d).1 := by
  have h := State.access_kept .usb [⟨.read, d.src, d.len⟩] hk
  unfold State.copyRange
  split
  · rename_i e
    exact State.store_kept .usb _ ((congrArg (fun p => Kept s₀ p.1) e).mp h)
  · exact h

@[simp] theorem State.endTransfer_kept (v : Nat) (hk : Kept s₀ s) : Kept s₀ (State.endTransfer s v) := by
  simp +contextual (maxDischargeDepth := 40) [State.endTransfer, hk]

@[simp] theorem State.startDelivery_kept (e : Nat) (d : Delivery) (hk : Kept s₀ s) : Kept s₀ (State.startDelivery s e d) := by
  simp +contextual (maxDischargeDepth := 40) [State.startDelivery, hk]

@[simp] theorem State.tryStart_kept (e : Nat) (hk : Kept s₀ s) : Kept s₀ (State.tryStart s e) := by
  unfold State.tryStart; dsimp only; (repeat' split) <;> simp_all +contextual (maxDischargeDepth := 40)

@[simp] theorem State.silent_kept (e : Nat) (hk : Kept s₀ s) : Kept s₀ (State.silent s e) := by
  simp +contextual (maxDischargeDepth := 40) [State.silent, hk]

@[simp] theorem State.advanceDelivery_kept (e : Nat) (d : Delivery) (i : Nat) (hk : Kept s₀ s) :
    Kept s₀ (State.advanceDelivery s e d i) := by
  simp +contextual (maxDischargeDepth := 40) [State.advanceDelivery, hk]

@[simp] theorem State.sendChunk_kept (e : Nat) (d : Delivery) (i : Nat) (hk : Kept s₀ s) :
    Kept s₀ (State.sendChunk s e d i) := by
  unfold State.sendChunk; dsimp only; (repeat' split) <;> simp_all +contextual (maxDischargeDepth := 40)

@[simp] theorem State.controlAck_kept (ok : Bool) (hk : Kept s₀ s) : Kept s₀ (State.controlAck s ok) := by
  simp +contextual (maxDischargeDepth := 40) [State.controlAck, hk]

@[simp] theorem State.sendDescriptor_kept (bs : List Byte) (hk : Kept s₀ s) : Kept s₀ (State.sendDescriptor s bs) := by
  simp +contextual (maxDischargeDepth := 40) [State.sendDescriptor, hk]

@[simp] theorem State.disconnect_kept (p : Nat) (hk : Kept s₀ s) : Kept s₀ (State.disconnect s p) := by
  simp +contextual (maxDischargeDepth := 40) [State.disconnect, hk]

@[simp] theorem State.settleHub_kept (hk : Kept s₀ s) : Kept s₀ (State.settleHub s) := by
  simp +contextual (maxDischargeDepth := 40) [State.settleHub, hk]

@[simp] theorem State.overCurrent_kept (p : Nat) (hk : Kept s₀ s) : Kept s₀ (State.overCurrent s p) := by
  simp +contextual (maxDischargeDepth := 40) [State.overCurrent, hk]

@[simp] theorem State.almWrite_kept (a : Nat) (bs : List Byte) (hk : Kept s₀ s) : Kept s₀ (State.almWrite s a bs) := by
  simp +contextual (maxDischargeDepth := 40) [State.almWrite, hk]

@[simp] theorem State.saveCounters_kept (hk : Kept s₀ s) : Kept s₀ (State.saveCounters s) := by
  simp +contextual (maxDischargeDepth := 40) [State.saveCounters, hk]

@[simp] theorem State.markBad_kept (region i : Nat) (hk : Kept s₀ s) : Kept s₀ (State.markBad s region i) := by
  simp +contextual (maxDischargeDepth := 40) [State.markBad, hk]

@[simp] theorem State.copyFirst_kept (r : AlmRec) (seq : Nat) (zoneOk : Bool) (hk : Kept s₀ s) :
    Kept s₀ (State.copyFirst s r seq zoneOk) := by
  unfold State.copyFirst; dsimp only; (repeat' split) <;> simp_all +contextual (maxDischargeDepth := 40)

@[simp] theorem State.writeRecord_kept (r : AlmRec) (zoneOk : Bool) (hk : Kept s₀ s) :
    Kept s₀ (State.writeRecord s r zoneOk) := by
  simp +contextual (maxDischargeDepth := 40) [State.writeRecord, hk]

@[simp] theorem State.writeHeader_kept (hk : Kept s₀ s) : Kept s₀ (State.writeHeader s) := by
  unfold State.writeHeader
  split
  · exact State.almWrite_kept _ _ hk
  · exact hk

@[simp] theorem State.advance_kept (n : Nat) (hk : Kept s₀ s) : Kept s₀ (State.advance s n) := by
  unfold State.advance; (repeat' split) <;> simp_all +contextual (maxDischargeDepth := 40)

@[simp] theorem State.takeObj_kept (n : Nat) (o : Obj) (hk : Kept s₀ s) : Kept s₀ (State.takeObj s n o) := by
  simp +contextual (maxDischargeDepth := 40) [State.takeObj, hk]

@[simp] theorem State.poisoned_kept (n : Nat) (hk : Kept s₀ s) : Kept s₀ (State.poisoned s n) := by
  simp +contextual (maxDischargeDepth := 40) [State.poisoned, hk]

@[simp] theorem State.finish_kept (n : Nat) (r : KernelResult) (next : State → State) (hk : Kept s₀ s) (hn : ∀ u, Kept s₀ u → Kept s₀ (next u)) : Kept s₀ (State.finish s n r next) := by
  have h := State.store_kept (thrAgent n) r.writes hk
  unfold State.finish
  split <;> rename_i e <;> rw [e] at h
  · have g := Kept.foldl (fun s o => State.takeObj s n o) r.objs h fun u o hu => State.takeObj_kept n o hu
    dsimp only
    split <;> simp_all +contextual (maxDischargeDepth := 40)
  · simp +contextual (maxDischargeDepth := 40) [h]
  · simp +contextual (maxDischargeDepth := 40) [h]

@[simp] theorem State.perform_kept (n : Nat) (j : Job) (reads : List Piece) (result : Option KernelResult) (next : State → State) (hk : Kept s₀ s) (hn : ∀ u, Kept s₀ u → Kept s₀ (next u)) : Kept s₀ (State.perform s n j reads result next) := by
  have h := State.access_kept (thrAgent n) reads hk
  unfold State.perform
  split
  · exact State.finish_kept n _ next hk hn
  · split <;> rename_i e <;> rw [e] at h
    · split
      · exact State.finish_kept n _ next h hn
      · exact hk
    · simp +contextual (maxDischargeDepth := 40) [h]
    · simp +contextual (maxDischargeDepth := 40) [h]

@[simp] theorem State.service_kept (n op : Nat) (f : Job → ThrInstr → State) (hk : Kept s₀ s) (hf : ∀ j i, Kept s₀ (f j i)) :
    Kept s₀ (State.service s n op f) := by
  unfold State.service
  split
  · split
    · exact hf _ _
    · exact hk
  · exact hk

@[simp] theorem State.kernel_kept (n op : Nat) (f : ThrInstr → Option KernelResult) (hk : Kept s₀ s) : Kept s₀ (State.kernel s n op f) := by
  simp +contextual (maxDischargeDepth := 40) [State.kernel, hk]

@[simp] theorem State.hardened_kept (n op : Nat) (u : Option Upset)
    (f : List Limb → List Comp → List Comp → List (List (List LastOp))) (hk : Kept s₀ s) : Kept s₀ (State.hardened s n op u f) := by
  unfold State.hardened
  refine State.service_kept _ _ _ hk fun j i => ?_
  dsimp only
  (repeat' split) <;> simp_all +contextual (maxDischargeDepth := 40)

@[simp] theorem State.skipSample_kept (n : Nat) (hk : Kept s₀ s) : Kept s₀ (State.skipSample s n) := by
  simp +contextual (maxDischargeDepth := 40) [State.skipSample, hk]

@[simp] theorem State.feature_kept (n : Nat) (j : Job) (i : ThrInstr) (m d : Obj) (hk : Kept s₀ s) : Kept s₀ (State.feature s n j i m d) := by
  unfold State.feature; (repeat' split) <;> simp_all +contextual (maxDischargeDepth := 40)

@[simp] theorem State.waitFor_kept (n st : Nat) (hk : Kept s₀ s) : Kept s₀ (State.waitFor s n st) := by
  unfold State.waitFor
  split
  · simp +contextual (maxDischargeDepth := 40) [hk]
  · simp +contextual (maxDischargeDepth := 40) [hk]

@[simp] theorem State.rerandThen_kept (n : Nat) (j : Job) (h pool : Nat) (next : State → State) (hk : Kept s₀ s) (hn : ∀ u, Kept s₀ u → Kept s₀ (next u)) : Kept s₀ (State.rerandThen s n j h pool next) := by
  unfold State.rerandThen
  split
  · exact State.waitFor_kept n 6 hk
  · exact State.perform_kept n j _ _ next hk hn

@[simp] theorem State.handOff_kept (n : Nat) (hk : Kept s₀ s) : Kept s₀ (State.handOff s n) := by
  simp +contextual (maxDischargeDepth := 40) [State.handOff, hk]

@[simp] theorem State.sampleDue_kept (pub : Option Nat) (n : Nat) (hk : Kept s₀ s) : Kept s₀ (State.sampleDue s pub n) := by
  unfold State.sampleDue; (split <;> simp +contextual (maxDischargeDepth := 40) [hk])

@[simp] theorem State.samples_kept (pub : Option Nat) (hk : Kept s₀ s) : Kept s₀ (State.samples s pub) := by
  simp +contextual (maxDischargeDepth := 40) [State.samples, hk]

@[simp] theorem State.finishLoad_kept (n id vaddr received : Nat) (hk : Kept s₀ s) :
    Kept s₀ (State.finishLoad s n id vaddr received).1 := by
  simp +contextual (maxDischargeDepth := 40) [State.finishLoad, hk]

@[simp] theorem State.stewardWrite_kept (n v : Nat) (bs : List Byte) (hk : Kept s₀ s) : Kept s₀ (State.stewardWrite s n v bs).1 := by
  have h := State.firmware_kept .steward (6 + n) [⟨.write, v, bs.length⟩] hk
  unfold State.stewardWrite
  split <;> simp_all +contextual (maxDischargeDepth := 40)

@[simp] theorem State.loadChunk_kept (r : Req) (hk : Kept s₀ s) : Kept s₀ (State.loadChunk s r).1 := by
  have h := fun v bs => State.stewardWrite_kept (pf r 0 1) v bs hk
  have g : ∀ (v : Nat) bs (t : State) b, s.stewardWrite (pf r 0 1) v bs = (t, b) → Kept s₀ t := fun v bs t b e => by
    have := h v bs; rw [e] at this; exact this
  unfold State.loadChunk
  extract_lets n id data off old fresh received vaddr restart vaddr'
  split
  · exact hk
  · split
    · exact hk
    · split
      · exact State.dropObj_kept _ _ hk
      · split <;> rename_i e
        · exact g _ _ _ _ e
        · dsimp only
          split
          · exact State.finishLoad_kept _ _ _ _ (g _ _ _ _ e)
          · exact State.putObj_kept _ _ (g _ _ _ _ e)

@[simp] theorem State.loadStore_kept (r : Req) (hk : Kept s₀ s) : Kept s₀ (State.loadStore s r).1 := by
  have h := State.firmware_kept .storage (6 + pf r 0 1) [⟨.write, pf r 4 4, pf r 12 4⟩] hk
  unfold State.loadStore
  dsimp only
  (repeat' split) <;> simp_all +contextual (maxDischargeDepth := 40)

@[simp] theorem State.allocate_kept (r : Req) (hk : Kept s₀ s) : Kept s₀ (State.allocate s r).1 := by
  have h := fun v bs => State.stewardWrite_kept (pf r 0 1) v bs hk
  unfold State.allocate
  dsimp only
  split
  · exact hk
  · split
    · exact State.dropObj_kept _ _ hk
    · split <;> rename_i e
      · exact (congrArg (fun p => Kept s₀ p.1) e).mp (h _ _)
      · exact State.finishLoad_kept _ _ _ _ ((congrArg (fun p => Kept s₀ p.1) e).mp (h _ _))

@[simp] theorem State.unload_kept (r : Req) (hk : Kept s₀ s) : Kept s₀ (State.unload s r).1 := by
  unfold State.unload; dsimp only; (repeat' split) <;> simp_all +contextual (maxDischargeDepth := 40)

@[simp] theorem State.thrLoad_kept (r : Req) (hk : Kept s₀ s) : Kept s₀ (State.thrLoad s r) := by
  unfold State.thrLoad
  refine State.serve_kept _ _ _ _ _ hk fun u t hu => ?_
  split
  · exact State.loadChunk_kept r hu
  · exact State.loadStore_kept r hu
  · exact State.unload_kept r hu
  · exact State.allocate_kept r hu

theorem State.takeReturn_kept (n : Nat) (j : Job) (bs : List Byte) (t : State) (hk : Kept s₀ s)
    (e : State.takeReturn s n j bs = some t) : Kept s₀ t := by
  unfold State.takeReturn at e
  rw [Option.bind_eq_some_iff] at e
  obtain ⟨d, -, e⟩ := e
  dsimp only at e
  split at e
  · cases e; simp [hk]
  · cases e

@[simp] theorem State.powerLog_kept (code : Nat) (hk : Kept s₀ s) : Kept s₀ (State.powerLog s code) := by
  simp +contextual (maxDischargeDepth := 40) [State.powerLog, hk]

@[simp] theorem State.abandonFallow_kept (hk : Kept s₀ s) : Kept s₀ (State.abandonFallow s) := by
  unfold State.abandonFallow; (repeat' split) <;> simp_all +contextual (maxDischargeDepth := 40)

@[simp] theorem State.stewardEnds_kept (hk : Kept s₀ s) : Kept s₀ (State.stewardEnds s) := by
  simp +contextual (maxDischargeDepth := 40) [State.stewardEnds, hk]

@[simp] theorem State.restartSteward_kept (cause : Nat) (hk : Kept s₀ s) : Kept s₀ (State.restartSteward s cause) := by
  simp +contextual (maxDischargeDepth := 40) [State.restartSteward, hk]

@[simp] theorem State.stewardDown_kept (hk : Kept s₀ s) : Kept s₀ (State.stewardDown s) := by
  simp +contextual (maxDischargeDepth := 40) [State.stewardDown, hk]

@[simp] theorem State.wakeBank_kept (k : Nat) (hk : Kept s₀ s) : Kept s₀ (State.wakeBank s k) := by
  simp +contextual (maxDischargeDepth := 40) [State.wakeBank, hk]

@[simp] theorem State.gateBank_kept (k : Nat) (st : BankState) (hk : Kept s₀ s) : Kept s₀ (State.gateBank s k st) := by
  simp +contextual (maxDischargeDepth := 40) [State.gateBank, hk]

@[simp] theorem State.settlePower_kept (hk : Kept s₀ s) : Kept s₀ (State.settlePower s) := by
  simp +contextual (maxDischargeDepth := 40) [State.settlePower, hk]

@[simp] theorem State.failServed_kept (hk : Kept s₀ s) : Kept s₀ (State.failServed s) := by
  unfold State.failServed; (split <;> simp +contextual (maxDischargeDepth := 40) [hk])

@[simp] theorem State.starveSlave_kept (v : Nat) (hk : Kept s₀ s) : Kept s₀ (State.starveSlave s v) := by
  simp +contextual (maxDischargeDepth := 40) [State.starveSlave, hk]

@[simp] theorem State.endOperation_kept (a : Agent) (v : Nat) (hk : Kept s₀ s) : Kept s₀ (State.endOperation s a v) := by
  unfold State.endOperation; (split <;> simp +contextual (maxDischargeDepth := 40) [hk])

@[simp] theorem State.stewardB00_kept (a : Agent) (bank : Option Nat) (kind : Nat) (hk : Kept s₀ s) :
    Kept s₀ (State.stewardB00 s a bank kind) := by
  simp +contextual (maxDischargeDepth := 40) [State.stewardB00, hk]

@[simp] theorem State.suspend_kept (a : Agent) (hk : Kept s₀ s) : Kept s₀ (State.suspend s a) := by
  unfold State.suspend; (split <;> simp +contextual (maxDischargeDepth := 40) [hk])

@[simp] theorem State.takeFault_kept (a : Agent) (dir : Access) (v index kind : Nat) (hk : Kept s₀ s) : Kept s₀ (State.takeFault s a dir v index kind) := by
  have h := State.noteFault_kept a dir v index kind hk
  unfold State.takeFault
  dsimp only
  split <;> simp_all +contextual (maxDischargeDepth := 40)

@[simp] theorem State.foundBad_kept (w : Nat) (hk : Kept s₀ s) : Kept s₀ (State.foundBad s w) := by
  simp +contextual (maxDischargeDepth := 40) [State.foundBad, hk]

@[simp] theorem State.resolve_kept (c : Cursor) (lost : Bool) (hk : Kept s₀ s) : Kept s₀ (State.resolve s c lost) := by
  unfold State.resolve; (split <;> simp +contextual (maxDischargeDepth := 40) [hk])

@[simp] theorem State.giveUp_kept (c : Cursor) (hk : Kept s₀ s) : Kept s₀ (State.giveUp s c) := by
  simp +contextual (maxDischargeDepth := 40) [State.giveUp, hk]

@[simp] theorem State.carryPower_kept (k : Nat) (hk : Kept s₀ s) : Kept s₀ (State.carryPower s k) := by
  unfold State.carryPower; (split <;> simp +contextual (maxDischargeDepth := 40) [hk])

@[simp] theorem State.carryPowers_kept (hk : Kept s₀ s) : Kept s₀ (State.carryPowers s) := by
  simp +contextual (maxDischargeDepth := 40) [State.carryPowers, hk]

@[simp] theorem State.loseContent_kept (k : Nat) (hk : Kept s₀ s) : Kept s₀ (State.loseContent s k) := by
  unfold State.loseContent; dsimp only; (repeat' split) <;> simp_all +contextual (maxDischargeDepth := 40)

@[simp] theorem State.scrubWord_kept (a : Nat) (bad : Bool) (hk : Kept s₀ s) : Kept s₀ (State.scrubWord s a bad) := by
  simp +contextual (maxDischargeDepth := 40) [State.scrubWord, hk]

@[simp] theorem State.emptyCache_kept (h : Nat) (hk : Kept s₀ s) : Kept s₀ (State.emptyCache s h) := by
  simp +contextual (maxDischargeDepth := 40) [State.emptyCache, hk]

@[simp] theorem State.setPool_kept (e : Nat) (a : Nat × Nat) (hk : Kept s₀ s) : Kept s₀ (State.setPool s e a) := by
  simp +contextual (maxDischargeDepth := 40) [State.setPool, hk]

@[simp] theorem State.carve_kept (r : Req) (hk : Kept s₀ s) : Kept s₀ (State.carve s r) := by
  unfold State.carve
  refine State.serve_kept _ _ _ _ _ hk fun u t hu => ?_
  (repeat' split) <;> simp_all +contextual (maxDischargeDepth := 40)

@[simp] theorem State.sendProgram_kept (sel : Nat) (p : Program) (hk : Kept s₀ s) : Kept s₀ (State.sendProgram s sel p) := by
  unfold State.sendProgram; dsimp only; (repeat' split) <;> simp_all +contextual (maxDischargeDepth := 40)

@[simp] theorem State.closeGather_kept (sel : Nat) (hk : Kept s₀ s) : Kept s₀ (State.closeGather s sel) := by
  unfold State.closeGather; (split <;> simp +contextual (maxDischargeDepth := 40) [hk])

@[simp] theorem State.gatherByte_kept (a : Agent) (sel off : Nat) (b : Byte) (hk : Kept s₀ s) :
    Kept s₀ (State.gatherByte s a sel off b) := by
  simp +contextual (maxDischargeDepth := 40) [State.gatherByte, hk]

@[simp] theorem State.programByte_kept (sel a : Nat) (b : Byte) (hk : Kept s₀ s) : Kept s₀ (State.programByte s sel a b) := by
  unfold State.programByte
  dsimp only
  have h := State.freeByte_kept hk
  split <;> split <;> simp [hk, h]

@[simp] theorem State.nextProgram_kept (sel : Nat) (hk : Kept s₀ s) : Kept s₀ (State.nextProgram s sel) := by
  unfold State.nextProgram; (split <;> simp +contextual (maxDischargeDepth := 40) [hk])

@[simp] theorem State.pulseRst_kept (c : List Nat) (hk : Kept s₀ s) : Kept s₀ (State.pulseRst s c) := by
  simp +contextual (maxDischargeDepth := 40) [State.pulseRst, hk]

@[simp] theorem State.resetStorage_kept (hk : Kept s₀ s) : Kept s₀ (State.resetStorage s) := by
  simp +contextual (maxDischargeDepth := 40) [State.resetStorage, hk]

@[simp] theorem State.resumeLoads_kept (hk : Kept s₀ s) : Kept s₀ (State.resumeLoads s) := by
  unfold State.resumeLoads
  split
  · exact hk
  · refine Kept.foldl _ _ hk fun u x hu => ?_
    have h := State.loadStore_kept x.req hu
    split <;> rename_i e <;> rw [e] at h
    · exact State.complete_kept _ _ _ h
    · exact h

@[simp] theorem State.freeSelect_kept (sel : Nat) (hk : Kept s₀ s) : Kept s₀ (State.freeSelect s sel) := by
  simp +contextual (maxDischargeDepth := 40) [State.freeSelect, hk]

@[simp] theorem State.poll_kept (sel : Nat) (p : Program) (status : Nat) (hk : Kept s₀ s) : Kept s₀ (State.poll s sel p status) := by
  simp +contextual (maxDischargeDepth := 40) [State.poll, hk]

@[simp] theorem State.finishProgram_kept (sel : Nat) (p : Program) (hk : Kept s₀ s) : Kept s₀ (State.finishProgram s sel p) := by
  simp +contextual (maxDischargeDepth := 40) [State.finishProgram, hk]

@[simp] theorem State.storageFault_kept (a : Agent) (dir : Access) (v index : Nat) (hk : Kept s₀ s) :
    Kept s₀ (State.storageFault s a dir v index) := by
  simp +contextual (maxDischargeDepth := 40) [State.storageFault, hk]

@[simp] theorem State.spoil_kept (sel a n : Nat) (hk : Kept s₀ s) : Kept s₀ (State.spoil s sel a n) := by
  unfold State.spoil
  exact Kept.foldl _ _ hk fun u x hu => State.storeWrite_kept _ _ _ (State.freeByte_kept hu)

@[simp] theorem State.stopStorage_kept (hk : Kept s₀ s) : Kept s₀ (State.stopStorage s) := by
  unfold State.stopStorage
  refine State.modCsp8_kept _ (State.each_kept _ _ hk fun u x hu => ?_)
  split
  · exact State.spoil_kept _ _ _ hu
  · exact hu

@[simp] theorem State.dropWrites_kept (a : Agent) (sel : Nat) (hk : Kept s₀ s) : Kept s₀ (State.dropWrites s a sel) := by
  simp +contextual (maxDischargeDepth := 40) [State.dropWrites, hk]

@[simp] theorem State.cutEntry_kept (f e : Nat) (hk : Kept s₀ s) : Kept s₀ (State.cutEntry s f e) := by
  simp +contextual (maxDischargeDepth := 40) [State.cutEntry, hk]

@[simp] theorem State.cutEntries_kept (hk : Kept s₀ s) : Kept s₀ (State.cutEntries s) := by
  have h : Kept s₀ ((usedEntries s.reg).foldl (fun s (f, e) => s.cutEntry f e) s) :=
    Kept.foldl _ _ hk fun u x hu => State.cutEntry_kept _ _ hu
  exact { h with csp := fun z => by simpa [State.cutEntries] using h.csp z }

@[simp] theorem State.dropPeriod_kept (hk : Kept s₀ s) : Kept s₀ (State.dropPeriod s) := by
  simp +contextual (maxDischargeDepth := 40) [State.dropPeriod, hk]

@[simp] theorem State.completeAll_kept (status : Nat) (hk : Kept s₀ s) : Kept s₀ (State.completeAll s status) := by
  simp +contextual (maxDischargeDepth := 40) [State.completeAll, hk]

@[simp] theorem State.resetDevice_kept (power : Bool) (cause : Nat) (hk : Kept s₀ s) : Kept s₀ (State.resetDevice s power cause) := by
  have h : Kept s₀ s.stopStorage := State.stopStorage_kept hk
  exact
    { h with
      chans := fun _ => rfl
      entries := fun _ => List.length_replicate
      csp := fun _ => rfl
      sent := fun _ => rfl
      edge := fun _ => rfl
      banks := fun _ => rfl
      twt := fun _ => rfl
      mirror := fun _ => rfl
      sramBanks := fun _ => rfl
      streams := fun _ => rfl
      ports := fun z => (List.length_map ..).trans (h.ports z)
      positions := fun _ => rfl
      episodes := fun _ => rfl
      ctxs := fun _ => rfl
      sram := fun _ => rfl
      psram := fun z => by
        show Memory.wf flashEmpty (if _ then _ else _) = true
        split
        · rfl
        · exact h.psram z
      alm := fun z => by
        show Memory.wf almEmpty (s.stopStorage.alm.afterReset power).bytes = true
        unfold Alm.afterReset
        split <;> exact h.alm z
      cfg := fun _ => rfl
      cnt := fun _ => rfl }

@[simp] theorem State.keepFailed_kept (o : State) (hk : Kept s₀ s) : Kept s₀ (State.keepFailed o s) := by
  simp +contextual (maxDischargeDepth := 40) [State.keepFailed, hk]

@[simp] theorem State.loseBackup_kept (hk : Kept s₀ s) : Kept s₀ (State.loseBackup s) := by
  simp +contextual (maxDischargeDepth := 40) [State.loseBackup, hk]

@[simp] theorem State.lastLevel_kept (row : Nat) (hk : Kept s₀ s) : Kept s₀ (State.lastLevel s row) := by
  simp +contextual (maxDischargeDepth := 40) [State.lastLevel, hk]

@[simp] theorem State.stopSwitching_kept (hk : Kept s₀ s) : Kept s₀ (State.stopSwitching s) := by
  simp +contextual (maxDischargeDepth := 40) [State.stopSwitching, hk]

@[simp] theorem State.powerUp_kept (hk : Kept s₀ s) : Kept s₀ (State.powerUp s) := by
  simp +contextual (maxDischargeDepth := 40) [State.powerUp, hk]

@[simp] theorem State.release_kept (p : Straps) (hk : Kept s₀ s) : Kept s₀ (State.release s p) := by
  simp +contextual (maxDischargeDepth := 40) [State.release, hk]

@[simp] theorem State.clearZone_kept (seq : Nat) (hk : Kept s₀ s) : Kept s₀ (State.clearZone s seq) := by
  simp +contextual (maxDischargeDepth := 40) [State.clearZone, hk]

@[simp] theorem State.afterCommit_kept (r : AlmRec) (seq : Nat) (hk : Kept s₀ s) : Kept s₀ (State.afterCommit s r seq) := by
  simp +contextual (maxDischargeDepth := 40) [State.afterCommit, hk]

@[simp] theorem State.startSlot_kept (ch e : Nat) (hk : Kept s₀ s) : Kept s₀ (State.startSlot s ch e) := by
  simp +contextual (maxDischargeDepth := 40) [State.startSlot, hk]

@[simp] theorem State.startSlots_kept (ch : Nat) (slots : List Nat) (hk : Kept s₀ s) :
    Kept s₀ (State.startSlots s ch slots) := by
  simp +contextual (maxDischargeDepth := 40) [State.startSlots, hk]

@[simp] theorem State.disarm_kept (mask reason : Nat) (hk : Kept s₀ s) : Kept s₀ (State.disarm s mask reason).1 := by
  simp +contextual (maxDischargeDepth := 40) [State.disarm, hk]

@[simp] theorem State.sealHarrow_kept (hk : Kept s₀ s) : Kept s₀ (State.sealHarrow s).1 := by
  simp +contextual (maxDischargeDepth := 40) [State.sealHarrow, hk]

@[simp] theorem State.harrowDisarm_kept (r : Req) (hk : Kept s₀ s) : Kept s₀ (State.harrowDisarm s r) := by
  unfold State.harrowDisarm
  refine State.serve_kept _ _ _ _ _ hk fun u t hu => ?_
  (repeat' split) <;> simp_all +contextual (maxDischargeDepth := 40)

@[simp] theorem State.openWindow_kept (e : Nat) (hk : Kept s₀ s) : Kept s₀ (State.openWindow s e) := by
  simp +contextual (maxDischargeDepth := 40) [State.openWindow, hk]

@[simp] theorem State.harrowLine_kept (previous : Nat) (hk : Kept s₀ s) : Kept s₀ (State.harrowLine s previous) := by
  simp +contextual (maxDischargeDepth := 40) [State.harrowLine, hk]

@[simp] theorem State.clockLog_kept (code before after : Nat) (hk : Kept s₀ s) :
    Kept s₀ (State.clockLog s code before after) := by
  simp +contextual (maxDischargeDepth := 40) [State.clockLog, hk]

@[simp] theorem State.tryFailover_kept (hk : Kept s₀ s) : Kept s₀ (State.tryFailover s) := by
  simp +contextual (maxDischargeDepth := 40) [State.tryFailover, hk]

@[simp] theorem State.rereference_kept (src : Nat) (hk : Kept s₀ s) : Kept s₀ (State.rereference s src) := by
  simp +contextual (maxDischargeDepth := 40) [State.rereference, hk]

@[simp] theorem State.stopReceivers_kept (hk : Kept s₀ s) : Kept s₀ (State.stopReceivers s) :=
  { hk with
    csp := fun z => by simpa [State.stopReceivers] using hk.csp z
    sent := fun z => by simpa [State.stopReceivers] using hk.sent z }

@[simp] theorem State.enterRc_kept (hk : Kept s₀ s) : Kept s₀ (State.enterRc s) := by
  simp +contextual (maxDischargeDepth := 40) [State.enterRc, hk]

@[simp] theorem State.yokeLog_kept (position code : Nat) (hk : Kept s₀ s) : Kept s₀ (State.yokeLog s position code) := by
  simp +contextual (maxDischargeDepth := 40) [State.yokeLog, hk]

@[simp] theorem State.pump_kept (k : Nat) (hk : Kept s₀ s) : Kept s₀ (State.pump s k) := by
  unfold State.pump; (repeat' split) <;> simp_all +contextual (maxDischargeDepth := 40)

@[simp] theorem State.forward_kept (ticket : Option Ticket) (k : Nat) (message : List Byte) (hk : Kept s₀ s) :
    Kept s₀ (State.forward s ticket k message) := by
  simp +contextual (maxDischargeDepth := 40) [State.forward, hk]

@[simp] theorem State.dropForwards_kept (k status : Nat) (hk : Kept s₀ s) : Kept s₀ (State.dropForwards s k status) := by
  simp +contextual (maxDischargeDepth := 40) [State.dropForwards, hk]

@[simp] theorem State.fixEntry_kept (hk : Kept s₀ s) : Kept s₀ (State.fixEntry s) := by
  unfold State.fixEntry; (repeat' split) <;> simp_all +contextual (maxDischargeDepth := 40)

@[simp] theorem State.fixAlone_kept (hk : Kept s₀ s) : Kept s₀ (State.fixAlone s) := by
  unfold State.fixAlone; (split <;> simp +contextual (maxDischargeDepth := 40) [hk])

@[simp] theorem State.refuseFallow_kept (hk : Kept s₀ s) : Kept s₀ (State.refuseFallow s) := by
  unfold State.refuseFallow; (split <;> simp +contextual (maxDischargeDepth := 40) [hk])

@[simp] theorem State.startRanging_kept (k : Nat) (hk : Kept s₀ s) : Kept s₀ (State.startRanging s k) := by
  simp +contextual (maxDischargeDepth := 40) [State.startRanging, hk]

@[simp] theorem State.joinDone_kept (k : Nat) (hk : Kept s₀ s) : Kept s₀ (State.joinDone s k) := by
  simp +contextual (maxDischargeDepth := 40) [State.joinDone, hk]

@[simp] theorem State.commandDone_kept (c : Command) (hk : Kept s₀ s) : Kept s₀ (State.commandDone s c) := by
  unfold State.commandDone; (split <;> simp +contextual (maxDischargeDepth := 40) [hk])

@[simp] theorem State.settleCommands_kept (hk : Kept s₀ s) : Kept s₀ (State.settleCommands s) := by
  simp +contextual (maxDischargeDepth := 40) [State.settleCommands, hk]

@[simp] theorem State.unjoin_kept (k state : Nat) (hk : Kept s₀ s) : Kept s₀ (State.unjoin s k state) := by
  simp +contextual (maxDischargeDepth := 40) [State.unjoin, hk]

@[simp] theorem State.acknowledge_kept (k seq answer : Nat) (busy : Bool) (hk : Kept s₀ s) :
    Kept s₀ (State.acknowledge s k seq answer busy) := by
  unfold State.acknowledge; (split <;> simp +contextual (maxDischargeDepth := 40) [hk])

@[simp] theorem State.countSending_kept (c : Command) (hk : Kept s₀ s) : Kept s₀ (State.countSending s c) := by
  simp +contextual (maxDischargeDepth := 40) [State.countSending, hk]

@[simp] theorem State.sendCommand_kept (hk : Kept s₀ s) : Kept s₀ (State.sendCommand s) := by
  unfold State.sendCommand; dsimp only; (repeat' split) <;> simp_all +contextual (maxDischargeDepth := 40)

@[simp] theorem State.takeEcho_kept (k : Nat) (roundTrip : Int) (hk : Kept s₀ s) : Kept s₀ (State.takeEcho s k roundTrip) := by
  simp +contextual (maxDischargeDepth := 40) [State.takeEcho, hk]

@[simp] theorem State.readSection_kept (k : Nat) (hk : Kept s₀ s) : Kept s₀ (State.readSection s k) := by
  unfold State.readSection; dsimp only; (repeat' split) <;> simp_all +contextual (maxDischargeDepth := 40)

@[simp] theorem State.takeSection_kept (k : Nat) (reply : List Byte) (hk : Kept s₀ s) :
    Kept s₀ (State.takeSection s k reply) := by
  unfold State.takeSection; dsimp only; (repeat' split) <;> simp_all +contextual (maxDischargeDepth := 40)

@[simp] theorem State.replyArrived_kept (k : Nat) (reply : List Byte) (hk : Kept s₀ s) :
    Kept s₀ (State.replyArrived s k reply) := by
  unfold State.replyArrived; dsimp only; (repeat' split) <;> simp_all +contextual (maxDischargeDepth := 40)

@[simp] theorem State.takeFragment_kept (k offset : Nat) (fragment : List Byte) (hk : Kept s₀ s) :
    Kept s₀ (State.takeFragment s k offset fragment) := by
  simp +contextual (maxDischargeDepth := 40) [State.takeFragment, hk]

@[simp] theorem State.takeHeader_kept (k : Nat) (g : Segment) (hk : Kept s₀ s) : Kept s₀ (State.takeHeader s k g) := by
  simp +contextual (maxDischargeDepth := 40) [State.takeHeader, hk]

@[simp] theorem State.edgeHit_kept (k : Nat) (hk : Kept s₀ s) : Kept s₀ (State.edgeHit s k) := by
  simp +contextual (maxDischargeDepth := 40) [State.edgeHit, hk]

@[simp] theorem State.reject_kept (k : Nat) (hk : Kept s₀ s) : Kept s₀ (State.reject s k) := by
  simp +contextual (maxDischargeDepth := 40) [State.reject, hk]

@[simp] theorem State.mergeSegment_kept (k cls : Nat) (g : Segment) (hk : Kept s₀ s) :
    Kept s₀ (State.mergeSegment s k cls g) := by
  simp +contextual (maxDischargeDepth := 40) [State.mergeSegment, hk]

@[simp] theorem State.classify_kept (k : Nat) (e : Int) (g : Segment) (hk : Kept s₀ s) : Kept s₀ (State.classify s k e g) := by
  simp +contextual (maxDischargeDepth := 40) [State.classify, hk]

@[simp] theorem yokeCtl_kept (op : Nat) (lead : Bool) (r : Req) (run : State → Ticket → State × Answer) (hk : Kept s₀ s)
    (hr : ∀ u t, Kept s₀ u → Kept s₀ (run u t).1) : Kept s₀ (yokeCtl op lead r s run) := by
  unfold yokeCtl
  exact State.serve_kept _ _ _ _ _ hk hr

@[simp] theorem State.moveTo_kept (position : Nat) (hk : Kept s₀ s) : Kept s₀ (State.moveTo s position) := by
  simp +contextual (maxDischargeDepth := 40) [State.moveTo, hk]

@[simp] theorem State.dropOut_kept (hk : Kept s₀ s) : Kept s₀ (State.dropOut s) := by
  simp +contextual (maxDischargeDepth := 40) [State.dropOut, hk]

@[simp] theorem State.startLeaving_kept (ticket : Option Ticket) (hk : Kept s₀ s) : Kept s₀ (State.startLeaving s ticket) := by
  simp +contextual (maxDischargeDepth := 40) [State.startLeaving, hk]

@[simp] theorem State.executedFrame_kept (f : Frame) (answer : Nat) (hk : Kept s₀ s) :
    Kept s₀ (State.executedFrame s f answer) := by
  simp +contextual (maxDischargeDepth := 40) [State.executedFrame, hk]

@[simp] theorem State.repeatFrame_kept (kind : CmdKind) (f : Frame) (payload : List Byte) (hk : Kept s₀ s) : Kept s₀ (State.repeatFrame s kind f payload) := by
  simp +contextual (maxDischargeDepth := 40) [State.repeatFrame, hk]

@[simp] theorem State.frame_kept (kind : CmdKind) (f : Frame) (payload : List Byte) (run : State → State × Nat) (hk : Kept s₀ s) (hr : ∀ u, Kept s₀ u → Kept s₀ (run u).1) : Kept s₀ (State.frame s kind f payload run) := by
  have h := State.repeatFrame_kept kind f payload hk
  unfold State.frame
  dsimp only
  split
  · exact h
  · split
    · simp +contextual (maxDischargeDepth := 40) [h]
    · exact State.executedFrame_kept _ _ (hr _ h)

@[simp] theorem State.readBody_kept (hk : Kept s₀ s) : Kept s₀ (State.readBody s).1 := by
  have h := State.access_kept .yoke [s.bodyPiece] hk
  unfold State.readBody
  dsimp only
  split <;> simp_all +contextual (maxDischargeDepth := 40)

@[simp] theorem State.segmentBytes_kept (echo : Bool) (hk : Kept s₀ s) : Kept s₀ (State.segmentBytes s echo).1 := by
  have h := State.readBody_kept hk
  unfold State.segmentBytes
  dsimp only
  (repeat' split) <;> simp_all +contextual (maxDischargeDepth := 40)

@[simp] theorem State.putWords_kept (words : Tab) (keys : List Nat) (hk : Kept s₀ s) :
    Kept s₀ (State.putWords s words keys) := by
  simp +contextual (maxDischargeDepth := 40) [State.putWords, hk]

@[simp] theorem State.measureFurrows_kept (hk : Kept s₀ s) : Kept s₀ (State.measureFurrows s) := by
  simp +contextual (maxDischargeDepth := 40) [State.measureFurrows, hk]

@[simp] theorem State.takeLayout_kept (hk : Kept s₀ s) : Kept s₀ (State.takeLayout s) := by
  simp +contextual (maxDischargeDepth := 40) [State.takeLayout, hk]

@[simp] theorem State.applyMap_kept (o : State) (hk : Kept s₀ s) : Kept s₀ (State.applyMap o s) := by
  simp +contextual (maxDischargeDepth := 40) [State.applyMap, hk]

@[simp] theorem State.applyPeriod_kept (o : State) (hk : Kept s₀ s) : Kept s₀ (State.applyPeriod o s) := by
  simp +contextual (maxDischargeDepth := 40) [State.applyPeriod, hk]

@[simp] theorem State.applyInputs_kept (o : State) (hk : Kept s₀ s) : Kept s₀ (State.applyInputs o s) :=
  { hk with
    csp := fun z => by simpa [State.applyInputs] using hk.csp z
    sent := fun z => by simpa [State.applyInputs] using hk.sent z
    edge := fun z => by simpa [State.applyInputs] using hk.edge z }

@[simp] theorem State.recarve_kept (hk : Kept s₀ s) : Kept s₀ (State.recarve s) := by
  unfold State.recarve; (repeat' split) <;> simp_all +contextual (maxDischargeDepth := 40)

@[simp] theorem State.applyUsb_kept (o : State) (hk : Kept s₀ s) : Kept s₀ (State.applyUsb o s) := by
  simp +contextual (maxDischargeDepth := 40) [State.applyUsb, hk]

@[simp] theorem State.applyThresher_kept (o : State) (hk : Kept s₀ s) : Kept s₀ (State.applyThresher o s) := by
  simp +contextual (maxDischargeDepth := 40) [State.applyThresher, hk]

@[simp] theorem State.applyYoke_kept (o : State) (hk : Kept s₀ s) : Kept s₀ (State.applyYoke o s) := by
  simp +contextual (maxDischargeDepth := 40) [State.applyYoke, hk]

@[simp] theorem State.copyAon_kept (hk : Kept s₀ s) : Kept s₀ (State.copyAon s) := by
  simp +contextual (maxDischargeDepth := 40) [State.copyAon, hk]

@[simp] theorem State.loadRtc_kept (hk : Kept s₀ s) : Kept s₀ (State.loadRtc s) := by
  simp +contextual (maxDischargeDepth := 40) [State.loadRtc, hk]

@[simp] theorem State.applyPower_kept (o : State) (v1Word : Option Nat) (hk : Kept s₀ s) :
    Kept s₀ (State.applyPower o s v1Word) := by
  unfold State.applyPower; (repeat' split) <;> simp_all +contextual (maxDischargeDepth := 40)

@[simp] theorem State.applyClock_kept (o : State) (hk : Kept s₀ s) : Kept s₀ (State.applyClock o s) := by
  simp +contextual (maxDischargeDepth := 40) [State.applyClock, hk]

@[simp] theorem State.applyUnits_kept (o : State) (v1Word : Option Nat) (hk : Kept s₀ s) :
    Kept s₀ (State.applyUnits o s v1Word) := by
  simp +contextual (maxDischargeDepth := 40) [State.applyUnits, hk]

@[simp] theorem State.applySet_kept (words : Tab) (keys : List Nat) (epoch : Nat) (hk : Kept s₀ s) :
    Kept s₀ (State.applySet s words keys epoch) := by
  unfold State.applySet
  simp +contextual (maxDischargeDepth := 40) [hk]

@[simp] theorem State.applyWord_kept (key value : Nat) (hk : Kept s₀ s) : Kept s₀ (State.applyWord s key value) := by
  unfold State.applyWord
  simp +contextual (maxDischargeDepth := 40) [hk]

@[simp] theorem State.saveSlots_kept (x : SlotState) (hk : Kept s₀ s) : Kept s₀ (State.saveSlots s x) := by
  simp +contextual (maxDischargeDepth := 40) [State.saveSlots, hk]

@[simp] theorem State.imageLog_kept (slot code part : Nat) (hk : Kept s₀ s) : Kept s₀ (State.imageLog s slot code part) := by
  simp +contextual (maxDischargeDepth := 40) [State.imageLog, hk]

@[simp] theorem State.tryImages_kept (l : List Nat) (hk : Kept s₀ s) : Kept s₀ (State.tryImages s l).1 := by
  induction l generalizing s with
  | nil => exact hk
  | cons a t ih =>
    unfold State.tryImages
    (repeat' split) <;> simp +contextual (maxDischargeDepth := 40) [hk, ih]

@[simp] theorem State.resetRecord_kept (hk : Kept s₀ s) : Kept s₀ (State.resetRecord s) := by
  simp +contextual (maxDischargeDepth := 40) [State.resetRecord, hk]

@[simp] theorem State.applyReset_kept (hk : Kept s₀ s) : Kept s₀ (State.applyReset s) := by
  simp +contextual (maxDischargeDepth := 40) [State.applyReset, hk]

@[simp] theorem State.applyAutostart_kept (hk : Kept s₀ s) : Kept s₀ (State.applyAutostart s) := by
  unfold State.applyAutostart; dsimp only; (repeat' split) <;> simp_all +contextual (maxDischargeDepth := 40)

@[simp] theorem State.reportBackup_kept (hk : Kept s₀ s) : Kept s₀ (State.reportBackup s) := by
  simp +contextual (maxDischargeDepth := 40) [State.reportBackup, hk]

@[simp] theorem State.allocatePool_kept (hk : Kept s₀ s) : Kept s₀ (State.allocatePool s) := by
  unfold State.allocatePool
  split
  · exact hk
  · refine State.each_kept _ _ hk fun u x hu => ?_
    dsimp only
    split
    · exact hu
    · split
      · simp [hu]
      · exact hu

@[simp] theorem State.takeFraming_kept (hk : Kept s₀ s) : Kept s₀ (State.takeFraming s) := by
  simp +contextual (maxDischargeDepth := 40) [State.takeFraming, hk]

@[simp] theorem State.startWork_kept (hk : Kept s₀ s) : Kept s₀ (State.startWork s) := by
  simp +contextual (maxDischargeDepth := 40) [State.startWork, hk]

@[simp] theorem State.openMailboxes_kept (hk : Kept s₀ s) : Kept s₀ (State.openMailboxes s) := by
  simp +contextual (maxDischargeDepth := 40) [State.openMailboxes, hk]

@[simp] theorem State.finishSwap_kept (hk : Kept s₀ s) : Kept s₀ (State.finishSwap s) := by
  unfold State.finishSwap; (split <;> simp +contextual (maxDischargeDepth := 40) [hk])

@[simp] theorem State.finishTrial_kept (hk : Kept s₀ s) : Kept s₀ (State.finishTrial s) := by
  simp +contextual (maxDischargeDepth := 40) [State.finishTrial, hk]

@[simp] theorem State.revertSwap_kept (hk : Kept s₀ s) : Kept s₀ (State.revertSwap s) := by
  simp +contextual (maxDischargeDepth := 40) [State.revertSwap, hk]

@[simp] theorem State.deepStart_kept (hk : Kept s₀ s) : Kept s₀ (State.deepStart s) := by
  have h : Kept s₀ (s.resetDevice false s.boot.cause) := State.resetDevice_kept _ _ hk
  exact { h with positions := fun z => by simpa [State.deepStart] using hk.positions z }

@[simp] theorem State.wakeUp_kept (src : Nat) (hk : Kept s₀ s) : Kept s₀ (State.wakeUp s src) := by
  have h : ∀ (u : State) (c : Clk), Kept s₀ u → Kept s₀ { u with clk := c } := fun u c hu => { hu with }
  unfold State.wakeUp
  split
  · exact hk
  · dsimp only
    split
    · exact State.deepStart_kept (State.modYoke_kept _ (h _ _ (State.modPw_kept _ hk)) (by simp))
    · exact State.modBoot_kept _ (State.modYoke_kept _ (h _ _ (State.modPw_kept _ hk)) (by simp)) (by simp)

@[simp] theorem State.wakeSignal_kept (hk : Kept s₀ s) : Kept s₀ (State.wakeSignal s) := by
  unfold State.wakeSignal; (repeat' split) <;> simp_all +contextual (maxDischargeDepth := 40)

@[simp] theorem State.wakeBy_kept (src : Nat) (hk : Kept s₀ s) : Kept s₀ (State.wakeBy s src) := by
  simp +contextual (maxDischargeDepth := 40) [State.wakeBy, hk]

@[simp] theorem State.wakePending_kept (b : Nat) (hk : Kept s₀ s) : Kept s₀ (State.wakePending s b) := by
  unfold State.wakePending; (split <;> simp +contextual (maxDischargeDepth := 40) [hk])

@[simp] theorem State.wakeAgreed_kept (b : Nat) (hk : Kept s₀ s) : Kept s₀ (State.wakeAgreed s b) := by
  unfold State.wakeAgreed; (split <;> simp +contextual (maxDischargeDepth := 40) [hk])

@[simp] theorem State.wakeSource_kept (b : Nat) (hk : Kept s₀ s) : Kept s₀ (State.wakeSource s b) := by
  unfold State.wakeSource; dsimp only; (repeat' split) <;> simp_all +contextual (maxDischargeDepth := 40)

@[simp] theorem State.recoverChain_kept (k : Nat) (hk : Kept s₀ s) : Kept s₀ (State.recoverChain s k) := by
  simp +contextual (maxDischargeDepth := 40) [State.recoverChain, hk]

@[simp] theorem State.wipeUnretained_kept (hk : Kept s₀ s) : Kept s₀ (State.wipeUnretained s) := by
  simp +contextual (maxDischargeDepth := 40) [State.wipeUnretained, hk]

@[simp] theorem State.sleepMem_kept (deep : Bool) (hk : Kept s₀ s) : Kept s₀ (State.sleepMem s deep) := by
  have h := State.modMem_kept (fun m => { m with cursors := [] }) hk (fun _ z => z) (fun _ z => z) (fun _ z => z) (fun _ z => z)
  unfold State.sleepMem
  dsimp only
  split
  · exact State.modMem_kept _ h (fun _ z => z) (fun _ _ => rfl) (fun _ z => z) (fun _ z => z)
  · exact State.wipeUnretained_kept h

@[simp] theorem State.enterFallow_kept (deep : Bool) (sleepMs : Nat) (agreed : Bool) (latched : Option Nat) (hk : Kept s₀ s) : Kept s₀ (State.enterFallow s deep sleepMs agreed latched) := by
  have idle : ∀ u, Kept s₀ u → Kept s₀ { u with sent := u.sent.map SentChan.idle, edge := u.edge.map EdgeIn.idle } := fun u h =>
    { h with sent := fun z => by simpa using h.sent z, edge := fun z => by simpa using h.edge z }
  have wake : ∀ u, Kept s₀ u → Kept s₀ (match latched with | some b => u.wakeBy b | none => u) := fun u h => by
    split
    · exact State.wakeBy_kept _ h
    · exact h
  have objs : ∀ u, Kept s₀ u → Kept s₀ (u.each (List.range 4) State.clearObjects) := fun u h =>
    State.each_kept _ _ h fun v k hv => State.clearObjects_kept _ hv
  have ports : ∀ u, Kept s₀ u → Kept s₀ (u.each (List.range 8) State.recoverChain) := fun u h =>
    State.each_kept _ _ h fun v k hv => State.recoverChain_kept _ hv
  unfold State.enterFallow
  exact wake _ (State.sleepMem_kept _ (idle _ (State.modSheaf_kept _ (State.modDrill_kept _ (State.modYoke_kept _ (State.modPw_kept _
    (State.bump_kept _ _ _ _ (State.completeAll_kept _ (State.dropUsb_kept (State.parkPorts_kept (ports _ (objs _
      (State.endJobs_kept _ (State.endEpisodes_kept _ hk))))))))) (by simp)) (fun _ _ => List.length_replicate)))))

@[simp] theorem State.wakeVerb_kept (r : Req) (hk : Kept s₀ s) : Kept s₀ (State.wakeVerb s r) := by
  unfold State.wakeVerb
  refine State.serve_kept _ _ _ _ _ hk fun u t hu => ?_
  (repeat' split) <;> simp_all +contextual (maxDischargeDepth := 40)

@[simp] theorem State.moveBank_kept (k : Nat) (st : BankState) (hk : Kept s₀ s) : Kept s₀ (State.moveBank s k st) := by
  simp +contextual (maxDischargeDepth := 40) [State.moveBank, hk]

@[simp] theorem State.powerVerb_kept (r : Req) (hk : Kept s₀ s) : Kept s₀ (State.powerVerb s r) := by
  unfold State.powerVerb
  refine State.serve_kept _ _ _ _ _ hk fun u t hu => ?_
  (repeat' split) <;> simp_all +contextual (maxDischargeDepth := 40)

@[simp] theorem State.detachLine_kept (hk : Kept s₀ s) : Kept s₀ (State.detachLine s) := by
  simp +contextual (maxDischargeDepth := 40) [State.detachLine, hk]

@[simp] theorem State.cutUnguarded_kept (hk : Kept s₀ s) : Kept s₀ (State.cutUnguarded s) := by
  simp +contextual (maxDischargeDepth := 40) [State.cutUnguarded, hk]

@[simp] theorem State.floatBank_kept (b : Nat) (hk : Kept s₀ s) : Kept s₀ (State.floatBank s b) := by
  unfold State.floatBank
  split
  · exact State.each_kept _ _ hk fun u x hu => State.modPort_kept _ _ hu
  · exact { hk with sent := fun z => by simpa using hk.sent z, edge := fun z => by simpa using hk.edge z }

@[simp] theorem State.startBackup_kept (trigger : Nat) (hk : Kept s₀ s) : Kept s₀ (State.startBackup s trigger) := by
  simp +contextual (maxDischargeDepth := 40) [State.startBackup, hk]

@[simp] theorem State.setFence_kept (u : UnitOf) (f : Option Fence) (hk : Kept s₀ s) : Kept s₀ (State.setFence s u f) := by
  unfold State.setFence; (split <;> simp +contextual (maxDischargeDepth := 40) [hk])

@[simp] theorem State.endRequests_kept (ts : List Ticket) (status : Nat) (hk : Kept s₀ s) :
    Kept s₀ (State.endRequests s ts status).1 := by
  simp +contextual (maxDischargeDepth := 40) [State.endRequests, hk]

@[simp] theorem State.endStaging_kept (status : Nat) (hk : Kept s₀ s) : Kept s₀ (State.endStaging s status).1 := by
  unfold State.endStaging; (split <;> simp +contextual (maxDischargeDepth := 40) [hk])

@[simp] theorem State.resetCtx_kept (n : Nat) (hk : Kept s₀ s) : Kept s₀ (State.resetCtx s n).1 := by
  simp +contextual (maxDischargeDepth := 40) [State.resetCtx, hk]

@[simp] theorem State.fenceStorage_kept (hk : Kept s₀ s) : Kept s₀ (State.fenceStorage s).1 := by
  unfold State.fenceStorage; dsimp only; (repeat' split) <;> simp_all +contextual (maxDischargeDepth := 40)

@[simp] theorem State.fenceUnit_kept (u : UnitOf) (hk : Kept s₀ s) : Kept s₀ (State.fenceUnit s u).1 := by
  unfold State.fenceUnit; (split <;> simp +contextual (maxDischargeDepth := 40) [hk])

@[simp] theorem State.resetSent_kept (c : Nat) (hk : Kept s₀ s) : Kept s₀ (State.resetSent s c) := by
  simp +contextual (maxDischargeDepth := 40) [State.resetSent, hk]

@[simp] theorem State.resetEdge_kept (b : Nat) (hk : Kept s₀ s) : Kept s₀ (State.resetEdge s b) := by
  simp +contextual (maxDischargeDepth := 40) [State.resetEdge, hk]

@[simp] theorem State.portLine_kept (k : Nat) (hk : Kept s₀ s) : Kept s₀ (State.portLine s k) := by
  unfold State.portLine; (repeat' split) <;> simp_all +contextual (maxDischargeDepth := 40)

@[simp] theorem State.inputLine_kept (u : UnitOf) (clear : State → State) (hk :
    Kept s₀ s) (hc : ∀ v, Kept s₀ v → Kept s₀ (clear v)) :
    Kept s₀ (State.inputLine s u clear) := by
  unfold State.inputLine
  split
  · exact hk
  · split
    · exact hc _ (State.setFence_kept _ _ hk)
    · exact State.setFence_kept _ _ hk
    · exact hk

@[simp] theorem State.fenceLine_kept (hk : Kept s₀ s) : Kept s₀ (State.fenceLine s) := by
  unfold State.fenceLine
  refine State.each_kept _ _ (State.each_kept _ _ (State.each_kept _ _ hk fun u x hu => ?_) fun u x hu => ?_) fun u x hu => ?_
  · simp [hu]
  · exact State.inputLine_kept _ _ hu fun v hv => by simp [hv]
  · exact State.inputLine_kept _ _ hu fun v hv => by simp [hv]

@[simp] theorem State.restoreUnit_kept (u : UnitOf) (hk : Kept s₀ s) : Kept s₀ (State.restoreUnit s u) := by
  unfold State.restoreUnit; (split <;> simp +contextual (maxDischargeDepth := 40) [hk])

@[simp] theorem State.stageOp_kept (r : Req) (t : Ticket) (hk : Kept s₀ s) : Kept s₀ (State.stageOp s r t).1 := by
  unfold State.stageOp; (split <;> simp +contextual (maxDischargeDepth := 40) [hk])

@[simp] theorem State.stageVerb_kept (r : Req) (hk : Kept s₀ s) : Kept s₀ (State.stageVerb s r) := by
  unfold State.stageVerb
  refine State.serve_kept _ _ _ _ _ hk fun u t hu => ?_
  (repeat' split) <;> simp_all +contextual (maxDischargeDepth := 40)

@[simp] theorem State.settleAbandon_kept (ch : Nat) (hk : Kept s₀ s) : Kept s₀ (State.settleAbandon s ch) := by
  unfold State.settleAbandon; (split <;> simp +contextual (maxDischargeDepth := 40) [hk])

@[simp] theorem State.eraseImage_kept (slot length : Nat) (hk : Kept s₀ s) : Kept s₀ (State.eraseImage s slot length) := by
  simp +contextual (maxDischargeDepth := 40) [State.eraseImage, hk]

@[simp] theorem State.programChunk_kept (slot off : Nat) (data : List Byte) (hk : Kept s₀ s) :
    Kept s₀ (State.programChunk s slot off data) := by
  simp +contextual (maxDischargeDepth := 40) [State.programChunk, hk]

@[simp] theorem State.finishStaging_kept (t : Ticket) (g : Staging) (hk : Kept s₀ s) : Kept s₀ (State.finishStaging s t g) := by
  simp +contextual (maxDischargeDepth := 40) [State.finishStaging, hk]

@[simp] theorem State.failChunk_kept (t : Ticket) (off : Nat) (rest : List (Ticket × Nat × List Byte)) (g : Staging)
    (hk : Kept s₀ s) : Kept s₀ (State.failChunk s t off rest g) := by
  simp +contextual (maxDischargeDepth := 40) [State.failChunk, hk]

@[simp] theorem State.romSwap_kept (hk : Kept s₀ s) : Kept s₀ (State.romSwap s) := by
  simp +contextual (maxDischargeDepth := 40) [State.romSwap, hk]

@[simp] theorem State.holdFrame_kept (ch : Channel) (b : List Byte) (hk : Kept s₀ s) : Kept s₀ (State.holdFrame s ch b) := by
  unfold State.holdFrame; dsimp only; (repeat' split) <;> simp_all +contextual (maxDischargeDepth := 40)

@[simp] theorem State.holdReceived_kept (ch : Channel) (hk : Kept s₀ s) : Kept s₀ (State.holdReceived s ch) := by
  simp +contextual (maxDischargeDepth := 40) [State.holdReceived, hk]

@[simp] theorem State.parkJob_kept (n : Nat) (hk : Kept s₀ s) : Kept s₀ (State.parkJob s n) := by
  unfold State.parkJob; dsimp only; (repeat' split) <;> simp_all +contextual (maxDischargeDepth := 40)

@[simp] theorem State.markRequests_kept (own : Ticket) (hk : Kept s₀ s) : Kept s₀ (State.markRequests s own) := by
  simp +contextual (maxDischargeDepth := 40) [State.markRequests, hk]

@[simp] theorem State.swapAtLine_kept (hk : Kept s₀ s) : Kept s₀ (State.swapAtLine s) := by
  unfold State.swapAtLine; (split <;> simp +contextual (maxDischargeDepth := 40) [hk])

@[simp] theorem State.endPeriod_kept (hk : Kept s₀ s) : Kept s₀ (State.endPeriod s).1 := by
  simp +contextual (maxDischargeDepth := 40) [State.endPeriod, hk]

@[simp] theorem State.beginLine_kept (e : LineEnd) (p : Nat) (hk : Kept s₀ s) : Kept s₀ (State.beginLine s e p) := by
  simp +contextual (maxDischargeDepth := 40) [State.beginLine, hk]

@[simp] theorem State.recheckCommit_kept (hk : Kept s₀ s) : Kept s₀ (State.recheckCommit s) := by
  unfold State.recheckCommit; (repeat' split) <;> simp_all +contextual (maxDischargeDepth := 40)

@[simp] theorem State.applyGrant_kept (hk : Kept s₀ s) : Kept s₀ (State.applyGrant s) := by
  unfold State.applyGrant; (split <;> simp +contextual (maxDischargeDepth := 40) [hk])

@[simp] theorem State.noteCompat_kept (ch : Nat) (hk : Kept s₀ s) : Kept s₀ (State.noteCompat s ch) := by
  simp +contextual (maxDischargeDepth := 40) [State.noteCompat, hk]

@[simp] theorem State.saveSet_kept (c : PendingCommit) (hk : Kept s₀ s) : Kept s₀ (State.saveSet s c) := by
  unfold State.saveSet; (repeat' split) <;> simp_all +contextual (maxDischargeDepth := 40)

@[simp] theorem State.applyCommit_kept (hk : Kept s₀ s) : Kept s₀ (State.applyCommit s) := by
  unfold State.applyCommit; (split <;> simp +contextual (maxDischargeDepth := 40) [hk])

@[simp] theorem State.startDrill_kept (hk : Kept s₀ s) : Kept s₀ (State.startDrill s) := by
  unfold State.startDrill; dsimp only; (repeat' split) <;> simp_all +contextual (maxDischargeDepth := 40)

@[simp] theorem State.stopDrill_kept (hk : Kept s₀ s) : Kept s₀ (State.stopDrill s) := by
  simp +contextual (maxDischargeDepth := 40) [State.stopDrill, hk]

@[simp] theorem State.applyRun_kept (hk : Kept s₀ s) : Kept s₀ (State.applyRun s) := by
  unfold State.applyRun; (split <;> simp +contextual (maxDischargeDepth := 40) [hk])

@[simp] theorem State.applyLegacyWrite_kept (w : LegacyWrite) (hk : Kept s₀ s) : Kept s₀ (State.applyLegacyWrite s w) := by
  simp +contextual (maxDischargeDepth := 40) [State.applyLegacyWrite, hk]

@[simp] theorem State.applyLegacy_kept (hk : Kept s₀ s) : Kept s₀ (State.applyLegacy s) := by
  simp +contextual (maxDischargeDepth := 40) [State.applyLegacy, hk]

@[simp] theorem State.resumeDrill_kept (hk : Kept s₀ s) : Kept s₀ (State.resumeDrill s) := by
  simp +contextual (maxDischargeDepth := 40) [State.resumeDrill, hk]

@[simp] theorem State.beginRecovery_kept (hk : Kept s₀ s) : Kept s₀ (State.beginRecovery s) := by
  have h : Kept s₀ s.fenceLine := State.fenceLine_kept hk
  unfold State.beginRecovery
  dsimp only
  split
  · exact h
  · refine State.each_kept _ _ h fun u x hu => ?_
    split
    · split
      · exact State.startRecovery_kept _ hu
      · exact hu
    · exact hu

@[simp] theorem State.reportMissed_kept (missed : List (Nat × Nat)) (hk : Kept s₀ s) :
    Kept s₀ (State.reportMissed s missed) := by
  simp +contextual (maxDischargeDepth := 40) [State.reportMissed, hk]

@[simp] theorem State.reportUnfit_kept (hk : Kept s₀ s) : Kept s₀ (State.reportUnfit s) := by
  simp +contextual (maxDischargeDepth := 40) [State.reportUnfit, hk]

@[simp] theorem State.beginEntries_kept (hk : Kept s₀ s) : Kept s₀ (State.beginEntries s) := by
  unfold State.beginEntries
  dsimp only
  refine State.ite_kept _ _ (State.reportMissed_kept _ (State.modSheaf_kept _ ?_)) fun u hu => State.reportUnfit_kept hu
  exact { hk with entries := fun z => by simpa using hk.entries z }

@[simp] theorem State.countCarried_kept (hk : Kept s₀ s) : Kept s₀ (State.countCarried s) := by
  simp +contextual (maxDischargeDepth := 40) [State.countCarried, hk]

@[simp] theorem State.fallowLine_kept (hk : Kept s₀ s) : Kept s₀ (State.fallowLine s) := by
  unfold State.fallowLine; (split <;> simp +contextual (maxDischargeDepth := 40) [hk])

@[simp] theorem State.idle_kept (hk : Kept s₀ s) : Kept s₀ (State.idle s) := by
  simp +contextual (maxDischargeDepth := 40) [State.idle, hk]

end Sys2Proof.Machine
end

