-- ==== Sys2Proof/Laws/KeptExec.lean ====
section
/-! SUPPORT. What every command keeps: one lemma for each meaning. -/

namespace Sys2Proof.Machine

set_option Elab.async false

variable {s₀ s : State}

/-- Every next state of an outcome keeps what Kept says of s. -/
def Outcome.Kept (s : State) (o : Host.Outcome State Fault Refusal) : Prop := ∀ t, o = .next t → Sys2Proof.Machine.Kept s t

theorem Outcome.keptNext {s t : State} (h : Sys2Proof.Machine.Kept s t) :
    Outcome.Kept s (.next t) := fun _ e => by cases e; exact h

@[simp] theorem Outcome.kept_next (s t : State) : Outcome.Kept s (.next t) ↔ Sys2Proof.Machine.Kept s t :=
  ⟨fun h => h t rfl, Outcome.keptNext⟩

@[simp] theorem Outcome.kept_ite (c : Prop) [Decidable c] (a b : Host.Outcome State Fault Refusal) (x : Outcome.Kept s a)
    (y : Outcome.Kept s b) : Outcome.Kept s (if c then a else b) := by split <;> assumption

theorem execBadFrame_kept (ch : Channel) (magic version : Byte) : Outcome.Kept s (execBadFrame ch magic version s) := by
  simp +contextual (maxDischargeDepth := 40) [execBadFrame]

theorem execNoSuchVerb_kept (verb : Byte) (r : Req) : Outcome.Kept s (execNoSuchVerb verb r s) := by
  simp +contextual (maxDischargeDepth := 40) [execNoSuchVerb]

theorem execDescribe_kept (r : Req) : Outcome.Kept s (execDescribe r s) := by
  simp +contextual (maxDischargeDepth := 40) [execDescribe]

theorem execGet_kept (r : Req) : Outcome.Kept s (execGet r s) := by
  simp +contextual (maxDischargeDepth := 40) [execGet]

theorem execStage_kept (r : Req) : Outcome.Kept s (execStage r s) := by
  simp +contextual (maxDischargeDepth := 40) [execStage]

theorem execCommit_kept (r : Req) (checkTicks : Nat) (saveOk : Bool) : Outcome.Kept s (execCommit r checkTicks saveOk s) := by
  unfold execCommit; exact Outcome.keptNext (State.serve_kept _ _ _ _ _ (Kept.refl s) fun u t hu => by (repeat' split) <;> simp_all +contextual (maxDischargeDepth := 40))

theorem execDiscard_kept (r : Req) : Outcome.Kept s (execDiscard r s) := by
  simp +contextual (maxDischargeDepth := 40) [execDiscard]

theorem execShadowTimeout_kept : Outcome.Kept s (execShadowTimeout s) := by
  unfold execShadowTimeout; (split <;> simp +contextual (maxDischargeDepth := 40))

theorem execStart_kept (r : Req) : Outcome.Kept s (execStart r s) := by
  unfold execStart; exact Outcome.keptNext (State.serve_kept _ _ _ _ _ (Kept.refl s) fun u t hu => by (repeat' split) <;> simp_all +contextual (maxDischargeDepth := 40))

theorem execStop_kept (r : Req) : Outcome.Kept s (execStop r s) := by
  simp +contextual (maxDischargeDepth := 40) [execStop]

theorem execSnap_kept (r : Req) (reused : Bool) : Outcome.Kept s (execSnap r reused s) := by
  unfold execSnap
  refine Outcome.keptNext (State.serve_kept _ _ _ _ _ (Kept.refl s) fun u t hu => ?_)
  split
  · exact hu
  · split
    · exact hu
    · split <;> rename_i e <;> exact Kept.pair (State.firmware_kept _ _ _ hu) e

theorem execEvents_kept (r : Req) : Outcome.Kept s (execEvents r s) := by
  simp +contextual (maxDischargeDepth := 40) [execEvents]

theorem execEntryLaunch_kept (furrow : Fin 9) (entry : Fin 32) : Outcome.Kept s (execEntryLaunch furrow entry s) := by
  unfold execEntryLaunch; dsimp only; (repeat' split) <;> simp_all +contextual (maxDischargeDepth := 40)

theorem execEntryComplete_kept (furrow : Fin 9) (entry : Fin 32) (sdi : List Bool) (t : Stamp) :
    Outcome.Kept s (execEntryComplete furrow entry sdi t s) := by
  unfold execEntryComplete; dsimp only; (repeat' split) <;> simp_all +contextual (maxDischargeDepth := 40)

theorem execStartBitTimeout_kept (port : Fin 8) (entry : Fin 32) : Outcome.Kept s (execStartBitTimeout port entry s) := by
  simp +contextual (maxDischargeDepth := 40) [execStartBitTimeout]

theorem execDeadlineAbort_kept (furrow : Fin 9) (entry : Fin 32) (clocked : Nat) (wireDone : Bool) :
    Outcome.Kept s (execDeadlineAbort furrow entry clocked wireDone s) := by
  simp +contextual (maxDischargeDepth := 40) [execDeadlineAbort]

theorem execRecoveryFrameEnd_kept (port : Fin 8) : Outcome.Kept s (execRecoveryFrameEnd port s) := by
  unfold execRecoveryFrameEnd; dsimp only; (repeat' split) <;> simp_all +contextual (maxDischargeDepth := 40)

theorem execTxPrefetchComplete_kept (port : Fin 8) (entry : Fin 32) : Outcome.Kept s (execTxPrefetchComplete port entry s) := by
  unfold execTxPrefetchComplete
  dsimp only
  split
  · split <;> rename_i e <;> refine Outcome.keptNext ?_ <;> have h : Kept s _ := Kept.pair (State.access_kept _ _ (Kept.refl s)) e
    · exact State.modEntry_kept _ _ h
    · exact h
    · exact State.drillFault_kept h
  · exact Outcome.keptNext (Kept.refl s)

theorem execDrillHardFault_kept (assembler : Bool) : Outcome.Kept s (execDrillHardFault assembler s) := by
  simp +contextual (maxDischargeDepth := 40) [execDrillHardFault]

theorem execAssemblyStart_kept : Outcome.Kept s (execAssemblyStart s) := by
  have hc : Kept s ((s.at (s.tm.capture + s.limit)).each (List.range (entryCount s.reg 8)) State.endCollect) :=
    State.each_kept _ _ (State.at_kept _ (Kept.refl s)) fun u k hu => State.endCollect_kept _ hu
  unfold execAssemblyStart
  dsimp only
  split
  · split <;> rename_i e <;> have h := Kept.pair (State.store_kept _ _ hc) e
    · exact Outcome.keptNext h
    · exact Outcome.keptNext (State.drillFault_kept h)
    · split <;> rename_i e <;> have g := Kept.pair (State.access_kept _ _ h) e
      · exact Outcome.keptNext g
      · exact Outcome.keptNext (State.assemblerFault_kept g)
      · exact Outcome.keptNext (State.assemble_kept g)
  · exact Outcome.keptNext (Kept.refl s)

theorem execAssemblyComplete_kept : Outcome.Kept s (execAssemblyComplete s) := by
  unfold execAssemblyComplete
  split
  · split
    · exact Outcome.keptNext (Kept.refl s)
    · dsimp only
      split <;> rename_i e <;> have h : Kept s _ := Kept.pair (State.store_kept _ _ (State.at_kept _ (Kept.refl s))) e
      · exact Outcome.keptNext (State.modSheaf_kept _ h)
      · exact Outcome.keptNext h
      · exact Outcome.keptNext (State.assemblerFault_kept h)
  · exact Outcome.keptNext (Kept.refl s)

theorem execSlaveTransactionStart_kept (port : Fin 8) : Outcome.Kept s (execSlaveTransactionStart port s) := by
  simp +contextual (maxDischargeDepth := 40) [execSlaveTransactionStart]

theorem execSlaveTransactionEnd_kept (port : Fin 8) (units : Nat) (starved : Bool) :
    Outcome.Kept s (execSlaveTransactionEnd port units starved s) := by
  unfold execSlaveTransactionEnd; dsimp only; (repeat' split) <;> simp_all +contextual (maxDischargeDepth := 40)

theorem execSentFrameEnd_kept (c : Fin 24) (pulses : List Nat) (nextPulse : Nat) (syncEnd t : Stamp) :
    Outcome.Kept s (execSentFrameEnd c pulses nextPulse syncEnd t s) := by
  unfold execSentFrameEnd; dsimp only; (repeat' split) <;> simp_all +contextual (maxDischargeDepth := 40)

theorem execSentAbsentTimeout_kept (c : Fin 24) : Outcome.Kept s (execSentAbsentTimeout c s) := by
  simp +contextual (maxDischargeDepth := 40) [execSentAbsentTimeout]

theorem execEdgeSeen_kept (i : Fin 32) (level : Bool) (t : Stamp) : Outcome.Kept s (execEdgeSeen i level t s) := by
  simp +contextual (maxDischargeDepth := 40) [execEdgeSeen]

theorem execEdgeAccept_kept (i : Fin 32) : Outcome.Kept s (execEdgeAccept i s) := by
  unfold execEdgeAccept; dsimp only; (repeat' split) <;> simp_all +contextual (maxDischargeDepth := 40)

theorem execTwtRequestWrite_kept (target : Fin 2) (data : List Byte) (pec : Byte) : Outcome.Kept s (execTwtRequestWrite target data pec s) := by
  simp +contextual (maxDischargeDepth := 40) [execTwtRequestWrite]

theorem execTwtReplyRead_kept (target : Fin 2) (clocked : Nat) (pecClocked : Bool) : Outcome.Kept s (execTwtReplyRead target clocked pecClocked s) := by
  simp +contextual (maxDischargeDepth := 40) [execTwtReplyRead]

theorem execTwtRegisterRead_kept (target : Fin 2) (pointer : Option Byte) (count : Nat) : Outcome.Kept s (execTwtRegisterRead target pointer count s) := by
  simp +contextual (maxDischargeDepth := 40) [execTwtRegisterRead]

theorem execTwtRegisterWrite_kept (target : Fin 2) (pointer : Byte) (data : TwtData) : Outcome.Kept s (execTwtRegisterWrite target pointer data s) := by
  simp +contextual (maxDischargeDepth := 40) [execTwtRegisterWrite]

theorem execVirtualTargetRead_kept (address : BitVec 7) (pointer : Option Byte) (count : Nat) : Outcome.Kept s (execVirtualTargetRead address pointer count s) := by
  unfold execVirtualTargetRead; (repeat' split) <;> simp_all +contextual (maxDischargeDepth := 40)

theorem execTwtBusTimeout_kept (target : Fin 2) : Outcome.Kept s (execTwtBusTimeout target s) := by
  simp +contextual (maxDischargeDepth := 40) [execTwtBusTimeout]

theorem execUsbPullupEnable_kept : Outcome.Kept s (execUsbPullupEnable s) := by
  simp +contextual (maxDischargeDepth := 40) [execUsbPullupEnable]

theorem execVbusDetected_kept : Outcome.Kept s (execVbusDetected s) := by
  simp +contextual (maxDischargeDepth := 40) [execVbusDetected]

theorem execUsbBusReset_kept : Outcome.Kept s (execUsbBusReset s) := by
  simp +contextual (maxDischargeDepth := 40) [execUsbBusReset]

theorem execVbusLost_kept : Outcome.Kept s (execVbusLost s) := by
  simp +contextual (maxDischargeDepth := 40) [execVbusLost]

theorem execUsbSuspend_kept : Outcome.Kept s (execUsbSuspend s) := by
  simp +contextual (maxDischargeDepth := 40) [execUsbSuspend]

theorem execUsbResume_kept : Outcome.Kept s (execUsbResume s) := by
  simp +contextual (maxDischargeDepth := 40) [execUsbResume]

theorem execRemoteWake_kept : Outcome.Kept s (execRemoteWake s) := by
  simp +contextual (maxDischargeDepth := 40) [execRemoteWake]

theorem execEp3Report_kept : Outcome.Kept s (execEp3Report s) := by
  unfold execEp3Report; (repeat' split) <;> simp_all +contextual (maxDischargeDepth := 40)

theorem execEp3ReportAck_kept : Outcome.Kept s (execEp3ReportAck s) := by
  simp +contextual (maxDischargeDepth := 40) [execEp3ReportAck]

theorem execEp2ReplyRead_kept : Outcome.Kept s (execEp2ReplyRead s) := by
  unfold execEp2ReplyRead; (split <;> simp +contextual (maxDischargeDepth := 40))

theorem execBulkTransferFault_kept (ep : BulkEp) : Outcome.Kept s (execBulkTransferFault ep s) := by
  unfold execBulkTransferFault; (repeat' split) <;> simp_all +contextual (maxDischargeDepth := 40)

theorem execStreamCopyComplete_kept (ep : Fin 2) : Outcome.Kept s (execStreamCopyComplete ep s) := by
  unfold execStreamCopyComplete
  dsimp only
  split
  · split <;> rename_i e <;> have h : Kept s _ := Kept.pair (State.copyRange_kept _ _ (Kept.refl s)) e
    · exact Outcome.keptNext (State.modStream_kept _ _ (State.drawChunks_kept _ _ h))
    · exact Outcome.keptNext h
    · exact Outcome.keptNext (State.abandonCopy_kept _ h)
  · exact Outcome.keptNext (Kept.refl s)

theorem execIsoInToken_kept (ep : Fin 2) : Outcome.Kept s (execIsoInToken ep s) := by
  unfold execIsoInToken; dsimp only; (repeat' split) <;> simp_all +contextual (maxDischargeDepth := 40)

theorem execSetInterface_kept (ep : Fin 2) (alt : Fin 4) : Outcome.Kept s (execSetInterface ep alt s) := by
  simp +contextual (maxDischargeDepth := 40) [execSetInterface]

theorem execUsbControlRequest_kept (q : UsbRequest) : Outcome.Kept s (execUsbControlRequest q s) := by
  unfold execUsbControlRequest; dsimp only; (repeat' split) <;> simp_all +contextual (maxDischargeDepth := 40)

theorem execSetPortPower_kept (port : Fin 5) : Outcome.Kept s (execSetPortPower port s) := by
  simp +contextual (maxDischargeDepth := 40) [execSetPortPower]

theorem execClearPortPower_kept (port : Fin 5) : Outcome.Kept s (execClearPortPower port s) := by
  simp +contextual (maxDischargeDepth := 40) [execClearPortPower]

theorem execClearTtBuffer_kept : Outcome.Kept s (execClearTtBuffer s) := by
  simp +contextual (maxDischargeDepth := 40) [execClearTtBuffer]

theorem execResetTt_kept : Outcome.Kept s (execResetTt s) := by
  simp +contextual (maxDischargeDepth := 40) [execResetTt]

theorem execHubOverCurrent_kept (oci : OciChange) : Outcome.Kept s (execHubOverCurrent oci s) := by
  unfold execHubOverCurrent; dsimp only; (repeat' split) <;> simp_all +contextual (maxDischargeDepth := 40)

theorem execHubConnectChange_kept (port : Fin 4) (connected : Bool) (speed : Fin 3) :
    Outcome.Kept s (execHubConnectChange port connected speed s) := by
  simp +contextual (maxDischargeDepth := 40) [execHubConnectChange]

theorem execHubClassRequest_kept (port : Fin 4) (q : HubRequest) : Outcome.Kept s (execHubClassRequest port q s) := by
  unfold execHubClassRequest; dsimp only; (repeat' split) <;> simp_all +contextual (maxDischargeDepth := 40)

theorem execUsbFailure_kept : Outcome.Kept s (execUsbFailure s) := by
  simp +contextual (maxDischargeDepth := 40) [execUsbFailure]

theorem execHarrowDelayExpiry_kept (slot : Fin 4) : Outcome.Kept s (execHarrowDelayExpiry slot s) := by
  unfold execHarrowDelayExpiry; dsimp only; (repeat' split) <;> simp_all +contextual (maxDischargeDepth := 40)

theorem execEmul_kept (c : Fin 4) (upset : Option Upset) : Outcome.Kept s (execEmul c upset s) := by
  simp +contextual (maxDischargeDepth := 40) [execEmul]

theorem execEadd_kept (c : Fin 4) (upset : Option Upset) : Outcome.Kept s (execEadd c upset s) := by
  simp +contextual (maxDischargeDepth := 40) [execEadd]

theorem execEsub_kept (c : Fin 4) : Outcome.Kept s (execEsub c s) := by
  simp +contextual (maxDischargeDepth := 40) [execEsub]

theorem execEmac_kept (c : Fin 4) : Outcome.Kept s (execEmac c s) := by
  simp +contextual (maxDischargeDepth := 40) [execEmac]

theorem execNtt_kept (c : Fin 4) : Outcome.Kept s (execNtt c s) := by
  simp +contextual (maxDischargeDepth := 40) [execNtt]

theorem execIntt_kept (c : Fin 4) : Outcome.Kept s (execIntt c s) := by
  simp +contextual (maxDischargeDepth := 40) [execIntt]

theorem execAutomorph_kept (c : Fin 4) : Outcome.Kept s (execAutomorph c s) := by
  simp +contextual (maxDischargeDepth := 40) [execAutomorph]

theorem execBaseconv_kept (c : Fin 4) : Outcome.Kept s (execBaseconv c s) := by
  simp +contextual (maxDischargeDepth := 40) [execBaseconv]

theorem execRescale_kept (c : Fin 4) : Outcome.Kept s (execRescale c s) := by
  simp +contextual (maxDischargeDepth := 40) [execRescale]

theorem execDecomp_kept (c : Fin 4) : Outcome.Kept s (execDecomp c s) := by
  simp +contextual (maxDischargeDepth := 40) [execDecomp]

theorem execPolyeval_kept (c : Fin 4) (upset : Option Upset) : Outcome.Kept s (execPolyeval c upset s) := by
  unfold execPolyeval; exact Outcome.keptNext (State.service_kept _ _ _ (Kept.refl s) fun j i => by dsimp only; (repeat' split) <;> simp_all +contextual (maxDischargeDepth := 40))

theorem execFeature_kept (c : Fin 4) : Outcome.Kept s (execFeature c s) := by
  unfold execFeature
  refine Outcome.keptNext (State.service_kept _ _ _ (Kept.refl s) fun j i => ?_)
  split
  · split
    · exact State.finish_kept _ _ _ (Kept.refl s) fun u hu => State.advance_kept _ hu
    · split <;> rename_i e <;> have h : Kept s _ := Kept.pair (State.access_kept _ _ (Kept.refl s)) e
      · exact State.feature_kept _ _ _ _ _ h
      · exact State.suspendCtx_kept _ h
      · exact State.endJob_kept _ _ h
  · exact (Kept.refl s)

theorem execRerand_kept (c : Fin 4) : Outcome.Kept s (execRerand c s) := by
  simp +contextual (maxDischargeDepth := 40) [execRerand]

theorem execHandoff_kept (c : Fin 4) : Outcome.Kept s (execHandoff c s) := by
  simp +contextual (maxDischargeDepth := 40) [execHandoff]

theorem execZero_kept (c : Fin 4) : Outcome.Kept s (execZero c s) := by
  simp +contextual (maxDischargeDepth := 40) [execZero]

theorem execDrop_kept (c : Fin 4) : Outcome.Kept s (execDrop c s) := by
  simp +contextual (maxDischargeDepth := 40) [execDrop]

theorem execEndIteration_kept (c : Fin 4) : Outcome.Kept s (execEndIteration c s) := by
  unfold execEndIteration; exact Outcome.keptNext (State.service_kept _ _ _ (Kept.refl s) fun j i => by dsimp only; (repeat' split) <;> simp_all +contextual (maxDischargeDepth := 40))

theorem execPreemptionPoint_kept : Outcome.Kept s (execPreemptionPoint s) := by
  unfold execPreemptionPoint; (repeat' split) <;> simp_all +contextual (maxDischargeDepth := 40)

theorem execTimeSliceExpiry_kept : Outcome.Kept s (execTimeSliceExpiry s) := by
  unfold execTimeSliceExpiry; dsimp only; (repeat' split) <;> simp_all +contextual (maxDischargeDepth := 40)

theorem execLaneIdleGate_kept : Outcome.Kept s (execLaneIdleGate s) := by
  simp +contextual (maxDischargeDepth := 40) [execLaneIdleGate]

theorem execHandoffTimeout_kept (c : Fin 4) : Outcome.Kept s (execHandoffTimeout c s) := by
  unfold execHandoffTimeout; dsimp only; (repeat' split) <;> simp_all +contextual (maxDischargeDepth := 40)

theorem execThresherControlError_kept : Outcome.Kept s (execThresherControlError s) := by
  simp +contextual (maxDischargeDepth := 40) [execThresherControlError]

theorem execThrLoadInlineChunk_kept (r : Req) : Outcome.Kept s (execThrLoadInlineChunk r s) := by
  simp +contextual (maxDischargeDepth := 40) [execThrLoadInlineChunk]

theorem execThrLoadFromStore_kept (r : Req) : Outcome.Kept s (execThrLoadFromStore r s) := by
  simp +contextual (maxDischargeDepth := 40) [execThrLoadFromStore]

theorem execThrUnload_kept (r : Req) : Outcome.Kept s (execThrUnload r s) := by
  simp +contextual (maxDischargeDepth := 40) [execThrUnload]

theorem execThrAllocate_kept (r : Req) : Outcome.Kept s (execThrAllocate r s) := by
  simp +contextual (maxDischargeDepth := 40) [execThrAllocate]

theorem execThrLoadOwnerTimeout_kept (c : Fin 4) (id : Fin 64) : Outcome.Kept s (execThrLoadOwnerTimeout c id s) := by
  unfold execThrLoadOwnerTimeout; (split <;> simp +contextual (maxDischargeDepth := 40))

theorem execThrSubmit_kept (r : Req) : Outcome.Kept s (execThrSubmit r s) := by
  unfold execThrSubmit
  refine Outcome.keptNext (State.serve_kept _ _ _ _ _ (Kept.refl s) fun u t hu => ?_)
  dsimp only
  split
  · exact hu
  · split <;> rename_i e <;> have h := Kept.pair (State.firmware_kept _ _ _ hu) e
    · exact h
    · split
      · exact h
      · exact State.modCtx_kept _ _ h

theorem execThrCancel_kept (r : Req) : Outcome.Kept s (execThrCancel r s) := by
  simp +contextual (maxDischargeDepth := 40) [execThrCancel]

theorem execThrStatus_kept (r : Req) : Outcome.Kept s (execThrStatus r s) := by
  unfold execThrStatus
  refine Outcome.keptNext (State.serve_kept _ _ _ _ _ (Kept.refl s) fun u t hu => ?_)
  dsimp only
  split <;> rename_i e <;> exact Kept.pair (State.firmware_kept _ _ _ hu) e

theorem execThrReturn_kept (r : Req) : Outcome.Kept s (execThrReturn r s) := by
  unfold execThrReturn
  refine Outcome.keptNext (State.serve_kept _ _ _ _ _ (Kept.refl s) fun u t hu => ?_)
  dsimp only
  split
  · exact hu
  · split
    · exact State.modCtx_kept _ _ hu
    · split <;> rename_i e <;> have h := Kept.pair (State.firmware_kept _ _ _ hu) e
      · exact h
      · split
        · exact State.modCtx_kept _ _ h
        · rename_i e
          exact State.dispatch_kept (State.modCtx_kept _ _ (State.takeReturn_kept _ _ _ _ h e))

theorem execPlotFault_kept (agent : Agent) (dir : Access) (vaddr : BitVec 32) (index : Nat) (ext : ExtCause) :
    Outcome.Kept s (execPlotFault agent dir vaddr index ext s) := by
  unfold execPlotFault; dsimp only; (repeat' split) <;> simp_all +contextual (maxDischargeDepth := 40)

theorem execFaultResolve_kept : Outcome.Kept s (execFaultResolve s) := by
  unfold execFaultResolve; (repeat' split) <;> simp_all +contextual (maxDischargeDepth := 40)

theorem execBankWakeComplete_kept (b : Fin 64) : Outcome.Kept s (execBankWakeComplete b s) := by
  unfold execBankWakeComplete; dsimp only; (repeat' split) <;> simp_all +contextual (maxDischargeDepth := 40)

theorem execBankWakeTimeout_kept (b : Fin 64) : Outcome.Kept s (execBankWakeTimeout b s) := by
  simp +contextual (maxDischargeDepth := 40) [execBankWakeTimeout]

theorem execBankIdleGate_kept (b : Fin 64) : Outcome.Kept s (execBankIdleGate b s) := by
  simp +contextual (maxDischargeDepth := 40) [execBankIdleGate]

theorem execEccScrub_kept (found : List (BitVec 22 × Bool)) : Outcome.Kept s (execEccScrub found s) := by
  simp +contextual (maxDischargeDepth := 40) [execEccScrub]

theorem execCarveAllocate_kept (r : Req) : Outcome.Kept s (execCarveAllocate r s) := by
  simp +contextual (maxDischargeDepth := 40) [execCarveAllocate]

theorem execCarveRelease_kept (r : Req) : Outcome.Kept s (execCarveRelease r s) := by
  simp +contextual (maxDischargeDepth := 40) [execCarveRelease]

theorem execCarveQuery_kept (r : Req) : Outcome.Kept s (execCarveQuery r s) := by
  simp +contextual (maxDischargeDepth := 40) [execCarveQuery]

theorem execNorWindowWrite_kept (agent : Agent) (sel : Fin 2) (offset : BitVec 28) (data : List Byte) :
    Outcome.Kept s (execNorWindowWrite agent sel offset data s) := by
  simp +contextual (maxDischargeDepth := 40) [execNorWindowWrite]

theorem execNorGatherEnd_kept (sel : Fin 2) : Outcome.Kept s (execNorGatherEnd sel s) := by
  unfold execNorGatherEnd; (split <;> simp +contextual (maxDischargeDepth := 40))

theorem execNorStatusPoll_kept (sel : Fin 2) (status : Byte) : Outcome.Kept s (execNorStatusPoll sel status s) := by
  unfold execNorStatusPoll; dsimp only; (repeat' split) <;> simp_all +contextual (maxDischargeDepth := 40)

theorem execNorProgramDone_kept (sel : Fin 2) : Outcome.Kept s (execNorProgramDone sel s) := by
  unfold execNorProgramDone; (repeat' split) <;> simp_all +contextual (maxDischargeDepth := 40)

theorem execProgramTimeout_kept (sel : Fin 2) : Outcome.Kept s (execProgramTimeout sel s) := by
  unfold execProgramTimeout; dsimp only; (repeat' split) <;> simp_all +contextual (maxDischargeDepth := 40)

theorem execExternalAccessTimeout_kept (agent : Agent) (sel : Fin 2) (vaddr : BitVec 32) (index : Nat) (dir : Access) :
    Outcome.Kept s (execExternalAccessTimeout agent sel vaddr index dir s) := by
  simp +contextual (maxDischargeDepth := 40) [execExternalAccessTimeout]

theorem execCsp8IdleGate_kept : Outcome.Kept s (execCsp8IdleGate s) := by
  simp +contextual (maxDischargeDepth := 40) [execCsp8IdleGate]

theorem execAlmanacRead_kept (r : Req) : Outcome.Kept s (execAlmanacRead r s) := by
  simp +contextual (maxDischargeDepth := 40) [execAlmanacRead]

theorem execAlmanacMark_kept (r : Req) : Outcome.Kept s (execAlmanacMark r s) := by
  simp +contextual (maxDischargeDepth := 40) [execAlmanacMark]

theorem execAlmanacClearFirst_kept (r : Req) : Outcome.Kept s (execAlmanacClearFirst r s) := by
  simp +contextual (maxDischargeDepth := 40) [execAlmanacClearFirst]

theorem execAlmanacRecordCommit_kept (ring zone : ReadBack) : Outcome.Kept s (execAlmanacRecordCommit ring zone s) := by
  unfold execAlmanacRecordCommit; (split <;> simp +contextual (maxDischargeDepth := 40))

theorem execRecordDrop_kept : Outcome.Kept s (execRecordDrop s) := by
  simp +contextual (maxDischargeDepth := 40) [execRecordDrop]

theorem execMergeWindowClose_kept (key : MergeKey) : Outcome.Kept s (execMergeWindowClose key s) := by
  unfold execMergeWindowClose; (split <;> simp +contextual (maxDischargeDepth := 40))

theorem execAlmanacScanDone_kept : Outcome.Kept s (execAlmanacScanDone s) := by
  have scan : ∀ (a : Alm) por, (a.scanned por).bytes = a.bytes := fun _ _ => by simp only [Alm.scanned]
  unfold execAlmanacScanDone
  split
  · simp
  · dsimp only
    refine Outcome.keptNext (State.saveCounters_kept ?_)
    split <;> simp +contextual (maxDischargeDepth := 40) [scan]

theorem execEp6Read_kept : Outcome.Kept s (execEp6Read s) := by
  simp +contextual (maxDischargeDepth := 40) [execEp6Read]

theorem execEp6TransferEnd_kept : Outcome.Kept s (execEp6TransferEnd s) := by
  simp +contextual (maxDischargeDepth := 40) [execEp6TransferEnd]

theorem execIntNCoalesceExpiry_kept : Outcome.Kept s (execIntNCoalesceExpiry s) := by
  unfold execIntNCoalesceExpiry; (split <;> simp +contextual (maxDischargeDepth := 40))

theorem execHarrowArm_kept (r : Req) : Outcome.Kept s (execHarrowArm r s) := by
  simp +contextual (maxDischargeDepth := 40) [execHarrowArm]

theorem execConsentExpiry_kept (ch : Channel) : Outcome.Kept s (execConsentExpiry ch s) := by
  unfold execConsentExpiry; (split <;> simp +contextual (maxDischargeDepth := 40))

theorem execHarrowSet_kept (r : Req) : Outcome.Kept s (execHarrowSet r s) := by
  simp +contextual (maxDischargeDepth := 40) [execHarrowSet]

theorem execHarrowDisarmSlots_kept (r : Req) : Outcome.Kept s (execHarrowDisarmSlots r s) := by
  simp +contextual (maxDischargeDepth := 40) [execHarrowDisarmSlots]

theorem execHarrowDisarmAll_kept (r : Req) : Outcome.Kept s (execHarrowDisarmAll r s) := by
  simp +contextual (maxDischargeDepth := 40) [execHarrowDisarmAll]

theorem execHarrowSeal_kept (r : Req) : Outcome.Kept s (execHarrowSeal r s) := by
  simp +contextual (maxDischargeDepth := 40) [execHarrowSeal]

theorem execHarrowWindowClose_kept (slot : Fin 4) : Outcome.Kept s (execHarrowWindowClose slot s) := by
  simp +contextual (maxDischargeDepth := 40) [execHarrowWindowClose]

theorem execTestEnChange_kept (high : Bool) : Outcome.Kept s (execTestEnChange high s) := by
  simp +contextual (maxDischargeDepth := 40) [execTestEnChange]

theorem execReferenceLost_kept : Outcome.Kept s (execReferenceLost s) := by
  simp +contextual (maxDischargeDepth := 40) [execReferenceLost]

theorem execPllUnlock_kept : Outcome.Kept s (execPllUnlock s) := by
  simp +contextual (maxDischargeDepth := 40) [execPllUnlock]

theorem execHoldoverExpiry_kept : Outcome.Kept s (execHoldoverExpiry s) := by
  unfold execHoldoverExpiry; (split <;> simp +contextual (maxDischargeDepth := 40))

theorem execSourceQualified_kept (src : Source) : Outcome.Kept s (execSourceQualified src s) := by
  unfold execSourceQualified; dsimp only; (repeat' split) <;> simp_all +contextual (maxDischargeDepth := 40)

theorem execSourceSwitchComplete_kept : Outcome.Kept s (execSourceSwitchComplete s) := by
  unfold execSourceSwitchComplete; (split <;> simp +contextual (maxDischargeDepth := 40))

theorem execRelockComplete_kept : Outcome.Kept s (execRelockComplete s) := by
  unfold execRelockComplete; (split <;> simp +contextual (maxDischargeDepth := 40))

theorem execSwitchBack_kept : Outcome.Kept s (execSwitchBack s) := by
  simp +contextual (maxDischargeDepth := 40) [execSwitchBack]

theorem execNoReferenceAtBoot_kept : Outcome.Kept s (execNoReferenceAtBoot s) := by
  simp +contextual (maxDischargeDepth := 40) [execNoReferenceAtBoot]

theorem execAonCalibrationRun_kept (ticks : Nat) : Outcome.Kept s (execAonCalibrationRun ticks s) := by
  simp +contextual (maxDischargeDepth := 40) [execAonCalibrationRun]

theorem execTimebaseRealign_kept (cycles : Nat) : Outcome.Kept s (execTimebaseRealign cycles s) := by
  unfold execTimebaseRealign; (split <;> simp +contextual (maxDischargeDepth := 40))

theorem execSyncInEdge_kept (t : Stamp) : Outcome.Kept s (execSyncInEdge t s) := by
  unfold execSyncInEdge; dsimp only; (repeat' split) <;> simp_all +contextual (maxDischargeDepth := 40)

theorem execMarkerSend_kept : Outcome.Kept s (execMarkerSend s) := by
  simp +contextual (maxDischargeDepth := 40) [execMarkerSend]

theorem execJoinRequestReceived_kept (position : Fin 7) (serial : BitVec 64) (crcOk : Bool) :
    Outcome.Kept s (execJoinRequestReceived position serial crcOk s) := by
  simp +contextual (maxDischargeDepth := 40) [execJoinRequestReceived]

theorem execSegmentReceived_kept (position : Fin 7) (start : Option Int) (g : Segment) :
    Outcome.Kept s (execSegmentReceived position start g s) := by
  unfold execSegmentReceived; (repeat' split) <;> simp_all +contextual (maxDischargeDepth := 40)

theorem execTrimRunEnd_kept : Outcome.Kept s (execTrimRunEnd s) := by
  simp +contextual (maxDischargeDepth := 40) [execTrimRunEnd]

theorem execMemberLost_kept (position : Fin 7) : Outcome.Kept s (execMemberLost position s) := by
  simp +contextual (maxDischargeDepth := 40) [execMemberLost]

theorem execReleaseRetryTimer_kept : Outcome.Kept s (execReleaseRetryTimer s) := by
  simp +contextual (maxDischargeDepth := 40) [execReleaseRetryTimer]

theorem execYokeCtlForward_kept (r : Req) : Outcome.Kept s (execYokeCtlForward r s) := by
  simp +contextual (maxDischargeDepth := 40) [execYokeCtlForward]

theorem execYokeCtlStatus_kept (r : Req) : Outcome.Kept s (execYokeCtlStatus r s) := by
  simp +contextual (maxDischargeDepth := 40) [execYokeCtlStatus]

theorem execYokeCtlRelease_kept (r : Req) : Outcome.Kept s (execYokeCtlRelease r s) := by
  simp +contextual (maxDischargeDepth := 40) [execYokeCtlRelease]

theorem execYokeCtlRerange_kept (r : Req) : Outcome.Kept s (execYokeCtlRerange r s) := by
  simp +contextual (maxDischargeDepth := 40) [execYokeCtlRerange]

theorem execYokeCtlLeave_kept (r : Req) : Outcome.Kept s (execYokeCtlLeave r s) := by
  simp +contextual (maxDischargeDepth := 40) [execYokeCtlLeave]

theorem execMarkerReceived_kept (m : Marker) (t : Stamp) : Outcome.Kept s (execMarkerReceived m t s) := by
  unfold execMarkerReceived; dsimp only; (repeat' split) <;> simp_all +contextual (maxDischargeDepth := 40)

theorem execOrphanTimeout_kept : Outcome.Kept s (execOrphanTimeout s) := by
  unfold execOrphanTimeout; dsimp only; (repeat' split) <;> simp_all +contextual (maxDischargeDepth := 40)

theorem execMbx_kept (f : Frame) (fragment : List Byte) : Outcome.Kept s (execMbx f fragment s) := by
  have h : Kept s (s.repeatFrame .mbx f fragment) := State.repeatFrame_kept _ _ _ (Kept.refl s)
  unfold execMbx
  dsimp only
  split
  · exact Outcome.keptNext (State.modYoke_kept _ h (by simp))
  · refine Outcome.keptNext (State.frame_kept _ _ _ _ (Kept.refl s) fun u hu => ?_)
    (repeat' split) <;> simp +contextual (maxDischargeDepth := 40) [hu]

theorem execJoinAccept_kept (f : Frame) (serial : BitVec 64) (g : GrantPlan) :
    Outcome.Kept s (execJoinAccept f serial g s) := by
  simp +contextual (maxDischargeDepth := 40) [execJoinAccept]

theorem execRange_kept (f : Frame) (tTaNs : BitVec 32) : Outcome.Kept s (execRange f tTaNs s) := by
  simp +contextual (maxDischargeDepth := 40) [execRange]

theorem execSetDelay_kept (f : Frame) (d : BitVec 32) : Outcome.Kept s (execSetDelay f d s) := by
  simp +contextual (maxDischargeDepth := 40) [execSetDelay]

theorem execTrim_kept (f : Frame) (correction : BitVec 16) : Outcome.Kept s (execTrim f correction s) := by
  simp +contextual (maxDischargeDepth := 40) [execTrim]

theorem execGrant_kept (f : Frame) (g : GrantPlan) : Outcome.Kept s (execGrant f g s) := by
  simp +contextual (maxDischargeDepth := 40) [execGrant]

theorem execQuarantine_kept (f : Frame) : Outcome.Kept s (execQuarantine f s) := by
  simp +contextual (maxDischargeDepth := 40) [execQuarantine]

theorem execRelease_kept (f : Frame) : Outcome.Kept s (execRelease f s) := by
  simp +contextual (maxDischargeDepth := 40) [execRelease]

theorem execReplyResend_kept (f : Frame) (offset : BitVec 16) : Outcome.Kept s (execReplyResend f offset s) := by
  simp +contextual (maxDischargeDepth := 40) [execReplyResend]

theorem execReplyDone_kept (f : Frame) : Outcome.Kept s (execReplyDone f s) := by
  simp +contextual (maxDischargeDepth := 40) [execReplyDone]

theorem execFallowPropose_kept (f : Frame) (id : Byte) (deep : Bool) (sleepMs : BitVec 32) :
    Outcome.Kept s (execFallowPropose f id deep sleepMs s) := by
  simp +contextual (maxDischargeDepth := 40) [execFallowPropose]

theorem execFallowCommit_kept (f : Frame) (id : Byte) (pc : Period) : Outcome.Kept s (execFallowCommit f id pc s) := by
  simp +contextual (maxDischargeDepth := 40) [execFallowCommit]

theorem execFallowAbort_kept (f : Frame) (id : Byte) : Outcome.Kept s (execFallowAbort f id s) := by
  simp +contextual (maxDischargeDepth := 40) [execFallowAbort]

theorem execAcceptLapse_kept : Outcome.Kept s (execAcceptLapse s) := by
  unfold execAcceptLapse; (split <;> simp +contextual (maxDischargeDepth := 40))

theorem execCommitMarkerMissing_kept : Outcome.Kept s (execCommitMarkerMissing s) := by
  unfold execCommitMarkerMissing; (split <;> simp +contextual (maxDischargeDepth := 40))

theorem execSegmentSend_kept : Outcome.Kept s (execSegmentSend s) := by
  have at' : Kept s (s.at s.segmentAt) := State.at_kept _ (Kept.refl s)
  have sent := State.segmentBytes_kept s.yoke.echo.isSome at'
  have out : ∀ (c : Bool) u, Kept s u → Kept s (if c then u.dropOut else u) := fun c u h => by
    split
    · exact State.dropOut_kept h
    · exact h
  unfold execSegmentSend
  extract_lets may at1 echo
  split
  · exact Outcome.keptNext (Kept.refl s)
  · split
    rename_i e
    have h := Kept.pair sent e
    split
    split
    rename_i e
    have g := Kept.pair (State.drawUnit_kept _ _ _ _ h) e
    extract_lets drop
    split
    rename_i e
    refine Outcome.keptNext (out _ _ (State.modEv_kept _ (State.modYoke_kept _ (Kept.pair ?_ e) (by simp))))
    refine Kept.foldlFst _ _ _ g fun q p hq => ?_
    dsimp only
    (repeat' split) <;> first | exact hq | exact State.injected_kept _ hq

theorem execJoinRequestSend_kept : Outcome.Kept s (execJoinRequestSend s) := by
  simp +contextual (maxDischargeDepth := 40) [execJoinRequestSend]

theorem execDnRxForward_kept (position : Fin 7) (atNs : Int) (bytes : List Byte) :
    Outcome.Kept s (execDnRxForward position atNs bytes s) := by
  unfold execDnRxForward; dsimp only; (repeat' split) <;> simp_all +contextual (maxDischargeDepth := 40)

theorem execDnRxIdle_kept : Outcome.Kept s (execDnRxIdle s) := by
  simp +contextual (maxDischargeDepth := 40) [execDnRxIdle]

theorem execYokePhyFailure_kept : Outcome.Kept s (execYokePhyFailure s) := by
  simp +contextual (maxDischargeDepth := 40) [execYokePhyFailure]

theorem execBootImageVerify_kept : Outcome.Kept s (execBootImageVerify s) := by
  have h : Kept s (s.tryImages s.bootOrder).1 := State.tryImages_kept _ (Kept.refl s)
  unfold execBootImageVerify
  split
  · simp
  · split <;> rename_i e <;> rw [e] at h <;> simp +contextual (maxDischargeDepth := 40) [h]

theorem execFurtherPartFail_kept (part : Fin 16) : Outcome.Kept s (execFurtherPartFail part s) := by
  simp +contextual (maxDischargeDepth := 40) [execFurtherPartFail]

theorem execWatchdogPrewarning_kept : Outcome.Kept s (execWatchdogPrewarning s) := by
  simp +contextual (maxDischargeDepth := 40) [execWatchdogPrewarning]

theorem execWatchdogExpiry_kept : Outcome.Kept s (execWatchdogExpiry s) := by
  simp +contextual (maxDischargeDepth := 40) [execWatchdogExpiry]

theorem execMailboxesReady_kept : Outcome.Kept s (execMailboxesReady s) := by
  unfold execMailboxesReady; dsimp only; (repeat' split) <;> simp_all +contextual (maxDischargeDepth := 40)

theorem execAutostartStart_kept : Outcome.Kept s (execAutostartStart s) := by
  simp +contextual (maxDischargeDepth := 40) [execAutostartStart]

theorem execResetNAssert_kept : Outcome.Kept s (execResetNAssert s) := by
  simp +contextual (maxDischargeDepth := 40) [execResetNAssert]

theorem execResetRelease_kept (pins : Straps) : Outcome.Kept s (execResetRelease pins s) := by
  simp +contextual (maxDischargeDepth := 40) [execResetRelease]

theorem execFallowResume_kept (crcOk : Bool) : Outcome.Kept s (execFallowResume crcOk s) := by
  unfold execFallowResume; (split <;> simp +contextual (maxDischargeDepth := 40))

theorem execWakeSource_kept (bit : Fin 11) : Outcome.Kept s (execWakeSource bit s) := by
  simp +contextual (maxDischargeDepth := 40) [execWakeSource]

theorem execSleepTimerExpiry_kept : Outcome.Kept s (execSleepTimerExpiry s) := by
  unfold execSleepTimerExpiry; (split <;> simp +contextual (maxDischargeDepth := 40))

theorem execListenWindow_kept (heard : Heard) : Outcome.Kept s (execListenWindow heard s) := by
  unfold execListenWindow; (repeat' split) <;> simp_all +contextual (maxDischargeDepth := 40)

theorem execWakeBurstDetected_kept : Outcome.Kept s (execWakeBurstDetected s) := by
  simp +contextual (maxDischargeDepth := 40) [execWakeBurstDetected]

theorem execFallow_kept (r : Req) : Outcome.Kept s (execFallow r s) := by
  simp +contextual (maxDischargeDepth := 40) [execFallow]

theorem execWakeCancel_kept (r : Req) : Outcome.Kept s (execWakeCancel r s) := by
  simp +contextual (maxDischargeDepth := 40) [execWakeCancel]

theorem execWakeHold_kept (r : Req) : Outcome.Kept s (execWakeHold r s) := by
  simp +contextual (maxDischargeDepth := 40) [execWakeHold]

theorem execWakeHoldExpiry_kept : Outcome.Kept s (execWakeHoldExpiry s) := by
  unfold execWakeHoldExpiry; (split <;> simp +contextual (maxDischargeDepth := 40))

theorem execPowerQuery_kept (r : Req) : Outcome.Kept s (execPowerQuery r s) := by
  simp +contextual (maxDischargeDepth := 40) [execPowerQuery]

theorem execPowerSetBanks_kept (r : Req) : Outcome.Kept s (execPowerSetBanks r s) := by
  simp +contextual (maxDischargeDepth := 40) [execPowerSetBanks]

theorem execDetach_kept (r : Req) : Outcome.Kept s (execDetach r s) := by
  simp +contextual (maxDischargeDepth := 40) [execDetach]

theorem execDetachRelease_kept : Outcome.Kept s (execDetachRelease s) := by
  simp +contextual (maxDischargeDepth := 40) [execDetachRelease]

theorem execDetachCycle_kept : Outcome.Kept s (execDetachCycle s) := by
  simp +contextual (maxDischargeDepth := 40) [execDetachCycle]

theorem execEmergencyDetach_kept : Outcome.Kept s (execEmergencyDetach s) := by
  have park : ∀ u, Kept s u → Kept s { u with csp := u.csp.map CspPort.finish, sent := u.sent.map SentChan.untriggered } := fun u h =>
    { h with csp := fun z => by simpa using h.csp z, sent := fun z => by simpa using h.sent z }
  have wake : Kept s (if s.pw.state == .run then s.abandonFallow else s.wakeBy 6) := by split <;> simp
  unfold execEmergencyDetach
  split
  · simp
  · dsimp only
    refine Outcome.keptNext (State.fail_kept _ _ (State.log_kept _ _ _ _ _ (State.modPw_kept _ (State.modYoke_kept _ (park _
      (State.modDrill_kept _ ?_ (by simp))) (by simp)))))
    exact State.dropPeriod_kept (State.cutUnguarded_kept (State.dropUsb_kept (State.endEpisodes_kept _ wake)))

theorem execPrsntSettled_kept : Outcome.Kept s (execPrsntSettled s) := by
  simp +contextual (maxDischargeDepth := 40) [execPrsntSettled]

theorem execPrsntChange_kept (high : Bool) : Outcome.Kept s (execPrsntChange high s) := by
  simp +contextual (maxDischargeDepth := 40) [execPrsntChange]

theorem execVinUvloRise_kept (vin10mv vbakMv : BitVec 16) (pins : Straps) :
    Outcome.Kept s (execVinUvloRise vin10mv vbakMv pins s) := by
  simp +contextual (maxDischargeDepth := 40) [execVinUvloRise]

theorem execVinLowWarning_kept (vin10mv : BitVec 16) : Outcome.Kept s (execVinLowWarning vin10mv s) := by
  simp +contextual (maxDischargeDepth := 40) [execVinLowWarning]

theorem execVinUndervoltage_kept (vin10mv : BitVec 16) : Outcome.Kept s (execVinUndervoltage vin10mv s) := by
  simp +contextual (maxDischargeDepth := 40) [execVinUndervoltage]

theorem execVinHighWarning_kept (vin10mv : BitVec 16) : Outcome.Kept s (execVinHighWarning vin10mv s) := by
  simp +contextual (maxDischargeDepth := 40) [execVinHighWarning]

theorem execVinOvervoltage_kept (vin10mv : BitVec 16) : Outcome.Kept s (execVinOvervoltage vin10mv s) := by
  simp +contextual (maxDischargeDepth := 40) [execVinOvervoltage]

theorem execVinOvervoltageRecover_kept (vin10mv : BitVec 16) : Outcome.Kept s (execVinOvervoltageRecover vin10mv s) := by
  unfold execVinOvervoltageRecover; dsimp only; (repeat' split) <;> simp_all +contextual (maxDischargeDepth := 40)

theorem execVsysOverload_kept : Outcome.Kept s (execVsysOverload s) := by
  simp +contextual (maxDischargeDepth := 40) [execVsysOverload]

theorem execVsysCollapse_kept : Outcome.Kept s (execVsysCollapse s) := by
  simp +contextual (maxDischargeDepth := 40) [execVsysCollapse]

theorem execBankSupplyLost_kept (b : Fin 4) : Outcome.Kept s (execBankSupplyLost b s) := by
  simp +contextual (maxDischargeDepth := 40) [execBankSupplyLost]

theorem execBankSupplyRestored_kept (b : Fin 4) (is1v8 : Bool) : Outcome.Kept s (execBankSupplyRestored b is1v8 s) := by
  simp +contextual (maxDischargeDepth := 40) [execBankSupplyRestored]

theorem execThermalWarning_kept : Outcome.Kept s (execThermalWarning s) := by
  simp +contextual (maxDischargeDepth := 40) [execThermalWarning]

theorem execThermalShutdown_kept : Outcome.Kept s (execThermalShutdown s) := by
  unfold execThermalShutdown; dsimp only; (repeat' split) <;> simp_all +contextual (maxDischargeDepth := 40)

theorem execThermalRestart_kept : Outcome.Kept s (execThermalRestart s) := by
  unfold execThermalRestart; dsimp only; (repeat' split) <;> simp_all +contextual (maxDischargeDepth := 40)

theorem execVbakMeasure_kept (vbakMv vresMv : BitVec 16) : Outcome.Kept s (execVbakMeasure vbakMv vresMv s) := by
  simp +contextual (maxDischargeDepth := 40) [execVbakMeasure]

theorem execBackupStateLost_kept : Outcome.Kept s (execBackupStateLost s) := by
  simp +contextual (maxDischargeDepth := 40) [execBackupStateLost]

theorem execRtcAlarm_kept : Outcome.Kept s (execRtcAlarm s) := by
  simp +contextual (maxDischargeDepth := 40) [execRtcAlarm]

theorem execAlarmInput_kept (k : Fin 4) (rtc : BitVec 64) : Outcome.Kept s (execAlarmInput k rtc s) := by
  unfold execAlarmInput; dsimp only; (repeat' split) <;> simp_all +contextual (maxDischargeDepth := 40)

theorem execBackupRecordWrite_kept : Outcome.Kept s (execBackupRecordWrite s) := by
  unfold execBackupRecordWrite; (split <;> simp +contextual (maxDischargeDepth := 40))

theorem execBackupWriteAbort_kept : Outcome.Kept s (execBackupWriteAbort s) := by
  unfold execBackupWriteAbort; (split <;> simp +contextual (maxDischargeDepth := 40))

theorem execAlarmHoldoffEnd_kept : Outcome.Kept s (execAlarmHoldoffEnd s) := by
  simp +contextual (maxDischargeDepth := 40) [execAlarmHoldoffEnd]

theorem execResetUnit_kept (r : Req) : Outcome.Kept s (execResetUnit r s) := by
  unfold execResetUnit; exact Outcome.keptNext (State.serve_kept _ _ _ _ _ (Kept.refl s) fun u t hu => by (repeat' split) <;> simp_all +contextual (maxDischargeDepth := 40))

theorem execUnitResetComplete_kept (noun : BitVec 16) : Outcome.Kept s (execUnitResetComplete noun s) := by
  unfold execUnitResetComplete; (repeat' split) <;> simp_all +contextual (maxDischargeDepth := 40)

theorem execUpdateStageBegin_kept (r : Req) : Outcome.Kept s (execUpdateStageBegin r s) := by
  simp +contextual (maxDischargeDepth := 40) [execUpdateStageBegin]

theorem execUpdateStageChunk_kept (r : Req) : Outcome.Kept s (execUpdateStageChunk r s) := by
  simp +contextual (maxDischargeDepth := 40) [execUpdateStageChunk]

theorem execUpdateStageFinish_kept (r : Req) : Outcome.Kept s (execUpdateStageFinish r s) := by
  simp +contextual (maxDischargeDepth := 40) [execUpdateStageFinish]

theorem execUpdateStageAbandon_kept (r : Req) : Outcome.Kept s (execUpdateStageAbandon r s) := by
  simp +contextual (maxDischargeDepth := 40) [execUpdateStageAbandon]

theorem execStagingTimeout_kept : Outcome.Kept s (execStagingTimeout s) := by
  unfold execStagingTimeout; (split <;> simp +contextual (maxDischargeDepth := 40))

theorem execUpdateStageCompletion_kept (flashOk : Bool) : Outcome.Kept s (execUpdateStageCompletion flashOk s) := by
  unfold execUpdateStageCompletion; (repeat' split) <;> simp_all +contextual (maxDischargeDepth := 40)

theorem execUpdateSwap_kept (r : Req) : Outcome.Kept s (execUpdateSwap r s) := by
  unfold execUpdateSwap; exact Outcome.keptNext (State.serve_kept _ _ _ _ _ (Kept.refl s) fun u t hu => by (repeat' split) <;> simp_all +contextual (maxDischargeDepth := 40))

theorem execTrialClear_kept : Outcome.Kept s (execTrialClear s) := by
  unfold execTrialClear; (split <;> simp +contextual (maxDischargeDepth := 40))

theorem execCaptureLine_kept : Outcome.Kept s (execCaptureLine s) := by
  simp +contextual (maxDischargeDepth := 40) [execCaptureLine]

end Sys2Proof.Machine
end

