-- ==== Sys2Proof/Laws/Ops.lean ====
section
/-! SUPPORT. What the operations that every family shares change, and what they leave alone. -/

namespace Sys2Proof.Machine

variable (s : State)

/-! ### settleInt -/

@[simp] theorem State.settleInt_pending : s.settleInt.pending = s.pending := by unfold State.settleInt; dsimp only; (repeat' split) <;> simp
@[simp] theorem State.settleInt_tm : s.settleInt.tm = s.tm := by unfold State.settleInt; dsimp only; (repeat' split) <;> simp
@[simp] theorem State.settleInt_mb : s.settleInt.mb = s.mb := by unfold State.settleInt; dsimp only; (repeat' split) <;> simp
@[simp] theorem State.settleInt_cfg : s.settleInt.cfg = s.cfg := by unfold State.settleInt; dsimp only; (repeat' split) <;> simp
@[simp] theorem State.settleInt_cnt : s.settleInt.cnt = s.cnt := by unfold State.settleInt; dsimp only; (repeat' split) <;> simp
@[simp] theorem State.settleInt_alm : s.settleInt.alm = s.alm := by unfold State.settleInt; dsimp only; (repeat' split) <;> simp
@[simp] theorem State.settleInt_drill : s.settleInt.drill = s.drill := by unfold State.settleInt; dsimp only; (repeat' split) <;> simp
@[simp] theorem State.settleInt_sheaf : s.settleInt.sheaf = s.sheaf := by unfold State.settleInt; dsimp only; (repeat' split) <;> simp
@[simp] theorem State.settleInt_csp : s.settleInt.csp = s.csp := by unfold State.settleInt; dsimp only; (repeat' split) <;> simp
@[simp] theorem State.settleInt_csp8 : s.settleInt.csp8 = s.csp8 := by unfold State.settleInt; dsimp only; (repeat' split) <;> simp
@[simp] theorem State.settleInt_sent : s.settleInt.sent = s.sent := by unfold State.settleInt; dsimp only; (repeat' split) <;> simp
@[simp] theorem State.settleInt_edge : s.settleInt.edge = s.edge := by unfold State.settleInt; dsimp only; (repeat' split) <;> simp
@[simp] theorem State.settleInt_banks : s.settleInt.banks = s.banks := by unfold State.settleInt; dsimp only; (repeat' split) <;> simp
@[simp] theorem State.settleInt_twt : s.settleInt.twt = s.twt := by unfold State.settleInt; dsimp only; (repeat' split) <;> simp
@[simp] theorem State.settleInt_mirror : s.settleInt.mirror = s.mirror := by unfold State.settleInt; dsimp only; (repeat' split) <;> simp
@[simp] theorem State.settleInt_mem : s.settleInt.mem = s.mem := by unfold State.settleInt; dsimp only; (repeat' split) <;> simp
@[simp] theorem State.settleInt_clk : s.settleInt.clk = s.clk := by unfold State.settleInt; dsimp only; (repeat' split) <;> simp
@[simp] theorem State.settleInt_boot : s.settleInt.boot = s.boot := by unfold State.settleInt; dsimp only; (repeat' split) <;> simp
@[simp] theorem State.settleInt_lev : s.settleInt.lev = s.lev := by unfold State.settleInt; dsimp only; (repeat' split) <;> simp
@[simp] theorem State.settleInt_pw : s.settleInt.pw = s.pw := by unfold State.settleInt; dsimp only; (repeat' split) <;> simp
@[simp] theorem State.settleInt_usb : s.settleInt.usb = s.usb := by unfold State.settleInt; dsimp only; (repeat' split) <;> simp
@[simp] theorem State.settleInt_yoke : s.settleInt.yoke = s.yoke := by unfold State.settleInt; dsimp only; (repeat' split) <;> simp
@[simp] theorem State.settleInt_hw : s.settleInt.hw = s.hw := by unfold State.settleInt; dsimp only; (repeat' split) <;> simp
@[simp] theorem State.settleInt_upd : s.settleInt.upd = s.upd := by unfold State.settleInt; dsimp only; (repeat' split) <;> simp
@[simp] theorem State.settleInt_thr : s.settleInt.thr = s.thr := by unfold State.settleInt; dsimp only; (repeat' split) <;> simp
@[simp] theorem State.settleInt_freeCount : s.settleInt.freeCount = s.freeCount := by unfold State.settleInt; dsimp only; (repeat' split) <;> simp

/-! ### raise -/

@[simp] theorem State.raise_pending (k : Nat) : (s.raise k).pending = s.pending := by simp only [State.raise, State.settleInt_pending, State.ite]; (repeat' split) <;> simp
@[simp] theorem State.raise_tm (k : Nat) : (s.raise k).tm = s.tm := by simp only [State.raise, State.settleInt_tm, State.ite]; (repeat' split) <;> simp
@[simp] theorem State.raise_mb (k : Nat) : (s.raise k).mb = s.mb := by simp only [State.raise, State.settleInt_mb, State.ite]; (repeat' split) <;> simp
@[simp] theorem State.raise_cfg (k : Nat) : (s.raise k).cfg = s.cfg := by simp only [State.raise, State.settleInt_cfg, State.ite]; (repeat' split) <;> simp
@[simp] theorem State.raise_alm (k : Nat) : (s.raise k).alm = s.alm := by simp only [State.raise, State.settleInt_alm, State.ite]; (repeat' split) <;> simp
@[simp] theorem State.raise_drill (k : Nat) : (s.raise k).drill = s.drill := by simp only [State.raise, State.settleInt_drill, State.ite]; (repeat' split) <;> simp
@[simp] theorem State.raise_sheaf (k : Nat) : (s.raise k).sheaf = s.sheaf := by simp only [State.raise, State.settleInt_sheaf, State.ite]; (repeat' split) <;> simp
@[simp] theorem State.raise_csp (k : Nat) : (s.raise k).csp = s.csp := by simp only [State.raise, State.settleInt_csp, State.ite]; (repeat' split) <;> simp
@[simp] theorem State.raise_csp8 (k : Nat) : (s.raise k).csp8 = s.csp8 := by simp only [State.raise, State.settleInt_csp8, State.ite]; (repeat' split) <;> simp
@[simp] theorem State.raise_sent (k : Nat) : (s.raise k).sent = s.sent := by simp only [State.raise, State.settleInt_sent, State.ite]; (repeat' split) <;> simp
@[simp] theorem State.raise_edge (k : Nat) : (s.raise k).edge = s.edge := by simp only [State.raise, State.settleInt_edge, State.ite]; (repeat' split) <;> simp
@[simp] theorem State.raise_banks (k : Nat) : (s.raise k).banks = s.banks := by simp only [State.raise, State.settleInt_banks, State.ite]; (repeat' split) <;> simp
@[simp] theorem State.raise_twt (k : Nat) : (s.raise k).twt = s.twt := by simp only [State.raise, State.settleInt_twt, State.ite]; (repeat' split) <;> simp
@[simp] theorem State.raise_mirror (k : Nat) : (s.raise k).mirror = s.mirror := by simp only [State.raise, State.settleInt_mirror, State.ite]; (repeat' split) <;> simp
@[simp] theorem State.raise_mem (k : Nat) : (s.raise k).mem = s.mem := by simp only [State.raise, State.settleInt_mem, State.ite]; (repeat' split) <;> simp
@[simp] theorem State.raise_clk (k : Nat) : (s.raise k).clk = s.clk := by simp only [State.raise, State.settleInt_clk, State.ite]; (repeat' split) <;> simp
@[simp] theorem State.raise_boot (k : Nat) : (s.raise k).boot = s.boot := by simp only [State.raise, State.settleInt_boot, State.ite]; (repeat' split) <;> simp
@[simp] theorem State.raise_lev (k : Nat) : (s.raise k).lev = s.lev := by simp only [State.raise, State.settleInt_lev, State.ite]; (repeat' split) <;> simp
@[simp] theorem State.raise_pw (k : Nat) : (s.raise k).pw = s.pw := by simp only [State.raise, State.settleInt_pw, State.ite]; (repeat' split) <;> simp
@[simp] theorem State.raise_usb (k : Nat) : (s.raise k).usb = s.usb := by simp only [State.raise, State.settleInt_usb, State.ite]; (repeat' split) <;> simp
@[simp] theorem State.raise_yoke (k : Nat) : (s.raise k).yoke = s.yoke := by simp only [State.raise, State.settleInt_yoke, State.ite]; (repeat' split) <;> simp
@[simp] theorem State.raise_hw (k : Nat) : (s.raise k).hw = s.hw := by simp only [State.raise, State.settleInt_hw, State.ite]; (repeat' split) <;> simp
@[simp] theorem State.raise_upd (k : Nat) : (s.raise k).upd = s.upd := by simp only [State.raise, State.settleInt_upd, State.ite]; (repeat' split) <;> simp
@[simp] theorem State.raise_thr (k : Nat) : (s.raise k).thr = s.thr := by simp only [State.raise, State.settleInt_thr, State.ite]; (repeat' split) <;> simp
@[simp] theorem State.raise_freeCount (k : Nat) : (s.raise k).freeCount = s.freeCount := by simp only [State.raise, State.settleInt_freeCount, State.ite]; (repeat' split) <;> simp

/-! ### raiseOnce -/

@[simp] theorem State.raiseOnce_pending (k : Nat) : (s.raiseOnce k).pending = s.pending := by unfold State.raiseOnce; split <;> simp
@[simp] theorem State.raiseOnce_tm (k : Nat) : (s.raiseOnce k).tm = s.tm := by unfold State.raiseOnce; split <;> simp
@[simp] theorem State.raiseOnce_mb (k : Nat) : (s.raiseOnce k).mb = s.mb := by unfold State.raiseOnce; split <;> simp
@[simp] theorem State.raiseOnce_cfg (k : Nat) : (s.raiseOnce k).cfg = s.cfg := by unfold State.raiseOnce; split <;> simp
@[simp] theorem State.raiseOnce_alm (k : Nat) : (s.raiseOnce k).alm = s.alm := by unfold State.raiseOnce; split <;> simp
@[simp] theorem State.raiseOnce_drill (k : Nat) : (s.raiseOnce k).drill = s.drill := by unfold State.raiseOnce; split <;> simp
@[simp] theorem State.raiseOnce_sheaf (k : Nat) : (s.raiseOnce k).sheaf = s.sheaf := by unfold State.raiseOnce; split <;> simp
@[simp] theorem State.raiseOnce_csp (k : Nat) : (s.raiseOnce k).csp = s.csp := by unfold State.raiseOnce; split <;> simp
@[simp] theorem State.raiseOnce_csp8 (k : Nat) : (s.raiseOnce k).csp8 = s.csp8 := by unfold State.raiseOnce; split <;> simp
@[simp] theorem State.raiseOnce_sent (k : Nat) : (s.raiseOnce k).sent = s.sent := by unfold State.raiseOnce; split <;> simp
@[simp] theorem State.raiseOnce_edge (k : Nat) : (s.raiseOnce k).edge = s.edge := by unfold State.raiseOnce; split <;> simp
@[simp] theorem State.raiseOnce_banks (k : Nat) : (s.raiseOnce k).banks = s.banks := by unfold State.raiseOnce; split <;> simp
@[simp] theorem State.raiseOnce_twt (k : Nat) : (s.raiseOnce k).twt = s.twt := by unfold State.raiseOnce; split <;> simp
@[simp] theorem State.raiseOnce_mirror (k : Nat) : (s.raiseOnce k).mirror = s.mirror := by unfold State.raiseOnce; split <;> simp
@[simp] theorem State.raiseOnce_mem (k : Nat) : (s.raiseOnce k).mem = s.mem := by unfold State.raiseOnce; split <;> simp
@[simp] theorem State.raiseOnce_clk (k : Nat) : (s.raiseOnce k).clk = s.clk := by unfold State.raiseOnce; split <;> simp
@[simp] theorem State.raiseOnce_boot (k : Nat) : (s.raiseOnce k).boot = s.boot := by unfold State.raiseOnce; split <;> simp
@[simp] theorem State.raiseOnce_lev (k : Nat) : (s.raiseOnce k).lev = s.lev := by unfold State.raiseOnce; split <;> simp
@[simp] theorem State.raiseOnce_pw (k : Nat) : (s.raiseOnce k).pw = s.pw := by unfold State.raiseOnce; split <;> simp
@[simp] theorem State.raiseOnce_usb (k : Nat) : (s.raiseOnce k).usb = s.usb := by unfold State.raiseOnce; split <;> simp
@[simp] theorem State.raiseOnce_yoke (k : Nat) : (s.raiseOnce k).yoke = s.yoke := by unfold State.raiseOnce; split <;> simp
@[simp] theorem State.raiseOnce_hw (k : Nat) : (s.raiseOnce k).hw = s.hw := by unfold State.raiseOnce; split <;> simp
@[simp] theorem State.raiseOnce_upd (k : Nat) : (s.raiseOnce k).upd = s.upd := by unfold State.raiseOnce; split <;> simp
@[simp] theorem State.raiseOnce_thr (k : Nat) : (s.raiseOnce k).thr = s.thr := by unfold State.raiseOnce; split <;> simp
@[simp] theorem State.raiseOnce_freeCount (k : Nat) : (s.raiseOnce k).freeCount = s.freeCount := by unfold State.raiseOnce; split <;> simp

/-! ### tellDrops -/

@[simp] theorem State.tellDrops_pending : s.tellDrops.pending = s.pending := by unfold State.tellDrops; (repeat' split) <;> simp
@[simp] theorem State.tellDrops_tm : s.tellDrops.tm = s.tm := by unfold State.tellDrops; (repeat' split) <;> simp
@[simp] theorem State.tellDrops_mb : s.tellDrops.mb = s.mb := by unfold State.tellDrops; (repeat' split) <;> simp
@[simp] theorem State.tellDrops_cfg : s.tellDrops.cfg = s.cfg := by unfold State.tellDrops; (repeat' split) <;> simp
@[simp] theorem State.tellDrops_cnt : s.tellDrops.cnt = s.cnt := by unfold State.tellDrops; (repeat' split) <;> simp
@[simp] theorem State.tellDrops_ev : s.tellDrops.ev = s.ev := by unfold State.tellDrops; (repeat' split) <;> simp
@[simp] theorem State.tellDrops_drill : s.tellDrops.drill = s.drill := by unfold State.tellDrops; (repeat' split) <;> simp
@[simp] theorem State.tellDrops_sheaf : s.tellDrops.sheaf = s.sheaf := by unfold State.tellDrops; (repeat' split) <;> simp
@[simp] theorem State.tellDrops_csp : s.tellDrops.csp = s.csp := by unfold State.tellDrops; (repeat' split) <;> simp
@[simp] theorem State.tellDrops_csp8 : s.tellDrops.csp8 = s.csp8 := by unfold State.tellDrops; (repeat' split) <;> simp
@[simp] theorem State.tellDrops_sent : s.tellDrops.sent = s.sent := by unfold State.tellDrops; (repeat' split) <;> simp
@[simp] theorem State.tellDrops_edge : s.tellDrops.edge = s.edge := by unfold State.tellDrops; (repeat' split) <;> simp
@[simp] theorem State.tellDrops_banks : s.tellDrops.banks = s.banks := by unfold State.tellDrops; (repeat' split) <;> simp
@[simp] theorem State.tellDrops_twt : s.tellDrops.twt = s.twt := by unfold State.tellDrops; (repeat' split) <;> simp
@[simp] theorem State.tellDrops_mirror : s.tellDrops.mirror = s.mirror := by unfold State.tellDrops; (repeat' split) <;> simp
@[simp] theorem State.tellDrops_mem : s.tellDrops.mem = s.mem := by unfold State.tellDrops; (repeat' split) <;> simp
@[simp] theorem State.tellDrops_clk : s.tellDrops.clk = s.clk := by unfold State.tellDrops; (repeat' split) <;> simp
@[simp] theorem State.tellDrops_boot : s.tellDrops.boot = s.boot := by unfold State.tellDrops; (repeat' split) <;> simp
@[simp] theorem State.tellDrops_lev : s.tellDrops.lev = s.lev := by unfold State.tellDrops; (repeat' split) <;> simp
@[simp] theorem State.tellDrops_pw : s.tellDrops.pw = s.pw := by unfold State.tellDrops; (repeat' split) <;> simp
@[simp] theorem State.tellDrops_usb : s.tellDrops.usb = s.usb := by unfold State.tellDrops; (repeat' split) <;> simp
@[simp] theorem State.tellDrops_yoke : s.tellDrops.yoke = s.yoke := by unfold State.tellDrops; (repeat' split) <;> simp
@[simp] theorem State.tellDrops_hw : s.tellDrops.hw = s.hw := by unfold State.tellDrops; (repeat' split) <;> simp
@[simp] theorem State.tellDrops_upd : s.tellDrops.upd = s.upd := by unfold State.tellDrops; (repeat' split) <;> simp
@[simp] theorem State.tellDrops_thr : s.tellDrops.thr = s.thr := by unfold State.tellDrops; (repeat' split) <;> simp
@[simp] theorem State.tellDrops_freeCount : s.tellDrops.freeCount = s.freeCount := by unfold State.tellDrops; (repeat' split) <;> simp

/-! ### enqueue -/

@[simp] theorem State.enqueue_pending (r : AlmRec) : (s.enqueue r).pending = s.pending := by unfold State.enqueue; dsimp only; split <;> simp
@[simp] theorem State.enqueue_tm (r : AlmRec) : (s.enqueue r).tm = s.tm := by unfold State.enqueue; dsimp only; split <;> simp
@[simp] theorem State.enqueue_mb (r : AlmRec) : (s.enqueue r).mb = s.mb := by unfold State.enqueue; dsimp only; split <;> simp
@[simp] theorem State.enqueue_cfg (r : AlmRec) : (s.enqueue r).cfg = s.cfg := by unfold State.enqueue; dsimp only; split <;> simp
@[simp] theorem State.enqueue_ev (r : AlmRec) : (s.enqueue r).ev = s.ev := by unfold State.enqueue; dsimp only; split <;> simp
@[simp] theorem State.enqueue_drill (r : AlmRec) : (s.enqueue r).drill = s.drill := by unfold State.enqueue; dsimp only; split <;> simp
@[simp] theorem State.enqueue_sheaf (r : AlmRec) : (s.enqueue r).sheaf = s.sheaf := by unfold State.enqueue; dsimp only; split <;> simp
@[simp] theorem State.enqueue_csp (r : AlmRec) : (s.enqueue r).csp = s.csp := by unfold State.enqueue; dsimp only; split <;> simp
@[simp] theorem State.enqueue_csp8 (r : AlmRec) : (s.enqueue r).csp8 = s.csp8 := by unfold State.enqueue; dsimp only; split <;> simp
@[simp] theorem State.enqueue_sent (r : AlmRec) : (s.enqueue r).sent = s.sent := by unfold State.enqueue; dsimp only; split <;> simp
@[simp] theorem State.enqueue_edge (r : AlmRec) : (s.enqueue r).edge = s.edge := by unfold State.enqueue; dsimp only; split <;> simp
@[simp] theorem State.enqueue_banks (r : AlmRec) : (s.enqueue r).banks = s.banks := by unfold State.enqueue; dsimp only; split <;> simp
@[simp] theorem State.enqueue_twt (r : AlmRec) : (s.enqueue r).twt = s.twt := by unfold State.enqueue; dsimp only; split <;> simp
@[simp] theorem State.enqueue_mirror (r : AlmRec) : (s.enqueue r).mirror = s.mirror := by unfold State.enqueue; dsimp only; split <;> simp
@[simp] theorem State.enqueue_mem (r : AlmRec) : (s.enqueue r).mem = s.mem := by unfold State.enqueue; dsimp only; split <;> simp
@[simp] theorem State.enqueue_clk (r : AlmRec) : (s.enqueue r).clk = s.clk := by unfold State.enqueue; dsimp only; split <;> simp
@[simp] theorem State.enqueue_boot (r : AlmRec) : (s.enqueue r).boot = s.boot := by unfold State.enqueue; dsimp only; split <;> simp
@[simp] theorem State.enqueue_lev (r : AlmRec) : (s.enqueue r).lev = s.lev := by unfold State.enqueue; dsimp only; split <;> simp
@[simp] theorem State.enqueue_pw (r : AlmRec) : (s.enqueue r).pw = s.pw := by unfold State.enqueue; dsimp only; split <;> simp
@[simp] theorem State.enqueue_usb (r : AlmRec) : (s.enqueue r).usb = s.usb := by unfold State.enqueue; dsimp only; split <;> simp
@[simp] theorem State.enqueue_yoke (r : AlmRec) : (s.enqueue r).yoke = s.yoke := by unfold State.enqueue; dsimp only; split <;> simp
@[simp] theorem State.enqueue_hw (r : AlmRec) : (s.enqueue r).hw = s.hw := by unfold State.enqueue; dsimp only; split <;> simp
@[simp] theorem State.enqueue_upd (r : AlmRec) : (s.enqueue r).upd = s.upd := by unfold State.enqueue; dsimp only; split <;> simp
@[simp] theorem State.enqueue_thr (r : AlmRec) : (s.enqueue r).thr = s.thr := by unfold State.enqueue; dsimp only; split <;> simp
@[simp] theorem State.enqueue_freeCount (r : AlmRec) : (s.enqueue r).freeCount = s.freeCount := by unfold State.enqueue; dsimp only; split <;> simp

/-! ### closeWindow -/

@[simp] theorem State.closeWindow_pending (w : MergeWin) (t : Nat) : (s.closeWindow w t).pending = s.pending := by unfold State.closeWindow; dsimp only; split <;> simp
@[simp] theorem State.closeWindow_tm (w : MergeWin) (t : Nat) : (s.closeWindow w t).tm = s.tm := by unfold State.closeWindow; dsimp only; split <;> simp
@[simp] theorem State.closeWindow_mb (w : MergeWin) (t : Nat) : (s.closeWindow w t).mb = s.mb := by unfold State.closeWindow; dsimp only; split <;> simp
@[simp] theorem State.closeWindow_cfg (w : MergeWin) (t : Nat) : (s.closeWindow w t).cfg = s.cfg := by unfold State.closeWindow; dsimp only; split <;> simp
@[simp] theorem State.closeWindow_ev (w : MergeWin) (t : Nat) : (s.closeWindow w t).ev = s.ev := by unfold State.closeWindow; dsimp only; split <;> simp
@[simp] theorem State.closeWindow_drill (w : MergeWin) (t : Nat) : (s.closeWindow w t).drill = s.drill := by unfold State.closeWindow; dsimp only; split <;> simp
@[simp] theorem State.closeWindow_sheaf (w : MergeWin) (t : Nat) : (s.closeWindow w t).sheaf = s.sheaf := by unfold State.closeWindow; dsimp only; split <;> simp
@[simp] theorem State.closeWindow_csp (w : MergeWin) (t : Nat) : (s.closeWindow w t).csp = s.csp := by unfold State.closeWindow; dsimp only; split <;> simp
@[simp] theorem State.closeWindow_csp8 (w : MergeWin) (t : Nat) : (s.closeWindow w t).csp8 = s.csp8 := by unfold State.closeWindow; dsimp only; split <;> simp
@[simp] theorem State.closeWindow_sent (w : MergeWin) (t : Nat) : (s.closeWindow w t).sent = s.sent := by unfold State.closeWindow; dsimp only; split <;> simp
@[simp] theorem State.closeWindow_edge (w : MergeWin) (t : Nat) : (s.closeWindow w t).edge = s.edge := by unfold State.closeWindow; dsimp only; split <;> simp
@[simp] theorem State.closeWindow_banks (w : MergeWin) (t : Nat) : (s.closeWindow w t).banks = s.banks := by unfold State.closeWindow; dsimp only; split <;> simp
@[simp] theorem State.closeWindow_twt (w : MergeWin) (t : Nat) : (s.closeWindow w t).twt = s.twt := by unfold State.closeWindow; dsimp only; split <;> simp
@[simp] theorem State.closeWindow_mirror (w : MergeWin) (t : Nat) : (s.closeWindow w t).mirror = s.mirror := by unfold State.closeWindow; dsimp only; split <;> simp
@[simp] theorem State.closeWindow_mem (w : MergeWin) (t : Nat) : (s.closeWindow w t).mem = s.mem := by unfold State.closeWindow; dsimp only; split <;> simp
@[simp] theorem State.closeWindow_clk (w : MergeWin) (t : Nat) : (s.closeWindow w t).clk = s.clk := by unfold State.closeWindow; dsimp only; split <;> simp
@[simp] theorem State.closeWindow_boot (w : MergeWin) (t : Nat) : (s.closeWindow w t).boot = s.boot := by unfold State.closeWindow; dsimp only; split <;> simp
@[simp] theorem State.closeWindow_lev (w : MergeWin) (t : Nat) : (s.closeWindow w t).lev = s.lev := by unfold State.closeWindow; dsimp only; split <;> simp
@[simp] theorem State.closeWindow_pw (w : MergeWin) (t : Nat) : (s.closeWindow w t).pw = s.pw := by unfold State.closeWindow; dsimp only; split <;> simp
@[simp] theorem State.closeWindow_usb (w : MergeWin) (t : Nat) : (s.closeWindow w t).usb = s.usb := by unfold State.closeWindow; dsimp only; split <;> simp
@[simp] theorem State.closeWindow_yoke (w : MergeWin) (t : Nat) : (s.closeWindow w t).yoke = s.yoke := by unfold State.closeWindow; dsimp only; split <;> simp
@[simp] theorem State.closeWindow_hw (w : MergeWin) (t : Nat) : (s.closeWindow w t).hw = s.hw := by unfold State.closeWindow; dsimp only; split <;> simp
@[simp] theorem State.closeWindow_upd (w : MergeWin) (t : Nat) : (s.closeWindow w t).upd = s.upd := by unfold State.closeWindow; dsimp only; split <;> simp
@[simp] theorem State.closeWindow_thr (w : MergeWin) (t : Nat) : (s.closeWindow w t).thr = s.thr := by unfold State.closeWindow; dsimp only; split <;> simp
@[simp] theorem State.closeWindow_freeCount (w : MergeWin) (t : Nat) : (s.closeWindow w t).freeCount = s.freeCount := by unfold State.closeWindow; dsimp only; split <;> simp

/-! ### record -/

@[simp] theorem State.record_pending (r : AlmRec) : (s.record r).pending = s.pending := by unfold State.record; dsimp only; (repeat' split) <;> simp
@[simp] theorem State.record_tm (r : AlmRec) : (s.record r).tm = s.tm := by unfold State.record; dsimp only; (repeat' split) <;> simp
@[simp] theorem State.record_mb (r : AlmRec) : (s.record r).mb = s.mb := by unfold State.record; dsimp only; (repeat' split) <;> simp
@[simp] theorem State.record_cfg (r : AlmRec) : (s.record r).cfg = s.cfg := by unfold State.record; dsimp only; (repeat' split) <;> simp
@[simp] theorem State.record_ev (r : AlmRec) : (s.record r).ev = s.ev := by unfold State.record; dsimp only; (repeat' split) <;> simp
@[simp] theorem State.record_drill (r : AlmRec) : (s.record r).drill = s.drill := by unfold State.record; dsimp only; (repeat' split) <;> simp
@[simp] theorem State.record_sheaf (r : AlmRec) : (s.record r).sheaf = s.sheaf := by unfold State.record; dsimp only; (repeat' split) <;> simp
@[simp] theorem State.record_csp (r : AlmRec) : (s.record r).csp = s.csp := by unfold State.record; dsimp only; (repeat' split) <;> simp
@[simp] theorem State.record_csp8 (r : AlmRec) : (s.record r).csp8 = s.csp8 := by unfold State.record; dsimp only; (repeat' split) <;> simp
@[simp] theorem State.record_sent (r : AlmRec) : (s.record r).sent = s.sent := by unfold State.record; dsimp only; (repeat' split) <;> simp
@[simp] theorem State.record_edge (r : AlmRec) : (s.record r).edge = s.edge := by unfold State.record; dsimp only; (repeat' split) <;> simp
@[simp] theorem State.record_banks (r : AlmRec) : (s.record r).banks = s.banks := by unfold State.record; dsimp only; (repeat' split) <;> simp
@[simp] theorem State.record_twt (r : AlmRec) : (s.record r).twt = s.twt := by unfold State.record; dsimp only; (repeat' split) <;> simp
@[simp] theorem State.record_mirror (r : AlmRec) : (s.record r).mirror = s.mirror := by unfold State.record; dsimp only; (repeat' split) <;> simp
@[simp] theorem State.record_mem (r : AlmRec) : (s.record r).mem = s.mem := by unfold State.record; dsimp only; (repeat' split) <;> simp
@[simp] theorem State.record_clk (r : AlmRec) : (s.record r).clk = s.clk := by unfold State.record; dsimp only; (repeat' split) <;> simp
@[simp] theorem State.record_boot (r : AlmRec) : (s.record r).boot = s.boot := by unfold State.record; dsimp only; (repeat' split) <;> simp
@[simp] theorem State.record_lev (r : AlmRec) : (s.record r).lev = s.lev := by unfold State.record; dsimp only; (repeat' split) <;> simp
@[simp] theorem State.record_pw (r : AlmRec) : (s.record r).pw = s.pw := by unfold State.record; dsimp only; (repeat' split) <;> simp
@[simp] theorem State.record_usb (r : AlmRec) : (s.record r).usb = s.usb := by unfold State.record; dsimp only; (repeat' split) <;> simp
@[simp] theorem State.record_yoke (r : AlmRec) : (s.record r).yoke = s.yoke := by unfold State.record; dsimp only; (repeat' split) <;> simp
@[simp] theorem State.record_hw (r : AlmRec) : (s.record r).hw = s.hw := by unfold State.record; dsimp only; (repeat' split) <;> simp
@[simp] theorem State.record_upd (r : AlmRec) : (s.record r).upd = s.upd := by unfold State.record; dsimp only; (repeat' split) <;> simp
@[simp] theorem State.record_thr (r : AlmRec) : (s.record r).thr = s.thr := by unfold State.record; dsimp only; (repeat' split) <;> simp
@[simp] theorem State.record_freeCount (r : AlmRec) : (s.record r).freeCount = s.freeCount := by unfold State.record; dsimp only; (repeat' split) <;> simp

/-! ### log -/

@[simp] theorem State.log_pending (t n i c : Nat) (d : List Byte) : (s.log t n i c d).pending = s.pending := by simp [State.log]
@[simp] theorem State.log_tm (t n i c : Nat) (d : List Byte) : (s.log t n i c d).tm = s.tm := by simp [State.log]
@[simp] theorem State.log_mb (t n i c : Nat) (d : List Byte) : (s.log t n i c d).mb = s.mb := by simp [State.log]
@[simp] theorem State.log_cfg (t n i c : Nat) (d : List Byte) : (s.log t n i c d).cfg = s.cfg := by simp [State.log]
@[simp] theorem State.log_ev (t n i c : Nat) (d : List Byte) : (s.log t n i c d).ev = s.ev := by simp [State.log]
@[simp] theorem State.log_drill (t n i c : Nat) (d : List Byte) : (s.log t n i c d).drill = s.drill := by simp [State.log]
@[simp] theorem State.log_sheaf (t n i c : Nat) (d : List Byte) : (s.log t n i c d).sheaf = s.sheaf := by simp [State.log]
@[simp] theorem State.log_csp (t n i c : Nat) (d : List Byte) : (s.log t n i c d).csp = s.csp := by simp [State.log]
@[simp] theorem State.log_csp8 (t n i c : Nat) (d : List Byte) : (s.log t n i c d).csp8 = s.csp8 := by simp [State.log]
@[simp] theorem State.log_sent (t n i c : Nat) (d : List Byte) : (s.log t n i c d).sent = s.sent := by simp [State.log]
@[simp] theorem State.log_edge (t n i c : Nat) (d : List Byte) : (s.log t n i c d).edge = s.edge := by simp [State.log]
@[simp] theorem State.log_banks (t n i c : Nat) (d : List Byte) : (s.log t n i c d).banks = s.banks := by simp [State.log]
@[simp] theorem State.log_twt (t n i c : Nat) (d : List Byte) : (s.log t n i c d).twt = s.twt := by simp [State.log]
@[simp] theorem State.log_mirror (t n i c : Nat) (d : List Byte) : (s.log t n i c d).mirror = s.mirror := by simp [State.log]
@[simp] theorem State.log_mem (t n i c : Nat) (d : List Byte) : (s.log t n i c d).mem = s.mem := by simp [State.log]
@[simp] theorem State.log_clk (t n i c : Nat) (d : List Byte) : (s.log t n i c d).clk = s.clk := by simp [State.log]
@[simp] theorem State.log_boot (t n i c : Nat) (d : List Byte) : (s.log t n i c d).boot = s.boot := by simp [State.log]
@[simp] theorem State.log_lev (t n i c : Nat) (d : List Byte) : (s.log t n i c d).lev = s.lev := by simp [State.log]
@[simp] theorem State.log_pw (t n i c : Nat) (d : List Byte) : (s.log t n i c d).pw = s.pw := by simp [State.log]
@[simp] theorem State.log_usb (t n i c : Nat) (d : List Byte) : (s.log t n i c d).usb = s.usb := by simp [State.log]
@[simp] theorem State.log_yoke (t n i c : Nat) (d : List Byte) : (s.log t n i c d).yoke = s.yoke := by simp [State.log]
@[simp] theorem State.log_hw (t n i c : Nat) (d : List Byte) : (s.log t n i c d).hw = s.hw := by simp [State.log]
@[simp] theorem State.log_upd (t n i c : Nat) (d : List Byte) : (s.log t n i c d).upd = s.upd := by simp [State.log]
@[simp] theorem State.log_thr (t n i c : Nat) (d : List Byte) : (s.log t n i c d).thr = s.thr := by simp [State.log]
@[simp] theorem State.log_freeCount (t n i c : Nat) (d : List Byte) : (s.log t n i c d).freeCount = s.freeCount := by simp [State.log]

/-! ### stream6 -/

@[simp] theorem State.stream6_pending (b : List Byte) : (s.stream6 b).pending = s.pending := by unfold State.stream6; split <;> simp
@[simp] theorem State.stream6_tm (b : List Byte) : (s.stream6 b).tm = s.tm := by unfold State.stream6; split <;> simp
@[simp] theorem State.stream6_mb (b : List Byte) : (s.stream6 b).mb = s.mb := by unfold State.stream6; split <;> simp
@[simp] theorem State.stream6_cfg (b : List Byte) : (s.stream6 b).cfg = s.cfg := by unfold State.stream6; split <;> simp
@[simp] theorem State.stream6_ev (b : List Byte) : (s.stream6 b).ev = s.ev := by unfold State.stream6; split <;> simp
@[simp] theorem State.stream6_drill (b : List Byte) : (s.stream6 b).drill = s.drill := by unfold State.stream6; split <;> simp
@[simp] theorem State.stream6_sheaf (b : List Byte) : (s.stream6 b).sheaf = s.sheaf := by unfold State.stream6; split <;> simp
@[simp] theorem State.stream6_csp (b : List Byte) : (s.stream6 b).csp = s.csp := by unfold State.stream6; split <;> simp
@[simp] theorem State.stream6_csp8 (b : List Byte) : (s.stream6 b).csp8 = s.csp8 := by unfold State.stream6; split <;> simp
@[simp] theorem State.stream6_sent (b : List Byte) : (s.stream6 b).sent = s.sent := by unfold State.stream6; split <;> simp
@[simp] theorem State.stream6_edge (b : List Byte) : (s.stream6 b).edge = s.edge := by unfold State.stream6; split <;> simp
@[simp] theorem State.stream6_banks (b : List Byte) : (s.stream6 b).banks = s.banks := by unfold State.stream6; split <;> simp
@[simp] theorem State.stream6_twt (b : List Byte) : (s.stream6 b).twt = s.twt := by unfold State.stream6; split <;> simp
@[simp] theorem State.stream6_mirror (b : List Byte) : (s.stream6 b).mirror = s.mirror := by unfold State.stream6; split <;> simp
@[simp] theorem State.stream6_mem (b : List Byte) : (s.stream6 b).mem = s.mem := by unfold State.stream6; split <;> simp
@[simp] theorem State.stream6_clk (b : List Byte) : (s.stream6 b).clk = s.clk := by unfold State.stream6; split <;> simp
@[simp] theorem State.stream6_boot (b : List Byte) : (s.stream6 b).boot = s.boot := by unfold State.stream6; split <;> simp
@[simp] theorem State.stream6_lev (b : List Byte) : (s.stream6 b).lev = s.lev := by unfold State.stream6; split <;> simp
@[simp] theorem State.stream6_pw (b : List Byte) : (s.stream6 b).pw = s.pw := by unfold State.stream6; split <;> simp
@[simp] theorem State.stream6_usb (b : List Byte) : (s.stream6 b).usb = s.usb := by unfold State.stream6; split <;> simp
@[simp] theorem State.stream6_yoke (b : List Byte) : (s.stream6 b).yoke = s.yoke := by unfold State.stream6; split <;> simp
@[simp] theorem State.stream6_hw (b : List Byte) : (s.stream6 b).hw = s.hw := by unfold State.stream6; split <;> simp
@[simp] theorem State.stream6_upd (b : List Byte) : (s.stream6 b).upd = s.upd := by unfold State.stream6; split <;> simp
@[simp] theorem State.stream6_thr (b : List Byte) : (s.stream6 b).thr = s.thr := by unfold State.stream6; split <;> simp
@[simp] theorem State.stream6_freeCount (b : List Byte) : (s.stream6 b).freeCount = s.freeCount := by unfold State.stream6; split <;> simp

/-! ### queueReply -/

@[simp] theorem State.queueReply_pending (ch : Nat) (r : Reply) : (s.queueReply ch r).pending = s.pending := by simp only [State.queueReply, State.ite]; (repeat' split) <;> simp
@[simp] theorem State.queueReply_tm (ch : Nat) (r : Reply) : (s.queueReply ch r).tm = s.tm := by simp only [State.queueReply, State.ite]; (repeat' split) <;> simp
@[simp] theorem State.queueReply_cfg (ch : Nat) (r : Reply) : (s.queueReply ch r).cfg = s.cfg := by simp only [State.queueReply, State.ite]; (repeat' split) <;> simp
@[simp] theorem State.queueReply_drill (ch : Nat) (r : Reply) : (s.queueReply ch r).drill = s.drill := by simp only [State.queueReply, State.ite]; (repeat' split) <;> simp
@[simp] theorem State.queueReply_sheaf (ch : Nat) (r : Reply) : (s.queueReply ch r).sheaf = s.sheaf := by simp only [State.queueReply, State.ite]; (repeat' split) <;> simp
@[simp] theorem State.queueReply_csp (ch : Nat) (r : Reply) : (s.queueReply ch r).csp = s.csp := by simp only [State.queueReply, State.ite]; (repeat' split) <;> simp
@[simp] theorem State.queueReply_csp8 (ch : Nat) (r : Reply) : (s.queueReply ch r).csp8 = s.csp8 := by simp only [State.queueReply, State.ite]; (repeat' split) <;> simp
@[simp] theorem State.queueReply_sent (ch : Nat) (r : Reply) : (s.queueReply ch r).sent = s.sent := by simp only [State.queueReply, State.ite]; (repeat' split) <;> simp
@[simp] theorem State.queueReply_edge (ch : Nat) (r : Reply) : (s.queueReply ch r).edge = s.edge := by simp only [State.queueReply, State.ite]; (repeat' split) <;> simp
@[simp] theorem State.queueReply_banks (ch : Nat) (r : Reply) : (s.queueReply ch r).banks = s.banks := by simp only [State.queueReply, State.ite]; (repeat' split) <;> simp
@[simp] theorem State.queueReply_twt (ch : Nat) (r : Reply) : (s.queueReply ch r).twt = s.twt := by simp only [State.queueReply, State.ite]; (repeat' split) <;> simp
@[simp] theorem State.queueReply_mirror (ch : Nat) (r : Reply) : (s.queueReply ch r).mirror = s.mirror := by simp only [State.queueReply, State.ite]; (repeat' split) <;> simp
@[simp] theorem State.queueReply_mem (ch : Nat) (r : Reply) : (s.queueReply ch r).mem = s.mem := by simp only [State.queueReply, State.ite]; (repeat' split) <;> simp
@[simp] theorem State.queueReply_clk (ch : Nat) (r : Reply) : (s.queueReply ch r).clk = s.clk := by simp only [State.queueReply, State.ite]; (repeat' split) <;> simp
@[simp] theorem State.queueReply_boot (ch : Nat) (r : Reply) : (s.queueReply ch r).boot = s.boot := by simp only [State.queueReply, State.ite]; (repeat' split) <;> simp
@[simp] theorem State.queueReply_lev (ch : Nat) (r : Reply) : (s.queueReply ch r).lev = s.lev := by simp only [State.queueReply, State.ite]; (repeat' split) <;> simp
@[simp] theorem State.queueReply_pw (ch : Nat) (r : Reply) : (s.queueReply ch r).pw = s.pw := by simp only [State.queueReply, State.ite]; (repeat' split) <;> simp
@[simp] theorem State.queueReply_usb (ch : Nat) (r : Reply) : (s.queueReply ch r).usb = s.usb := by simp only [State.queueReply, State.ite]; (repeat' split) <;> simp
@[simp] theorem State.queueReply_yoke (ch : Nat) (r : Reply) : (s.queueReply ch r).yoke = s.yoke := by simp only [State.queueReply, State.ite]; (repeat' split) <;> simp
@[simp] theorem State.queueReply_hw (ch : Nat) (r : Reply) : (s.queueReply ch r).hw = s.hw := by simp only [State.queueReply, State.ite]; (repeat' split) <;> simp
@[simp] theorem State.queueReply_upd (ch : Nat) (r : Reply) : (s.queueReply ch r).upd = s.upd := by simp only [State.queueReply, State.ite]; (repeat' split) <;> simp
@[simp] theorem State.queueReply_thr (ch : Nat) (r : Reply) : (s.queueReply ch r).thr = s.thr := by simp only [State.queueReply, State.ite]; (repeat' split) <;> simp
@[simp] theorem State.queueReply_freeCount (ch : Nat) (r : Reply) : (s.queueReply ch r).freeCount = s.freeCount := by simp only [State.queueReply, State.ite]; (repeat' split) <;> simp

/-! ### newTable -/

@[simp] theorem State.newTable_pending : s.newTable.pending = s.pending := rfl
@[simp] theorem State.newTable_tm : s.newTable.tm = s.tm := rfl
@[simp] theorem State.newTable_mb : s.newTable.mb = s.mb := rfl
@[simp] theorem State.newTable_cfg : s.newTable.cfg = s.cfg := rfl
@[simp] theorem State.newTable_cnt : s.newTable.cnt = s.cnt := rfl
@[simp] theorem State.newTable_ev : s.newTable.ev = s.ev := rfl
@[simp] theorem State.newTable_alm : s.newTable.alm = s.alm := rfl
@[simp] theorem State.newTable_drill : s.newTable.drill = s.drill := rfl
@[simp] theorem State.newTable_sheaf : s.newTable.sheaf = s.sheaf := rfl
@[simp] theorem State.newTable_csp : s.newTable.csp = s.csp := rfl
@[simp] theorem State.newTable_csp8 : s.newTable.csp8 = s.csp8 := rfl
@[simp] theorem State.newTable_sent : s.newTable.sent = s.sent := rfl
@[simp] theorem State.newTable_edge : s.newTable.edge = s.edge := rfl
@[simp] theorem State.newTable_banks : s.newTable.banks = s.banks := rfl
@[simp] theorem State.newTable_twt : s.newTable.twt = s.twt := rfl
@[simp] theorem State.newTable_mirror : s.newTable.mirror = s.mirror := rfl
@[simp] theorem State.newTable_mem : s.newTable.mem = s.mem := rfl
@[simp] theorem State.newTable_clk : s.newTable.clk = s.clk := rfl
@[simp] theorem State.newTable_boot : s.newTable.boot = s.boot := rfl
@[simp] theorem State.newTable_pw : s.newTable.pw = s.pw := rfl
@[simp] theorem State.newTable_usb : s.newTable.usb = s.usb := rfl
@[simp] theorem State.newTable_yoke : s.newTable.yoke = s.yoke := rfl
@[simp] theorem State.newTable_hw : s.newTable.hw = s.hw := rfl
@[simp] theorem State.newTable_upd : s.newTable.upd = s.upd := rfl
@[simp] theorem State.newTable_thr : s.newTable.thr = s.thr := rfl
@[simp] theorem State.newTable_freeCount : s.newTable.freeCount = s.freeCount := rfl

/-! ### What they change -/

theorem State.settleInt_pending' : s.settleInt.ev.pending = s.ev.pending := by
  unfold State.settleInt; dsimp only; (repeat' split) <;> simp

/-- Raising an event sets its bit of pending and no other (13, Events). -/
@[simp] theorem State.raise_evPending (k : Nat) : (s.raise k).ev.pending = s.ev.pending ||| 2 ^ k := by
  simp only [State.raise, State.settleInt_pending', State.ite]; (repeat' split) <;> simp

/-- Raising an event makes it pending and leaves the others (13, Events). -/
@[simp] theorem State.raise_has (k j : Nat) : (s.raise k).has j = (s.has j || decide (k = j)) := by
  simp [State.has, bitAt, Nat.testBit_two_pow]

theorem State.has_congr {t : State} (h : t.ev = s.ev) (k : Nat) : t.has k = s.has k := by simp [State.has, h]

@[simp] theorem State.modChan_has (c : Nat) (f : Chan → Chan) (k : Nat) : (s.modChan c f).has k = s.has k := rfl
@[simp] theorem State.bump_has (n w lo wd k : Nat) : (s.bump n w lo wd).has k = s.has k := rfl
@[simp] theorem State.stream6_has (e : List Byte) (k : Nat) : (s.stream6 e).has k = s.has k := State.has_congr s (by simp) k

/-- A reply queued raises event 22 and may raise event 23 (R66). -/
theorem State.queueReply_has (ch j : Nat) (r : Reply) (h : j ≠ 22) (h' : j ≠ 23) : (s.queueReply ch r).has j = s.has j := by
  simp only [State.queueReply, State.ite]
  (repeat' split) <;> simp [Ne.symm h, Ne.symm h']

/-- A reply queued is the last of its channel's queue. -/
theorem State.queueReply_replies (ch : Nat) (r : Reply) (h : ch < s.mb.chans.length) :
    (nth {} (s.queueReply ch r).mb.chans ch).replies = (nth {} s.mb.chans ch).replies ++ [r] := by
  simp only [State.queueReply, State.ite]; (repeat' split) <;> simp [nth_updAt_self, h]

/-- A reply queued leaves every other channel alone. -/
theorem State.queueReply_other (ch k : Nat) (r : Reply) (h : ch ≠ k) :
    nth {} (s.queueReply ch r).mb.chans k = nth {} s.mb.chans k := by
  simp only [State.queueReply, State.ite]; (repeat' split) <;> simp [nth_updAt_ne, h]

/-- A counter that saturates at w bits, after one more. -/
theorem State.count_bump (n w lo wd : Nat) (h : Tab.wf (fun _ => 0) s.cnt = true) :
    (s.bump n w lo wd).count n w lo = satAdd wd (s.count n w lo) 1 := by
  simp [State.count, Tab.get_set _ _ _ _ _ h]

/-- Every other counter is unchanged. -/
theorem State.count_bump_ne (n w lo wd n' w' lo' : Nat) (h : Tab.wf (fun _ => 0) s.cnt = true) (ne : cntKey n' w' lo' ≠ cntKey n w lo) :
    (s.bump n w lo wd).count n' w' lo' = s.count n' w' lo' := by
  simp [State.count, Tab.get_set _ _ _ _ _ h, ne]

end Sys2Proof.Machine
end

