-- ==== Sys2Proof/Laws/Mailbox.lean ====
section
/-! SUPPORT. What serving a request does: which state it executes in, and what its answer changes. -/

namespace Sys2Proof.Machine

variable {s : State}

/-! ### Replies while Harrow is quiet -/

theorem State.candidate_quiet (h : s.harrowActive = false) (e : Nat) (he : e < 4) (target k : Nat) (j : Option Nat) :
    s.candidate e target k j = false := by
  have : s.windowOpen e = false := by
    simp only [State.harrowActive, List.any_eq_false, List.mem_range] at h
    simpa using h e he
  simp [State.candidate, this]

theorem State.drawUnit_quiet (h : s.harrowActive = false) (target k : Nat) (j : Option Nat) (width : Nat) :
    s.drawUnit target k j width = (s, []) := by
  have c := fun e he => State.candidate_quiet h e he target k j
  have e : List.range 4 = [0, 1, 2, 3] := rfl
  simp [State.drawUnit, e, c]

/-- A reply formed while Harrow is quiet goes on the queue as it is. -/
theorem State.sendReply_quiet (h : s.quiet = true) (ch : Nat) (r : Reply) : s.sendReply ch r = s.queueReply ch r := by
  simp only [State.quiet, Bool.and_eq_true, Bool.not_eq_true', List.isEmpty_iff] at h
  obtain ⟨h1, h2⟩ := h
  unfold State.sendReply
  split
  · rfl
  · rw [State.drawUnit_quiet h1]
    simp only [List.any_nil, List.filter_nil, List.map_nil, List.foldl_nil, List.find?_nil, h2, List.contains_nil, State.ite]
    simp only [List.append_nil, Bool.false_eq_true, if_false, Option.isSome_none, Bool.or_self]
    split <;> rfl

/-! ### The state in which a request executes -/

variable (s)

@[simp] theorem State.received_pending (v : Nat) (r : Req) : (s.received v r).pending = s.pending := by simp only [State.received, State.ite]; (repeat' split) <;> simp
@[simp] theorem State.received_tm (v : Nat) (r : Req) : (s.received v r).tm = s.tm := by simp only [State.received, State.ite]; (repeat' split) <;> simp
@[simp] theorem State.received_cfg (v : Nat) (r : Req) : (s.received v r).cfg = s.cfg := by simp only [State.received, State.ite]; (repeat' split) <;> simp
@[simp] theorem State.received_cnt (v : Nat) (r : Req) : (s.received v r).cnt = s.cnt := by simp only [State.received, State.ite]; (repeat' split) <;> simp
@[simp] theorem State.received_ev (v : Nat) (r : Req) : (s.received v r).ev = s.ev := by simp only [State.received, State.ite]; (repeat' split) <;> simp
@[simp] theorem State.received_alm (v : Nat) (r : Req) : (s.received v r).alm = s.alm := by simp only [State.received, State.ite]; (repeat' split) <;> simp
@[simp] theorem State.received_drill (v : Nat) (r : Req) : (s.received v r).drill = s.drill := by simp only [State.received, State.ite]; (repeat' split) <;> simp
@[simp] theorem State.received_sheaf (v : Nat) (r : Req) : (s.received v r).sheaf = s.sheaf := by simp only [State.received, State.ite]; (repeat' split) <;> simp
@[simp] theorem State.received_csp (v : Nat) (r : Req) : (s.received v r).csp = s.csp := by simp only [State.received, State.ite]; (repeat' split) <;> simp
@[simp] theorem State.received_csp8 (v : Nat) (r : Req) : (s.received v r).csp8 = s.csp8 := by simp only [State.received, State.ite]; (repeat' split) <;> simp
@[simp] theorem State.received_sent (v : Nat) (r : Req) : (s.received v r).sent = s.sent := by simp only [State.received, State.ite]; (repeat' split) <;> simp
@[simp] theorem State.received_edge (v : Nat) (r : Req) : (s.received v r).edge = s.edge := by simp only [State.received, State.ite]; (repeat' split) <;> simp
@[simp] theorem State.received_banks (v : Nat) (r : Req) : (s.received v r).banks = s.banks := by simp only [State.received, State.ite]; (repeat' split) <;> simp
@[simp] theorem State.received_twt (v : Nat) (r : Req) : (s.received v r).twt = s.twt := by simp only [State.received, State.ite]; (repeat' split) <;> simp
@[simp] theorem State.received_mirror (v : Nat) (r : Req) : (s.received v r).mirror = s.mirror := by simp only [State.received, State.ite]; (repeat' split) <;> simp
@[simp] theorem State.received_mem (v : Nat) (r : Req) : (s.received v r).mem = s.mem := by simp only [State.received, State.ite]; (repeat' split) <;> simp
@[simp] theorem State.received_clk (v : Nat) (r : Req) : (s.received v r).clk = s.clk := by simp only [State.received, State.ite]; (repeat' split) <;> simp
@[simp] theorem State.received_boot (v : Nat) (r : Req) : (s.received v r).boot = s.boot := by simp only [State.received, State.ite]; (repeat' split) <;> simp
@[simp] theorem State.received_lev (v : Nat) (r : Req) : (s.received v r).lev = s.lev := by simp only [State.received, State.ite]; (repeat' split) <;> simp
@[simp] theorem State.received_pw (v : Nat) (r : Req) : (s.received v r).pw = s.pw := by simp only [State.received, State.ite]; (repeat' split) <;> simp
@[simp] theorem State.received_usb (v : Nat) (r : Req) : (s.received v r).usb = s.usb := by simp only [State.received, State.ite]; (repeat' split) <;> simp
@[simp] theorem State.received_yoke (v : Nat) (r : Req) : (s.received v r).yoke = s.yoke := by simp only [State.received, State.ite]; (repeat' split) <;> simp
@[simp] theorem State.received_hw (v : Nat) (r : Req) : (s.received v r).hw = s.hw := by simp only [State.received, State.ite]; (repeat' split) <;> simp
@[simp] theorem State.received_upd (v : Nat) (r : Req) : (s.received v r).upd = s.upd := by simp only [State.received, State.ite]; (repeat' split) <;> simp
@[simp] theorem State.received_thr (v : Nat) (r : Req) : (s.received v r).thr = s.thr := by simp only [State.received, State.ite]; (repeat' split) <;> simp
@[simp] theorem State.received_freeCount (v : Nat) (r : Req) : (s.received v r).freeCount = s.freeCount := by simp only [State.received, State.ite]; (repeat' split) <;> simp
@[simp] theorem State.numbered_pending (v : Nat) (r : Req) : (s.numbered v r).pending = s.pending := by simp only [State.numbered, State.remember]; split <;> simp
@[simp] theorem State.numbered_tm (v : Nat) (r : Req) : (s.numbered v r).tm = s.tm := by simp only [State.numbered, State.remember]; split <;> simp
@[simp] theorem State.numbered_cfg (v : Nat) (r : Req) : (s.numbered v r).cfg = s.cfg := by simp only [State.numbered, State.remember]; split <;> simp
@[simp] theorem State.numbered_cnt (v : Nat) (r : Req) : (s.numbered v r).cnt = s.cnt := by simp only [State.numbered, State.remember]; split <;> simp
@[simp] theorem State.numbered_ev (v : Nat) (r : Req) : (s.numbered v r).ev = s.ev := by simp only [State.numbered, State.remember]; split <;> simp
@[simp] theorem State.numbered_alm (v : Nat) (r : Req) : (s.numbered v r).alm = s.alm := by simp only [State.numbered, State.remember]; split <;> simp
@[simp] theorem State.numbered_drill (v : Nat) (r : Req) : (s.numbered v r).drill = s.drill := by simp only [State.numbered, State.remember]; split <;> simp
@[simp] theorem State.numbered_sheaf (v : Nat) (r : Req) : (s.numbered v r).sheaf = s.sheaf := by simp only [State.numbered, State.remember]; split <;> simp
@[simp] theorem State.numbered_csp (v : Nat) (r : Req) : (s.numbered v r).csp = s.csp := by simp only [State.numbered, State.remember]; split <;> simp
@[simp] theorem State.numbered_csp8 (v : Nat) (r : Req) : (s.numbered v r).csp8 = s.csp8 := by simp only [State.numbered, State.remember]; split <;> simp
@[simp] theorem State.numbered_sent (v : Nat) (r : Req) : (s.numbered v r).sent = s.sent := by simp only [State.numbered, State.remember]; split <;> simp
@[simp] theorem State.numbered_edge (v : Nat) (r : Req) : (s.numbered v r).edge = s.edge := by simp only [State.numbered, State.remember]; split <;> simp
@[simp] theorem State.numbered_banks (v : Nat) (r : Req) : (s.numbered v r).banks = s.banks := by simp only [State.numbered, State.remember]; split <;> simp
@[simp] theorem State.numbered_twt (v : Nat) (r : Req) : (s.numbered v r).twt = s.twt := by simp only [State.numbered, State.remember]; split <;> simp
@[simp] theorem State.numbered_mirror (v : Nat) (r : Req) : (s.numbered v r).mirror = s.mirror := by simp only [State.numbered, State.remember]; split <;> simp
@[simp] theorem State.numbered_mem (v : Nat) (r : Req) : (s.numbered v r).mem = s.mem := by simp only [State.numbered, State.remember]; split <;> simp
@[simp] theorem State.numbered_clk (v : Nat) (r : Req) : (s.numbered v r).clk = s.clk := by simp only [State.numbered, State.remember]; split <;> simp
@[simp] theorem State.numbered_boot (v : Nat) (r : Req) : (s.numbered v r).boot = s.boot := by simp only [State.numbered, State.remember]; split <;> simp
@[simp] theorem State.numbered_lev (v : Nat) (r : Req) : (s.numbered v r).lev = s.lev := by simp only [State.numbered, State.remember]; split <;> simp
@[simp] theorem State.numbered_pw (v : Nat) (r : Req) : (s.numbered v r).pw = s.pw := by simp only [State.numbered, State.remember]; split <;> simp
@[simp] theorem State.numbered_usb (v : Nat) (r : Req) : (s.numbered v r).usb = s.usb := by simp only [State.numbered, State.remember]; split <;> simp
@[simp] theorem State.numbered_yoke (v : Nat) (r : Req) : (s.numbered v r).yoke = s.yoke := by simp only [State.numbered, State.remember]; split <;> simp
@[simp] theorem State.numbered_hw (v : Nat) (r : Req) : (s.numbered v r).hw = s.hw := by simp only [State.numbered, State.remember]; split <;> simp
@[simp] theorem State.numbered_upd (v : Nat) (r : Req) : (s.numbered v r).upd = s.upd := by simp only [State.numbered, State.remember]; split <;> simp
@[simp] theorem State.numbered_thr (v : Nat) (r : Req) : (s.numbered v r).thr = s.thr := by simp only [State.numbered, State.remember]; split <;> simp
@[simp] theorem State.numbered_freeCount (v : Nat) (r : Req) : (s.numbered v r).freeCount = s.freeCount := by simp only [State.numbered, State.remember]; split <;> simp
@[simp] theorem State.entered_pending (v : Nat) (r : Req) : (s.entered v r).pending = s.pending := by simp [State.entered]
@[simp] theorem State.entered_tm (v : Nat) (r : Req) : (s.entered v r).tm = s.tm := by simp [State.entered]
@[simp] theorem State.entered_cfg (v : Nat) (r : Req) : (s.entered v r).cfg = s.cfg := by simp [State.entered]
@[simp] theorem State.entered_cnt (v : Nat) (r : Req) : (s.entered v r).cnt = s.cnt := by simp [State.entered]
@[simp] theorem State.entered_ev (v : Nat) (r : Req) : (s.entered v r).ev = s.ev := by simp [State.entered]
@[simp] theorem State.entered_alm (v : Nat) (r : Req) : (s.entered v r).alm = s.alm := by simp [State.entered]
@[simp] theorem State.entered_drill (v : Nat) (r : Req) : (s.entered v r).drill = s.drill := by simp [State.entered]
@[simp] theorem State.entered_sheaf (v : Nat) (r : Req) : (s.entered v r).sheaf = s.sheaf := by simp [State.entered]
@[simp] theorem State.entered_csp (v : Nat) (r : Req) : (s.entered v r).csp = s.csp := by simp [State.entered]
@[simp] theorem State.entered_csp8 (v : Nat) (r : Req) : (s.entered v r).csp8 = s.csp8 := by simp [State.entered]
@[simp] theorem State.entered_sent (v : Nat) (r : Req) : (s.entered v r).sent = s.sent := by simp [State.entered]
@[simp] theorem State.entered_edge (v : Nat) (r : Req) : (s.entered v r).edge = s.edge := by simp [State.entered]
@[simp] theorem State.entered_banks (v : Nat) (r : Req) : (s.entered v r).banks = s.banks := by simp [State.entered]
@[simp] theorem State.entered_twt (v : Nat) (r : Req) : (s.entered v r).twt = s.twt := by simp [State.entered]
@[simp] theorem State.entered_mirror (v : Nat) (r : Req) : (s.entered v r).mirror = s.mirror := by simp [State.entered]
@[simp] theorem State.entered_mem (v : Nat) (r : Req) : (s.entered v r).mem = s.mem := by simp [State.entered]
@[simp] theorem State.entered_clk (v : Nat) (r : Req) : (s.entered v r).clk = s.clk := by simp [State.entered]
@[simp] theorem State.entered_boot (v : Nat) (r : Req) : (s.entered v r).boot = s.boot := by simp [State.entered]
@[simp] theorem State.entered_lev (v : Nat) (r : Req) : (s.entered v r).lev = s.lev := by simp [State.entered]
@[simp] theorem State.entered_pw (v : Nat) (r : Req) : (s.entered v r).pw = s.pw := by simp [State.entered]
@[simp] theorem State.entered_usb (v : Nat) (r : Req) : (s.entered v r).usb = s.usb := by simp [State.entered]
@[simp] theorem State.entered_yoke (v : Nat) (r : Req) : (s.entered v r).yoke = s.yoke := by simp [State.entered]
@[simp] theorem State.entered_hw (v : Nat) (r : Req) : (s.entered v r).hw = s.hw := by simp [State.entered]
@[simp] theorem State.entered_upd (v : Nat) (r : Req) : (s.entered v r).upd = s.upd := by simp [State.entered]
@[simp] theorem State.entered_thr (v : Nat) (r : Req) : (s.entered v r).thr = s.thr := by simp [State.entered]
@[simp] theorem State.entered_freeCount (v : Nat) (r : Req) : (s.entered v r).freeCount = s.freeCount := by simp [State.entered]
@[simp] theorem State.received_mb_epoch (v : Nat) (r : Req) : (s.received v r).mb.epoch = s.mb.epoch := by
  simp only [State.received, State.ite]; (repeat' split) <;> simp
@[simp] theorem State.numbered_mb_epoch (v : Nat) (r : Req) : (s.numbered v r).mb.epoch = s.mb.epoch := by
  simp only [State.numbered, State.remember]; split <;> simp
@[simp] theorem State.entered_mb_epoch (v : Nat) (r : Req) : (s.entered v r).mb.epoch = s.mb.epoch := by simp [State.entered]
@[simp] theorem State.received_mb_shadow (v : Nat) (r : Req) : (s.received v r).mb.shadow = s.mb.shadow := by
  simp only [State.received, State.ite]; (repeat' split) <;> simp
@[simp] theorem State.numbered_mb_shadow (v : Nat) (r : Req) : (s.numbered v r).mb.shadow = s.mb.shadow := by
  simp only [State.numbered, State.remember]; split <;> simp
@[simp] theorem State.entered_mb_shadow (v : Nat) (r : Req) : (s.entered v r).mb.shadow = s.mb.shadow := by simp [State.entered]
@[simp] theorem State.received_mb_commit (v : Nat) (r : Req) : (s.received v r).mb.commit = s.mb.commit := by
  simp only [State.received, State.ite]; (repeat' split) <;> simp
@[simp] theorem State.numbered_mb_commit (v : Nat) (r : Req) : (s.numbered v r).mb.commit = s.mb.commit := by
  simp only [State.numbered, State.remember]; split <;> simp
@[simp] theorem State.entered_mb_commit (v : Nat) (r : Req) : (s.entered v r).mb.commit = s.mb.commit := by simp [State.entered]
@[simp] theorem State.received_mb_run (v : Nat) (r : Req) : (s.received v r).mb.run = s.mb.run := by
  simp only [State.received, State.ite]; (repeat' split) <;> simp
@[simp] theorem State.numbered_mb_run (v : Nat) (r : Req) : (s.numbered v r).mb.run = s.mb.run := by
  simp only [State.numbered, State.remember]; split <;> simp
@[simp] theorem State.entered_mb_run (v : Nat) (r : Req) : (s.entered v r).mb.run = s.mb.run := by simp [State.entered]
@[simp] theorem State.received_mb_legacy (v : Nat) (r : Req) : (s.received v r).mb.legacy = s.mb.legacy := by
  simp only [State.received, State.ite]; (repeat' split) <;> simp
@[simp] theorem State.numbered_mb_legacy (v : Nat) (r : Req) : (s.numbered v r).mb.legacy = s.mb.legacy := by
  simp only [State.numbered, State.remember]; split <;> simp
@[simp] theorem State.entered_mb_legacy (v : Nat) (r : Req) : (s.entered v r).mb.legacy = s.mb.legacy := by simp [State.entered]
@[simp] theorem State.received_mb_v2 (v : Nat) (r : Req) : (s.received v r).mb.v2 = s.mb.v2 := by
  simp only [State.received, State.ite]; (repeat' split) <;> simp
@[simp] theorem State.numbered_mb_v2 (v : Nat) (r : Req) : (s.numbered v r).mb.v2 = s.mb.v2 := by
  simp only [State.numbered, State.remember]; split <;> simp
@[simp] theorem State.entered_mb_v2 (v : Nat) (r : Req) : (s.entered v r).mb.v2 = s.mb.v2 := by simp [State.entered]
@[simp] theorem State.received_mb_compatNext (v : Nat) (r : Req) : (s.received v r).mb.compatNext = s.mb.compatNext := by
  simp only [State.received, State.ite]; (repeat' split) <;> simp
@[simp] theorem State.numbered_mb_compatNext (v : Nat) (r : Req) : (s.numbered v r).mb.compatNext = s.mb.compatNext := by
  simp only [State.numbered, State.remember]; split <;> simp
@[simp] theorem State.entered_mb_compatNext (v : Nat) (r : Req) : (s.entered v r).mb.compatNext = s.mb.compatNext := by simp [State.entered]

@[simp] theorem State.received_chans_length (v : Nat) (r : Req) : (s.received v r).mb.chans.length = s.mb.chans.length := by
  simp only [State.received, State.ite]; (repeat' split) <;> simp

@[simp] theorem State.numbered_chans_length (v : Nat) (r : Req) : (s.numbered v r).mb.chans.length = s.mb.chans.length := by
  simp only [State.numbered, State.remember]; split <;> simp

@[simp] theorem State.entered_chans_length (v : Nat) (r : Req) : (s.entered v r).mb.chans.length = s.mb.chans.length := by
  simp [State.entered]

@[simp] theorem State.received_nextId (v : Nat) (r : Req) : (s.received v r).mb.nextId = s.mb.nextId := by
  simp only [State.received, State.ite]; (repeat' split) <;> simp

variable {s}

/-- A channel changed twice, or not at all, keeps what both changes keep. -/
theorem State.received_chan (v : Nat) (r : Req) (h : r.ch.val < s.mb.chans.length) :
    (nth {} (s.received v r).mb.chans r.ch.val).replies = (nth {} s.mb.chans r.ch.val).replies
      ∧ (nth {} (s.received v r).mb.chans r.ch.val).held = (nth {} s.mb.chans r.ch.val).held
      ∧ ((nth {} (s.received v r).mb.chans r.ch.val).history = (nth {} s.mb.chans r.ch.val).history
          ∨ (nth {} (s.received v r).mb.chans r.ch.val).history = []) := by
  simp only [State.received, State.ite]
  (repeat' split) <;> simp [nth_updAt_self, h]

theorem State.numbered_chan (v : Nat) (r : Req) (h : r.ch.val < s.mb.chans.length) :
    (nth {} (s.numbered v r).mb.chans r.ch.val).replies = (nth {} s.mb.chans r.ch.val).replies
      ∧ (nth {} (s.numbered v r).mb.chans r.ch.val).held = (nth {} s.mb.chans r.ch.val).held := by
  have k := State.received_chan (s := s) v r h
  simp only [State.numbered, State.remember]
  split <;> simp [nth_updAt_self, h, k.1, k.2.1]

theorem State.entered_chan (v : Nat) (r : Req) (h : r.ch.val < s.mb.chans.length) :
    (nth {} (s.entered v r).mb.chans r.ch.val).replies = (nth {} s.mb.chans r.ch.val).replies
      ∧ (nth {} (s.entered v r).mb.chans r.ch.val).held = (nth {} s.mb.chans r.ch.val).held ++ [⟨s.mb.nextId, v, r, false⟩] := by
  have k := State.numbered_chan (s := s) v r h
  simp [State.entered, nth_updAt_self, h, k.1, k.2]

/-! ### Serving a new request -/

theorem firstFail_append (a b : List Check) (h : firstFail a = none) : firstFail (a ++ b) = firstFail b := by
  induction a with
  | nil => rfl
  | cons c t ih =>
    obtain ⟨ok, st⟩ := c
    simp only [firstFail, List.cons_append] at h ⊢
    split at h
    · rename_i e; simp [e, ih h]
    · cases h

/-- A new request that passes its checks executes, and is answered as its execution says (R56). -/
theorem Fresh.serve {v : Nat} {r : Req} (f : Fresh s v r) (checks : State → List Check) (run : State → Ticket → State × Answer)
    (hc : firstFail (checks (s.numbered v r)) = none) :
    s.serve v r true checks run
      = (run (s.entered v r) (s.ticketFor r)).1.answered v r (s.ticketFor r) (run (s.entered v r) (s.ticketFor r)).2 := by
  have hl : r.ch.val < s.mb.chans.length := by rw [f.chans]; exact r.ch.isLt
  have hh := f.tag
  have k := (State.received_chan (s := s) v r hl).2.2
  have nohist : (nth {} (s.received v r).mb.chans r.ch.val).history.find? (fun h => h.tag == r.tag.toNat) = none := by
    rcases k with k | k
    · rw [k]
      simpa [List.any_eq_false, List.find?_eq_none] using hh
    · rw [k]; rfl
  have head : firstFail ((s.numbered v r).headChecks v r true) = none := by
    have := f.head
    simpa [State.headChecks, State.transportLen, State.verbAbsent] using this
  unfold State.serve
  simp only [f.accepts, f.framing, nohist, if_true, firstFail_append _ _ head, hc, Bool.not_true, Bool.false_eq_true, if_false]

/-- A request refused by a check of its verb is answered with that check's status, and executes nothing (R56). -/
theorem Fresh.refused {v : Nat} {r : Req} (f : Fresh s v r) (checks : State → List Check) (run : State → Ticket → State × Answer)
    (st : Nat) (hc : firstFail (checks (s.numbered v r)) = some st) :
    s.serve v r true checks run = (s.numbered v r).settle v r (s.ticketFor r) (.done st []) := by
  have hl : r.ch.val < s.mb.chans.length := by rw [f.chans]; exact r.ch.isLt
  have hh := f.tag
  have k := (State.received_chan (s := s) v r hl).2.2
  have nohist : (nth {} (s.received v r).mb.chans r.ch.val).history.find? (fun h => h.tag == r.tag.toNat) = none := by
    rcases k with k | k
    · rw [k]
      simpa [List.any_eq_false, List.find?_eq_none] using hh
    · rw [k]; rfl
  have head : firstFail ((s.numbered v r).headChecks v r true) = none := by
    have := f.head
    simpa [State.headChecks, State.transportLen, State.verbAbsent] using this
  unfold State.serve
  simp only [f.accepts, f.framing, nohist, if_true, firstFail_append _ _ head, hc, Bool.not_true, Bool.false_eq_true, if_false]

/-- What an answer with a status leaves: the reply queued, and the channel's history, cache and held list brought up to date. -/
theorem State.settle_done (u : State) (v : Nat) (r : Req) (t : Ticket) (st : Nat) (p : List Byte) (q : u.quiet = true)
    (hv : v ≠ 4 ∨ st = stOk) : ∃ (g : Chan → Chan) (y : Reply), (∀ c, (g c).replies = c.replies ∧ (g c).held = c.held) ∧
      u.settle v r t (.done st p) = (u.modChan r.ch.val g).queueReply r.ch.val y ∧
      y.verb = v ∧ y.tag = r.tag.toNat ∧ y.status = st ∧ y.payload = p := by
  have noRaise : (v == 4 && st != stOk && decide (st < stFault) && st != stUnitReset) = false := by
    rcases hv with h | h <;> simp [h]
  have q2 : ∀ g : Chan → Chan, (u.modChan r.ch.val g).quiet = true := fun g => q
  simp only [State.settle, noRaise, State.ite, State.answer, Bool.false_eq_true, if_false]
  split
  · rw [State.sendReply_quiet (q2 _)]
    refine ⟨fun c => { c with
      history := c.history.map fun h => if h.id == t.id then { h with status := st, state := .done } else h
      cache := if c.history.any (·.id == t.id) then cacheAdd c.cache t.id (mkReply u v r 0 st p) else c.cache },
      mkReply u v r 0 st p, fun c => ⟨rfl, rfl⟩, ?_, rfl, rfl, rfl, rfl⟩
    rfl
  · rw [State.sendReply_quiet q]
    refine ⟨id, mkReply u v r 0 st p, fun c => ⟨rfl, rfl⟩, ?_, rfl, rfl, rfl, rfl⟩
    have : u.modChan r.ch.val id = u := by simp [State.modChan, State.modMb, updAt]
    rw [this]

/-! ### A new request answered -/

/-- Only the mailbox block tells the state in which a request executes from the state it came to. -/
theorem State.entered_eq (v : Nat) (r : Req) : s.entered v r = { s with mb := (s.entered v r).mb } := by
  simp [State.ext_iff]

theorem State.numbered_eq (v : Nat) (r : Req) : s.numbered v r = { s with mb := (s.numbered v r).mb } := by
  simp [State.ext_iff]

/-! ### What a request's arrival does not touch -/

@[simp] theorem State.numbered_reg (v : Nat) (r : Req) (n w : Nat) : (s.numbered v r).reg n w = s.reg n w := by
  rw [State.numbered_eq]; rfl
@[simp] theorem State.numbered_fld (v : Nat) (r : Req) (n w lo k : Nat) : (s.numbered v r).fld n w lo k = s.fld n w lo k := by
  rw [State.numbered_eq]; rfl
@[simp] theorem State.numbered_flag (v : Nat) (r : Req) (n w lo : Nat) : (s.numbered v r).flag n w lo = s.flag n w lo := by
  rw [State.numbered_eq]; rfl
@[simp] theorem State.numbered_reg64 (v : Nat) (r : Req) (n w : Nat) : (s.numbered v r).reg64 n w = s.reg64 n w := by
  rw [State.numbered_eq]; rfl
@[simp] theorem State.numbered_nounOf (v : Nat) (r : Req) (q : Req) : (s.numbered v r).nounOf q = s.nounOf q := by
  rw [State.numbered_eq]; rfl
@[simp] theorem State.numbered_namedOk (v : Nat) (r : Req) (p : Nat) : (s.numbered v r).namedOk p = s.namedOk p := by
  rw [State.numbered_eq]; rfl
@[simp] theorem State.numbered_noFallow (v : Nat) (r : Req) : (s.numbered v r).noFallow = s.noFallow := by
  rw [State.numbered_eq]; rfl
@[simp] theorem State.numbered_notDetached (v : Nat) (r : Req) : (s.numbered v r).notDetached = s.notDetached := by
  rw [State.numbered_eq]; rfl
@[simp] theorem State.numbered_fenced (v : Nat) (r : Req) (n : Nat) : (s.numbered v r).fenced n = s.fenced n := by
  rw [State.numbered_eq]; rfl
@[simp] theorem State.numbered_ctxFenced (v : Nat) (r : Req) (n : Nat) : (s.numbered v r).ctxFenced n = s.ctxFenced n := by
  rw [State.numbered_eq]; rfl
@[simp] theorem State.numbered_touchesFenced (v : Nat) (r : Req) (k : List Nat) : (s.numbered v r).touchesFenced k = s.touchesFenced k := by
  rw [State.numbered_eq]; rfl
@[simp] theorem State.numbered_isMember (v : Nat) (r : Req) : (s.numbered v r).isMember = s.isMember := by
  rw [State.numbered_eq]; rfl
@[simp] theorem State.numbered_isLead (v : Nat) (r : Req) : (s.numbered v r).isLead = s.isLead := by
  rw [State.numbered_eq]; rfl
@[simp] theorem State.numbered_clocked (v : Nat) (r : Req) : (s.numbered v r).clocked = s.clocked := by
  rw [State.numbered_eq]; rfl
@[simp] theorem State.numbered_joined (v : Nat) (r : Req) : (s.numbered v r).joined = s.joined := by
  rw [State.numbered_eq]; rfl
@[simp] theorem State.numbered_has (v : Nat) (r : Req) (k : Nat) : (s.numbered v r).has k = s.has k := by
  rw [State.numbered_eq]; rfl
@[simp] theorem State.numbered_quiet (v : Nat) (r : Req) : (s.numbered v r).quiet = s.quiet := by
  rw [State.numbered_eq]; rfl
@[simp] theorem State.numbered_ctx (v : Nat) (r : Req) (n : Nat) : (s.numbered v r).ctx n = s.ctx n := by
  rw [State.numbered_eq]; rfl
@[simp] theorem State.numbered_pos (v : Nat) (r : Req) (k : Nat) : (s.numbered v r).pos k = s.pos k := by
  rw [State.numbered_eq]; rfl
@[simp] theorem State.numbered_periodTicks (v : Nat) (r : Req) : (s.numbered v r).periodTicks = s.periodTicks := by
  rw [State.numbered_eq]; rfl
@[simp] theorem State.numbered_nounCheck (v : Nat) (r : Req) (q : Req) : (s.numbered v r).nounCheck q = s.nounCheck q := by
  rw [State.numbered_eq]; rfl
@[simp] theorem State.numbered_queueRoom (v : Nat) (r : Req) : (s.numbered v r).queueRoom = s.queueRoom := by
  rw [State.numbered_eq]; rfl
@[simp] theorem State.numbered_drillOn (v : Nat) (r : Req) : (s.numbered v r).drillOn = s.drillOn := by
  rw [State.numbered_eq]; rfl
@[simp] theorem State.numbered_harrowActive (v : Nat) (r : Req) : (s.numbered v r).harrowActive = s.harrowActive := by
  rw [State.numbered_eq]; rfl
@[simp] theorem State.numbered_epochOk (v : Nat) (r q : Req) : (s.numbered v r).epochOk q = s.epochOk q := by simp [State.epochOk]
@[simp] theorem State.numbered_shadowMine (v : Nat) (r q : Req) : (s.numbered v r).shadowMine q = s.shadowMine q := by simp [State.shadowMine]
@[simp] theorem State.entered_reg (v : Nat) (r : Req) (n w : Nat) : (s.entered v r).reg n w = s.reg n w := by
  rw [State.entered_eq]; rfl
@[simp] theorem State.entered_fld (v : Nat) (r : Req) (n w lo k : Nat) : (s.entered v r).fld n w lo k = s.fld n w lo k := by
  rw [State.entered_eq]; rfl
@[simp] theorem State.entered_flag (v : Nat) (r : Req) (n w lo : Nat) : (s.entered v r).flag n w lo = s.flag n w lo := by
  rw [State.entered_eq]; rfl
@[simp] theorem State.entered_reg64 (v : Nat) (r : Req) (n w : Nat) : (s.entered v r).reg64 n w = s.reg64 n w := by
  rw [State.entered_eq]; rfl
@[simp] theorem State.entered_nounOf (v : Nat) (r : Req) (q : Req) : (s.entered v r).nounOf q = s.nounOf q := by
  rw [State.entered_eq]; rfl
@[simp] theorem State.entered_namedOk (v : Nat) (r : Req) (p : Nat) : (s.entered v r).namedOk p = s.namedOk p := by
  rw [State.entered_eq]; rfl
@[simp] theorem State.entered_noFallow (v : Nat) (r : Req) : (s.entered v r).noFallow = s.noFallow := by
  rw [State.entered_eq]; rfl
@[simp] theorem State.entered_notDetached (v : Nat) (r : Req) : (s.entered v r).notDetached = s.notDetached := by
  rw [State.entered_eq]; rfl
@[simp] theorem State.entered_fenced (v : Nat) (r : Req) (n : Nat) : (s.entered v r).fenced n = s.fenced n := by
  rw [State.entered_eq]; rfl
@[simp] theorem State.entered_ctxFenced (v : Nat) (r : Req) (n : Nat) : (s.entered v r).ctxFenced n = s.ctxFenced n := by
  rw [State.entered_eq]; rfl
@[simp] theorem State.entered_touchesFenced (v : Nat) (r : Req) (k : List Nat) : (s.entered v r).touchesFenced k = s.touchesFenced k := by
  rw [State.entered_eq]; rfl
@[simp] theorem State.entered_isMember (v : Nat) (r : Req) : (s.entered v r).isMember = s.isMember := by
  rw [State.entered_eq]; rfl
@[simp] theorem State.entered_isLead (v : Nat) (r : Req) : (s.entered v r).isLead = s.isLead := by
  rw [State.entered_eq]; rfl
@[simp] theorem State.entered_clocked (v : Nat) (r : Req) : (s.entered v r).clocked = s.clocked := by
  rw [State.entered_eq]; rfl
@[simp] theorem State.entered_joined (v : Nat) (r : Req) : (s.entered v r).joined = s.joined := by
  rw [State.entered_eq]; rfl
@[simp] theorem State.entered_has (v : Nat) (r : Req) (k : Nat) : (s.entered v r).has k = s.has k := by
  rw [State.entered_eq]; rfl
@[simp] theorem State.entered_quiet (v : Nat) (r : Req) : (s.entered v r).quiet = s.quiet := by
  rw [State.entered_eq]; rfl
@[simp] theorem State.entered_ctx (v : Nat) (r : Req) (n : Nat) : (s.entered v r).ctx n = s.ctx n := by
  rw [State.entered_eq]; rfl
@[simp] theorem State.entered_pos (v : Nat) (r : Req) (k : Nat) : (s.entered v r).pos k = s.pos k := by
  rw [State.entered_eq]; rfl
@[simp] theorem State.entered_periodTicks (v : Nat) (r : Req) : (s.entered v r).periodTicks = s.periodTicks := by
  rw [State.entered_eq]; rfl
@[simp] theorem State.entered_nounCheck (v : Nat) (r : Req) (q : Req) : (s.entered v r).nounCheck q = s.nounCheck q := by
  rw [State.entered_eq]; rfl
@[simp] theorem State.entered_queueRoom (v : Nat) (r : Req) : (s.entered v r).queueRoom = s.queueRoom := by
  rw [State.entered_eq]; rfl
@[simp] theorem State.entered_drillOn (v : Nat) (r : Req) : (s.entered v r).drillOn = s.drillOn := by
  rw [State.entered_eq]; rfl
@[simp] theorem State.entered_harrowActive (v : Nat) (r : Req) : (s.entered v r).harrowActive = s.harrowActive := by
  rw [State.entered_eq]; rfl
@[simp] theorem State.entered_epochOk (v : Nat) (r q : Req) : (s.entered v r).epochOk q = s.epochOk q := by simp [State.epochOk]
@[simp] theorem State.entered_shadowMine (v : Nat) (r q : Req) : (s.entered v r).shadowMine q = s.shadowMine q := by simp [State.shadowMine]

/-- The room for held requests is judged as it was before the request came (02 R65). -/
theorem State.numbered_heldRoom (v : Nat) (r : Req) (h : r.ch.val < s.mb.chans.length) : (s.numbered v r).heldRoom r = s.heldRoom r := by
  simp [State.heldRoom, (State.numbered_chan (s := s) v r h).2]

/-- Serving a new request that executes with a final status: one reply is queued, and otherwise only what the execution left
stands, but for the mailbox, counters, events and the trace (R56, R63, R66). -/
theorem Fresh.answers {v : Nat} {r : Req} (f : Fresh s v r) (checks : State → List Check) (run : State → Ticket → State × Answer)
    (st : Nat) (p : List Byte) (hc : firstFail (checks (s.numbered v r)) = none)
    (ha : (run (s.entered v r) (s.ticketFor r)).2 = .done st p) (hq : (run (s.entered v r) (s.ticketFor r)).1.quiet = true)
    (hr : (nth {} (run (s.entered v r) (s.ticketFor r)).1.mb.chans r.ch.val).replies
      = (nth {} (s.entered v r).mb.chans r.ch.val).replies)
    (hn : (run (s.entered v r) (s.ticketFor r)).1.mb.chans.length = 4) (hv : v ≠ 4 ∨ st = stOk) :
    Answered s (s.serve v r true checks run) v r st p
      ∧ Within [.requests, .counters, .events, .almanac] (run (s.entered v r) (s.ticketFor r)).1 (s.serve v r true checks run)
      ∧ EventsOnly [22, 23] (run (s.entered v r) (s.ticketFor r)).1 (s.serve v r true checks run) := by
  have hl : r.ch.val < s.mb.chans.length := by rw [f.chans]; exact r.ch.isLt
  rw [f.serve checks run hc]
  generalize run (s.entered v r) (s.ticketFor r) = x at *
  obtain ⟨u, a⟩ := x
  dsimp only at *
  subst ha
  have hu : r.ch.val < u.mb.chans.length := by rw [hn]; exact r.ch.isLt
  simp only [State.answered]
  obtain ⟨g, y, hg, e, y1, y2, y3, y4⟩ := State.settle_done (u.modChan r.ch.val fun c => { c with held := c.held.filter (·.id != (s.ticketFor r).id) })
    v r (s.ticketFor r) st p hq hv
  rw [e]
  refine ⟨⟨y, ?_, y1, y2, y3, y4⟩, ?_, fun k hk => ?_⟩
  · rw [State.queueReply_replies _ _ _ (by simp [hu])]
    simp [nth_updAt_self, hu, hg, hr, (State.entered_chan (s := s) v r hl).1]
  · exact State.queueReply_frame _ _ (State.modChan_frame _ _ (State.modChan_frame _ _ (Within.refl u)))
  · simp only [List.mem_cons, List.not_mem_nil, or_false, not_or] at hk
    exact (State.queueReply_has _ _ _ _ hk.1 hk.2).trans rfl

/-- Serving a new request that its execution holds: nothing is answered (R63). -/
theorem Fresh.holds {v : Nat} {r : Req} (f : Fresh s v r) (checks : State → List Check) (run : State → Ticket → State × Answer)
    (hc : firstFail (checks (s.numbered v r)) = none) (ha : (run (s.entered v r) (s.ticketFor r)).2 = .hold) :
    s.serve v r true checks run = (run (s.entered v r) (s.ticketFor r)).1 := by
  rw [f.serve checks run hc, ha]
  rfl

/-- Serving a new request that is refused at steps 7 to 11 of Table MB-4: it is answered with the status of the first check that
fails and changes nothing but the mailbox, counters, events and the trace (R56). -/
theorem Fresh.refuses {v : Nat} {r : Req} (f : Fresh s v r) (checks : State → List Check) (run : State → Ticket → State × Answer)
    (st : Nat) (hc : firstFail (checks (s.numbered v r)) = some st) (hv : v ≠ 4 ∨ st = stOk) :
    Answered s (s.serve v r true checks run) v r st []
      ∧ Within [.requests, .counters, .events, .almanac] s (s.serve v r true checks run)
      ∧ EventsOnly [22, 23] s (s.serve v r true checks run) := by
  have hl : r.ch.val < s.mb.chans.length := by rw [f.chans]; exact r.ch.isLt
  rw [f.refused checks run st hc]
  have hq : (s.numbered v r).quiet = true := by
    have := f.quiet
    rw [State.numbered_eq]; exact this
  obtain ⟨g, y, hg, e, y1, y2, y3, y4⟩ := State.settle_done (s.numbered v r) v r (s.ticketFor r) st [] hq hv
  rw [e]
  refine ⟨⟨y, ?_, y1, y2, y3, y4⟩, ?_, fun k hk => ?_⟩
  · rw [State.queueReply_replies _ _ _ (by simp [hl])]
    simp [nth_updAt_self, hl, hg, (State.numbered_chan (s := s) v r hl).1]
  · rw [State.numbered_eq]
    exact State.queueReply_frame _ _ (State.modChan_frame _ _ fun k hk => by cases k <;> simp_all [Part.same])
  · simp only [List.mem_cons, List.not_mem_nil, or_false, not_or] at hk
    rw [State.queueReply_has _ _ _ _ hk.1 hk.2, State.numbered_eq]
    rfl

end Sys2Proof.Machine
end

