-- ==== Sys2Proof/Machine/Flags.lean ====
section
/-! DEFINITION. The levels that the block drives on its output balls, computed from the state (15 R526, R530, Table PK-4; 12
R446, R454, Table CK-7; 13 R487, R488; 11 R396, R420). The block has no arithmetic flags; the flags of a sheaf header are in
Sheaf.lean. -/

namespace Sys2Proof.Machine

/-- What a ball carries: a level, high impedance (for an open-drain ball: released), or a running clock. -/
inductive Pin where
  | low | high | hiZ | clock
  deriving DecidableEq, Repr

/-- A driven level. -/
def pinOf (b : Bool) : Pin := if b then .high else .low

/-- The block is unpowered or held in reset: every output is at high impedance but RST_N and FAULT_N (R454). -/
def State.outputsOff (s : State) : Bool :=
  s.boot.phase == .off || s.boot.phase == .held || s.pw.state == .backup || s.pw.state == .off

/-- INT_N, open-drain (13 R487). -/
def State.pinIntN (s : State) : Pin := if !s.outputsOff && s.ev.intN then .low else .hiZ

/-- FAULT_N, open-drain: low throughout POR too (13 R488; Table PK-4). -/
def State.pinFaultN (s : State) : Pin := if s.outputsOff || s.faultN then .low else .hiZ

/-- The instant of the 5 ms row after a release (12 Table CK-6). -/
def State.fiveMs (s : State) : Bool := s.boot.kind != .reset || s.boot.phase != .rom || decide (ticksUs 500 ≤ s.tm.now)

/-- REFOUT: the root divided by 40 while the PLL is locked to a qualified source or in holdover; else low from 5 ms on (12
R446). -/
def State.pinRefout (s : State) : Pin :=
  if s.outputsOff || !s.fiveMs then .hiZ
  else if s.flag nCLOCK 0 2 && s.clk.locked && s.clk.active < 3 then .clock else .low

/-- CSP8_RST_N: low until the boot ROM starts at 5 ms, and for the 10 µs of its pulse (12 R454; 05 R180, R187). -/
def State.pinRstN (s : State) : Pin := if s.outputsOff || !s.fiveMs then .low else pinOf !(s.csp8.rstAt.any fun t => t ≤ s.tm.now && s.tm.now < t + ticksUs 10)

/-- DBG0 to DBG3: at high impedance while TEST_EN is low (15 R530). A fault in the queue stands for the steward's resolving of
it. -/
def State.pinDbg (s : State) (k : Nat) : Pin :=
  if s.outputsOff || !s.boot.testEn then .hiZ
  else match k with
    | 0 => pinOf (s.tm.lineSeen && decide (s.tm.now < s.tm.capture + 8))
    | 1 => pinOf s.harrowActive
    | 2 => pinOf !s.mem.faults.isEmpty
    | _ => pinOf s.drillOn

/-- PPE1 to PPE4: low through their pull-downs wherever they are not driven (15 Table PK-4). -/
def State.pinPpe (s : State) (p : Nat) : Pin := pinOf (!s.outputsOff && (nth {} s.usb.ports p).ppe)

/-- The sensor ports drive their balls once the autostart set has been applied, while the port is on (12 Table CK-7; 11 R396,
R420). -/
def State.portDriven (s : State) (k : Nat) : Bool := !s.outputsOff && s.lev.firmware && s.cspOn k && !s.flag (nCSP k) 0 1

/-- Select SSi of port k, at its polarity. -/
def State.pinSelect (s : State) (k i : Nat) : Pin :=
  if !s.portDriven k then .hiZ
  else
    let asserted := bitAt ((nth {} s.csp k).selectsAt s.tm.now) i
    let activeHigh := s.flag (nCSP k) (4 + i) 13
    pinOf (asserted == activeHigh)

/-- SCK of port k: it runs in a frame and a recovery frame, and rests high after an encoder burst, else at the CPOL of the last
frame's profile, of profile 0 before the first (05 R158, R159, R162, R186; log 98). -/
def State.pinSck (s : State) (k : Nat) : Pin :=
  let c := nth {} s.csp k
  if !s.portDriven k then .hiZ
  else if c.active.isSome || (c.chain.bind (·.since)).isSome then .clock
  else pinOf (c.burst || 2 ≤ (profileOf s.reg k c.profile).spiMode)

/-- SDO of port k between frames (05 R161). -/
def State.pinSdoIdle (s : State) (k : Nat) : Pin := if s.portDriven k then pinOf (s.flag (nCSP k) 0 2) else .hiZ

/-- A SENT line, open-drain in SPC mode: low for t_trig from the trigger instant (06 R194). -/
def State.pinSent (s : State) (c : Nat) : Pin :=
  match (nth {} s.sent c).trigger with
  | some (_, t) => if t ≤ s.tm.now && s.tm.now < t + sentTrig s.reg c then .low else .hiZ
  | none => .hiZ

/-- The pull-up on D+ (09 R303). -/
def State.pinPullup (s : State) : Bool := s.usb.pullup

end Sys2Proof.Machine
end

