-- ==== Sys2Proof/WellFormed.lean ====
section
/-! DEFINITION. The checks on a command's operands that its type does not state: lengths and ranges that the
transport of the command itself fixes. -/

namespace Sys2Proof

/-- A request as a transport can deliver it: at most 4 096 bytes with its header (02 R54). -/
def Req.wf (r : Req) : Bool := decide (r.payload.length ≤ 4080)

/-- A grant has one slot for each position 1 to 7 (10 Table YK-3). -/
def GrantPlan.wf (g : GrantPlan) : Bool := g.slots.length == 7

/-- A segment carries at most 64 bytes of reply fragment and at most 8 096 bytes of body (10 R341, R372). -/
def Segment.wf (g : Segment) : Bool := decide (g.fragment.length ≤ 64) && decide (g.body.length ≤ 8096)

/-- A fragment of an MBX3 request has 1 to 64 bytes (10 Table YK-3). -/
def fragmentWf (b : List Byte) : Bool := decide (1 ≤ b.length) && decide (b.length ≤ 64)

/-- The operand checks of every command. -/
def Instr.wf (i : Instr) : Bool :=
  match i with
  | .describe r | .get r | .stage r | .discard r | .start r | .stop r | .carveAllocate r | .carveRelease r
  | .carveQuery r | .events r | .almanacRead r | .almanacMark r | .almanacClearFirst r | .thrLoadInlineChunk r
  | .thrLoadFromStore r | .thrUnload r | .thrAllocate r | .thrSubmit r | .thrCancel r | .thrStatus r | .thrReturn r
  | .yokeCtlForward r | .yokeCtlStatus r | .yokeCtlRelease r | .yokeCtlRerange r | .yokeCtlLeave r | .fallow r
  | .wakeCancel r | .wakeHold r | .harrowArm r | .harrowSet r | .harrowDisarmSlots r | .harrowDisarmAll r
  | .harrowSeal r | .updateStageBegin r | .updateStageChunk r | .updateStageFinish r | .updateStageAbandon r
  | .updateSwap r | .resetUnit r | .detach r | .powerQuery r | .powerSetBanks r => r.wf
  | .commit r ticks _ => r.wf && decide (ticks ≤ ticksMs 20)
  | .snap r _ => r.wf
  | .noSuchVerb _ r => r.wf
  | .twtRequestWrite _ data _ => decide (1 ≤ data.length) && decide (data.length ≤ 4096)
  | .twtReplyRead _ clocked _ => decide (clocked ≤ 4098)
  | .twtRegisterRead _ _ n => decide (1 ≤ n) && decide (n ≤ 256)
  | .twtRegisterWrite .. => true
  | .virtualTargetRead _ _ n => decide (1 ≤ n)
  | .norWindowWrite _ _ _ data => decide (1 ≤ data.length)
  | .sentFrameEnd _ pulses _ _ _ => decide (1 ≤ pulses.length)
  | .mbx _ fragment => fragmentWf fragment
  | .joinAccept _ _ g | .grant _ g => g.wf
  | .fallowPropose _ _ _ ms => decide (1 ≤ ms.toNat) && decide (ms.toNat ≤ 86400000)
  | .segmentReceived _ _ g => g.wf
  | .markerReceived m _ => decide (m.flags.toNat < 4)
  | .eccScrub found => found.all fun (a, _) => a.toNat % 8 == 0
  | .drillHardFault _ | .badFrame .. | .twtBusTimeout _ | .ep2ReplyRead | .shadowTimeout | .captureLine
  | .syncInEdge _ | .recoveryFrameEnd _ | .entryLaunch .. | .entryComplete .. | .deadlineAbort .. | .startBitTimeout ..
  | .assemblyStart | .assemblyComplete | .txPrefetchComplete .. | .slaveTransactionStart _ | .slaveTransactionEnd ..
  | .norGatherEnd _ | .norStatusPoll .. | .norProgramDone _ | .programTimeout _ | .externalAccessTimeout ..
  | .sentAbsentTimeout _ | .edgeSeen .. | .edgeAccept _ | .plotFault .. | .faultResolve | .bankWakeComplete _
  | .bankWakeTimeout _ | .bankIdleGate _ | .emul .. | .eadd .. | .esub _ | .emac _ | .ntt _ | .intt _ | .automorph _
  | .baseconv _ | .rescale _ | .decomp _ | .polyeval .. | .feature _ | .rerand _ | .handoff _ | .zero _ | .drop _
  | .endIteration _ | .preemptionPoint | .timeSliceExpiry | .laneIdleGate | .handoffTimeout _ | .thrLoadOwnerTimeout ..
  | .markerSend | .range .. | .setDelay .. | .trim .. | .quarantine _ | .release _ | .replyResend .. | .replyDone _
  | .fallowCommit .. | .fallowAbort .. | .segmentSend | .joinRequestSend | .joinRequestReceived .. | .trimRunEnd
  | .memberLost _ | .releaseRetryTimer | .orphanTimeout | .acceptLapse | .commitMarkerMissing | .wakeBurstDetected
  | .listenWindow _ | .wakeSource _ | .sleepTimerExpiry | .fallowResume _ | .vinUvloRise .. | .vinLowWarning _
  | .vinUndervoltage _ | .vinHighWarning _ | .vinOvervoltage _ | .vinOvervoltageRecover _ | .vsysOverload | .vsysCollapse
  | .bankSupplyLost _ | .bankSupplyRestored .. | .thermalWarning | .thermalShutdown | .thermalRestart | .vbakMeasure ..
  | .alarmInput .. | .backupRecordWrite | .alarmHoldoffEnd | .backupWriteAbort | .prsntSettled | .emergencyDetach
  | .detachRelease | .detachCycle | .resetNAssert | .resetRelease _ | .watchdogPrewarning | .watchdogExpiry
  | .bootImageVerify | .furtherPartFail _ | .noReferenceAtBoot | .mailboxesReady | .autostartStart | .almanacScanDone
  | .almanacRecordCommit .. | .mergeWindowClose _ | .recordDrop | .ep6TransferEnd | .intNCoalesceExpiry | .referenceLost
  | .holdoverExpiry | .sourceQualified _ | .sourceSwitchComplete | .relockComplete | .switchBack | .pllUnlock
  | .aonCalibrationRun _ | .timebaseRealign _ | .usbPullupEnable | .usbBusReset | .vbusLost | .usbSuspend | .usbResume
  | .remoteWake | .ep3Report | .ep3ReportAck | .streamCopyComplete _ | .isoInToken _ | .setInterface .. | .usbControlRequest _
  | .setPortPower _ | .clearPortPower _ | .clearTtBuffer | .resetTt | .hubOverCurrent _ | .hubConnectChange ..
  | .bulkTransferFault _ | .unitResetComplete _ | .stagingTimeout | .trialClear | .consentExpiry _ | .harrowWindowClose _
  | .vbusDetected | .backupStateLost | .rtcAlarm | .prsntChange _ | .testEnChange _ | .wakeHoldExpiry | .csp8IdleGate
  | .dnRxIdle | .dnRxForward .. | .ep6Read | .hubClassRequest .. | .usbFailure | .yokePhyFailure | .thresherControlError
  | .harrowDelayExpiry _ | .updateStageCompletion _ => true

end Sys2Proof
end

