-- ==== Sys2Proof/Tests/Slice0.lean ====
section
/-! SUPPORT. Tests: ill-formed operands that WellFormed refuses; for each statement a state and operands that meet its
hypotheses, at least one for each of its clauses; and results of single commands, from worked values of the spec. -/

namespace Sys2Proof.Tests

set_option Elab.async false

open Sys2Proof Sys2Proof.Machine

/-! ### Hypotheses as computed -/

/-- `Fresh` as a Bool. -/
def freshB (s : State) (v : Nat) (r : Req) : Bool :=
  s.mb.chans.length == 4 && s.mb.v2 && s.accepts r.ch.val && firstFail (s.headChecks v r true) == none
    && !(nth {} s.mb.chans r.ch.val).history.any (·.tag == r.tag.toNat) && s.quiet

theorem fresh_iff (s : State) (v : Nat) (r : Req) : Fresh s v r ↔ freshB s v r = true := by
  constructor
  · intro h; simp [freshB, h.chans, h.framing, h.accepts, h.head, h.tag, h.quiet]
  · intro h
    simp only [freshB, Bool.and_eq_true, beq_iff_eq, Bool.not_eq_true'] at h
    obtain ⟨⟨⟨⟨⟨a, b⟩, c⟩, d⟩, e⟩, f⟩ := h
    exact ⟨a, b, c, d, e, f⟩

/-- `Passes` as a Bool. -/
def passesB (s : State) (a : Agent) (l : List Piece) : Bool := !s.suspended a && (s.firstFault a 0 0 l).isNone && !s.stalls a l

theorem passes_iff (s : State) (a : Agent) (l : List Piece) : Passes s a l ↔ passesB s a l = true := by
  constructor
  · intro h; simp [passesB, h.awake, h.clear, h.flows]
  · intro h
    simp only [passesB, Bool.and_eq_true, Bool.not_eq_true', Option.isNone_iff_eq_none] at h
    exact ⟨h.1.1, h.1.2, h.2⟩

theorem firmware_iff (s : State) (a : Agent) (h : Nat) (l : List Piece) :
    FirmwarePasses s a h l ↔ (s.firstFault a 0 0 (s.firmwareParts h l)).isNone = true := by
  simp [FirmwarePasses]

theorem saves_iff (s : State) (n : Nat) : Saves s n ↔ passesB s (thrAgent n) [⟨.write, s.saveAddr n, 2048⟩] = true := passes_iff _ _ _

/-- InstrPasses from a job without a result, as a Bool. -/
def instrB (s : State) (n : Nat) (j : Job) (parts : List Piece) (out : Option KernelResult) : Bool :=
  j.result.isNone && out.any fun r => passesB s (thrAgent n) parts && passesB (s.accessed (thrAgent n) parts) (thrAgent n) (writeParts r.writes)

theorem instr_of {s : State} {n : Nat} {j : Job} {parts : List Piece} {out : Option KernelResult} (h : instrB s n j parts out = true) :
    ∃ r, InstrPasses s n j parts out parts r := by
  cases out with
  | none => simp [instrB] at h
  | some r =>
    simp only [instrB, Option.any_some, Bool.and_eq_true, Option.isNone_iff_eq_none] at h
    exact ⟨r, .inl ⟨h.1, rfl, rfl⟩, (passes_iff _ _ _).mpr h.2.1, (passes_iff _ _ _).mpr h.2.2⟩

theorem inv_iff (s : State) : s.Inv ↔ (s.shape && s.canonical) = true := by simp [State.Inv]

/-! ### States and requests -/

/-- A native lead in RUN at L3, on its crystal, in period 10. -/
def live : State :=
  { tm := { now := 30000000, lineSeen := true, period := 10, capture := 29970000, lines := 11 }
    boot := { phase := .ready, runningFrom := 1 }
    lev := { level := 3, firmware := true }
    clk := { active := 0, locked := true, bootLocked := true, xtalOk := true }
    alm := { scanDone := true }
    pw := { prsntMet := true } }

/-- The same with TEST_EN and SERVICE high. -/
def service : State := { live with boot := { live.boot with testEn := true, service := true } }

/-- A member in RUN at L3 with its link enabled. -/
def member : State := ({ live with boot := { live.boot with ykLead := false } }).setReg nYOKE 0 (resetWord (regKey nYOKE 0) ||| 1)

/-- The lead with its link enabled. -/
def lead : State := live.setReg nYOKE 0 (resetWord (regKey nYOKE 0) ||| 1)

/-- The lead with its drill running. -/
def drilling : State := { live with drill := { live.drill with mode := 1, polled := true } }

/-- A request on MBX1 with the next tag. -/
def rq (p : List Byte) (noun : BitVec 16 := 0) : Req :=
  { ch := 1, tag := 7, flags := 0, noun, index := 0, length := .ofNat 16 p.length, epoch := 0, payload := p }

/-! ### Ill-formed operands (WellFormed) -/

theorem test_wf_request : (Instr.describe { rq [] with payload := List.replicate 4081 0 }).wf = false ∧ (Instr.describe (rq [])).wf = true := by
  decide +kernel
theorem test_wf_commit : (Instr.commit (rq []) 2400001 true).wf = false ∧ (Instr.commit (rq []) 2400000 true).wf = true := by decide +kernel
theorem test_wf_twt : (Instr.twtRequestWrite 0 [] 0).wf = false ∧ (Instr.twtReplyRead 0 4099 true).wf = false
    ∧ (Instr.twtRegisterRead 0 none 0).wf = false ∧ (Instr.twtRegisterRead 0 none 257).wf = false
    ∧ (Instr.virtualTargetRead 1 none 0).wf = false := by decide +kernel
theorem test_wf_nor : (Instr.norWindowWrite .steward 0 0 []).wf = false := by decide +kernel
theorem test_wf_sent : (Instr.sentFrameEnd 0 [] 0 0 0).wf = false := by decide +kernel
theorem test_wf_ecc : (Instr.eccScrub [(4, true)]).wf = false ∧ (Instr.eccScrub [(8, true)]).wf = true := by decide +kernel
theorem test_wf_yoke (f : Frame) (g : Segment) : (Instr.mbx f []).wf = false ∧ (Instr.mbx f (List.replicate 65 0)).wf = false
    ∧ (Instr.grant f ⟨0, 0, 0, []⟩).wf = false ∧ (Instr.joinAccept f 0 ⟨0, 0, 0, []⟩).wf = false
    ∧ (Instr.fallowPropose f 0 false 0).wf = false ∧ (Instr.fallowPropose f 0 false 86400001).wf = false
    ∧ (Instr.markerReceived ⟨false, 0, 4, 0, true⟩ 0).wf = false
    ∧ (Instr.segmentReceived 0 none { g with fragment := List.replicate 65 0 }).wf = false := by
  refine ⟨rfl, rfl, rfl, rfl, rfl, rfl, rfl, ?_⟩
  simp [Instr.wf, Segment.wf]
theorem test_wf_body (g : Segment) (bs : List Byte) (h : bs.length = 8097) : (Instr.segmentReceived 0 none { g with body := bs }).wf = false := by
  simp [Instr.wf, Segment.wf, h]

/-! ### The block as a whole -/

theorem witness_StepRunsFront : { live with pending := [.captureLine, .usbFailure] }.pending = .captureLine :: [.usbFailure] := rfl
theorem witness_IdleStepTicks : live.pending = [] := rfl
theorem witness_StepKeepsInvariant : live.Inv ∧ step { live with pending := [.usbFailure] } = exec .usbFailure live := by
  simp only [inv_iff]; exact ⟨by decide +kernel, rfl⟩
theorem witness_StepKeepsIdentity : { live with hw := { sealed := true } }.hw.sealed = true
    ∧ step { live with hw := { sealed := true } } = .next ({ live with hw := { sealed := true } }).tick := ⟨rfl, rfl⟩
theorem witness_CommandFrame : exec (.testEnChange true) live = .next { live with boot := { live.boot with testEn := true } } := rfl

/-! ### Reading verbs -/

/-- DESCRIBE of 16 bytes from offset 0; GET of SYS words 0 and 1; SNAP of the first 64 bytes of the last sheaf. -/
def rDescribe : Req := rq (leBytes 4 0 ++ leBytes 2 16 ++ [0, 0])
def rGet : Req := rq (leBytes 2 0 ++ leBytes 2 2) 1
def rSnap : Req := rq ([0, 0] ++ leBytes 6 0 ++ leBytes 4 0 ++ leBytes 2 64 ++ [0, 0])

/-- A lead with one published sheaf. -/
def published : State :=
  { live with sheaf := { index := 0, any := true, published := 1, lastPeriod := 9, buffers := [some { period := 9, layout := 1, header := 64, body := 0, order := 1 }] } }

theorem table_has_bytes (s : State) : 0 < (syntaxTable s).length := by
  simp only [syntaxTable, List.length_append, sectionOf]; simp [recordOf, leBytes]

theorem witness_ReadsAnswer_describe : Fresh live 0x01 rDescribe ∧ rDescribe.length.toNat = 8 ∧ rDescribe.noun = 0 ∧ rDescribe.index = 0
    ∧ pf rDescribe 6 2 = 0 ∧ 1 ≤ pf rDescribe 4 2 ∧ pf rDescribe 4 2 ≤ 4070
    ∧ pf rDescribe 0 4 < (syntaxTable (live.numbered 0x01 rDescribe)).length ∧ live.fits rDescribe (8 + pf rDescribe 4 2) = true := by
  have h : pf rDescribe 0 4 = 0 := by decide +kernel
  rw [h, fresh_iff]
  refine ⟨by decide +kernel, by decide +kernel, rfl, rfl, by decide +kernel, by decide +kernel, by decide +kernel, table_has_bytes _, by decide +kernel⟩
theorem witness_ReadsAnswer_get : Fresh live 0x02 rGet ∧ rGet.length.toNat = 4 ∧ rGet.index = 0
    ∧ (findNoun live.boot.legacy rGet.noun.toNat).isSome = true ∧ (live.boot.phase = .romService → rGet.noun.toNat = nSYS)
    ∧ 1 ≤ pf rGet 2 2 ∧ pf rGet 2 2 ≤ 1018 ∧ pf rGet 0 2 + pf rGet 2 2 ≤ (live.nounOf rGet).words ∧ live.rcTooLong rGet = false
    ∧ live.fits rGet (4 + 4 * pf rGet 2 2) = true := by
  simp only [fresh_iff]; decide +kernel
theorem witness_ReadsAnswer_snap : Fresh published 0x09 rSnap ∧ rSnap.length.toNat = 16 ∧ rSnap.noun = 0 ∧ rSnap.index = 0
    ∧ pf rSnap 0 1 ≤ 1 ∧ pf rSnap 1 1 = 0 ∧ pf rSnap 14 2 = 0 ∧ 1 ≤ pf rSnap 12 2 ∧ pf rSnap 12 2 ≤ 4062
    ∧ published.snapBuffer rSnap = some (0, { period := 9, layout := 1, header := 64, body := 0, order := 1 })
    ∧ pf rSnap 8 4 + pf rSnap 12 2 ≤ 64 + 0 ∧ published.fits rSnap (16 + pf rSnap 12 2) = true
    ∧ FirmwarePasses published .steward 2 [⟨.read, published.bufferAt 0 + pf rSnap 8 4, pf rSnap 12 2⟩] := by
  simp only [fresh_iff, firmware_iff]; decide +kernel
theorem witness_EventsAcknowledged : Fresh live 0x0A (rq (leBytes 8 1)) ∧ (rq (leBytes 8 1)).length.toNat = 8
    ∧ (rq (leBytes 8 1)).noun = 0 ∧ (rq (leBytes 8 1)).index = 0 := by
  simp only [fresh_iff]; decide +kernel

/-! ### The shadow, START and STOP -/

/-- STAGE of PERIOD slices (word 0, bits 0 to 12) to 8. -/
def rStage : Req := rq (leBytes 2 0 ++ leBytes 2 1 ++ leBytes 4 0x1FFF ++ leBytes 4 8) 3

/-- A set that passes the checks: no profile has a lead or lag without a select (05 R168), and the sheaf ring is mapped (04 R139). -/
def passing : Tab := ((List.range 32).map fun i => (regKey (nCSP (i / 4)) (10 + 8 * (i % 4)), 0))
  ++ [(regKey nPLOTMAP 32, 50), (regKey nPLOTMAP 33, 0x80), (regKey nPLOTMAP 34, 8)]

/-- A shadow of MBX1 that makes the headland 600 ticks, over that set. -/
def theShadow : Shadow := { owner := 1, words := [(regKey nPERIOD 1, 600)], touched := [regKey nPERIOD 1] }

def staged : State := { live with cfg := passing, mb := { live.mb with shadow := some theShadow } }

theorem witness_StageOpensShadow : ∃ l, Fresh live 0x03 rStage ∧ live.stageOf rStage = some l ∧ rStage.index = 0
    ∧ (findNoun live.boot.legacy rStage.noun.toNat).isSome = true ∧ live.boot.phase ≠ .romService ∧ live.hw.sealed = false
    ∧ live.epochOk rStage = true ∧ live.mb.shadow = none ∧ live.mb.commit = none ∧ live.mb.legacy = [] ∧ live.pw.fallow = none
    ∧ stageKinds (live.nounOf rStage) (stageWrites l) = (true, false, false)
    ∧ (∀ e, e < 4 → harrowTouched (live.nounOf rStage) (stageWrites l) e = false)
    ∧ (stageWrites l).all (fun (w, _, _) => w < (live.nounOf rStage).words) = true
    ∧ live.stageDefined (live.nounOf rStage) (live.reg (live.nounOf rStage).id) l = true :=
  ⟨[(0, [(0x1FFF, 8)])], by simp only [fresh_iff]; decide +kernel⟩

/-- COMMIT for the next line. -/
def rCommit : Req := rq (leBytes 8 0)

theorem witness_CommitIsHeld : Fresh staged 0x04 rCommit ∧ rCommit.length.toNat = 8 ∧ rCommit.noun = 0 ∧ rCommit.index = 0
    ∧ staged.epochOk rCommit = true ∧ staged.mb.shadow = some theShadow ∧ theShadow.owner = rCommit.ch ∧ (staged.heldRoom rCommit).1 = true
    ∧ staged.pw.fallow = none ∧ staged.pw.detach = .none ∧ staged.mb.commit = none ∧ staged.touchesFenced theShadow.touched = false
    ∧ pf rCommit 0 1 = 0 ∧ pf rCommit 1 1 = 0 ∧ staged.joined = []
    ∧ ((staged.entered 0x04 rCommit).atApply none).checkSet ((staged.entered 0x04 rCommit).wordsWith theShadow.words theShadow.touched) false = none := by
  simp only [fresh_iff]; decide +kernel
theorem witness_ShadowEnds : Fresh staged 0x05 (rq []) ∧ (rq []).length.toNat = 0 ∧ (rq []).noun = 0 ∧ (rq []).index = 0
    ∧ staged.epochOk (rq []) = true ∧ staged.shadowMine (rq []) = true ∧ staged.mb.commit = none ∧ staged.mb.shadow = some theShadow := by
  simp only [fresh_iff]; decide +kernel

/-- START and STOP at the next line, and at period 12. -/
def rRun : Req := rq (leBytes 8 0)
def rRunAt : Req := rq (leBytes 2 1 ++ leBytes 6 12)

theorem witness_StartAndStop : rRun.length.toNat = 8 ∧ rRun.noun = 0 ∧ rRun.index = 0 ∧ (live.heldRoom rRun).1 = true ∧ live.pw.fallow = none
    ∧ live.mb.run = none ∧ pf rRun 1 1 = 0 ∧ pf rRun 0 1 = 0 ∧ pf rRunAt 1 1 = 0 ∧ (pf rRunAt 0 1 = 1 ∧ live.namedOk (pf rRunAt 2 6) = true)
    ∧ Fresh live 0x06 rRun ∧ live.pw.detach = .none ∧ Fresh live 0x07 rRun ∧ Fresh live 0x06 rRunAt ∧ Fresh drilling 0x07 rRunAt
    ∧ live.drill.mode = 0 ∧ drilling.drill.mode ≠ 0 := by
  simp only [fresh_iff]; decide +kernel

/-! ### CARVE and the Almanac's verbs -/

/-- A lead whose function is disabled; the same with four granules held by EP4. -/
def pooled : State := live.setReg nUSB 0 0
def carved : State := { pooled with mem := { pooled.mem with pool := updAt pooled.mem.pool 3 fun _ => (16, 4) } }
def rCarve (op ep n : Nat) : Req := rq (leBytes 1 op ++ leBytes 1 ep ++ leBytes 2 n ++ leBytes 4 0)

theorem witness_CarveAnswers : Fresh pooled 0x08 (rCarve 0 4 4) ∧ (rCarve 0 4 4).length.toNat = 8 ∧ (rCarve 0 4 4).noun = 0
    ∧ (rCarve 0 4 4).index = 0 ∧ (pooled.heldRoom (rCarve 0 4 4)).1 = true ∧ pooled.pw.fallow = none ∧ pz (rCarve 0 4 4) 4 4 = true
    ∧ pooled.fld nPLOTMAP 0 24 6 ≠ 0 ∧ pf (rCarve 0 4 4) 0 1 = 0 ∧ pf (rCarve 0 4 4) 1 1 = 4 ∧ pooled.epEnabled 4 = false
    ∧ pf (rCarve 0 4 4) 2 2 = 4 ∧ (nth (0, 0) pooled.mem.pool 3).2 = 0 ∧ lowestRun pooled.mem.pool 4 = some 16
    ∧ Fresh carved 0x08 (rCarve 1 4 0) ∧ pf (rCarve 1 4 0) 0 1 = 1 ∧ pf (rCarve 1 4 0) 2 2 = 0 ∧ carved.epEnabled 4 = false
    ∧ (nth (0, 0) carved.mem.pool 3).2 ≠ 0 ∧ Fresh carved 0x08 (rCarve 2 6 0) ∧ pf (rCarve 2 6 0) 0 1 = 2 ∧ pf (rCarve 2 6 0) 1 1 ≤ 6 := by
  simp only [fresh_iff]; decide +kernel

def rAlmRead : Req := rq ([2, 0] ++ leBytes 2 1 ++ leBytes 4 0)
theorem witness_AlmanacReadAnswers : Fresh live 0x10 rAlmRead ∧ rAlmRead.length.toNat = 8 ∧ rAlmRead.noun = 0 ∧ rAlmRead.index = 0
    ∧ almReadOk rAlmRead = true
    ∧ live.fits rAlmRead (16 + 64 * (live.almRead (pf rAlmRead 0 1) (pf rAlmRead 1 1) (pf rAlmRead 2 2) (pf rAlmRead 4 4)).units.length) = true := by
  simp only [fresh_iff]; decide +kernel

def rMark : Req := rq (leBytes 2 0x1234 ++ [1, 0] ++ List.replicate 32 0xAA)
theorem witness_AlmanacRecordsAreHeld : rMark.noun = 0 ∧ rMark.index = 0 ∧ (live.heldRoom rMark).1 = true ∧ live.alm.queue.length < 48
    ∧ Fresh live 0x11 rMark ∧ rMark.length.toNat = 36 ∧ pf rMark 2 1 ≤ 1 ∧ pz rMark 3 1 = true
    ∧ Fresh service 0x12 (rq (leBytes 4 0)) ∧ (rq (leBytes 4 0)).length.toNat = 4 ∧ service.boot.service = true
    ∧ pf (rq (leBytes 4 0)) 0 2 = firstUsed service.alm ∧ pz (rq (leBytes 4 0)) 2 2 = true := by
  simp only [fresh_iff]; decide +kernel

/-! ### States for single statements -/

/-- A state with configuration words set: noun, word, value. -/
def withRegs (s : State) (l : List (Nat × Nat × Nat)) : State := l.foldl (fun s x => s.setReg x.1 x.2.1 x.2.2) s

/-- Regions for holdings 2, 1, 4 and 6, and the storage windows with a NOR device and a PSRAM device. -/
def mapRegs : List (Nat × Nat × Nat) :=
  [(nPLOTMAP, 32, 0x32), (nPLOTMAP, 33, 0x80), (nPLOTMAP, 34, 8), (nPLOTMAP, 35, 0x31), (nPLOTMAP, 36, 0x90), (nPLOTMAP, 37, 4),
   (nPLOTMAP, 38, 0x34), (nPLOTMAP, 39, 0xA0), (nPLOTMAP, 40, 16), (nPLOTMAP, 41, 0x36), (nPLOTMAP, 42, 0xC0), (nPLOTMAP, 43, 16)]

/-- Two CSP entries on CSP0; a trigger, a collect and an edge entry on FURROW24. -/
def drillRegs : List (Nat × Nat × Nat) :=
  [(nFURROW 0, 0, 2), (nFURROW 0, 8, 0x01000400), (nFURROW 0, 9, 0x01002000), (nFURROW 0, 12, 0x01004000), (nFURROW 0, 13, 0x01008000),
   (nFURROW 0, 14, 0x100), (nFURROW 24, 0, 3), (nFURROW 24, 8, 0x02000400), (nFURROW 24, 9, 0x01040000), (nFURROW 24, 12, 0x03000400),
   (nFURROW 24, 16, 0x04000400), (nCSP 0, 0, 1), (nCSP 0, 8, 0x2460), (nCSP 0, 9, 0x00080000 + 32 * 8192 + 32),
   (nCSP 0, 10, 0x20000), (nCSP 0, 12, 0x40), (nCSP 0, 16, 0x2420), (nCSP 0, 17, 0x00080000 + 32 * 8192 + 32), (nSENT 0, 0, 243), (nSENT 1, 0, 241), (nSENT 1, 1, 30 + 2097152 * 20), (nSENT 9, 0, 241), (nEDGE 0, 0, 3), (nEDGE 0, 4, 10)]

/-- The drill in RUN, its entries waiting, running and so on. -/
def drilled : State :=
  { withRegs live (mapRegs ++ drillRegs) with
      drill := { live.drill with mode := 1, polled := true, entries := updAt (updAt (updAt (updAt (List.replicate 288 {}) 0 fun _ => { phase := .waiting })
                  1 fun _ => { phase := .running, waitStart := true }) 256 fun _ => { phase := .waiting }) 257 fun _ => { phase := .running } } }

/-- The same with its sheaf assembled, a sheaf published before, and its ring mapped. -/
def assembled : State :=
  { drilled with sheaf := { drilled.sheaf with assembly := some { period := 10, slots := [], window := 0, coherent := 0, done := true, faulted := false, missingMember := false, early := 0, newEpoch := false }
                                               index := 2, any := true, published := 3, buffers := updAt (List.replicate 8 none) 2 fun _ => some { period := 9, layout := 0, header := 64, body := 0, order := 3 } } }

/-- Assembly still under way. -/
def assembling : State := { assembled with sheaf := { assembled.sheaf with assembly := assembled.sheaf.assembly.map fun a => { a with done := false } } }

/-- A COMMIT and a START that wait for the next line. -/
def commitWaits : State := { live with mb := { live.mb with commit := some { ticket := ⟨1, 1⟩, named := none, ready := 0, notBefore := 0, shadow := theShadow }, shadow := some theShadow } }
def startWaits : State := { live with mb := { live.mb with run := some { ticket := none, start := true, named := none } } }
def stopWaits : State := { drilled with mb := { live.mb with run := some { ticket := some ⟨1, 1⟩, start := false, named := some 11 } } }

/-- SYNC_IN captures. -/
def synced : State := live.setReg nPERIOD 0 (8 + 2 * 65536)

/-- A held chain whose recovery frame runs, and a slave port with a transaction. -/
def chained : State := { drilled with csp := updAt drilled.csp 2 fun p => { p with chain := some { entry := 64, selects := 1, sdo := [true, false], bits := 0, div := 32, delay := 0, lag := 12, since := some 29990000 } } }
def slaved : State := { assembled.setReg (nCSP 3) 0 3 with csp := updAt live.csp 4 fun p => { p with slave := some { buffer := some 2, order := 3, repeated := false, sent := [true, false], starved := false } } }

/-- A NOR device and a PSRAM device that may be written, a page gathered and a program on the wire. -/
def storeRegs : List (Nat × Nat × Nat) := [(nCSP 8, 4, 0x21), (nCSP 8, 8, 0x22)]
def stored : State := withRegs live storeRegs
def gathered : State := { stored with csp8 := { stored.csp8 with gather := [some ⟨.steward, 0x1000, [1, 2, 3], 29999999, live.storeCfg 0⟩, none] } }
def programmed : State := { stored with csp8 := { stored.csp8 with busy := [some ⟨.steward, 0x1000, [1, 2, 3], 29999999, 29999999, stored.storeCfg 0⟩, none] } }

/-- Two-wire targets: an MBX2 reply that waits; TWT1 on with a view of 8 bytes. -/
def twoWire : State :=
  { withRegs live [(nTWT 1, 0, 0xD05), (nTWT 1, 4, 8 * 131072)] with
      mb := { live.mb with chans := (List.replicate 4 { replies := [{ v2 := true, tag := 7, verb := 1, flags := 0, noun := 0, index := 0, epoch := 0, status := 0, payload := [1, 2, 3] }] }) }
      mirror := updAt live.mirror 1 fun _ => { period := 9, layout := 1, valid := true, data := [1, 2, 3, 4, 5, 6, 7, 8] } }

/-- An edge that waits for its debounce time. -/
def edged : State := { drilled with edge := updAt drilled.edge 0 fun x => { x with seen := true, since := some 29999000 } }

/-- Banks that wake, wait for a wake, and are off. -/
def gatedBanks : State :=
  { drilled.setReg nPLOTMAP 0 ((60 <<< 24) + (60 <<< 16) + (10 <<< 8) + 3) with
      mem := { drilled.mem with banks := updAt (updAt (updAt drilled.mem.banks 10 fun b => { b with state := .off }) 20 fun b => { b with state := .retained, waking := true }) 21 fun b => { b with state := .off, waking := true } } }

/-- A fault of the assembler that waits for the steward, on a bank that is off or on. -/
def faulted (k : Nat) : State :=
  { gatedBanks with mem := { gatedBanks.mem with faults := [{ agent := .assembler, dir := .read, vaddr := 0, index := 0, kind := 3, count := 1, bank := some k, contentLost := false, resolved := false, time := 29999000 }] } }

/-- A lead with three planned positions: position 1 joined, position 2 joining in a beacon period, position 3 lost. -/
def stacked : State :=
  let s := withRegs live ((nYOKE, 0, 0x70103) :: mapRegs)
  { s.setReg nYOKE 1 0 with yoke := { live.yoke with
      positions := updAt (updAt live.yoke.positions 0 fun p => { p with state := 3, offsets := [9, 9, 9, 9], delayQ := 10 }) 2 fun p => { p with state := 6 }
      markersOn := true, beacon := true } }

/-- The same with a command that was sent four times. -/
def unanswered : State :=
  { stacked with yoke := { stacked.yoke with commands := [{ kind := .trim, dest := 1, seq := 5, payload := [0, 0], sent := 4, open' := [1], notBefore := 0, ticket := none }] } }

/-- A joined member at position 1, an unjoined one, and one that is joining. -/
def plan : Grant := { apply := 5, ticks := 15000, balkNs := 640, slots := [(100000, 64), (0, 0), (0, 0), (0, 0), (0, 0), (0, 0), (0, 0)] }
def linked (n : Nat) : State :=
  { (member.setReg nYOKE 0 0x103) with yoke := { member.yoke with linkState := n, hop := some 0, position := if n = 5 then 1 else 0xFF, applied := some plan, delayQ := 40, beacon := true, markerSeen := 29990000 } }
def agreedEntry : State := { linked 5 with yoke := { (linked 5).yoke with agreed := some (3, false, 1000, 10, some 11) } }
/-- A member whose shadow is open. -/
def busyMember : State := { linked 5 with mb := { live.mb with shadow := some theShadow } }
def agreedOpen : State := { linked 5 with yoke := { (linked 5).yoke with agreed := some (3, false, 1000, 10, none) }, tm := { live.tm with period := 300 } }
def echoing : State := { linked 4 with yoke := { (linked 4).yoke with echo := some 12000 } }
def leavingMember : State := { linked 5 with yoke := { (linked 5).yoke with leaving := true } }

/-- Without VIN; stopped by overvoltage; stopped by heat. -/
def unpowered : State := { live with pw := { live.pw with state := .off }, boot := { live.boot with phase := .off } }
def overvolted : State := { unpowered with pw := { unpowered.pw with ovStop := true } }
def overheated : State := { unpowered with pw := { unpowered.pw with thermalStop := true } }

/-- On backup, with alarms counted, and a record that is written. -/
def onBackup : State :=
  { live.setReg nPOWER 18 0xF with pw := { live.pw with state := .backup, aonAlmEnable := 15, aonRtcAlarm := 100, backup := { counts := [2, 0, 0, 0], sinceRec := [2, 0, 0, 0], total := 2, holdoff := true, writing := some 1 } }
                                   boot := { live.boot with phase := .off } }
def alarmed : State := { live with pw := { live.pw with aonAlmEnable := 15, aonRtcAlarm := 100 } }

/-- Asleep in FALLOW, by its own entry and by an agreed one; in the deep one; and waking. -/
def context (deep agreed : Bool) : WakeContext := { deep, now := 29970000, period := 10, drillRan := true, sleepMs := 5000, ticks := 15000, agreed }
def asleep (agreed : Bool) : State :=
  { live with pw := { live.pw with state := .fallow, wake := some (context false agreed) }, yoke := { live.yoke with hop := some 0 } }
def asleepDeep : State := { live with pw := { live.pw with state := .deep, wake := some (context true false) } }
def waking : State :=
  { live with pw := { live.pw with wake := some (context false false), waking := true, hold := some 31000000 }
              boot := { live.boot with phase := .rom, kind := .wake, runningFrom := 1 } }

/-- PRSNT_N high; a DETACH replied to, and one that holds. -/
def pulledOut : State := { live with pw := { live.pw with prsntHigh := true } }
def detaching : State := { live with pw := { live.pw with detach := .replied } }
def detached : State := { live with pw := { live.pw with detach := .held } }
def heldInReset : State := { live with boot := { live.boot with phase := .held } }

/-- Starts of the steward. -/
def atRom : State := { live with boot := { live.boot with phase := .rom, runningFrom := 0 }, clk := { live.clk with bootLocked := true } }
def atVerified (k : StartKind) : State := { live with boot := { live.boot with phase := .verified, kind := k } }
def noReference : State := { atRom with clk := { bootLocked := false } }
def autostarting : State := { live with boot := { live.boot with autostart := true }, tm := { live.tm with now := 40000000, capture := 40000000 } }

/-- A scan under way; a record queued; merging windows; drops; EP6 and INT_N. -/
def almRec : AlmRec := { type := 0x90, cls := 0, source := 1, index := 0, code := 5, period := 10, stamp := 29000000 }
def scanning : State := { live with alm := { live.alm with scanDone := false } }
def queued : State := { live with alm := { live.alm with queue := [almRec] } }
def windowed : State := { live with alm := { live.alm with windows := [{ key := mergeKey almRec, opened := 29000000, count := 0, last := almRec }, { key := mergeKey { almRec with code := 6 }, opened := 29000001, count := 4, last := { almRec with code := 6 } }] } }
def dropping : State := { live with alm := { live.alm with dropped := 3 } }

/-- The reference lost; unlocked; switching; relocking; on the RC. -/
def refs (a : Nat) (h sw re : Option Nat) : State := { drilled.setReg nCLOCK 0 0x9 with clk := { live.clk with active := a, holdover := h, switching := sw, relocking := re, refinOk := true } }

/-- The function configured at high speed with both streams on, and the hub. -/
def served : State :=
  { live with usb := { live.usb with state := 4, speed := 2, address := 5, pullup := true, vbus := true, streams := [{ alt := 1 }, { alt := 1 }], ports := [{ requested := true, ppe := true, state := 2 }, { requested := true, ppe := true, state := 1 }, {}, {}] }
              ev := { live.ev with ep3Acc := 5, wake := true }
              alm := { live.alm with ep6 := [[1, 2], [3]], ep6Open := true } }
def delivery : Delivery := { period := 9, layout := 1, chunks := 2, k := 64, src := 0, len := 100, bytes := List.replicate 100 7 }
def streaming : State :=
  { served with usb := { served.usb with streams := [{ alt := 1, sending := some (delivery, 0), fresh := false }, { alt := 1, copying := some delivery }] } }
def reporting : State := { served with ev := { served.ev with ep3Report := some (1, [1, 2, 3]), ep3Mask := 4, intRelease := some 29990000 } }
def suspended : State := { served with usb := { served.usb with state := 5, before := 4, suspended := true, suspendedAt := 29000000, remoteWake := true } }
def detachedUsb : State := { live with usb := { live.usb with vbus := true, vbusSince := 29900000 } }
def addressing (n : Nat) : State := { served with usb := { served.usb with state := n } }
def waitingReply : State := { twoWire with usb := served.usb }

/-- Fences that are done; a staging; a trial; consents; episodes; held replies. -/
def fence : Fence := { ticket := ⟨1, 1⟩, period := 10, since := 29900000, step := .resume }
def fenced : State :=
  { live with csp := updAt live.csp 1 fun p => { p with fence := some fence }, csp8 := { live.csp8 with fence := some fence }, usb := { live.usb with fence := some fence }
              edge := live.edge, twt := updAt live.twt 1 fun x => { x with fence := some fence } }
def staging (chunks : List (Ticket × Nat × List Byte)) (op : Option (Ticket × Nat)) : State :=
  { stored with upd := { live.upd with staging := some { ch := 1, slot := 2, length := 5000, received := 3, lastRequest := 29000000, chunks, op } } }
def trial : State := { live with upd := { live.upd with trialSince := some 29000000 } }
def consented : State :=
  { live with hw := { live.hw with consents := [{ ch := 1, id := 77, at' := 29950000 }], episodes := updAt live.hw.episodes 1 fun e => { e with state := 2, first := 3 }, heldReplies := [⟨0, 1, { v2 := true, tag := 7, verb := 1, flags := 0, noun := 0, index := 0, epoch := 0, status := 0, payload := [] }, 30001000⟩] } }
def windowEnded : State := ({ consented with hw := { consented.hw with heldReplies := [] } }).setReg nHARROW (8 + 12 + 6) (2 * 65536)
def threshing : State := live.setReg nTHRESHER 0 1

/-! ### The Thresher's verbs and kernels -/

def ob (id type comps entries vaddr : Nat) : Obj :=
  { id, type, flags := 2, components := comps, ring := if type = 1 ∨ type = 8 ∨ type = 9 then 0xFF else 0, limbs := 1, entries, dataLen := 16
    capacity := 128, special := 0, vaddr, complete := true, received := 80, owner := none, lastChunk := 0, used := 0 }

def theJob : Job :=
  { ticket := none, number := 1, program := 3, every := 1, count := 0, first := none, pc := 0, iteration := 0, sheaf := none, skipping := false
    waitSince := 0, ending := none, returned := [], layout := {} }

def thrCtx : Ctx :=
  { state := 2, job := some theJob, objects := [ob 0 1 0 0 0, ob 1 5 2 0 0x1000, ob 2 5 2 0 0x1200, ob 3 8 0 1 0x2000, ob 4 9 0 0 0x2400,
      ob 5 7 2 1 0x2600, ob 6 10 0 1 0x2800, ob 7 3 2 1 0x2A00, ob 8 6 1 0 0x2C00] }

/-- Context 0 on the engine at an instruction: opcode, dst, a, b and c. -/
def thrAt (op dst a b c : Nat) : State :=
  State.virtWrite { withRegs live (mapRegs ++ [(nTHRESHER, 0, 1), (nTHRESHER, 16, 17), (nTHRCTX 0, 2, 0x8000)]) with
      thr := { live.thr with running := some 0, gated := false, ctxs := updAt live.thr.ctxs 0 fun _ => thrCtx } } 6 0x2040
    (leBytes 1 op ++ [0] ++ leBytes 2 dst ++ leBytes 2 a ++ leBytes 2 b ++ leBytes 2 c ++ leBytes 2 1 ++ leBytes 4 0)

/-- The same with another context 0. -/
def withCtx (s : State) (f : Ctx → Ctx) : State := s.modCtx 0 f
def idleThr : State := { withCtx (thrAt 0 0 0 0 0) (fun c => { c with job := none, state := 0 }) with thr := { (withCtx (thrAt 0 0 0 0 0) (fun c => { c with job := none, state := 0 })).thr with running := none } }
def rThr (bs : List Byte) : Req := rq bs
def thrHeader (type ring : Nat) : List Byte := Obj.header { ob 0 type 0 0 0 with flags := 0, ring, dataLen := 0, capacity := 0 }
def rLoad (op id fin at' off len : Nat) (bs : List Byte) : Req :=
  rq ([0] ++ leBytes 1 op ++ leBytes 1 id ++ leBytes 1 fin ++ leBytes 4 at' ++ leBytes 4 off ++ leBytes 4 len ++ bs)
def rInline : Req := rLoad 0 9 0 0x3000 0 64 (thrHeader 8 0xFF)
def rStore : Req := rLoad 1 9 0 0x3000 0 64 []
def rUnload : Req := rLoad 2 1 0 0 0 0 []
def rAllocate : Req := rLoad 3 9 0 0x3000 0 0 (thrHeader 8 0xFF)
def withStore : State := { idleThr with mem := { idleThr.mem with nor := Memory.writeList flashEmpty [] 0x900000 (thrHeader 8 0xFF) } }

theorem witness_ThrLoadAnswers_inline : idleThr.Inv ∧ Fresh idleThr 0x20 rInline ∧ rInline.noun = 0 ∧ rInline.index = 0 ∧ pf rInline 0 1 = 0
    ∧ pf rInline 2 1 = 9 ∧ pf rInline 4 4 = 0x3000 ∧ idleThr.ctxFenced 0 = false ∧ idleThr.idBusy 0 9 false = false ∧ pf rInline 1 1 = 0
    ∧ rInline.length.toNat = 16 + pf rInline 12 4 ∧ (idleThr.ctx 0).obj 9 = none ∧ pf rInline 3 1 = 0 ∧ pf rInline 8 4 = 0
    ∧ tagStatus (leAt (rInline.payload.drop 16) 4 1) = 0 ∧ idleThr.mapped 6 .write 0x3000 (rInline.payload.drop 16).length = true
    ∧ FirmwarePasses idleThr .steward 6 [⟨.write, 0x3000, (rInline.payload.drop 16).length⟩] := by
  simp only [inv_iff, fresh_iff, firmware_iff]; decide +kernel
theorem witness_ThrLoadAnswers_store : withStore.Inv ∧ Fresh withStore 0x20 rStore ∧ rStore.noun = 0 ∧ rStore.index = 0 ∧ pf rStore 0 1 = 0
    ∧ pf rStore 2 1 = 9 ∧ pf rStore 4 4 = 0x3000 ∧ withStore.ctxFenced 0 = false ∧ withStore.idBusy 0 9 false = false ∧ pf rStore 1 1 = 1
    ∧ rStore.length.toNat = 16 ∧ pf rStore 3 1 ≤ 1 ∧ withStore.selectWaits 0 = false ∧ 64 ≤ pf rStore 12 4
    ∧ 0x900000 + pf rStore 8 4 + pf rStore 12 4 ≤ withStore.fld (nCSP 8) 7 16 9 * 0x100000 ∧ withStore.mapped 6 .write 0x3000 64 = true
    ∧ (objOf 9 0x3000 (withStore.nor 0x900000 64)).type = 8
    ∧ (withStore.virtWrite 6 0x3000 (withStore.nor 0x900000 64)).objOk 0 { objOf 9 0x3000 (withStore.nor 0x900000 64) with received := 64 } = true
    ∧ (withStore.virtWrite 6 0x3000 (withStore.nor 0x900000 64)).virtRead 6 0x3000 64 = (withStore.nor 0x900000 64).take 64
    ∧ FirmwarePasses withStore .storage 6 [⟨.write, 0x3000, 64⟩] := by
  simp only [inv_iff, fresh_iff, firmware_iff]; decide +kernel
theorem witness_ThrLoadAnswers_unload : idleThr.Inv ∧ Fresh idleThr 0x20 rUnload ∧ rUnload.noun = 0 ∧ rUnload.index = 0 ∧ pf rUnload 0 1 = 0
    ∧ pf rUnload 2 1 = 1 ∧ idleThr.ctxFenced 0 = false ∧ idleThr.idBusy 0 1 false = false ∧ pf rUnload 1 1 = 2
    ∧ rUnload.length.toNat = 16 ∧ pf rUnload 3 1 ≤ 1 ∧ ((idleThr.ctx 0).obj 1).isSome = true := by
  simp only [inv_iff, fresh_iff]; decide +kernel
theorem witness_ThrLoadAnswers_allocate : idleThr.Inv ∧ Fresh idleThr 0x20 rAllocate ∧ rAllocate.noun = 0 ∧ rAllocate.index = 0
    ∧ pf rAllocate 0 1 = 0 ∧ pf rAllocate 2 1 = 9 ∧ pf rAllocate 4 4 = 0x3000 ∧ idleThr.idBusy 0 9 false = false ∧ pf rAllocate 1 1 = 3
    ∧ rAllocate.length.toNat = 80 ∧ pf rAllocate 3 1 ≤ 1 ∧ slice rAllocate.payload 16 64 = thrHeader 8 0xFF ∧ leAt (thrHeader 8 0xFF) 12 4 = 0
    ∧ idleThr.mapped 6 .write 0x3000 64 = true ∧ (objOf 9 0x3000 (thrHeader 8 0xFF)).type = 8
    ∧ (idleThr.virtWrite 6 0x3000 (thrHeader 8 0xFF)).virtRead 6 0x3000 64 = thrHeader 8 0xFF
    ∧ (idleThr.virtWrite 6 0x3000 (thrHeader 8 0xFF)).objOk 0 { objOf 9 0x3000 (thrHeader 8 0xFF) with received := 64 } = true
    ∧ FirmwarePasses idleThr .steward 6 [⟨.write, 0x3000, 64⟩] := by
  simp only [inv_iff, fresh_iff, firmware_iff]; decide +kernel

def rSubmit (flag : Nat) : Req := rq ([0] ++ leBytes 1 flag ++ leBytes 1 3 ++ [0] ++ leBytes 2 1 ++ [0, 0] ++ leBytes 4 5 ++ leBytes 6 12)
def rCancel : Req := rq ([0, 0, 0, 0] ++ leBytes 4 0)
def ready : State := { withCtx (thrAt 0 0 0 0 0) (fun c => { c with state := 1 }) with thr := { (withCtx (thrAt 0 0 0 0 0) (fun c => { c with state := 1 })).thr with running := none } }

theorem witness_JobsAcceptedAndCancelled_submit : idleThr.Inv ∧ Fresh idleThr 0x21 (rSubmit 0) ∧ (rSubmit 0).length.toNat = 18 ∧ (rSubmit 0).noun = 0
    ∧ (rSubmit 0).index = 0 ∧ pf (rSubmit 0) 0 1 = 0 ∧ (idleThr.heldRoom (rSubmit 0)).1 = true ∧ idleThr.ctxFenced 0 = false
    ∧ (idleThr.ctx 0).job = none ∧ pf (rSubmit 0) 1 1 = 0 ∧ (pf (rSubmit 1) 1 1 = 1 ∧ idleThr.namedOk (pf (rSubmit 1) 12 6) = true)
    ∧ pz (rSubmit 0) 3 1 = true ∧ pz (rSubmit 0) 6 2 = true ∧ 1 ≤ pf (rSubmit 0) 4 2 ∧ (idleThr.ctx 0).loaded (pf (rSubmit 0) 2 1) = some (ob 3 8 0 1 0x2000)
    ∧ idleThr.checkProgram 0 (idleThr.program 0 (ob 3 8 0 1 0x2000)) = none
    ∧ FirmwarePasses idleThr .steward 6 ((idleThr.ctx 0).checkParts (ob 3 8 0 1 0x2000)) := by
  simp only [inv_iff, fresh_iff, firmware_iff]; decide +kernel
theorem witness_JobsAcceptedAndCancelled_cancel : (thrAt 0 0 0 0 0).Inv ∧ Fresh (thrAt 0 0 0 0 0) 0x22 rCancel ∧ ready.Inv ∧ Fresh ready 0x22 rCancel
    ∧ rCancel.length.toNat = 8 ∧ rCancel.noun = 0 ∧ rCancel.index = 0 ∧ pf rCancel 0 1 = 0 ∧ ready.ctxFenced 0 = false
    ∧ pz rCancel 1 3 = true ∧ ((thrAt 0 0 0 0 0).ctx 0).job = some theJob ∧ (ready.ctx 0).job = some theJob ∧ pf rCancel 4 4 = 0
    ∧ (thrAt 0 0 0 0 0).thr.running = some 0 ∧ (thrAt 0 0 0 0 0).suspended (thrAgent 0) = false ∧ ready.thr.running ≠ some 0 := by
  simp only [inv_iff, fresh_iff]; decide +kernel

def rStatus (id : Nat) : Req := rq ([0] ++ leBytes 1 id ++ [0, 0] ++ leBytes 4 0 ++ leBytes 2 (if id = 0xFF then 0 else 80))
def handed : State := withCtx (thrAt 0x12 1 2 0xFFFF 0xFFFF) (fun c => { c with state := 5, handoff := 4 })
/-- HANDOFF whose return has one limb, two components and is in the coefficient domain. -/
def handed1 : State :=
  handed.virtWrite 6 0x204C (leBytes 4 0x201)
def replacement : List Byte := Obj.header { ob 1 5 2 0 0x1000 with flags := 0, dataLen := 16, capacity := 128 } ++ List.replicate 16 0
def rReturn (last : Nat) : Req := rq ([0] ++ leBytes 1 last ++ leBytes 2 4 ++ leBytes 4 0 ++ replacement)

theorem witness_JobsToldAndTaken_status : Fresh idleThr 0x23 (rStatus 1) ∧ (rStatus 1).length.toNat = 10 ∧ (rStatus 1).noun = 0 ∧ (rStatus 1).index = 0
    ∧ pf (rStatus 1) 0 1 = 0 ∧ idleThr.fits (rStatus 1) (32 + pf (rStatus 1) 8 2) = true ∧ idleThr.ctxFenced 0 = false ∧ pz (rStatus 1) 2 2 = true
    ∧ pf (rStatus 1) 8 2 ≤ 4046 ∧ (idleThr.ctx 0).obj (pf (rStatus 1) 1 1) = some (ob 1 5 2 0 0x1000)
    ∧ pf (rStatus 1) 4 4 + pf (rStatus 1) 8 2 ≤ 64 + (ob 1 5 2 0 0x1000).dataLen ∧ Fresh idleThr 0x23 (rStatus 0xFF) ∧ pf (rStatus 0xFF) 1 1 = 0xFF
    ∧ FirmwarePasses idleThr .steward 6 [⟨.read, 0x1000 + pf (rStatus 1) 4 4, pf (rStatus 1) 8 2⟩] := by
  simp only [fresh_iff, firmware_iff]; decide +kernel
theorem witness_JobsToldAndTaken_return : handed1.Inv ∧ Fresh handed1 0x24 (rReturn 0) ∧ Fresh handed1 0x24 (rReturn 1) ∧ 8 ≤ (rReturn 0).length.toNat
    ∧ (rReturn 0).noun = 0 ∧ (rReturn 0).index = 0 ∧ pf (rReturn 0) 0 1 = 0 ∧ handed1.ctxFenced 0 = false ∧ (handed1.ctx 0).state = 5
    ∧ pf (rReturn 0) 2 2 = (handed1.ctx 0).handoff ∧ (handed1.ctx 0).job = some theJob ∧ theJob.returned.length = pf (rReturn 0) 4 4
    ∧ pf (rReturn 0) 1 1 = 0 ∧ pf (rReturn 1) 1 1 = 1 ∧ FirmwarePasses handed1 .steward 6 (handed1.returnPart 0 theJob ((rReturn 1).payload.drop 8)).toList
    ∧ ((handed1.takeReturn 0 theJob ((rReturn 1).payload.drop 8)).any fun u => (List.range 4).all fun m => (u.ctx m).saved.isNone) = true := by
  simp only [inv_iff, fresh_iff, firmware_iff]; decide +kernel

/-- A limb of each mode for q = 17: MONT with q' = -1/17 modulo 2^64, RECIP with beta 5 and mu = 1024 / 17. -/
def montLimb : Limb := { q := 17, qPrime := 1085102592571150095, mu := 0, mont := true, psi := 3 }
def recipLimb : Limb := { q := 17, qPrime := 0, mu := 60, mont := false, psi := 3 }
theorem witness_LimbsAndResidues : 1 < montLimb.q ∧ 5 < montLimb.q ∧ 16 < montLimb.q ∧ montLimb.mont = true ∧ montLimb.q < 2 ^ 64
    ∧ montLimb.q * montLimb.qPrime % 2 ^ 64 = 2 ^ 64 - 1 ∧ recipLimb.mont = false ∧ recipLimb.mu = 2 ^ (2 * recipLimb.beta) / recipLimb.q
    ∧ (LastOp.prod 5 16).holds montLimb ((LastOp.prod 5 16).eval montLimb) = true := by decide +kernel

/-- Each kernel's accesses pass, over these states; polyeval reads its entries of the table and the key. -/
def kernelOk (op : Nat) (dst : Nat := 2) (b c : Nat := 1) (out : State → Operand → Operand → Option KernelResult) : Bool :=
  let s := thrAt op dst 1 b c
  match s.operand 0 1, s.operand 0 2 with
  | some x, some y => s.current 0 == some (theJob, ⟨op, 0, dst, 1, b, c, 1, 0⟩)
      && instrB s 0 theJob (s.instrParts 0 ⟨op, 0, dst, 1, b, c, 1, 0⟩ ++ (if op = 4 then s.operandParts 0 dst else [])) (out s x y)
  | _, _ => false
theorem witness_KernelsRun_element :
    kernelOk 1 (out := fun s x _ => let h := harden x.ls (2 ^ x.k) (emulOps x.ls x.comps x.comps) none
      s.polyOut 0 2 h.1 x.obj.limbs x.k (bitAt x.obj.flags 1) h.2) = true
    ∧ kernelOk 2 (out := fun s x _ => let h := harden x.ls (2 ^ x.k) (eaddOps x.ls x.comps x.comps) none
      s.polyOut 0 2 h.1 x.obj.limbs x.k (bitAt x.obj.flags 1) h.2) = true
    ∧ kernelOk 3 (out := fun s x _ => s.polyOut 0 2 (esubK x.ls x.comps x.comps) x.obj.limbs x.k (bitAt x.obj.flags 1)) = true
    ∧ kernelOk 4 (out := fun s x y => s.polyOut 0 2 (emacK x.ls y.comps x.comps x.comps) x.obj.limbs x.k true) = true := by
  decide +kernel
theorem witness_KernelsRun_poly :
    kernelOk 5 (out := fun s x _ => s.polyOut 0 2 (nttK x.ls x.k x.comps) x.obj.limbs x.k true) = true
    ∧ kernelOk 6 (out := fun s x _ => s.polyOut 0 2 (inttK x.ls x.k x.comps) x.obj.limbs x.k false) = true
    ∧ kernelOk 7 (out := fun s x _ => s.polyOut 0 2 (automorphK x.ls x.k 0 (bitAt x.obj.flags 1) x.comps) x.obj.limbs x.k (bitAt x.obj.flags 1)) = true
    ∧ kernelOk 8 (out := fun s x y => s.polyOut 0 2 [baseconvK x.ls y.ls (2 ^ x.k) (x.comps.headD [])] 1 x.k false) = true
    ∧ kernelOk 9 (out := fun s x _ => s.polyOut 0 2 (x.comps.map (rescaleComp x.ls)) (x.obj.limbs - 1) x.k false) = true
    ∧ kernelOk 10 (out := fun s x _ => s.polyOut 0 2 [decompK x.ls 0 (x.comps.headD [])] x.obj.limbs x.k false) = true
    ∧ kernelOk 20 (out := fun s x _ => s.polyOut 0 2 (x.comps.map (·.take 0)) 0 x.k (bitAt x.obj.flags 1)) = true
    ∧ ((thrAt 8 2 1 1 1).ctx 0).loaded (handleId 2) = some (ob 2 5 2 0 0x1200) ∧ (thrAt 8 2 1 1 1).ringFor 0 (ob 2 5 2 0 0x1200) ≠ none
    ∧ ((thrAt 11 2 1 6 7).ctx 0).loaded (handleId 6) = some (ob 6 10 0 1 0x2800) ∧ ((thrAt 11 2 1 6 7).ctx 0).loaded (handleId 7) = some (ob 7 3 2 1 0x2A00)
    ∧ kernelOk 11 (b := 6) (c := 7) (out := fun s x _ =>
        let e := polyevalK x.ls x.k 0 x.comps [s.words 0 (ob 6 10 0 1 0x2800) 64 1] [s.compsAt 0 (ob 7 3 2 1 0x2A00) 64 2 1 (2 ^ x.k)] none
        (s.polyOut 0 2 e.r (x.obj.limbs - 0) x.k true e.ok).map fun r => { r with writes := s.scratchWrite 0 1 x.obj.limbs x.k ++ r.writes }) = true := by
  decide +kernel

/-- A job whose sample's sheaf lies at sheaf_vaddr. -/
def featuring : State :=
  { withCtx ((thrAt 0x10 8 4 0xFFFF 0xFFFF).virtWrite 6 0x8010 [9]) (fun c => { c with job := some { theJob with sheaf := some 9 } }) with
      sheaf := { live.sheaf with buffers := updAt live.sheaf.buffers 0 fun _ => some { period := 9, layout := 0, header := 64, body := 0, order := 1 } } }
def emptyPool : State := withCtx (thrAt 0x11 1 5 0xFFFF 0xFFFF) fun c => { c with objects := c.objects.map fun o => { o with used := 1 } }
theorem witness_ServiceKernelsRun : (thrAt 0x13 1 0 0 0).Inv ∧ (thrAt 0x13 1 0 0 0).current 0 = some (theJob, ⟨0x13, 0, 1, 0, 0, 0, 1, 0⟩) ∧ theJob.ending = none
    ∧ ((thrAt 0x13 1 0 0 0).ctx 0).loaded (handleId 1) = some (ob 1 5 2 0 0x1000)
    ∧ instrB (thrAt 0x13 1 0 0 0) 0 theJob [] (some { writes := [(0x1040, List.replicate 16 0), (0x1000, Obj.header (ob 1 5 2 0 0x1000))], objs := [ob 1 5 2 0 0x1000], ok := true }) = true
    ∧ (thrAt 0x10 8 4 0 0).Inv ∧ (thrAt 0x10 8 4 0 0).current 0 = some (theJob, ⟨0x10, 0, 8, 4, 0, 0, 1, 0⟩)
    ∧ ((thrAt 0x10 8 4 0 0).ctx 0).loaded 4 = some (ob 4 9 0 0 0x2400) ∧ ((thrAt 0x10 8 4 0 0).ctx 0).loaded 8 = some (ob 8 6 1 0 0x2C00)
    ∧ passesB (thrAt 0x10 8 4 0 0) (thrAgent 0) ((thrAt 0x10 8 4 0 0).operandParts 0 4) = true ∧ (thrAt 0x10 8 4 0 0).featurePart 0 theJob = none
    ∧ (thrAt 0x11 1 5 0 0).Inv ∧ (thrAt 0x11 1 5 0 0).current 0 = some (theJob, ⟨0x11, 0, 1, 5, 0, 0, 1, 0⟩)
    ∧ instrB (thrAt 0x11 1 5 0 0) 0 theJob ((thrAt 0x11 1 5 0 0).rerandParts 0 1 5) ((thrAt 0x11 1 5 0 0).rerand 0 1 5) = true
    ∧ emptyPool.Inv ∧ emptyPool.current 0 = some (theJob, ⟨0x11, 0, 1, 5, 0xFFFF, 0xFFFF, 1, 0⟩) ∧ emptyPool.rerand 0 1 5 = none ∧ Saves emptyPool 0
    ∧ (thrAt 0x12 1 2 0xFFFF 0).Inv ∧ (thrAt 0x12 1 2 0xFFFF 0).current 0 = some (theJob, ⟨0x12, 0, 1, 2, 0xFFFF, 0, 1, 0⟩) ∧ Saves (thrAt 0x12 1 2 0xFFFF 0) 0
    ∧ (thrAt 0x12 2 1 5 0).Inv ∧ (thrAt 0x12 2 1 5 0).current 0 = some (theJob, ⟨0x12, 0, 2, 1, 5, 0, 1, 0⟩)
    ∧ instrB (thrAt 0x12 2 1 5 0) 0 theJob ((thrAt 0x12 2 1 5 0).rerandParts 0 1 5) ((thrAt 0x12 2 1 5 0).rerand 0 1 5) = true := by
  simp only [inv_iff, saves_iff]; decide +kernel
/-- FEATURE's reads pass, its result can be written, and so it does where an earlier fault left it. -/
def featureJob : Job := { theJob with sheaf := some 9 }
def featureOk : Bool :=
  let ps := featuring.operandParts 0 4 ++ (featuring.featurePart 0 featureJob).toList
  let u := featuring.accessed (thrAgent 0) ps
  passesB featuring (thrAgent 0) ps && match u.featureBuffer 0 featureJob, u.ringFor 0 (ob 8 6 1 0 0x2C00) with
    | some bs, some (k, ls) => leAt bs 12 4 == leAt (u.objBytes 0 (ob 4 9 0 0 0x2400) 64 4) 0 4
        && (u.features 0 featureJob (ob 4 9 0 0 0x2400) bs).any fun fs =>
          (u.polyResult 0 8 [ls.map fun l => featureRow l (2 ^ k) fs] 1 k ((ob 8 6 1 0 0x2C00).flags &&& 1 + 6 * 0)).any fun r =>
            passesB u (thrAgent 0) (writeParts r.writes)
    | _, _ => false
theorem witness_ServiceKernelsRun_feature : featuring.Inv ∧ featuring.current 0 = some (featureJob, ⟨0x10, 0, 8, 4, 0xFFFF, 0xFFFF, 1, 0⟩)
    ∧ (featuring.ctx 0).loaded 4 = some (ob 4 9 0 0 0x2400) ∧ (featuring.ctx 0).loaded 8 = some (ob 8 6 1 0 0x2C00) ∧ featureOk = true := by
  rw [inv_iff]; decide +kernel
theorem witness_IterationEnds : (thrAt 0 0 0 0 0).Inv ∧ (thrAt 0 0 0 0 0).current 0 = some (theJob, ⟨0, 0, 0, 0, 0, 0, 1, 0⟩) ∧ theJob.ending = none
    ∧ theJob.lastRound = false ∧ ({ theJob with count := 1 } : Job).lastRound = true ∧ Saves (thrAt 0 0 0 0 0) 0 := by
  simp only [inv_iff, saves_iff]; decide +kernel

/-- Context 1 is ready beside context 0; with a higher priority. -/
def shared : State := { thrAt 0 0 0 0 0 with thr := { (thrAt 0 0 0 0 0).thr with last := 0, ctxs := updAt (thrAt 0 0 0 0 0).thr.ctxs 1 fun _ => { thrCtx with state := 1 } } }
def urgent : State := shared.setReg (nTHRCTX 1) 0 2
def partLoaded : State := withCtx idleThr fun c => { c with objects := [{ ob 9 8 0 0 0x3000 with complete := false, owner := some 1 }] }
theorem witness_EngineIsShared : urgent.Inv ∧ urgent.thr.running = some 0 ∧ (urgent.ctx 0).job.bind (·.ending) = none ∧ urgent.nextCtx 0 = some 1
    ∧ urgent.thr.last = 0 ∧ urgent.engineOn = true ∧ (urgent.ctx 0).parking = none ∧ Saves urgent 0 ∧ (urgent.ctx 1).saved = none
    ∧ urgent.priority 0 < urgent.priority 1 ∧ shared.Inv ∧ shared.thr.running = some 0 ∧ shared.nextCtx 0 = some 1 ∧ shared.priority 0 = shared.priority 1 ∧ Saves shared 0
    ∧ shared.thr.last = 0 ∧ (shared.ctx 1).saved = none
    ∧ idleThr.Inv ∧ idleThr.thr.running = none ∧ idleThr.flag nTHRESHER 0 0 = true ∧ handed.Inv ∧ (handed.ctx 0).job = some theJob ∧ (handed.ctx 0).state = 5
    ∧ partLoaded.Inv ∧ (partLoaded.ctx 0).obj 9 = some { ob 9 8 0 0 0x3000 with complete := false, owner := some 1 } := by
  simp only [inv_iff, saves_iff]; decide +kernel

/-! ### Yoke, power, Harrow and update verbs -/

def rYoke (op k : Nat) (bs : List Byte) : Req := rq (leBytes 1 op ++ leBytes 1 k ++ [0, 0] ++ bs)
theorem witness_YokeCtlServes : stacked.Inv ∧ Fresh stacked 0x30 (rYoke 0 1 [1]) ∧ (rYoke 0 1 [1]).noun = 0 ∧ (rYoke 0 1 [1]).index = 0
    ∧ (stacked.heldRoom (rYoke 0 1 [1])).1 = true ∧ stacked.yoke.fence = none ∧ pz (rYoke 0 1 [1]) 2 2 = true ∧ pf (rYoke 0 1 [1]) 1 1 = 1
    ∧ pf (rYoke 0 1 [1]) 0 1 = 0 ∧ 5 ≤ (rYoke 0 1 [1]).length.toNat ∧ stacked.isLead = true ∧ stacked.isJoined 1 = true
    ∧ Fresh stacked 0x30 (rYoke 1 0 []) ∧ pf (rYoke 1 0 []) 0 1 = 1 ∧ (rYoke 1 0 []).length.toNat = 4 ∧ pf (rYoke 1 0 []) 1 1 = 0
    ∧ Fresh stacked 0x30 (rYoke 2 1 []) ∧ pf (rYoke 2 1 []) 0 1 = 2 ∧ Fresh stacked 0x30 (rYoke 3 1 []) ∧ pf (rYoke 3 1 []) 0 1 = 3 := by
  simp only [inv_iff, fresh_iff]; decide +kernel
theorem witness_YokeCtlServes_leave : (linked 5).Inv ∧ Fresh (linked 5) 0x30 (rYoke 4 0 []) ∧ pf (rYoke 4 0 []) 0 1 = 4 ∧ (linked 5).isMember = true
    ∧ (linked 5).yoke.linkState = 5 ∧ (linked 5).yoke.fence = none := by
  simp only [inv_iff, fresh_iff]; decide +kernel

def rFallow : Req := rq ([0, 0, 0, 0] ++ leBytes 4 1000)
def rWake (op ms : Nat) : Req := rq (leBytes 1 op ++ [0] ++ leBytes 2 ms)
def dozingOff : State :=
  { live with pw := { live.pw with fallow := some { ticket := none, deep := false, sleepMs := 100, entry := some 12, earliest := 0, proposal := none, committed := false, pointSent := false, latched := none } } }
theorem witness_SleepVerbsServe : rFallow.noun = 0 ∧ rFallow.index = 0 ∧ (live.heldRoom rFallow).1 = true ∧ Fresh live 0x31 rFallow
    ∧ rFallow.length.toNat = 8 ∧ live.fallowBusy = false ∧ pf rFallow 0 1 ≤ 1 ∧ pz rFallow 1 3 = true ∧ 1 ≤ pf rFallow 4 4 ∧ pf rFallow 4 4 ≤ 86400000
    ∧ live.isLead = true ∧ live.joined = [] ∧ Fresh stacked 0x31 rFallow ∧ (stacked.heldRoom rFallow).1 = true ∧ stacked.fallowBusy = false
    ∧ stacked.isLead = true ∧ stacked.joined ≠ []
    ∧ Fresh dozingOff 0x32 (rWake 0 0) ∧ (rWake 0 0).length.toNat = 4 ∧ pz (rWake 0 0) 1 1 = true ∧ pf (rWake 0 0) 0 1 = 0 ∧ pf (rWake 0 0) 2 2 = 0
    ∧ (dozingOff.heldRoom (rWake 0 0)).1 = true ∧ dozingOff.yoke.agreed = none ∧ dozingOff.pw.fallow.any (fun f => !f.pointSent && f.ticket.isNone && f.proposal.isNone) = true
    ∧ Fresh live 0x32 (rWake 1 60000) ∧ pf (rWake 1 60000) 0 1 = 1 ∧ pf (rWake 1 60000) 2 2 = 60000 ∧ Fresh live 0x32 (rWake 1 1) ∧ pf (rWake 1 1) 2 2 = 1 := by
  simp only [fresh_iff]; decide +kernel
theorem ctx_default (n : Nat) (s : State) (h : s.thr.ctxs = List.replicate 4 {}) : (s.ctx n).job = none := by
  simp only [State.ctx, nth, h, List.getD_eq_getElem?_getD, List.getElem?_replicate]
  split <;> rfl
theorem witness_SleepVerbsServe_detach : Fresh live 0x53 (rq []) ∧ (rq []).length.toNat = 0 ∧ live.pw.detach = .none ∧ live.pw.fallow = none
    ∧ live.yoke.agreed = none ∧ ∀ n, (live.ctx n).job = none := by
  simp only [fresh_iff]; exact ⟨by decide +kernel, rfl, rfl, rfl, rfl, fun n => ctx_default n _ rfl⟩

def rSet : Req := rq ([2, 0, 0, 0])
def testing : State := (service.setReg nHARROW 20 0x11)
def episodeOn : State := { testing with hw := { testing.hw with episodes := updAt testing.hw.episodes 1 fun e => { e with state := 1 } } }
def rDisarm (op mask : Nat) : Req := rq (leBytes 1 op ++ leBytes 1 mask ++ [0, 0] ++ leBytes 8 0)
def rDisarmFor : Req := rDisarm 0 15
theorem witness_HarrowVerbsServe : live.Inv ∧ Fresh live 0x40 (rq []) ∧ (rq []).length.toNat = 0 ∧ live.hw.sealed = false
    ∧ testing.Inv ∧ Fresh testing 0x41 rSet ∧ rSet.noun = 0 ∧ rSet.index = 0 ∧ rSet.length.toNat = 4 ∧ testing.hw.sealed = false ∧ testing.boot.testEn = true
    ∧ 1 ≤ pf rSet 0 1 ∧ pf rSet 0 1 < 16 ∧ pz rSet 1 1 = true ∧ slotsOf (pf rSet 0 1) = [1]
    ∧ (∀ e, e ∈ slotsOf (pf rSet 0 1) → testing.slotStarts e = true ∧ (nth {} testing.hw.episodes e).state ≠ 1 ∧ (nth {} testing.hw.episodes e).state ≠ 2)
    ∧ episodeOn.Inv ∧ Fresh episodeOn 0x41 rSet ∧ (1 ∈ slotsOf (pf rSet 0 1) ∧ (nth {} episodeOn.hw.episodes 1).state = 1)
    ∧ Fresh episodeOn 0x42 (rDisarm 0 15) ∧ (rDisarm 0 15).length.toNat = 12 ∧ pz (rDisarm 0 15) 2 2 = true ∧ pf (rDisarm 0 15) 0 1 = 0 ∧ pf (rDisarm 0 15) 1 1 < 16
    ∧ episodeOn.runningSlots 15 = [1] ∧ Fresh episodeOn 0x42 (rDisarm 1 0) ∧ pf (rDisarm 1 0) 0 1 = 1
    ∧ Fresh service 0x42 (rDisarm 2 0) ∧ pf (rDisarm 2 0) 0 1 = 2 ∧ service.boot.service = true ∧ pf (rDisarm 2 0) 4 8 = service.boot.serial
    ∧ Fresh episodeOn 0x42 (rq [1, 0, 0, 0]) ∧ (rq [1, 0, 0, 0]).length.toNat = 4 ∧ pf (rq [1, 0, 0, 0]) 0 1 = 1 ∧ pz (rq [1, 0, 0, 0]) 2 2 = true := by
  simp only [inv_iff, fresh_iff]; decide +kernel

def rBegin : Req := rq ([0, 2, 0, 0] ++ leBytes 4 5000)
def rChunk : Req := rq ([1, 0, 0, 0] ++ leBytes 4 3 ++ [1, 2, 3])
def rFinish : Req := rq [2, 0, 0, 0, 0, 0, 0, 0]
def rAbandon : Req := rq [3, 0, 0, 0, 0, 0, 0, 0]
def complete : State := { staging [] none with upd := { live.upd with staging := some { ch := 1, slot := 2, length := 5000, received := 5000, lastRequest := 29000000, chunks := [], op := none } } }
def swappable : State := { live with mem := { live.mem with nor := (live.saveSlots { live.slotState with active := 1, stateA := 2, stateB := 2 }).mem.nor } }
theorem witness_UpdateVerbsServe : Fresh live 0x50 rBegin ∧ rBegin.noun = 0 ∧ rBegin.index = 0 ∧ (live.heldRoom rBegin).1 = true ∧ live.pw.fallow = none
    ∧ live.upd.swap = none ∧ stageLenOk rBegin = true ∧ pz rBegin 2 2 = true ∧ pf rBegin 0 1 = 0 ∧ live.upd.staging = none ∧ pf rBegin 1 1 ≤ 2
    ∧ live.beginSlot (pf rBegin 1 1) ≠ live.boot.runningFrom ∧ 1024 ≤ pf rBegin 4 4 ∧ pf rBegin 4 4 ≤ 0x400000
    ∧ Fresh (staging [] none) 0x50 rChunk ∧ stageLenOk rChunk = true ∧ pf rChunk 0 1 = 1 ∧ pf rChunk 4 4 = 3 ∧ 3 + (rChunk.length.toNat - 8) ≤ 5000
    ∧ ((staging [] none).upd.staging.any fun g => g.ch == rChunk.ch && g.received == 3) = true
    ∧ Fresh complete 0x50 rFinish ∧ stageLenOk rFinish = true ∧ pf rFinish 0 1 = 2 ∧ Fresh complete 0x50 rAbandon ∧ stageLenOk rAbandon = true ∧ pf rAbandon 0 1 = 3
    ∧ pz rChunk 2 2 = true ∧ pz rFinish 2 2 = true ∧ pz rAbandon 2 2 = true := by
  simp only [fresh_iff]; decide +kernel

def rPower (op st : Nat) (mask : Nat) : Req := rq (leBytes 1 op ++ leBytes 1 st ++ [0, 0] ++ leBytes 8 mask)
theorem witness_PowerAndResetServe : live.Inv ∧ Fresh live 0x54 (rPower 0 0 0) ∧ (rPower 0 0 0).length.toNat = 12 ∧ (rPower 0 0 0).noun = 0 ∧ (rPower 0 0 0).index = 0
    ∧ (live.heldRoom (rPower 0 0 0)).1 = true ∧ pz (rPower 0 0 0) 2 2 = true ∧ pf (rPower 0 0 0) 0 1 = 0 ∧ pf (rPower 0 0 0) 1 1 ≤ 2
    ∧ Fresh live 0x54 (rPower 1 1 (2 ^ 40)) ∧ pf (rPower 1 1 (2 ^ 40)) 0 1 = 1 ∧ pf (rPower 1 1 (2 ^ 40)) 1 1 = 1 ∧ live.pw.powers = []
    ∧ (∀ k, k < 64 → bitAt (pf (rPower 1 1 (2 ^ 40)) 4 8) k = true → live.pinned k = false ∧ (live.bank k).state = .on ∧ (live.bank k).waking = false)
    ∧ pf (rPower 1 2 (2 ^ 40)) 1 1 = 2 ∧ gatedBanks.Inv ∧ Fresh gatedBanks 0x54 (rPower 1 0 (2 ^ 10)) ∧ pf (rPower 1 0 (2 ^ 10)) 1 1 = 0 ∧ gatedBanks.pw.powers = []
    ∧ bitAt (pf (rPower 1 0 (2 ^ 10)) 4 8) 10 = true
    ∧ (∀ k, k < 64 → bitAt (pf (rPower 1 0 (2 ^ 10)) 4 8) k = true → (gatedBanks.bank k).state ≠ .on ∧ (gatedBanks.bank k).failed = false) := by
  simp only [inv_iff, fresh_iff]; decide +kernel
def rReset (n : BitVec 16) : Req := rq [] n
theorem has_csp0 : (findNoun false 0x10).isSome = true := by
  simp [findNoun, nouns, nSYS, nCLOCK, nPERIOD, nCSP, List.range_succ, absentInLegacy, List.find?]
theorem has_thrctx2 : (findNoun false 0x303).isSome = true := by
  simp [findNoun, nouns, nSYS, nCLOCK, nPERIOD, nCSP, nSENT, nEDGE, nTWT, nUSB, nHUBPORT, nYOKE, nFURROW, nSHEAF, nTHRESHER, nTHRCTX, List.range_succ,
    absentInLegacy, List.find?]
theorem witness_PowerAndResetServe_reset : live.Inv ∧ Fresh live 0x52 (rReset 0x10) ∧ (rReset 0x10).length.toNat = 0 ∧ (live.nounCheck (rReset 0x10)).1 = true
    ∧ unitOf (rReset 0x10).noun.toNat = some (.csp 0) ∧ (live.heldRoom (rReset 0x10)).1 = true ∧ live.pw.fallow = none ∧ live.fenced 0x10 = false
    ∧ live.updateInProgress (some (.csp 0)) = false ∧ live.mb.commit = none
    ∧ Fresh live 0x52 (rReset 0x303) ∧ (live.nounCheck (rReset 0x303)).1 = true ∧ unitOf (rReset 0x303).noun.toNat = some (.thrctx 2) := by
  have a : (live.nounCheck (rReset 0x10)).1 = true := by
    show (findNoun false 0x10).isSome && true && true = true; rw [has_csp0]; rfl
  have b : (live.nounCheck (rReset 0x303)).1 = true := by
    show (findNoun false 0x303).isSome && true && true = true; rw [has_thrctx2]; rfl
  rw [a, b]; simp only [inv_iff, fresh_iff]; decide +kernel

def sealed : State := { live with hw := { live.hw with sealed := true } }
theorem witness_RequestsRefused : live.accepts 1 = true ∧ ((0x4B : Byte) ≠ 0x4A) ∧ (verbLevel 0x7F).isSome = false ∧ live.mb.chans.length = 4 ∧ live.mb.v2 = true
    ∧ (nth {} live.mb.chans 1).history.any (·.tag == (rq []).tag.toNat) = false ∧ live.quiet = true ∧ firstFail (live.headChecks 0x7F (rq []) true) = some stNoVerb
    ∧ Fresh sealed 0x41 rSet ∧ rSet.length.toNat = 4 ∧ sealed.hw.sealed = true ∧ Fresh live 0x41 rSet ∧ live.boot.testEn = false ∧ live.consentFor rSet = false
    ∧ Fresh sealed 0x40 (rq []) ∧ Fresh live 0x42 (rDisarm 2 0) ∧ live.boot.service = false ∧ Fresh live 0x12 (rq (leBytes 4 0)) := by
  simp only [fresh_iff]; decide +kernel
theorem witness_UpdateVerbsServe_swap : Fresh swappable 0x51 (rq [0, 0, 0, 0]) ∧ (rq [0, 0, 0, 0]).length.toNat = 4 ∧ (swappable.heldRoom (rq [0, 0, 0, 0])).1 = true
    ∧ swappable.upd.swap = none ∧ swappable.pw.fallow = none ∧ swappable.pw.detach = .none ∧ swappable.anyFence = false ∧ swappable.upd.staging = none
    ∧ pf (rq [0, 0, 0, 0]) 0 1 ≤ 1 ∧ pz (rq [0, 0, 0, 0]) 1 3 = true ∧ swappable.swapSlot = some 2 := by
  simp only [fresh_iff]; decide +kernel

/-! ### Two-wire targets, the period, the drill -/

/-- TWT0 with PEC; TWT1 without a view at target 1. -/
def pecced : State := live.setReg (nTWT 0) 0 (resetWord (regKey (nTWT 0) 0) ||| 2)
def viewless : State := twoWire.setReg (nTWT 1) 4 0
theorem witness_TwoWireTargetsServe : live.Inv ∧ live.twtAck 0 = true ∧ live.windowServed 0 = true ∧ live.accepts (twtChan 0) = true
    ∧ live.flag (nTWT 0) 0 1 = false ∧ twoWire.Inv ∧ twoWire.twtAck 0 = true ∧ twoWire.windowServed 0 = true
    ∧ (nth {} twoWire.mb.chans (twtChan 0)).replies ≠ [] ∧ twoWire.mb.compatNext = none
    ∧ live.pecOk 0 [0x40, 1] 0 = true ∧ pecced.Inv ∧ pecced.twtAck 0 = true ∧ pecced.windowServed 0 = true ∧ pecced.flag (nTWT 0) 0 1 = true
    ∧ pecced.pecOk 0 [0x40, 1] (pecOf [0x90, 0x40, 1]) = true ∧ pecced.pecOk 0 [7] (pecOf [0x90, 7]) = true
    ∧ (0x41 : Byte).toNat ≤ 0x41 ∧ twoWire.twtUp 1 = true ∧ twoWire.twtTarget 0x51 = some 1 ∧ twoWire.twtTarget 0x20 = none ∧ viewless.Inv
    ∧ viewless.twtUp 1 = true ∧ viewless.twtTarget 0x51 = some 1 ∧ bits (viewless.reg (nTWT 1) (3 + 1)) 17 7 = 0 ∧ bits (twoWire.reg (nTWT 1) (3 + 1)) 17 7 ≠ 0 ∧ (7 : Byte).toNat < (twoWire.virtualView 1).length
    ∧ twoWire.twtUp 0 = true := by
  simp only [inv_iff]; decide +kernel
theorem witness_CaptureLineEndsPeriod : live.Inv ∧ live.clocked = true ∧ live.pw.waking = false ∧ live.pw.fallow = none ∧ live.yoke.agreed = none
    ∧ live.mb.commit = none ∧ live.mb.legacy = [] ∧ live.yoke.grant = none ∧ live.upd.swap = none
    ∧ assembled.Inv ∧ assembled.clocked = true ∧ assembled.drillOn = true ∧ assembled.drill.polled = true ∧ assembled.unpublished = 0
    ∧ assembled.sheaf.assembly.isSome = true ∧ assembling.Inv ∧ assembling.drillOn = true ∧ assembling.unpublished = 1 := by
  simp only [inv_iff]; decide +kernel
/-- A set that is saved, or whose save fails. -/
def savingWaits (ok : Bool) : State := { commitWaits with mb := { commitWaits.mb with commit := commitWaits.mb.commit.map fun c => { c with save := some ok } } }
theorem witness_SetsAndRunsTakeEffect : commitWaits.Inv ∧ commitWaits.clocked = true ∧ commitWaits.pw.waking = false ∧ commitWaits.pw.fallow = none
    ∧ commitWaits.yoke.agreed = none ∧ commitWaits.yoke.grant = none ∧ commitWaits.mb.legacy = []
    ∧ commitWaits.mb.commit.any (fun c => c.named.isNone && decide (c.ready ≤ commitWaits.nextLine.at') && decide (c.notBefore ≤ commitWaits.tm.lines + 1)) = true
    ∧ (savingWaits true).Inv ∧ (savingWaits true).mb.commit.any (fun c => c.save == some true) = true ∧ (savingWaits false).Inv
    ∧ (savingWaits false).mb.commit.any (fun c => c.save == some false) = true ∧ (savingWaits true).selectWaits 0 = false ∧ (savingWaits false).selectWaits 0 = false
    ∧ startWaits.Inv ∧ startWaits.clocked = true ∧ startWaits.mb.commit = none ∧ startWaits.mb.legacy = [] ∧ startWaits.pw.detach = .none
    ∧ startWaits.lev.fail.rc = false ∧ startWaits.upd.swap = none ∧ startWaits.mb.run.any (fun p => p.named.isNone) = true
    ∧ stopWaits.Inv ∧ stopWaits.mb.run.any (fun p => p.named.all fun q => reached q stopWaits.nextPeriod) = true := by
  simp only [inv_iff]; decide +kernel
/-- A trigger entry whose frame has ended. -/
def triggered : State :=
  { drilled with drill := { drilled.drill with entries := updAt drilled.drill.entries 256 fun _ => { phase := .running } }
                 sent := updAt drilled.sent (entTarget drilled.reg 8 0) fun x => { x with trigger := some (256, 29970100), good := some { fc1 := 0, fc2 := 0, status := 0, stamp := 29970100 } } }
theorem witness_EntriesRun : drilled.Inv ∧ drilled.drillOn = true ∧ (drilled.entry 0 0).phase = .waiting ∧ entType drilled.reg 0 0 = 1
    ∧ (drilled.entry 8 0).phase = .waiting ∧ entType drilled.reg 8 0 = 2 ∧ (nth {} drilled.sent (entTarget drilled.reg 8 0)).trigger = none
    ∧ entTarget drilled.reg 8 0 < 24 ∧ (drilled.entry 0 1).phase = .running ∧ (BitVec.toNat (29971000 : Stamp)) ≤ drilled.deadlineAt 0 1
    ∧ entType drilled.reg 0 1 = 1 ∧ drilled.selected (entIx 0 1) = [] ∧ (drilled.entry 8 1).phase = .running ∧ entType drilled.reg 8 1 = 3
    ∧ (BitVec.toNat (29971000 : Stamp)) ≤ drilled.deadlineAt 8 1 ∧ drilled.drillWaits = false
    ∧ passesB drilled .drill (writeParts ((drilled.at 29971000).receiveCsp 0 1 29971000 (List.replicate 32 false)).2) = true
    ∧ triggered.Inv ∧ (triggered.entry 8 0).phase = .running ∧ (nth {} triggered.sent (entTarget triggered.reg 8 0)).good.isSome = true
    ∧ (BitVec.toNat (29971000 : Stamp)) ≤ triggered.deadlineAt 8 0 ∧ triggered.drillWaits = false ∧ passesB triggered .drill (writeParts (triggered.frameWrites 0)) = true := by
  simp only [inv_iff]; decide +kernel
theorem witness_DeadlinesAbort : drilled.Inv ∧ (drilled.entry 0 1).phase = .running ∧ entType drilled.reg 0 1 = 1 := by
  simp only [inv_iff]; decide +kernel
theorem witness_PortsRecover : drilled.Inv ∧ (drilled.entry 0 1).phase = .running ∧ (drilled.entry 0 1).waitStart = true ∧ entType drilled.reg 0 1 = 1
    ∧ 0 < (drilled.profile 0 1).units ∧ chained.Inv ∧ (nth {} chained.csp 2).chain.any (fun h => h.since == some 29990000) = true
    ∧ (nth {} chained.csp 2).fence = none ∧ entUsed drilled.reg 0 0 = true ∧ entType drilled.reg 0 0 = 1 ∧ (drilled.profile 0 0).txSource = 2
    ∧ passesB drilled .drill [⟨.read, (drilled.profile 0 0).txAddr, ceilDiv (drilled.profile 0 0).frameBits 8⟩] = true ∧ drilled.drillWaits = false
    ∧ passesB drilled .drill ((drilled.fieldsOf 0 1).map (drilled.capturePart .write)) = true := by
  simp only [inv_iff]; decide +kernel
def hardFaulted : State := { drilled with drill := { drilled.drill with hardAt := some drilled.tm.lines } }
theorem witness_SheafAssembled : drilled.Inv ∧ drilled.drillOn = true ∧ drilled.drill.polled = true ∧ drilled.sheaf.assembly = none ∧ assembling.Inv
    ∧ assembling.sheaf.assembly.any (!·.done) = true ∧ drilled.drill.mode ≠ 0 ∧ drilled.drill.hardAt ≠ some drilled.tm.lines
    ∧ (let u := (drilled.at (drilled.tm.capture + drilled.limit)).each (List.range (entryCount drilled.reg 8)) State.endCollect
       passesB u .drill (writeParts u.collectWrites) && passesB (u.store .drill u.collectWrites).1 .assembler u.assemblyParts) = true
    ∧ (assembling.sheaf.assembly.any fun a => !a.faulted && passesB assembling .assembler [⟨.write, assembling.bufferAt assembling.nextBuffer, (assembling.sheafOf a).length⟩]) = true
    ∧ hardFaulted.Inv ∧ hardFaulted.drill.mode ≠ 0 ∧ hardFaulted.drill.hardAt = some hardFaulted.tm.lines := by
  simp only [inv_iff]; decide +kernel

/-! ### Ports, storage, SENT and edges -/

theorem witness_SlaveServes : slaved.Inv ∧ slaved.cspOn 3 = true ∧ slaved.flag (nCSP 3) 0 1 = true ∧ (nth {} slaved.csp 3).slave = none
    ∧ (nth {} slaved.csp 3).fence = none ∧ (nth {} slaved.csp 4).slave.any (fun x => !x.starved
      && passesB slaved .slaveReader (slaved.slavePart 4 x 2).toList) = true := by
  simp only [inv_iff]; decide +kernel
def dozed : State := { stored with tm := { stored.tm with now := 31000000 } }
theorem witness_StorageAccessed : stored.Inv ∧ stored.kindOf 0 = 1 ∧ stored.flag (nCSP 8) 4 5 = true ∧ stored.writing .steward = false ∧ stored.suspended .steward = false ∧ stored.csp8.gather.length = 2
    ∧ stored.mapped (holdingOf .steward) .write (windowAddr 0 (0x1000 : BitVec 28).toNat) 3 = true ∧ nth none stored.csp8.gather 0 = none
    ∧ (∀ i, i < 3 → pageOf (stored.storeCfg 0) (0x1000 + i) = pageOf (stored.storeCfg 0) 0x1000)
    ∧ gathered.Inv ∧ (nth none gathered.csp8.gather 0).isSome = true ∧ gathered.selectWaits 0 = false ∧ gathered.csp8.busy.length = 2
    ∧ stored.translate (holdingOf .steward) .read 0x20001000 = some 0x20001000 ∧ 0x20001000 / 0x10000000 = 2 + 0 ∧ nth none stored.csp8.busy 0 = none ∧ stored.mem.cursors = []
    ∧ dozed.Inv ∧ dozed.dozing = true ∧ dozed.csp8.busy.all (·.isNone) = true ∧ dozed.csp8.gather.all (·.isNone) = true := by
  simp only [inv_iff]; decide +kernel
theorem witness_NorPrograms : programmed.Inv ∧ (nth none programmed.csp8.busy 0).any (fun p => (List.range p.data.length).all fun i =>
      Memory.read flashEmpty programmed.mem.nor (p.addr + i) == 0xFF) = true ∧ programmed.csp8.busy.length = 2 ∧ programmed.csp8.status.length = 2
    ∧ nth [] programmed.csp8.queue 0 = [] ∧ programmed.storeLoads = [] ∧ programmed.rstEnd ≤ programmed.tm.now
    ∧ showsBusy (stored.storeCfg 0) 1 = true ∧ showsBusy (stored.storeCfg 0) 0 = false := by
  simp only [inv_iff]; decide +kernel
/-- A frame at the nominal tick of 3 µs: calibration 56 ticks, status 0, six zero nibbles, and the CRC nibble. -/
def goodPulses : List Nat := [1344, 288] ++ List.replicate 6 288 ++ [288 + 24 * sentCrc false (List.replicate 6 0)]
theorem witness_SentReceives : drilled.Inv ∧ drilled.sentOn 1 = true ∧ (nth {} drilled.sent 1).fence = none ∧ drilled.flag (nSENT 1) 0 1 = false
    ∧ drilled.harrowActive = false ∧ drilled.hw.heldFrames = [] ∧ (decodeSent (drilled.sentWords 1 29970500) (drilled.calBefore 1 29970500) 1 [] 0 []).timing = true
    ∧ (decodeSent (drilled.sentWords 1 29970500) (drilled.calBefore 1 29970500) 1 goodPulses 1344 []).timing = false ∧ (decodeSent (drilled.sentWords 1 29970500) (drilled.calBefore 1 29970500) 1 goodPulses 1344 []).crc = true
    ∧ (decodeSent (drilled.sentWords 1 29970500) (drilled.calBefore 1 29970500) 1 (goodPulses.take 8 ++ [312]) 1344 []).crc = false ∧ drilled.fld (nSENT 1) 1 21 8 ≠ 0 ∧ (nth {} drilled.sent 1).absent = false := by
  simp only [inv_iff]; decide +kernel
theorem witness_EdgesTaken : drilled.Inv ∧ drilled.edgeOn 0 = true ∧ drilled.edgeOn 1 = true ∧ drilled.debounce 0 ≠ 0 ∧ drilled.debounce 1 = 0
    ∧ (nth {} drilled.edge 0).level = false ∧ bitAt (drilled.reg (nEDGE 0) 0) 8 = false ∧ drilled.edgeOn 9 = false ∧ edged.Inv ∧ edged.edgeOn 0 = true
    ∧ (nth {} edged.edge 0).since = some 29999000 ∧ (nth {} edged.edge 0).level = false
    ∧ synced.Inv ∧ synced.fld nPERIOD 0 16 2 = 2 ∧ synced.clocked = true ∧ synced.ready = true := by
  simp only [inv_iff]; decide +kernel

/-! ### Memory, faults and banks -/

/-- Holding 2 is mapped to a bank that is off. -/
def offBank : State := gatedBanks.setReg nPLOTMAP 33 0xA0
/-- A fault of an access to a storage window at the head of the queue; a context on the engine. -/
def stalledFault (v : Nat) : State :=
  { stored with mem := { stored.mem with faults := [{ agent := .steward, dir := .read, vaddr := 0x20000000 + v, index := 0, kind := 4, count := 1, bank := none, contentLost := false, resolved := false, time := 29999000 }] } }
def thrFaults : State := thrAt 0 0 0 0 0
theorem witness_PlotFaultsServed : offBank.Inv ∧ offBank.suspended .assembler = false ∧ offBank.mem.cursors = [] ∧ offBank.faultKind .assembler .read 0 .none = some 3
    ∧ offBank.faultBank .assembler 0 = some 10 ∧ (offBank.bank 10).failed = false ∧ offBank.faultKind .assembler .read 0x100000 .none = some 1
    ∧ offBank.faultKind .assembler .fetch 0 .none = some 2
    ∧ (faulted 10).Inv ∧ (faulted 10).restarting = false ∧ (faulted 10).mem.faults.head?.any (fun c => c.kind == 3 && c.bank == some 10) = true
    ∧ ((faulted 10).bank 10).state ≠ .on ∧ (faulted 11).mem.faults.head?.any (fun c => c.bank == some 11) = true ∧ ((faulted 11).bank 11).state = .on
    ∧ (stalledFault 0).Inv ∧ (stalledFault 0).restarting = false ∧ (stalledFault 0).mem.faults.head?.any (fun c => c.kind == 4 && !(stalledFault 0).selectWaits ((stalledFault 0).cursorSelect c)) = true
    ∧ thrFaults.Inv ∧ thrFaults.suspended (.thr 0) = false ∧ (thrFaults.ctx 0).job = some theJob ∧ thrFaults.faultKind (.thr 0) .read 0x100000 .none = some 1
    ∧ thrFaults.thr.running = some 0 ∧ Saves thrFaults 0 ∧ ∀ m, m < 4 → (thrFaults.ctx m).saved = none := by
  simp only [inv_iff, saves_iff]; decide +kernel
theorem witness_BanksServed : gatedBanks.Inv ∧ (gatedBanks.bank 20).waking = true ∧ (gatedBanks.bank 20).gateTo = none ∧ gatedBanks.pw.powers = [] ∧ gatedBanks.mem.faults = []
    ∧ (gatedBanks.bank 21).waking = true ∧ (gatedBanks.bank 21).state = .off ∧ gatedBanks.flag nPLOTMAP 0 1 = true ∧ (gatedBanks.bank 30).state = .on
    ∧ gatedBanks.pinned 30 = false ∧ gatedBanks.restarting = false ∧ gatedBanks.clocked = true
    ∧ gatedBanks.fld nPLOTMAP 0 16 8 ≠ 0 ∧ (gatedBanks.bank (((8 : BitVec 22).toNat - (8 : BitVec 22).toNat % 8) / 0x10000)).state = .on := by
  simp only [inv_iff]; decide +kernel

/-! ### The yoke link -/

theorem witness_LeadKeepsMembers : stacked.Inv ∧ stacked.isLead = true ∧ stacked.yokeRuns = true ∧ stacked.pw.detach = .none ∧ stacked.hw.heldCmd = none
    ∧ stacked.harrowActive = false ∧ stacked.joined = [1] ∧ 4 * (stacked.pos 1).offsets.length < ((stacked.pos 1).offsets.foldl (· + ·) 0).natAbs
    ∧ (stacked.pos 3).state = 6 ∧ unanswered.Inv ∧ (unanswered.pos 1).state ≠ 6
    ∧ unanswered.yoke.commands.any (fun c => c.open'.contains 1 && 4 ≤ c.sent) = true := by
  simp only [inv_iff]; decide +kernel
theorem witness_JoinsAccepted : stacked.Inv ∧ stacked.isLead = true ∧ stacked.yokeRuns = true ∧ stacked.yoke.beacon = true ∧ stacked.planned 2 = true
    ∧ stacked.joining = false ∧ stacked.yoke.commands = [] ∧ stacked.yoke.forwards = [] ∧ stacked.planned 5 = false := by
  simp only [inv_iff]; decide +kernel
def aSegment : Segment :=
  { position := 0, flags := 0, ackSeq := 0, answer := 0, replyOffset := 0, layoutId := 0, need := 0, events := 0, body := [1, 2, 3], fragment := [], crcOk := true }
theorem witness_SegmentsMerged : stacked.Inv ∧ stacked.isLead = true ∧ stacked.yokeRuns = true ∧ (stacked.pos 1).state = 3 ∧ (stacked.pos 1).rangeLeft = 0
    ∧ (stacked.pos 1).rejects = [] ∧ 8 * (80 : Int).natAbs ≤ balkOf stacked.reg ∧ balkOf stacked.reg < 2 * (-321 : Int).natAbs ∧ 2 * (320 : Int).natAbs ≤ balkOf stacked.reg
    ∧ stacked.planned 1 = true ∧ stacked.yoke.commands = [] ∧ stacked.passes 1 80 aSegment = true ∧ stacked.passes 1 100000 aSegment = false
    ∧ stacked.reg nYOKE 12 = 0 ∧ passesB stacked .yoke [⟨.write, stacked.reg nYOKE 1 + 0 * 8192, 3⟩] = true := by
  simp only [inv_iff]; decide +kernel

def toMe : Frame := ⟨1, 5, true⟩
theorem hears_iff (s : State) (f : Frame) : Hears s f ↔ (s.isMember && s.yokeRuns && s.frameForMe f
    && (s.yoke.executed.find? (·.1 == f.seq.toNat)).isNone) = true := by
  simp only [Hears, Bool.and_eq_true, Option.isNone_iff_eq_none, and_assoc]
theorem witness_FramesExecuted : (linked 5).Inv ∧ Hears (linked 5) toMe ∧ (linked 5).accepts 3 = true ∧ (linked 3).Inv ∧ Hears (linked 3) toMe
    ∧ (linked 3).yoke.linkState = 3 ∧ (0 : BitVec 64).toNat = (linked 3).boot.serial ∧ (linked 4).Inv ∧ Hears (linked 4) toMe ∧ (linked 4).yoke.linkState = 4
    ∧ (linked 5).mb.compatNext = none := by
  simp only [inv_iff, hears_iff]; decide +kernel
theorem witness_FallowAgreed : Hears (linked 5) toMe ∧ (linked 5).fallowBusy = false ∧ Hears agreedEntry toMe ∧ Hears busyMember toMe ∧ busyMember.fallowBusy = true
    ∧ 256 ≤ periodsFrom 10 agreedOpen.tm.period ∧ agreedEntry.tm.lineAt = none ∧ agreedEntry.tm.lineSeen = true ∧ addPeriod agreedEntry.tm.period 1 = 11 := by
  simp only [hears_iff]; decide +kernel
theorem witness_FallowAgreed_agreed : agreedEntry.yoke.agreed = some ((3 : Byte).toNat, false, 1000, 10, some 11)
    ∧ agreedOpen.yoke.agreed = some (3, false, 1000, 10, none) := ⟨rfl, rfl⟩
theorem witness_MemberFollowsMarkers : (linked 5).isMember = true ∧ (linked 5).yokeUp = true ∧ (linked 5).yoke.fence = none ∧ (linked 5).yoke.hop = some (0 : Byte).toNat
    ∧ (linked 5).yoke.repeating = true ∧ (linked 5).flag nYOKE 0 0 = true ∧ (linked 5).yoke.orphan = false ∧ (linked 5).ready = true ∧ (linked 5).pw.state = .run
    ∧ (linked 5).clocked = true ∧ (linked 5).clk.active < 3 ∧ (linked 5).pw.prsntMet = true ∧ (linked 5).harrowActive = false ∧ (linked 5).yoke.leaving = false
    ∧ echoing.isMember = true ∧ echoing.yoke.linkState = 4 ∧ echoing.yoke.echo.isSome = true ∧ leavingMember.yoke.leaving = true ∧ leavingMember.yoke.echo = none
    ∧ (linked 3).yokeRuns = true ∧ (linked 3).yoke.linkState = 3 ∧ (linked 3).yoke.beacon = true ∧ (linked 3).ownNumber ≤ 7 ∧ (linked 3).yoke.attempts = 0
    ∧ (linked 5).mayTransmit = true ∧ (linked 5).repeats = true ∧ (linked 5).yoke.hop ≠ some 1 ∧ (linked 5).yoke.linkState = 5
    ∧ (linked 5).yoke.applied = some plan ∧ (linked 5).boot.legacy = false := by decide +kernel

/-! ### Supplies, sleep, resets and starts -/

/-- Without VIN and without VDDIO_D. -/
def supplyless : State := { unpowered with pw := { unpowered.pw with vddioOk := [true, true, true, false] } }
theorem witness_SupplyChanges : live.powered = true ∧ live.pw.thermalPending = false ∧ live.alm.windows = [] ∧ live.pw.vddioOk.length = 4
    ∧ (∀ b, b < 4 → live.bankOk b = true) ∧ live.pw.vddio1v8.length = 4 ∧ live.clocked = true ∧ ((2199 : BitVec 16).toNat < 2200)
    ∧ unpowered.powered = false ∧ unpowered.pw.ovStop = false ∧ unpowered.pw.thermalStop = false
    ∧ overvolted.powered = false ∧ overvolted.pw.ovStop = true ∧ overvolted.pw.thermalStop = false
    ∧ overheated.powered = false ∧ overheated.pw.thermalStop = true ∧ overheated.pw.ovStop = false
    ∧ unpowered.bankOk 3 = true ∧ supplyless.powered = false ∧ supplyless.pw.ovStop = false ∧ supplyless.pw.thermalStop = false ∧ supplyless.bankOk 3 = false := by decide +kernel
theorem witness_BackupAndAlarms : live.Inv ∧ alarmed.Inv ∧ alarmed.powered = true ∧ alarmed.pw.rtcValid = true ∧ alarmed.pw.aonRtcAlarm ≠ 0
    ∧ bitAt alarmed.pw.aonAlmEnable 0 = true ∧ bitAt alarmed.pw.aonAlmEnable 3 = true ∧ alarmed.pw.state ≠ .off ∧ alarmed.backupPath = false
    ∧ onBackup.Inv ∧ bitAt onBackup.pw.aonAlmEnable 0 = true ∧ onBackup.pw.state ≠ .off ∧ onBackup.backupPath = true ∧ onBackup.pw.backup.writing = some 1
    ∧ onBackup.pw.backup.holdoff = true ∧ onBackup.pw.backup.sinceRec.any (· != 0) = true ∧ 1950 ≤ onBackup.pw.vresMv := by
  simp only [inv_iff]; decide +kernel
theorem witness_SleepAndWake : (asleep false).pw.wake = some (context false false) ∧ (asleep false).pw.state = .fallow ∧ (∀ b, b ≤ 6 → (asleep false).wakeArmed false b = true)
    ∧ (asleep false).wakeArmed false 8 = true ∧ (context false false).sleepMs ≠ 0 ∧ (asleep true).pw.wake = some (context false true)
    ∧ asleepDeep.pw.wake = some (context true false) ∧ asleepDeep.pw.state = .deep ∧ asleepDeep.wakeArmed true 0 = true
    ∧ waking.pw.wake = some (context false false) ∧ waking.boot.phase = .rom ∧ waking.boot.kind = .wake ∧ waking.pw.waking = true ∧ waking.clk.bootLocked = true
    ∧ waking.pw.hold = some 31000000 := by decide +kernel
theorem witness_ResetsAndDetach : live.pw.prsntHigh = false ∧ live.clocked = true ∧ live.pw.prsntHigh ≠ true ∧ pulledOut.flag nPOWER 0 3 = true
    ∧ pulledOut.pw.prsntHigh = true ∧ pulledOut.clocked = true ∧ pulledOut.pw.detach ≠ .emergency ∧ detaching.pw.detach = .replied
    ∧ detached.pw.detach = .held ∧ detached.fld nPOWER 0 8 8 ≠ 0 ∧ live.pw.state ≠ .backup ∧ live.pw.state ≠ .off ∧ live.boot.phase ≠ .off
    ∧ heldInReset.boot.phase = .held ∧ heldInReset.pw.state = .run ∧ heldInReset.bankOk 3 = true := by decide +kernel
theorem witness_StartsOfTheSteward : atRom.boot.phase = .rom ∧ atRom.boot.kind ≠ .wake ∧ atRom.clocked = true ∧ atRom.clk.bootLocked = true
    ∧ live.firmwareRuns = true ∧ live.clocked = true ∧ noReference.clocked = true ∧ noReference.clk.bootLocked = false ∧ noReference.clk.relocking = none
    ∧ (atVerified .reset).boot.phase = .verified ∧ (atVerified .reset).clk.bootLocked = true ∧ (atVerified .watchdog).boot.kind = .watchdog
    ∧ (atVerified .deepWake).boot.kind = .deepWake ∧ autostarting.boot.autostart = true ∧ autostarting.ready = true ∧ autostarting.clocked = true
    ∧ autostarting.boot.readySince + 7200000 ≤ autostarting.nextLine.at' ∧ autostarting.pw.prsntMet = true ∧ autostarting.clk.active < 3
    ∧ autostarting.memberMayStart = true ∧ autostarting.drill.mode = 0 := by decide +kernel
theorem witness_StartsOfTheSteward_noImage : (atRom.tryImages atRom.bootOrder).2 = none := by decide +kernel

/-- An image in slot A whose boot part of 1 024 bytes is erased flash. -/
def imageHead : List Byte :=
  [0x4A, 0x4E, 0x46, 0x57, 0x01] ++ List.replicate 7 0 ++ leBytes 4 1024 ++ leBytes 4 1280 ++ List.replicate 12 0 ++ sha256 (List.replicate 1024 0xFF) ++ List.replicate 64 0
def imaged : State := { atRom with mem := { atRom.mem with nor := Memory.writeList flashEmpty [] (imageAt 1) imageHead } }
theorem has_rest (bs : List Byte) (a b n : Nat) (h : a + bs.length ≤ b) :
    Memory.readList flashEmpty (Memory.writeList flashEmpty [] a bs) b n = List.replicate n flashEmpty := by
  apply List.ext_getElem (by simp [Memory.readList])
  intro k h1 h2
  simp only [Memory.readList, List.getElem_map, List.getElem_range, List.getElem_replicate]
  rw [Memory.read_writeList_outside _ _ _ _ _ rfl (by omega)]
  rfl
theorem has_head : imageHead.length = 128 := by decide +kernel
theorem has_boot_part : imaged.nor (imageAt 1 + 256) 1024 = List.replicate 1024 0xFF := by
  have e : imaged.mem.nor = Memory.writeList flashEmpty [] (imageAt 1) imageHead := by simp only [imaged]
  have l := has_head
  simp only [State.nor, e]
  rw [has_rest _ _ _ _ (by omega), flashEmpty]
/-- The image passes where its signature verifies, which the spec leaves to the boot ROM's key. -/
theorem witness_StartsOfTheSteward_image (h : Config.signatureOk (slice (imaged.nor (imageAt 1) 256) 0 128) (slice (imaged.nor (imageAt 1) 256) 128 64) = true) :
    imaged.bootOrder = [1, 2] ∧ imaged.imageCode 1 = 0 := by
  refine ⟨by decide +kernel, ?_⟩
  have a : ((imaged.nor (imageAt 1) 256).take 5 != [0x4A, 0x4E, 0x46, 0x57, 0x01]) = false := by decide +kernel
  have b : leAt (imaged.nor (imageAt 1) 256) 12 4 = 1024 := by decide +kernel
  have c : leAt (imaged.nor (imageAt 1) 256) 16 4 = 1280 := by decide +kernel
  have d : leAt (imaged.nor (imageAt 1) 256) 21 1 = 0 := by decide +kernel
  have e : (slice (imaged.nor (imageAt 1) 256) 32 32 != sha256 (List.replicate 1024 0xFF)) = false := by decide +kernel
  simp only [State.imageCode, a, b, c, d, has_boot_part, e, h]
  decide

/-! ### Records, references, USB and timers -/

theorem witness_RecordsCommitted : scanning.Inv ∧ scanning.alm.scanDone = false ∧ scanning.alm.before = 0 ∧ scanning.clocked = true
    ∧ queued.Inv ∧ queued.alm.queue = [almRec] ∧ queued.pw.state = .run ∧ queued.boot.phase ≠ .off ∧ queued.alm.scanDone = true ∧ queued.alm.dropped = 0
    ∧ queued.quiet = true ∧ queued.alm.ringNext < 3584 ∧ almRec.type ≠ 0x06 ∧ almRec.type ≠ 0x91
    ∧ windowed.Inv ∧ (windowed.alm.windows.find? (·.key == mergeKey almRec)).any (·.count == 0) = true
    ∧ (windowed.alm.windows.find? (·.key == mergeKey { almRec with code := 6 })).any (·.count == 4) = true ∧ windowed.alm.queue.length < 48
    ∧ dropping.Inv ∧ dropping.alm.dropped ≠ 0 ∧ dropping.alm.queue.any (fun r => r.type == 0xA0 && r.code == 3) = false ∧ dropping.alm.queue.length < 64
    ∧ served.Inv ∧ served.alm.ep6Open = true ∧ served.usbUp = true ∧ reporting.Inv ∧ reporting.ev.intRelease = some 29990000 := by
  simp only [inv_iff]; decide +kernel
theorem witness_ReferencesSwitch : (refs 0 none none none).clocked = true ∧ (refs 0 none none none).clk.locked = true ∧ (refs 0 none none none).clk.active < 3
    ∧ (refs 0 none none none).clk.holdover = none ∧ (refs 0 none none none).clk.switching = none ∧ (refs 0 none none none).flag nCLOCK 0 3 = true
    ∧ (refs 0 none none none).fld nCLOCK 0 0 2 ≠ 0 ∧ (refs 0 none none none).sourceOk 1 = true ∧ (refs 0 none none none).fld nCLOCK 0 0 2 = 1
    ∧ (refs 0 (some 29900000) none none).clk.holdover = some 29900000 ∧ (refs 0 (some 29900000) none none).clk.switching = none
    ∧ (refs 0 (some 29900000) none none).clk.unlocked = false ∧ (refs 3 none none none).clk.active = 3
    ∧ (refs 0 none (some 1) none).clk.switching = some 1 ∧ (refs 3 none none (some 0)).clk.relocking = some 0 ∧ live.pw.waking = false := by decide +kernel
theorem witness_FunctionServes : detachedUsb.Inv ∧ detachedUsb.mayAttach = true ∧ detachedUsb.usb.pullup = false ∧ live.Inv ∧ live.usb.vbus = false
    ∧ served.Inv ∧ served.usb.vbus = true ∧ served.usb.pullup = true ∧ served.usb.fence = none ∧ served.usb.state ≠ 0 ∧ served.usb.suspended = false
    ∧ suspended.Inv ∧ suspended.usb.suspended = true ∧ suspended.usb.remoteWake = true ∧ suspended.ev.wake = true ∧ suspended.usb.resuming = false
    ∧ (addressing 2).Inv ∧ (addressing 2).usb.state = 2 ∧ (addressing 3).Inv ∧ (addressing 3).usb.state = 3 ∧ served.usb.state = 4
    ∧ served.usbUp = true ∧ served.usb.speed = 2 ∧ reporting.Inv ∧ reporting.usbUp = true ∧ reporting.ev.ep3Report.isSome = true
    ∧ served.ev.ep3Report = none ∧ served.ev.ep3Acc ≠ 0 ∧ served.ev.ep3Last = none ∧ waitingReply.Inv ∧ waitingReply.usbUp = true
    ∧ (nth {} waitingReply.mb.chans 0).replies ≠ [] := by
  simp only [inv_iff]; decide +kernel
/-- A copy whose source and allocation are mapped; a port whose OCI input is high. -/
def copied : State := { withRegs streaming mapRegs with mem := { streaming.mem with pool := updAt streaming.mem.pool 4 fun _ => (33, 16) } }
def tripped : State := { served with usb := { served.usb with ports := updAt served.usb.ports 0 fun p => { p with oci := true, ociSince := 29990000 } } }
theorem witness_StreamsAndHubServe : streaming.Inv ∧ (nth {} streaming.usb.streams 1).copying = some delivery ∧ served.Inv ∧ served.usbUp = true
    ∧ (nth {} served.usb.streams 0).alt ≠ 0 ∧ (nth {} served.usb.streams 0).sending = none ∧ (nth {} served.usb.streams 0).waiting = none
    ∧ (nth {} served.usb.streams 0).swapped = none ∧ streaming.usbUp = true ∧ (nth {} streaming.usb.streams 0).sending = some (delivery, 0)
    ∧ (nth {} streaming.usb.streams 0).delay = 0 ∧ delivery.picks = [] ∧ 16 + delivery.k ≤ altCapacity (nth {} streaming.usb.streams 0).alt
    ∧ copied.Inv ∧ (nth {} copied.usb.streams 1).copying = some delivery ∧ passesB copied .usb [⟨.read, delivery.src, delivery.len⟩] = true
    ∧ passesB (copied.accessed .usb [⟨.read, delivery.src, delivery.len⟩]) .usb [⟨.write, copied.halfAt 1, (copied.virtRead 3 delivery.src delivery.len).length⟩] = true
    ∧ tripped.Inv ∧ tripped.hubUp = true ∧ (nth {} tripped.usb.ports 0).oci = true
    ∧ served.hubUp = true ∧ served.boot.gang = false ∧ (nth {} served.usb.ports 0).ppe = true ∧ (nth {} served.usb.ports 0).state ≠ 0
    ∧ (nth {} served.usb.ports 0).state ≠ 5 ∧ false = decide ((nth {} served.usb.ports 0).state = 1) ∧ true = decide ((nth {} served.usb.ports 1).state = 1) := by
  simp only [inv_iff]; decide +kernel
theorem witness_TimersEnd : fenced.Inv ∧ unitOf (0x11 : BitVec 16).toNat = some (.csp 1) ∧ fenced.fenceOf (.csp 1) = some fence ∧ fenced.resetDone (.csp 1) fence = true
    ∧ unitOf (0x18 : BitVec 16).toNat = some .csp8 ∧ fenced.fenceOf .csp8 = some fence ∧ fenced.resetDone .csp8 fence = true
    ∧ (staging [] (some (⟨1, 1⟩, 0))).Inv ∧ (staging [] (some (⟨1, 1⟩, 0))).upd.staging.any (fun g => g.op == some (⟨1, 1⟩, 0)) = true
    ∧ (staging [] (some (⟨1, 1⟩, 0))).selectWaits 0 = false ∧ (staging [(⟨1, 1⟩, 0, [1, 2, 3])] none).selectWaits 0 = false ∧ trial.selectWaits 0 = false ∧ (staging [(⟨1, 1⟩, 0, [1, 2, 3])] none).Inv
    ∧ (staging [(⟨1, 1⟩, 0, [1, 2, 3])] none).upd.staging.any (fun g => g.op.isNone && !g.chunks.isEmpty) = true
    ∧ trial.Inv ∧ trial.upd.trialSince = some 29000000 ∧ trial.ready = true ∧ consented.Inv ∧ (consented.hw.consents.find? (·.ch == 1)).isSome = true
    ∧ windowEnded.Inv ∧ (nth {} windowEnded.hw.episodes 1).state = 2 ∧ windowEnded.windowOpen 1 = false
    ∧ consented.hw.heldFrames = [] ∧ (consented.hw.heldReplies.filter (fun x => x.slot == 0)).length = 1
    ∧ threshing.Inv ∧ threshing.boot.legacy = false ∧ threshing.flag nTHRESHER 0 0 = true := by
  simp only [inv_iff]; decide +kernel

/-! ### Results against worked values of the spec -/

/-- 03 R101 gives the check value of the CRC-32; FIPS 180-4 the digest of "abc". -/
theorem test_crc32_check : crc32 (ascii 9 "123456789") = 0xCBF43926 := by decide +kernel
theorem test_sha256_abc : (sha256 (ascii 3 "abc")).take 4 = [0xba, 0x78, 0x16, 0xbf] := by decide +kernel

/-- 00, worked example: 8 slices and the default headland. -/
theorem test_period_line4 : live.periodTicks = 15000 ∧ live.limit = 14520 := by decide +kernel

/-- 04 and 10, worked examples: A of the bodies of 3 968, 408 and 4 384 bytes. -/
theorem test_assembly_line4 : [3968, 408, 4384].map (fun b => assemblyTicks { bodySize := b }) = [368, 146, 394] := by
  decide +kernel

/-- 05, worked example: CSP5's words before and after the change. -/
def csp5 (w8 w9 w14 : Nat) (n w : Nat) : Nat :=
  if n != nCSP 5 then 0 else match w with | 8 => w8 | 9 => w9 | 10 => 0x1818 | 14 => w14 | _ => 0

theorem test_csp5_before : (profileOf (csp5 0x14062 0x44830180 0xFC86998C) 5 0).duration = 11576 := by decide +kernel
theorem test_csp5_after : let p := profileOf (csp5 0x00010062 0x44830180 0xFC86998C) 5 0
    p.duration = 9272 ∧ (p.mode, p.msbFirst, p.selectMap, p.div) = (2, true, 1, 64)
      ∧ (p.frameBits, p.unitBits, p.unitCount, p.check, p.absentPeriods) = (384, 24, 16, 1, 4)
      ∧ (p.valueLsb, p.valueWidth, p.valueSigned, p.auxLsb, p.auxWidth, p.unit, p.scale) = (12, 12, true, 9, 3, 2, 63) := by
  decide +kernel

/-- 02, worked example: the payload of STAGE 0x0103. -/
theorem test_stage_items : stageItems 24 [0, 0, 1, 0, 0xFF, 0x1F, 0, 0, 0x10, 0, 0, 0, 1, 0, 1, 0, 0xFF, 0x7F, 0, 0, 0xC0, 3, 0, 0]
    = some [(0, [(0x1FFF, 16)]), (1, [(0x7FFF, 960)])] := by decide +kernel

/-- 10, worked example: the plan of one member of 408 bytes, its transmit time and its limit. -/
theorem test_yoke_plan : planSlots 121000 640 [(1, 408)] = [(1, 69800, 50200)] := by decide +kernel
theorem test_yoke_transmit : let g : Grant := ⟨0, 15000, 640, [(69800, 50200)]⟩
    transmitTicks g 1 824 = 8351
      ∧ memberLimit { linkState := 5, applied := some g, position := 1, delayQ := 824 } { bodySize := 408 } = some 8181 := by
  decide +kernel
theorem test_yoke_join_open : joinOpen (fun n w => if n == nPERIOD then (if w == 0 then 8 else 480)
    else if n == nYOKE then (match w with | 0 => 0x00010103 | 12 => 1 | 13 => 408 | _ => 0) else 0) = 57160 := by decide +kernel

/-- 07, worked example: region 1. -/
theorem test_region_line4 : regionOf (fun _ w => match w with | 35 => 0x00010012 | 36 => 0x48 | 37 => 1 | _ => 0) 1
    = ⟨2, true, false, 0x100, 0x48, 1⟩ := by decide +kernel

/-- 06: frames of 282 ticks of 3 µs and fixed length. -/
theorem test_sent_frame : sentFrameMax (fun _ w => match w with | 0 => 2 <<< 9 | 1 => 30 + (282 <<< 10) | _ => 0) 0 = 126900 := by
  decide +kernel

/-! ### The reset words are those of the field tables -/

/-- nounReset agrees with the Reset columns, for each noun of the inventory, one theorem per table of fields. -/
def resetAgrees (n : Noun) : Bool := (List.range n.words).all fun w => resetWordOf n w == nounReset n.id w

theorem test_reset_sys : resetAgrees ⟨nSYS, "SYS", 15, fieldsSYS⟩ && resetAgrees ⟨nCLOCK, "CLOCK", 4, fieldsCLOCK⟩
    && resetAgrees ⟨nPERIOD, "PERIOD", 7, fieldsPERIOD⟩ = true := by decide +kernel
theorem test_reset_csp : ([0, 7].all fun k => resetAgrees ⟨nCSP k, "CSP", 42, fieldsCSP⟩)
    && resetAgrees ⟨nCSP 8, "CSP8", 12, fieldsCSP8⟩ = true := by decide +kernel
theorem test_reset_sent : ([0, 23].all fun k => resetAgrees ⟨nSENT k, "SENT", 8, fieldsSENT⟩)
    && ([0, 3].all fun k => resetAgrees ⟨nEDGE k, "EDGE", 12, fieldsEDGE⟩) = true := by decide +kernel
theorem test_reset_usb : resetAgrees ⟨nTWT 0, "TWT0", 4, fieldsTWT0⟩ && resetAgrees ⟨nTWT 1, "TWT1", 67, fieldsTWT1⟩
    && resetAgrees ⟨nUSB, "USB", 16, fieldsUSB⟩ && ([1, 4].all fun k => resetAgrees ⟨nHUBPORT k, "HUBPORT", 3, fieldsHUBPORT⟩)
    && resetAgrees ⟨nYOKE, "YOKE", 40, fieldsYOKE⟩ = true := by decide +kernel
theorem test_reset_furrow : ([24].all fun k => resetAgrees ⟨nFURROW k, "FURROW", 136, fieldsFURROW⟩)
    && resetAgrees ⟨nSHEAF, "SHEAF", 11, fieldsSHEAF⟩ = true := by decide +kernel
theorem test_reset_thresher : resetAgrees ⟨nTHRESHER, "THRESHER", 272, fieldsTHRESHER⟩
    && ([3].all fun k => resetAgrees ⟨nTHRCTX k, "THRCTX", 12, fieldsTHRCTX⟩) = true := by decide +kernel
theorem test_reset_system : resetAgrees ⟨nALMANAC, "ALMANAC", 9, fieldsALMANAC⟩ && resetAgrees ⟨nHARROW, "HARROW", 56, fieldsHARROW⟩
    && resetAgrees ⟨nPOWER, "POWER", 22, fieldsPOWER⟩ && resetAgrees ⟨nEVENTS, "EVENTS", 12, fieldsEVENTS⟩ = true := by decide +kernel
theorem test_reset_plotmap : resetAgrees ⟨nPLOTMAP, "PLOTMAP", 224, fieldsPLOTMAP⟩ = true := by decide +kernel

/-- 09 Table US-1: idProduct 0x6440 and one configuration. -/
theorem test_device_descriptor : live.deviceDescriptor.length = 18 ∧ (live.deviceDescriptor.drop 10).take 2 = [0x40, 0x64] := by
  decide +kernel

end Sys2Proof.Tests
end

section
/-! SUPPORT. What every operation of a capture line leaves as it found it once the line has fallen: one lemma for each operation. -/

namespace Sys2Proof.Machine

/-- Two clocks that stand at the same instant of the same period (01 R17). -/
@[simp, reducible] def Tm.SameLine (m n : Tm) : Prop :=
  n.now = m.now ∧ n.lineSeen = m.lineSeen ∧ n.period = m.period ∧ n.capture = m.capture ∧ n.lines = m.lines

/-- Two sheaf paths whose last publication is the same (01 R28). -/
@[simp, reducible] def Sheaf.SameShown (g h : Sheaf) : Prop :=
  h.index = g.index ∧ h.any = g.any ∧ h.lastPeriod = g.lastPeriod ∧ h.published = g.published

theorem Tm.SameLine.trans {l m n : Tm} (x : l.SameLine m) (y : m.SameLine n) : l.SameLine n := by simp_all

theorem Sheaf.SameShown.trans {f g h : Sheaf} (x : f.SameShown g) (y : g.SameShown h) : f.SameShown h := by simp_all

/-- No POWER request waits for a wake of its bank (07 Table PM-9). -/
def State.noGates (s : State) : Prop := ∀ k, (s.bank k).gateTo = none

/-- From s to t the line and the publication stay, no pending event is lost, and no FALLOW, legacy write or waiting POWER request
comes. -/
structure LineStays (s t : State) : Prop where
  line : s.tm.SameLine t.tm
  shown : s.sheaf.SameShown t.sheaf
  events : ∀ k, s.has k = true → t.has k = true
  fallow : s.pw.fallow = none → t.pw.fallow = none
  agreed : s.yoke.agreed = none → t.yoke.agreed = none
  legacy : s.mb.legacy = [] → t.mb.legacy = []
  gates : s.noGates → t.noGates

@[simp] theorem LineStays.refl (s : State) : LineStays s s := by constructor <;> simp

theorem LineStays.trans {s t u : State} (a : LineStays s t) (b : LineStays t u) : LineStays s u where
  line := a.line.trans b.line
  shown := a.shown.trans b.shown
  events k h := b.events k (a.events k h)
  fallow h := b.fallow (a.fallow h)
  agreed h := b.agreed (a.agreed h)
  legacy h := b.legacy (a.legacy h)
  gates h := b.gates (a.gates h)

/-- The parts that LineStays does not speak of. -/
def Part.offLine : List Part :=
  [.requests, .config, .counters, .almanac, .drill, .ports, .storage, .sent, .edges, .twoWire, .sram, .nor, .psram, .clock, .boot,
   .level, .usb, .harrow, .seal, .update, .thresher, .free]

variable {s₀ s t : State}

/-- An operation whose frame holds only such parts. -/
theorem LineStays.within (h : LineStays s₀ s) (w : Within Part.offLine s t) : LineStays s₀ t := by
  have time : t.tm = s.tm := w .time (by decide)
  have sheaf : t.sheaf = s.sheaf := w .sheaf (by decide)
  have ev : t.ev = s.ev := w .events (by decide)
  have pw : t.pw = s.pw := w .power (by decide)
  have yoke : t.yoke = s.yoke := w .yoke (by decide)
  obtain ⟨-, -, -, -, legacy, -, -⟩ : Part.shadow.same s t := w .shadow (by decide)
  obtain ⟨banks, -⟩ : Part.fabric.same s t := w .fabric (by decide)
  exact h.trans
    { line := by simp [time]
      shown := by simp [sheaf]
      events := fun k => by simp [State.has, ev]
      fallow := by simp [pw]
      agreed := by simp [yoke]
      legacy := by simp [legacy]
      gates := by simp [State.noGates, State.bank, banks] }

/-! ### Choices and folds -/

@[simp] theorem LineStays.ite (c : Prop) [Decidable c] {a b : State} (x : LineStays s₀ a) (y : LineStays s₀ b) :
    LineStays s₀ (if c then a else b) := by split <;> assumption

@[simp] theorem LineStays.iteFst {α : Type} (c : Prop) [Decidable c] {a b : State × α} (x : LineStays s₀ a.1) (y : LineStays s₀ b.1) :
    LineStays s₀ (if c then a else b).1 := by split <;> assumption

@[simp] theorem LineStays.foldl {α : Type} (f : State → α → State) (l : List α) (h : LineStays s₀ s)
    (hf : ∀ u x, LineStays s₀ u → LineStays s₀ (f u x)) : LineStays s₀ (l.foldl f s) := by
  induction l generalizing s with
  | nil => exact h
  | cons a t ih => exact ih (hf s a h)

@[simp] theorem State.ite_lineStays (b : Bool) (f : State → State) (h : LineStays s₀ s) (hf : ∀ u, LineStays s₀ u → LineStays s₀ (f u)) :
    LineStays s₀ (s.ite b f) := by unfold State.ite; split <;> simp_all

@[simp] theorem State.each_lineStays (l : List Nat) (f : State → Nat → State) (h : LineStays s₀ s)
    (hf : ∀ u x, LineStays s₀ u → LineStays s₀ (f u x)) : LineStays s₀ (s.each l f) := LineStays.foldl f l h hf

/-! ### Updates of one component -/

@[simp] theorem State.modTm_lineStays (f : Tm → Tm) (h : LineStays s₀ s) (x : ∀ m : Tm, m.SameLine (f m)) : LineStays s₀ (s.modTm f) :=
  h.trans { LineStays.refl s with line := x _ }
@[simp] theorem State.modSheaf_lineStays (f : Sheaf → Sheaf) (h : LineStays s₀ s) (x : ∀ g : Sheaf, g.SameShown (f g)) :
    LineStays s₀ (s.modSheaf f) := h.trans { LineStays.refl s with shown := x _ }
@[simp] theorem State.modEv_lineStays (f : Ev → Ev) (h : LineStays s₀ s) (x : ∀ e, (f e).pending = e.pending) :
    LineStays s₀ (s.modEv f) := { h with events := fun k y => by simpa [State.has, x] using h.events k y }
@[simp] theorem State.modPw_lineStays (f : Pw → Pw) (h : LineStays s₀ s) (x : ∀ p, p.fallow = none → (f p).fallow = none) :
    LineStays s₀ (s.modPw f) := { h with fallow := fun z => x _ (h.fallow z) }
/-- Where a FALLOW waits already, it may change. -/
theorem State.modPw_lineStays_of_fallow (f : Pw → Pw) (h : LineStays s₀ s) (x : s.pw.fallow ≠ none) : LineStays s₀ (s.modPw f) :=
  { h with fallow := fun z => absurd (h.fallow z) x }
@[simp] theorem State.modYoke_lineStays (f : Yoke → Yoke) (h : LineStays s₀ s) (x : ∀ y, y.agreed = none → (f y).agreed = none) :
    LineStays s₀ (s.modYoke f) := { h with agreed := fun z => x _ (h.agreed z) }
@[simp] theorem State.modPos_lineStays (k : Nat) (f : Position → Position) (h : LineStays s₀ s) : LineStays s₀ (s.modPos k f) := { h with }
@[simp] theorem State.modMb_lineStays (f : Mb → Mb) (h : LineStays s₀ s) (x : ∀ m, m.legacy = [] → (f m).legacy = []) :
    LineStays s₀ (s.modMb f) := { h with legacy := fun z => x _ (h.legacy z) }
@[simp] theorem State.modMem_lineStays (f : Mem → Mem) (h : LineStays s₀ s) (x : ∀ m, (f m).banks = m.banks) :
    LineStays s₀ (s.modMem f) := { h with gates := fun z k => by simpa [State.bank, x] using h.gates z k }
@[simp] theorem State.modSram_lineStays (k : Nat) (f : Bank → Bank) (h : LineStays s₀ s) (x : ∀ b, b.gateTo = none → (f b).gateTo = none) :
    LineStays s₀ (s.modSram k f) :=
  { h with
    gates := fun z j => by
      have hj := h.gates z j
      by_cases e : k = j
      · subst e
        by_cases hk : k < s.mem.banks.length
        · simpa [State.bank, nth_updAt_self, hk] using x _ hj
        · simp [State.bank, nth, updAt, hk]
      · simpa [State.bank, nth_updAt_ne, e] using hj }
@[simp] theorem State.modChan_lineStays (k : Nat) (f : Chan → Chan) (h : LineStays s₀ s) : LineStays s₀ (s.modChan k f) := { h with }
@[simp] theorem State.modDrill_lineStays (f : Drill → Drill) (h : LineStays s₀ s) : LineStays s₀ (s.modDrill f) := { h with }
@[simp] theorem State.modThr_lineStays (f : Thr → Thr) (h : LineStays s₀ s) : LineStays s₀ (s.modThr f) := { h with }
@[simp] theorem State.modCtx_lineStays (k : Nat) (f : Ctx → Ctx) (h : LineStays s₀ s) : LineStays s₀ (s.modCtx k f) := { h with }
@[simp] theorem State.modPort_lineStays (k : Nat) (f : CspPort → CspPort) (h : LineStays s₀ s) : LineStays s₀ (s.modPort k f) := { h with }
@[simp] theorem State.modHw_lineStays (f : Hw → Hw) (h : LineStays s₀ s) : LineStays s₀ (s.modHw f) := { h with }
@[simp] theorem State.modEpisode_lineStays (k : Nat) (f : Episode → Episode) (h : LineStays s₀ s) :
    LineStays s₀ (s.modEpisode k f) := { h with }
@[simp] theorem State.modUsb_lineStays (f : Usb → Usb) (h : LineStays s₀ s) : LineStays s₀ (s.modUsb f) := { h with }
@[simp] theorem State.modHub_lineStays (k : Nat) (f : HubPort → HubPort) (h : LineStays s₀ s) : LineStays s₀ (s.modHub k f) := { h with }
@[simp] theorem State.modBoot_lineStays (f : Boot → Boot) (h : LineStays s₀ s) : LineStays s₀ (s.modBoot f) := { h with }
@[simp] theorem State.modLev_lineStays (f : Lev → Lev) (h : LineStays s₀ s) : LineStays s₀ (s.modLev f) := { h with }
@[simp] theorem State.modUpd_lineStays (f : Upd → Upd) (h : LineStays s₀ s) : LineStays s₀ (s.modUpd f) := { h with }
@[simp] theorem State.bumpBy_lineStays (n w lo wd k : Nat) (h : LineStays s₀ s) : LineStays s₀ (s.bumpBy n w lo wd k) := { h with }
@[simp] theorem State.bump_lineStays (n w lo wd : Nat) (h : LineStays s₀ s) : LineStays s₀ (s.bump n w lo wd) := { h with }
theorem mirror_lineStays (k : Nat) {f : Mirror → Mirror} (h : LineStays s₀ s) :
    LineStays s₀ { s with mirror := updAt s.mirror k f } := { h with }
@[simp] theorem State.setReg_lineStays (n w v : Nat) (h : LineStays s₀ s) : LineStays s₀ (s.setReg n w v) := { h with }
@[simp] theorem State.modSent_lineStays (k : Nat) (f : SentChan → SentChan) (h : LineStays s₀ s) : LineStays s₀ (s.modSent k f) := { h with }
@[simp] theorem State.modBank_lineStays (k : Nat) (f : EdgeBank → EdgeBank) (h : LineStays s₀ s) : LineStays s₀ (s.modBank k f) := { h with }
@[simp] theorem State.modTwt_lineStays (k : Nat) (f : Twt → Twt) (h : LineStays s₀ s) : LineStays s₀ (s.modTwt k f) := { h with }
@[simp] theorem State.modCsp8_lineStays (f : Csp8 → Csp8) (h : LineStays s₀ s) : LineStays s₀ (s.modCsp8 f) := { h with }

/-! ### Events and records -/

@[simp] theorem State.settleInt_lineStays (hk : LineStays s₀ s) : LineStays s₀ (State.settleInt s) := by
  simp +contextual (maxDischargeDepth := 40) [State.settleInt, hk]

@[simp] theorem State.raise_lineStays (k : Nat) (hk : LineStays s₀ s) : LineStays s₀ (State.raise s k) :=
  hk.trans { LineStays.refl s with
    line := by simp
    shown := by simp
    events := fun j h => by simp [h]
    fallow := by simp
    agreed := by simp
    legacy := by simp
    gates := by simp [State.noGates, State.bank] }

@[simp] theorem State.raiseOnce_lineStays (k : Nat) (hk : LineStays s₀ s) : LineStays s₀ (State.raiseOnce s k) := by
  simp +contextual (maxDischargeDepth := 40) [State.raiseOnce, hk]

@[simp] theorem State.log_lineStays (type source index code : Nat) (detail : List Byte := []) (hk : LineStays s₀ s) :
    LineStays s₀ (State.log s type source index code detail) :=
  hk.within (State.log_frame _ _ _ _ _ (Within.refl s) (by decide))

@[simp] theorem State.closeAllWindows_lineStays (hk : LineStays s₀ s) : LineStays s₀ (State.closeAllWindows s) :=
  hk.within (State.closeAllWindows_frame (Within.refl s) (by decide))

@[simp] theorem State.endEpisodeAt_lineStays (e reason last : Nat) (hk : LineStays s₀ s) :
    LineStays s₀ (State.endEpisodeAt s e reason last) := by
  simp +contextual (maxDischargeDepth := 40) [State.endEpisodeAt, hk]

@[simp] theorem State.endEpisode_lineStays (e reason : Nat) (hk : LineStays s₀ s) :
    LineStays s₀ (State.endEpisode s e reason) := by
  simp +contextual (maxDischargeDepth := 40) [State.endEpisode, hk]

@[simp] theorem State.endEpisodes_lineStays (reason : Nat) (hk : LineStays s₀ s) : LineStays s₀ (State.endEpisodes s reason) := by
  simp +contextual (maxDischargeDepth := 40) [State.endEpisodes, hk]

@[simp] theorem State.injected_lineStays (e : Nat) (hk : LineStays s₀ s) : LineStays s₀ (State.injected s e) := by
  simp +contextual (maxDischargeDepth := 40) [State.injected, hk]

/-! ### Replies -/

@[simp] theorem State.drawUnit_lineStays (target k : Nat) (j : Option Nat) (width : Nat) (hk : LineStays s₀ s) :
    LineStays s₀ (State.drawUnit s target k j width).1 :=
  hk.within (State.drawUnit_frame _ _ _ _ (Within.refl s) (by decide))

@[simp] theorem State.stream6_lineStays (e : List Byte) (hk : LineStays s₀ s) : LineStays s₀ (State.stream6 s e) :=
  hk.within (State.stream6_frame _ (Within.refl s) (by decide))

@[simp] theorem State.queueReply_lineStays (ch : Nat) (r : Reply) (hk : LineStays s₀ s) :
    LineStays s₀ (State.queueReply s ch r) := by
  simp +contextual (maxDischargeDepth := 40) [State.queueReply, hk]

@[simp] theorem State.sendReply_lineStays (ch : Nat) (r : Reply) (hk : LineStays s₀ s) :
    LineStays s₀ (State.sendReply s ch r) := by
  unfold State.sendReply; dsimp only; (repeat' split) <;> simp_all +contextual (maxDischargeDepth := 40)

@[simp] theorem State.answer_lineStays (ch : Nat) (id : Nat) (r : Reply) (st : HistState) (hk : LineStays s₀ s) :
    LineStays s₀ (State.answer s ch id r st) := by
  simp +contextual (maxDischargeDepth := 40) [State.answer, hk]

@[simp] theorem State.complete_lineStays (t : Ticket) (status : Nat) (payload : List Byte := []) (hk : LineStays s₀ s) :
    LineStays s₀ (State.complete s t status payload) := by
  unfold State.complete; (split <;> simp +contextual (maxDischargeDepth := 40) [hk])

@[simp] theorem State.completeOpt_lineStays (t : Option Ticket) (status : Nat) (payload : List Byte := []) (hk : LineStays s₀ s) :
    LineStays s₀ (State.completeOpt s t status payload) := by
  unfold State.completeOpt; (split <;> simp +contextual (maxDischargeDepth := 40) [hk])

@[simp] theorem State.received_lineStays (verb : Nat) (r : Req) (hk : LineStays s₀ s) : LineStays s₀ (State.received s verb r) :=
  hk.within (State.received_frame _ _ (Within.refl s) (by decide))

@[simp] theorem State.replay_lineStays (verb : Nat) (r : Req) (h : Hist) (hk : LineStays s₀ s) :
    LineStays s₀ (State.replay s verb r h) := by
  unfold State.replay; (repeat' split) <;> simp_all +contextual (maxDischargeDepth := 40)

@[simp] theorem State.entered_lineStays (verb : Nat) (r : Req) (hk : LineStays s₀ s) : LineStays s₀ (State.entered s verb r) :=
  hk.within (State.entered_frame _ _ (Within.refl s) (by decide))

/-! ### Accesses to memory (07 R241 to R247) -/

@[simp] theorem State.wipeBank_lineStays (k : Nat) (hk : LineStays s₀ s) : LineStays s₀ (State.wipeBank s k) := by
  simp +contextual (maxDischargeDepth := 40) [State.wipeBank, hk]

@[simp] theorem State.enterCache_lineStays (h p : Nat) (hk : LineStays s₀ s) : LineStays s₀ (State.enterCache s h p) := by
  simp +contextual (maxDischargeDepth := 40) [State.enterCache, hk]

@[simp] theorem State.correct_lineStays (dir : Access) (p n : Nat) (hk : LineStays s₀ s) :
    LineStays s₀ (State.correct s dir p n) := by
  simp +contextual (maxDischargeDepth := 40) [State.correct, hk]

@[simp] theorem State.touchRun_lineStays (a : Agent) (dir : Access) (v n : Nat) (hk : LineStays s₀ s) :
    LineStays s₀ (State.touchRun s a dir v n) := by
  have hc := State.enterCache_lineStays (holdingOf a) (v / 4096) hk
  unfold State.touchRun
  dsimp only
  split
  · exact hk
  · split
    · exact State.correct_lineStays _ _ _ (State.modSram_lineStays _ _ hc fun _ hb => hb)
    · exact State.modPw_lineStays _ (State.modCsp8_lineStays _ hc) fun _ hp => hp

@[simp] theorem State.touch_lineStays (a : Agent) (x : Piece) (hk : LineStays s₀ s) : LineStays s₀ (State.touch s a x) := by
  simp +contextual (maxDischargeDepth := 40) [State.touch, hk]

@[simp] theorem State.accessed_lineStays (a : Agent) (l : List Piece) (hk : LineStays s₀ s) :
    LineStays s₀ (State.accessed s a l) := by
  simp +contextual (maxDischargeDepth := 40) [State.accessed, hk]

@[simp] theorem State.faultRecord_lineStays (c : Cursor) (hk : LineStays s₀ s) : LineStays s₀ (State.faultRecord s c) :=
  hk.within (State.faultRecord_frame _ (Within.refl s) (by decide))

@[simp] theorem State.dropCursors_lineStays (a : Agent) (hk : LineStays s₀ s) : LineStays s₀ (State.dropCursors s a) := by
  simp +contextual (maxDischargeDepth := 40) [State.dropCursors, hk]

@[simp] theorem State.showFault_lineStays (c : Cursor) (hk : LineStays s₀ s) : LineStays s₀ (State.showFault s c) := by
  simp +contextual (maxDischargeDepth := 40) [State.showFault, hk]

@[simp] theorem State.unresolved_lineStays (c : Cursor) (hk : LineStays s₀ s) : LineStays s₀ (State.unresolved s c) := by
  simp +contextual (maxDischargeDepth := 40) [State.unresolved, hk]

@[simp] theorem State.noteFault_lineStays (a : Agent) (dir : Access) (v index kind : Nat) (hk : LineStays s₀ s) :
    LineStays s₀ (State.noteFault s a dir v index kind).1 := by
  simp +contextual (maxDischargeDepth := 40) [State.noteFault, hk]

@[simp] theorem State.reach_lineStays (a : Agent) (l : List Piece) (hk : LineStays s₀ s) :
    LineStays s₀ (State.reach s a l).1 := by
  unfold State.reach; dsimp only; (repeat' split) <;> simp_all +contextual (maxDischargeDepth := 40)

@[simp] theorem State.access_lineStays (a : Agent) (l : List Piece) (hk : LineStays s₀ s) :
    LineStays s₀ (State.access s a l).1 := by
  simp +contextual (maxDischargeDepth := 40) [State.access, hk]

/-! ### Thresher jobs -/

@[simp] theorem State.freeEngine_lineStays (n : Nat) (hk : LineStays s₀ s) : LineStays s₀ (State.freeEngine s n) :=
  hk.within (State.freeEngine_frame _ (Within.refl s) (by decide))

@[simp] theorem State.closeJob_lineStays (n reason : Nat) (hk : LineStays s₀ s) : LineStays s₀ (State.closeJob s n reason) := by
  unfold State.closeJob; dsimp only; (repeat' split) <;> simp_all +contextual (maxDischargeDepth := 40)

@[simp] theorem State.restoreCtx_lineStays (n : Nat) (hk : LineStays s₀ s) : LineStays s₀ (State.restoreCtx s n).1 := by
  have h := State.access_lineStays (thrAgent n) [⟨.read, s.saveAddr n, 2048⟩] hk
  unfold State.restoreCtx
  (repeat' split) <;> simp_all +contextual (maxDischargeDepth := 40)

@[simp] theorem State.runCtx_lineStays (n : Nat) (hk : LineStays s₀ s) : LineStays s₀ (State.runCtx s n) :=
  hk.within (State.runCtx_frame _ (Within.refl s) (by decide))

@[simp] theorem State.dispatchN_lineStays (n : Nat) (hk : LineStays s₀ s) : LineStays s₀ (State.dispatchN n s) := by
  induction n generalizing s with
  | zero => exact hk
  | succ n ih =>
    unfold State.dispatchN
    split
    · split
      · exact hk
      · rename_i k _
        have h := State.restoreCtx_lineStays k hk
        split <;> rename_i e <;> rw [e] at h
        · exact State.runCtx_lineStays k h
        · split
          · exact ih (State.modCtx_lineStays _ _ h)
          · exact h
        · exact ih (State.closeJob_lineStays k 4 h)
    · exact hk

@[simp] theorem State.dispatch_lineStays (hk : LineStays s₀ s) : LineStays s₀ (State.dispatch s) :=
  State.dispatchN_lineStays 5 hk

@[simp] theorem State.endJob_lineStays (n reason : Nat) (hk : LineStays s₀ s) : LineStays s₀ (State.endJob s n reason) := by
  simp +contextual (maxDischargeDepth := 40) [State.endJob, hk]

@[simp] theorem State.endJobs_lineStays (reason : Nat) (hk : LineStays s₀ s) : LineStays s₀ (State.endJobs s reason) := by
  simp +contextual (maxDischargeDepth := 40) [State.endJobs, hk]

@[simp] theorem State.clearObjects_lineStays (n : Nat) (hk : LineStays s₀ s) : LineStays s₀ (State.clearObjects s n) :=
  hk.within (State.clearObjects_frame _ (Within.refl s) (by decide))

/-! ### The service level -/

@[simp] theorem State.dropUsb_lineStays (hk : LineStays s₀ s) : LineStays s₀ (State.dropUsb s) :=
  hk.within (State.dropUsb_frame (Within.refl s) (by decide))

@[simp] theorem State.newTable_lineStays (hk : LineStays s₀ s) : LineStays s₀ (State.newTable s) :=
  hk.within (State.newTable_frame (Within.refl s) (by decide))

@[simp] theorem State.leaveL3_lineStays (hk : LineStays s₀ s) : LineStays s₀ (State.leaveL3 s) := by
  simp +contextual (maxDischargeDepth := 40) [State.leaveL3, hk]

@[simp] theorem State.relevel_lineStays (row : Nat) (hk : LineStays s₀ s) : LineStays s₀ (State.relevel s row) := by
  simp +contextual (maxDischargeDepth := 40) [State.relevel, hk]

@[simp] theorem State.fail_lineStays (row : Nat) (f : Fail → Fail) (hk : LineStays s₀ s) : LineStays s₀ (State.fail s row f) := by
  simp +contextual (maxDischargeDepth := 40) [State.fail, hk]

/-! ### Ports -/

@[simp] theorem State.portFault_lineStays (k : Nat) (hk : LineStays s₀ s) : LineStays s₀ (State.portFault s k) := by
  simp +contextual (maxDischargeDepth := 40) [State.portFault, hk]

@[simp] theorem State.parkPorts_lineStays (hk : LineStays s₀ s) : LineStays s₀ (State.parkPorts s) :=
  hk.within (State.parkPorts_frame (Within.refl s) (by decide))

@[simp] theorem State.detachRecord_lineStays (hk : LineStays s₀ s) : LineStays s₀ (State.detachRecord s) := by
  simp +contextual (maxDischargeDepth := 40) [State.detachRecord, hk]

@[simp] theorem State.detachPark_lineStays (hk : LineStays s₀ s) : LineStays s₀ (State.detachPark s) := by
  simp +contextual (maxDischargeDepth := 40) [State.detachPark, hk]

@[simp] theorem State.startRecovery_lineStays (k : Nat) (hk : LineStays s₀ s) : LineStays s₀ (State.startRecovery s k) :=
  hk.within (State.startRecovery_frame _ (Within.refl s) (by decide))

@[simp] theorem State.resetPort_lineStays (k : Nat) (hk : LineStays s₀ s) : LineStays s₀ (State.resetPort s k) :=
  hk.within (State.resetPort_frame _ (Within.refl s) (by decide))

/-! ### The sheaf's readers -/

@[simp] theorem State.copyTarget_lineStays (buffer period layout k : Nat) (hk : LineStays s₀ s) :
    LineStays s₀ (State.copyTarget s buffer period layout k) := by
  have h := fun l => State.access_lineStays .mirrorCopy l hk
  unfold State.copyTarget
  dsimp only
  split
  · exact hk
  · split <;> rename_i e
    · exact mirror_lineStays _ ((congrArg (fun p => LineStays s₀ p.1) e).mp (h _))
    · exact (congrArg (fun p => LineStays s₀ p.1) e).mp (h _)

@[simp] theorem State.refreshMirror_lineStays (hk : LineStays s₀ s) : LineStays s₀ (State.refreshMirror s) := by
  unfold State.refreshMirror; (repeat' split) <;> simp_all +contextual (maxDischargeDepth := 40)

@[simp] theorem State.streamTake_lineStays (e : Nat) (hk : LineStays s₀ s) : LineStays s₀ (State.streamTake s e) :=
  hk.within (State.streamTake_frame _ (Within.refl s) (by decide))

/-! ### The hub -/

@[simp] theorem State.disconnect_lineStays (p : Nat) (hk : LineStays s₀ s) : LineStays s₀ (State.disconnect s p) := by
  simp +contextual (maxDischargeDepth := 40) [State.disconnect, hk]

@[simp] theorem State.settleHub_lineStays (hk : LineStays s₀ s) : LineStays s₀ (State.settleHub s) := by
  simp +contextual (maxDischargeDepth := 40) [State.settleHub, hk]

/-! ### Samples at the line -/

@[simp] theorem State.sampleDue_lineStays (pub : Option Nat) (n : Nat) (hk : LineStays s₀ s) :
    LineStays s₀ (State.sampleDue s pub n) :=
  hk.within (State.sampleDue_frame _ _ (Within.refl s) (by decide))

@[simp] theorem State.samples_lineStays (pub : Option Nat) (hk : LineStays s₀ s) : LineStays s₀ (State.samples s pub) := by
  simp +contextual (maxDischargeDepth := 40) [State.samples, hk]

/-! ### Banks and storage -/

@[simp] theorem State.stewardEnds_lineStays (hk : LineStays s₀ s) : LineStays s₀ (State.stewardEnds s) := by
  simp +contextual (maxDischargeDepth := 40) [State.stewardEnds, hk]

@[simp] theorem State.gateBank_lineStays (k : Nat) (st : BankState) (hk : LineStays s₀ s) :
    LineStays s₀ (State.gateBank s k st) := by
  simp +contextual (maxDischargeDepth := 40) [State.gateBank, hk]

@[simp] theorem State.settlePower_lineStays (hk : LineStays s₀ s) : LineStays s₀ (State.settlePower s) := by
  simp +contextual (maxDischargeDepth := 40) [State.settlePower, hk]

@[simp] theorem State.carryPower_lineStays (k : Nat) (hk : LineStays s₀ s) : LineStays s₀ (State.carryPower s k) := by
  unfold State.carryPower; (split <;> simp +contextual (maxDischargeDepth := 40) [hk])

@[simp] theorem State.carryPowers_lineStays (hk : LineStays s₀ s) : LineStays s₀ (State.carryPowers s) := by
  simp +contextual (maxDischargeDepth := 40) [State.carryPowers, hk]

@[simp] theorem State.stopStorage_lineStays (hk : LineStays s₀ s) : LineStays s₀ (State.stopStorage s) :=
  hk.within (State.stopStorage_frame (Within.refl s) (by decide))

/-! ### Harrow -/

@[simp] theorem State.openWindow_lineStays (e : Nat) (hk : LineStays s₀ s) : LineStays s₀ (State.openWindow s e) :=
  hk.within (State.openWindow_frame _ (Within.refl s) (by decide))

@[simp] theorem State.harrowLine_lineStays (previous : Nat) (hk : LineStays s₀ s) :
    LineStays s₀ (State.harrowLine s previous) := by
  simp +contextual (maxDischargeDepth := 40) [State.harrowLine, hk]

/-! ### The yoke link -/

@[simp] theorem State.yokeLog_lineStays (position code : Nat) (hk : LineStays s₀ s) :
    LineStays s₀ (State.yokeLog s position code) :=
  hk.within (State.yokeLog_frame _ _ (Within.refl s) (by decide))

@[simp] theorem State.command_lineStays (kind : CmdKind) (dest : Nat) (payload : List Byte) (notBefore : Nat := 0)
    (ticket : Option Ticket := none) (hk : LineStays s₀ s) : LineStays s₀ (State.command s kind dest payload notBefore ticket) := by
  simp +contextual (maxDischargeDepth := 40) [State.command, hk]

@[simp] theorem State.pump_lineStays (k : Nat) (hk : LineStays s₀ s) : LineStays s₀ (State.pump s k) := by
  unfold State.pump; (repeat' split) <;> simp_all +contextual (maxDischargeDepth := 40)

@[simp] theorem State.dropForwards_lineStays (k status : Nat) (hk : LineStays s₀ s) :
    LineStays s₀ (State.dropForwards s k status) := by
  simp +contextual (maxDischargeDepth := 40) [State.dropForwards, hk]

@[simp] theorem State.fixEntry_lineStays (hk : LineStays s₀ s) : LineStays s₀ (State.fixEntry s) := by
  unfold State.fixEntry
  split
  next f hf =>
    split
    · refine LineStays.ite _ hk (State.completeOpt_lineStays _ _ _ (State.command_lineStays _ _ _ _ _ ?_))
      exact State.modPw_lineStays_of_fallow _ hk (by simp [hf])
    · exact hk
  next => exact hk

@[simp] theorem State.startRanging_lineStays (k : Nat) (hk : LineStays s₀ s) : LineStays s₀ (State.startRanging s k) := by
  simp +contextual (maxDischargeDepth := 40) [State.startRanging, hk]

@[simp] theorem State.joinDone_lineStays (k : Nat) (hk : LineStays s₀ s) : LineStays s₀ (State.joinDone s k) := by
  simp +contextual (maxDischargeDepth := 40) [State.joinDone, hk]

@[simp] theorem State.commandDone_lineStays (c : Command) (hk : LineStays s₀ s) : LineStays s₀ (State.commandDone s c) := by
  unfold State.commandDone; (split <;> simp +contextual (maxDischargeDepth := 40) [hk])

@[simp] theorem State.settleCommands_lineStays (hk : LineStays s₀ s) : LineStays s₀ (State.settleCommands s) := by
  simp +contextual (maxDischargeDepth := 40) [State.settleCommands, hk]

@[simp] theorem State.unjoin_lineStays (k state : Nat) (hk : LineStays s₀ s) : LineStays s₀ (State.unjoin s k state) := by
  simp +contextual (maxDischargeDepth := 40) [State.unjoin, hk]

@[simp] theorem State.startLeaving_lineStays (ticket : Option Ticket) (hk : LineStays s₀ s) :
    LineStays s₀ (State.startLeaving s ticket) := by
  simp +contextual (maxDischargeDepth := 40) [State.startLeaving, hk]

/-! ### A set applied (02 R77) -/

@[simp] theorem State.putWords_lineStays (words : Tab) (keys : List Nat) (hk : LineStays s₀ s) :
    LineStays s₀ (State.putWords s words keys) :=
  hk.within (State.putWords_frame _ _ (Within.refl s) (by decide))

@[simp] theorem State.measureFurrows_lineStays (hk : LineStays s₀ s) : LineStays s₀ (State.measureFurrows s) :=
  hk.within (State.measureFurrows_frame (Within.refl s) (by decide))

@[simp] theorem State.takeLayout_lineStays (hk : LineStays s₀ s) : LineStays s₀ (State.takeLayout s) := by
  simp +contextual (maxDischargeDepth := 40) [State.takeLayout, hk]

@[simp] theorem State.applyMap_lineStays (o : State) (hk : LineStays s₀ s) : LineStays s₀ (State.applyMap o s) := by
  simp +contextual (maxDischargeDepth := 40) [State.applyMap, hk]

@[simp] theorem State.applyPeriod_lineStays (o : State) (hk : LineStays s₀ s) : LineStays s₀ (State.applyPeriod o s) := by
  simp +contextual (maxDischargeDepth := 40) [State.applyPeriod, hk]

@[simp] theorem State.applyInputs_lineStays (o : State) (hk : LineStays s₀ s) : LineStays s₀ (State.applyInputs o s) :=
  hk.within (State.applyInputs_frame _ (Within.refl s) (by decide))

@[simp] theorem State.recarve_lineStays (hk : LineStays s₀ s) : LineStays s₀ (State.recarve s) := by
  unfold State.recarve; (repeat' split) <;> simp_all +contextual (maxDischargeDepth := 40)

@[simp] theorem State.applyUsb_lineStays (o : State) (hk : LineStays s₀ s) : LineStays s₀ (State.applyUsb o s) := by
  simp +contextual (maxDischargeDepth := 40) [State.applyUsb, hk]

@[simp] theorem State.applyThresher_lineStays (o : State) (hk : LineStays s₀ s) : LineStays s₀ (State.applyThresher o s) := by
  simp +contextual (maxDischargeDepth := 40) [State.applyThresher, hk]

@[simp] theorem State.applyYoke_lineStays (o : State) (hk : LineStays s₀ s) : LineStays s₀ (State.applyYoke o s) := by
  simp +contextual (maxDischargeDepth := 40) [State.applyYoke, hk]

@[simp] theorem State.copyAon_lineStays (hk : LineStays s₀ s) : LineStays s₀ (State.copyAon s) := by
  simp +contextual (maxDischargeDepth := 40) [State.copyAon, hk]

@[simp] theorem State.loadRtc_lineStays (hk : LineStays s₀ s) : LineStays s₀ (State.loadRtc s) := by
  simp +contextual (maxDischargeDepth := 40) [State.loadRtc, hk]

@[simp] theorem State.applyPower_lineStays (o : State) (v1Word : Option Nat) (hk : LineStays s₀ s) :
    LineStays s₀ (State.applyPower o s v1Word) := by
  unfold State.applyPower; (repeat' split) <;> simp_all +contextual (maxDischargeDepth := 40)

@[simp] theorem State.applyClock_lineStays (o : State) (hk : LineStays s₀ s) : LineStays s₀ (State.applyClock o s) :=
  hk.within (State.applyClock_frame _ (Within.refl s) (by decide))

@[simp] theorem State.applyUnits_lineStays (o : State) (v1Word : Option Nat) (hk : LineStays s₀ s) :
    LineStays s₀ (State.applyUnits o s v1Word) := by
  simp +contextual (maxDischargeDepth := 40) [State.applyUnits, hk]

@[simp] theorem State.applySet_lineStays (words : Tab) (keys : List Nat) (epoch : Nat) (hk : LineStays s₀ s) :
    LineStays s₀ (State.applySet s words keys epoch) := by
  unfold State.applySet
  simp +contextual (maxDischargeDepth := 40) [hk]

@[simp] theorem State.applyWord_lineStays (key value : Nat) (hk : LineStays s₀ s) :
    LineStays s₀ (State.applyWord s key value) := by
  unfold State.applyWord
  simp +contextual (maxDischargeDepth := 40) [hk]

/-! ### DETACH and the fences of units -/

@[simp] theorem State.detachLine_lineStays (hk : LineStays s₀ s) : LineStays s₀ (State.detachLine s) := by
  simp +contextual (maxDischargeDepth := 40) [State.detachLine, hk]

@[simp] theorem State.setFence_lineStays (u : UnitOf) (f : Option Fence) (hk : LineStays s₀ s) :
    LineStays s₀ (State.setFence s u f) := by
  unfold State.setFence; (split <;> simp +contextual (maxDischargeDepth := 40) [hk])

@[simp] theorem State.resetSent_lineStays (c : Nat) (hk : LineStays s₀ s) : LineStays s₀ (State.resetSent s c) :=
  hk.within (State.resetSent_frame _ (Within.refl s) (by decide))

@[simp] theorem State.resetEdge_lineStays (b : Nat) (hk : LineStays s₀ s) : LineStays s₀ (State.resetEdge s b) :=
  hk.within (State.resetEdge_frame _ (Within.refl s) (by decide))

@[simp] theorem State.portLine_lineStays (k : Nat) (hk : LineStays s₀ s) : LineStays s₀ (State.portLine s k) := by
  unfold State.portLine; (repeat' split) <;> simp_all +contextual (maxDischargeDepth := 40)

@[simp] theorem State.inputLine_lineStays (u : UnitOf) (clear : State → State) (hk :
    LineStays s₀ s) (hc : ∀ v, LineStays s₀ v → LineStays s₀ (clear v)) :
    LineStays s₀ (State.inputLine s u clear) := by
  unfold State.inputLine
  split
  · exact hk
  · split
    · exact hc _ (State.setFence_lineStays _ _ hk)
    · exact State.setFence_lineStays _ _ hk
    · exact hk

@[simp] theorem State.fenceLine_lineStays (hk : LineStays s₀ s) : LineStays s₀ (State.fenceLine s) := by
  unfold State.fenceLine
  refine State.each_lineStays _ _ (State.each_lineStays _ _ (State.each_lineStays _ _ hk fun u x hu => ?_) fun u x hu => ?_) fun u x hu => ?_
  · simp [hu]
  · exact State.inputLine_lineStays _ _ hu fun v hv => by simp [hv]
  · exact State.inputLine_lineStays _ _ hu fun v hv => by simp [hv]

/-! ### The swap of images -/

@[simp] theorem State.holdFrame_lineStays (ch : Channel) (b : List Byte) (hk : LineStays s₀ s) :
    LineStays s₀ (State.holdFrame s ch b) := by
  unfold State.holdFrame; dsimp only; (repeat' split) <;> simp_all +contextual (maxDischargeDepth := 40)

@[simp] theorem State.holdReceived_lineStays (ch : Channel) (hk : LineStays s₀ s) : LineStays s₀ (State.holdReceived s ch) := by
  simp +contextual (maxDischargeDepth := 40) [State.holdReceived, hk]

@[simp] theorem State.parkJob_lineStays (n : Nat) (hk : LineStays s₀ s) : LineStays s₀ (State.parkJob s n) := by
  unfold State.parkJob; dsimp only; (repeat' split) <;> simp_all +contextual (maxDischargeDepth := 40)

@[simp] theorem State.markRequests_lineStays (own : Ticket) (hk : LineStays s₀ s) : LineStays s₀ (State.markRequests s own) :=
  hk.within (State.markRequests_frame _ (Within.refl s) (by decide))

@[simp] theorem State.swapAtLine_lineStays (hk : LineStays s₀ s) : LineStays s₀ (State.swapAtLine s) := by
  unfold State.swapAtLine
  split
  · exact hk
  · refine LineStays.ite _ hk (State.modUpd_lineStays _ (State.modBoot_lineStays _ (State.modMb_lineStays _ ?_ fun _ _ => rfl)))
    exact State.modPw_lineStays _ (by simp +contextual (maxDischargeDepth := 40) [hk]) fun _ hp => hp

/-! ### Grants, sets, START, STOP and legacy writes -/

@[simp] theorem State.recheckCommit_lineStays (hk : LineStays s₀ s) : LineStays s₀ (State.recheckCommit s) := by
  unfold State.recheckCommit; (repeat' split) <;> simp_all +contextual (maxDischargeDepth := 40)

@[simp] theorem State.applyGrant_lineStays (hk : LineStays s₀ s) : LineStays s₀ (State.applyGrant s) := by
  unfold State.applyGrant; (split <;> simp +contextual (maxDischargeDepth := 40) [hk])

@[simp] theorem State.noteCompat_lineStays (ch : Nat) (hk : LineStays s₀ s) : LineStays s₀ (State.noteCompat s ch) := by
  simp +contextual (maxDischargeDepth := 40) [State.noteCompat, hk]

@[simp] theorem State.saveSet_lineStays (c : PendingCommit) (hk : LineStays s₀ s) : LineStays s₀ (State.saveSet s c) :=
  hk.within (State.saveSet_frame _ (Within.refl s) (by decide))

@[simp] theorem State.applyCommit_lineStays (hk : LineStays s₀ s) : LineStays s₀ (State.applyCommit s) := by
  unfold State.applyCommit; (split <;> simp +contextual (maxDischargeDepth := 40) [hk])

@[simp] theorem State.startDrill_lineStays (hk : LineStays s₀ s) : LineStays s₀ (State.startDrill s) := by
  unfold State.startDrill; dsimp only; (repeat' split) <;> simp_all +contextual (maxDischargeDepth := 40)

@[simp] theorem State.stopDrill_lineStays (hk : LineStays s₀ s) : LineStays s₀ (State.stopDrill s) :=
  hk.within (State.stopDrill_frame (Within.refl s) (by decide))

@[simp] theorem State.applyRun_lineStays (hk : LineStays s₀ s) : LineStays s₀ (State.applyRun s) := by
  unfold State.applyRun; (split <;> simp +contextual (maxDischargeDepth := 40) [hk])

@[simp] theorem State.applyLegacyWrite_lineStays (w : LegacyWrite) (hk : LineStays s₀ s) :
    LineStays s₀ (State.applyLegacyWrite s w) := by
  simp +contextual (maxDischargeDepth := 40) [State.applyLegacyWrite, hk]

@[simp] theorem State.applyLegacy_lineStays (hk : LineStays s₀ s) : LineStays s₀ (State.applyLegacy s) := by
  simp +contextual (maxDischargeDepth := 40) [State.applyLegacy, hk]

/-! ### The new period -/

@[simp] theorem State.resumeDrill_lineStays (hk : LineStays s₀ s) : LineStays s₀ (State.resumeDrill s) := by
  simp +contextual (maxDischargeDepth := 40) [State.resumeDrill, hk]

@[simp] theorem State.beginRecovery_lineStays (hk : LineStays s₀ s) : LineStays s₀ (State.beginRecovery s) := by
  have h : LineStays s₀ s.fenceLine := State.fenceLine_lineStays hk
  unfold State.beginRecovery
  dsimp only
  split
  · exact h
  · refine State.each_lineStays _ _ h fun u x hu => ?_
    split
    · split
      · exact State.startRecovery_lineStays _ hu
      · exact hu
    · exact hu

@[simp] theorem State.reportMissed_lineStays (missed : List (Nat × Nat)) (hk : LineStays s₀ s) :
    LineStays s₀ (State.reportMissed s missed) := by
  simp +contextual (maxDischargeDepth := 40) [State.reportMissed, hk]

@[simp] theorem State.reportUnfit_lineStays (hk : LineStays s₀ s) : LineStays s₀ (State.reportUnfit s) := by
  simp +contextual (maxDischargeDepth := 40) [State.reportUnfit, hk]

@[simp] theorem State.beginEntries_lineStays (hk : LineStays s₀ s) : LineStays s₀ (State.beginEntries s) := by
  unfold State.beginEntries
  dsimp only
  refine State.ite_lineStays _ _ (State.reportMissed_lineStays _ ?_) fun u hu => State.reportUnfit_lineStays hu
  exact State.modSheaf_lineStays _ (State.modDrill_lineStays _ hk) fun g => by simp

@[simp] theorem State.countCarried_lineStays (hk : LineStays s₀ s) : LineStays s₀ (State.countCarried s) := by
  simp +contextual (maxDischargeDepth := 40) [State.countCarried, hk]

end Sys2Proof.Machine
end

section
/-! SUPPORT. The capture line in its steps, and what each leaves (01 R17, R28 to R32). -/

namespace Sys2Proof.Machine

variable {s : State}

/-! ### The steps of a line -/

/-- The line begun: the period before it has ended, and the number has advanced (01 R17). -/
def State.lineBegun (s : State) : State := (s.at s.nextLine.at').endPeriod.1.beginLine s.nextLine s.nextPeriod

/-- What takes effect at the line, up to the entries of the new period. -/
def State.lineApplied (s : State) : State := s.applyGrant.applyCommit.applyRun.applyLegacy.resumeDrill.beginRecovery.beginEntries.countCarried

/-- The line up to the entry into FALLOW; `pub` is the period of the sheaf published. -/
def State.lineServed (s : State) (pub : Option Nat) : State := (s.lineApplied.samples pub).carryPowers.detachLine

/-- The line complete. -/
def State.lineDone (s : State) : State :=
  ((s.lineBegun.lineServed (s.at s.nextLine.at').endPeriod.2).fallowLine.swapAtLine.harrowLine s.tm.period).settleInt

theorem exec_captureLine (hc : s.clocked = true) (hw : s.pw.waking = false) : exec .captureLine s = .next s.lineDone := by
  have row : exec .captureLine s = execCaptureLine s := rfl
  rw [row, execCaptureLine, if_neg (by simp [hc, hw])]
  rfl

/-! ### Steps that have nothing to do -/

theorem State.fallowLine_of_none (hf : s.pw.fallow = none) (ha : s.yoke.agreed = none) : s.fallowLine = s := by
  simp [State.fallowLine, hf, ha]

theorem State.applyGrant_of_none (h : s.yoke.grant = none) : s.applyGrant = s := by simp [State.applyGrant, h]

theorem State.applyCommit_of_none (h : s.mb.commit = none) : s.applyCommit = s := by simp [State.applyCommit, h]

theorem State.applyLegacy_of_nil (h : s.mb.legacy = []) : s.applyLegacy = s := by
  have same : { s.mb with legacy := [] } = s.mb := by rw [← h]
  simp [State.applyLegacy, h, State.modMb, same]

theorem State.swapAtLine_of_none (h : s.upd.swap = none) : s.swapAtLine = s := by simp [State.swapAtLine, h]

theorem State.carryPowers_of_noGates (h : s.noGates) : s.carryPowers = s.settlePower := by
  have fixed : s.each (List.range 64) State.carryPower = s :=
    List.foldl_fixed' (fun k => by simp [State.carryPower, h k]) _
  rw [State.carryPowers, fixed]

/-! ### After the line has begun -/

theorem State.lineApplied_lineStays : LineStays s s.lineApplied := by
  simp (maxDischargeDepth := 40) [State.lineApplied]

theorem State.lineServed_lineStays (pub : Option Nat) : LineStays s (s.lineServed pub) := by
  simp (maxDischargeDepth := 40) [State.lineServed, State.lineApplied_lineStays]

/-- Without a FALLOW at its period nothing after the line's beginning moves the line or loses an event. -/
theorem State.lineDone_lineStays (hf : s.lineBegun.pw.fallow = none) (ha : s.lineBegun.yoke.agreed = none) :
    LineStays s.lineBegun s.lineDone := by
  have served := State.lineServed_lineStays (s := s.lineBegun) (s.at s.nextLine.at').endPeriod.2
  rw [State.lineDone, State.fallowLine_of_none (served.fallow hf) (served.agreed ha)]
  simp (maxDischargeDepth := 40) [served]

/-! ### The period that ends -/

/-- The one write of the publish index (01 R28). -/
def State.indexed (s : State) (a : Assembly) : State :=
  s.modSheaf fun h => { h with
    index := s.nextBuffer
    any := true
    buffers := updAt h.buffers s.nextBuffer fun _ => some
      { period := a.period, layout := s.sheaf.layout.id, header := headerSize s.boot.legacy, body := s.sheaf.layout.bodySize
        order := s.sheaf.published + 1 }
    lastPeriod := a.period
    published := s.sheaf.published + 1 }

theorem State.publish_lineStays (a : Assembly) : LineStays (s.indexed a) (s.publish a) := by
  unfold State.publish
  exact State.refreshMirror_lineStays (State.raise_lineStays _ (State.bump_lineStays _ _ _ _
    (State.each_lineStays _ _ (LineStays.refl (s.indexed a)) fun u k hu => State.modPort_lineStays _ _ hu)))

theorem State.publish_ready (a : Assembly) : (s.publish a).has 0 = true := by
  unfold State.publish
  exact (State.refreshMirror_lineStays (LineStays.refl _)).events 0 (by simp)

theorem State.unpublish_lineStays (why : Nat) : LineStays s (s.unpublish why) := by
  simp (maxDischargeDepth := 40) [State.unpublish]

/-- Event 1 tells of a period without a published sheaf, and event 3 of an overrun of its headland (01 R30). -/
theorem State.unpublish_raises (why : Nat) : (s.unpublish why).has 1 = true ∧ (why = 1 → (s.unpublish why).has 3 = true) := by
  unfold State.unpublish
  split <;> simp [*]

/-- What ends with the period beside the publication. -/
def State.sheafClosed (s : State) : State :=
  (((s.modSheaf fun h => { h with assembly := none }).modDrill fun d => { d with spoiled := false }).dropCursors .drill).dropCursors .assembler

theorem State.sheafClosed_lineStays : LineStays s s.sheafClosed := by
  simp (maxDischargeDepth := 40) [State.sheafClosed]

theorem State.endSheaf_published {a : Assembly} (hd : s.drillOn = true) (hp : s.drill.polled = true) (hu : s.unpublished = 0)
    (ha : s.sheaf.assembly = some a) : s.endSheaf = (s.publish a).sheafClosed := by
  unfold State.endSheaf
  rw [if_pos (by simp [hd, hp]), hu, ha]
  rfl

theorem State.endSheaf_unpublished (hd : s.drillOn = true) (hp : s.drill.polled = true) (hu : s.unpublished ≠ 0) :
    s.endSheaf = (s.unpublish s.unpublished).sheafClosed := by
  unfold State.endSheaf
  rw [if_pos (by simp [hd, hp])]
  split
  · contradiction
  · rfl

/-- Whether a sheaf is published or not, only the sheaf registers move before the line. -/
theorem State.endSheaf_lineStays : ∃ f, LineStays (s.modSheaf f) s.endSheaf := by
  have idle : s.modSheaf id = s := rfl
  unfold State.endSheaf
  split
  · split
    next a _ _ => exact ⟨_, (State.publish_lineStays a).trans State.sheafClosed_lineStays⟩
    next => exact ⟨id, idle ▸ (State.unpublish_lineStays _).trans State.sheafClosed_lineStays⟩
  · exact ⟨id, idle ▸ State.sheafClosed_lineStays⟩

theorem State.endPeriod_lineStays : LineStays s.endSheaf s.endPeriod.1 := by
  unfold State.endPeriod
  dsimp only
  split
  · exact LineStays.refl _
  · exact State.each_lineStays _ _ (LineStays.refl _) fun u e hu => State.streamTake_lineStays e hu

/-! ### The line's beginning -/

/-- What the end of the period leaves of the clock, a FALLOW, an agreement and waiting POWER requests. -/
theorem State.endPeriod_stays : ∃ f, LineStays (s.modSheaf f) s.endPeriod.1 := by
  obtain ⟨f, h⟩ := State.endSheaf_lineStays (s := s)
  exact ⟨f, h.trans State.endPeriod_lineStays⟩

/-- The line advances the period number and takes its instant from the reference (01 R17). -/
theorem State.lineBegun_tm : s.lineBegun.tm.now = max s.tm.now s.nextLine.at' ∧ s.lineBegun.tm.lineSeen = true
    ∧ s.lineBegun.tm.period = s.nextPeriod ∧ s.lineBegun.tm.capture = s.nextLine.at' ∧ s.lineBegun.tm.lines = s.tm.lines + 1 := by
  obtain ⟨f, h⟩ := State.endPeriod_stays (s := s.at s.nextLine.at')
  obtain ⟨now, -, -, -, lines⟩ := h.line
  exact ⟨now, rfl, rfl, rfl, congrArg (· + 1) lines⟩

theorem State.lineBegun_fallow (h : s.pw.fallow = none) : s.lineBegun.pw.fallow = none := by
  obtain ⟨f, stays⟩ := State.endPeriod_stays (s := s.at s.nextLine.at')
  exact stays.fallow h

theorem State.lineBegun_agreed (h : s.yoke.agreed = none) : s.lineBegun.yoke.agreed = none := by
  obtain ⟨f, stays⟩ := State.endPeriod_stays (s := s.at s.nextLine.at')
  exact stays.agreed h

theorem State.lineBegun_noGates (h : s.noGates) : s.lineBegun.noGates := by
  obtain ⟨f, stays⟩ := State.endPeriod_stays (s := s.at s.nextLine.at')
  exact stays.gates h

/-! ### SRAM at a line without a set, a grant, a swap or a waiting POWER request -/

/-- The parts that the end of a period may change: no request, set or grant is among them. -/
theorem State.endPeriod_at_frame : Within [.time, .counters, .events, .almanac, .drill, .sheaf, .ports, .storage, .twoWire, .fabric, .power,
    .usb] s (s.at s.nextLine.at').endPeriod.1 :=
  State.endPeriod_frame (State.at_frame _ (Within.refl s) (by decide)) (by decide)

theorem State.lineBegun_grant (h : s.yoke.grant = none) : s.lineBegun.yoke.grant = none := by
  have yoke : (s.at s.nextLine.at').endPeriod.1.yoke = s.yoke := State.endPeriod_at_frame .yoke (by decide)
  exact (congrArg Yoke.grant yoke).trans h

theorem State.lineBegun_commit (h : s.mb.commit = none) : s.lineBegun.mb.commit = none := by
  obtain ⟨-, -, commit, -⟩ : Part.shadow.same s (s.at s.nextLine.at').endPeriod.1 := State.endPeriod_at_frame .shadow (by decide)
  exact commit.trans h

theorem State.lineBegun_legacy (h : s.mb.legacy = []) : s.lineBegun.mb.legacy = [] := by
  obtain ⟨f, stays⟩ := State.endPeriod_stays (s := s.at s.nextLine.at')
  exact stays.legacy h

/-- The parts that a line may change which applies no set and swaps no image: SRAM is not among them. -/
def Part.atLine : List Part :=
  [.time, .requests, .shadow, .counters, .events, .almanac, .drill, .sheaf, .ports, .storage, .sent, .edges, .twoWire, .fabric, .level,
   .power, .usb, .yoke, .harrow, .thresher]

theorem State.lineBegun_frame : Within Part.atLine s s.lineBegun :=
  State.beginLine_frame _ _ (State.endPeriod_frame (State.at_frame _ (Within.refl s) (by decide)) (by decide)) (by decide)

/-- Without a grant, a set or a legacy write a line begins its entries at once. -/
theorem State.lineApplied_frame (hg : s.yoke.grant = none) (hc : s.mb.commit = none) (hl : s.mb.legacy = []) :
    Within Part.atLine s s.lineApplied := by
  have legacy : s.applyRun.mb.legacy = [] := (State.applyRun_lineStays (LineStays.refl s)).legacy hl
  rw [State.lineApplied, State.applyGrant_of_none hg, State.applyCommit_of_none hc, State.applyLegacy_of_nil legacy]
  exact State.countCarried_frame (State.beginEntries_frame (State.beginRecovery_frame (State.resumeDrill_frame
    (State.applyRun_frame (Within.refl s) (by decide)) (by decide)) (by decide)) (by decide)) (by decide)

/-- Where no POWER request waits either, no bank is gated at the line. -/
theorem State.lineServed_frame (pub : Option Nat) (hg : s.yoke.grant = none) (hc : s.mb.commit = none) (hl : s.mb.legacy = [])
    (hb : s.noGates) : Within Part.atLine s (s.lineServed pub) := by
  have gates : (s.lineApplied.samples pub).noGates := (State.samples_lineStays pub State.lineApplied_lineStays).gates hb
  rw [State.lineServed, State.carryPowers_of_noGates gates]
  exact State.detachLine_frame (State.settlePower_frame (State.samples_frame pub (State.lineApplied_frame hg hc hl)
    (by decide)) (by decide)) (by decide)

/-- Such a line stores nothing in SRAM: the sheaf was written as it was assembled (04 R130). -/
theorem State.lineDone_sram (hf : s.pw.fallow = none) (ha : s.yoke.agreed = none) (hg : s.yoke.grant = none) (hc : s.mb.commit = none)
    (hl : s.mb.legacy = []) (hs : s.upd.swap = none) (hb : s.noGates) : s.lineDone.mem.sram = s.mem.sram := by
  have served := State.lineServed_lineStays (s := s.lineBegun) (s.at s.nextLine.at').endPeriod.2
  have frame := State.lineBegun_frame.trans (State.lineServed_frame (s.at s.nextLine.at').endPeriod.2 (State.lineBegun_grant hg)
    (State.lineBegun_commit hc) (State.lineBegun_legacy hl) (State.lineBegun_noGates hb))
  have upd : (s.lineBegun.lineServed (s.at s.nextLine.at').endPeriod.2).upd = s.upd := frame .update (by decide)
  rw [State.lineDone, State.fallowLine_of_none (served.fallow (State.lineBegun_fallow hf)) (served.agreed (State.lineBegun_agreed ha)),
    State.swapAtLine_of_none (by rw [upd, hs])]
  exact State.settleInt_frame (State.harrowLine_frame _ frame (by decide)) (by decide) .sram (by decide)

/-! ### The publication at the line -/

section
variable (stays : LineStays s.lineBegun s.lineDone)
include stays

/-- The line keeps the publication with which the period before it ended. -/
theorem State.lineDone_shown : (s.at s.nextLine.at').endSheaf.sheaf.SameShown s.lineDone.sheaf := by
  have begun : (s.at s.nextLine.at').endSheaf.sheaf.SameShown s.lineBegun.sheaf := State.endPeriod_lineStays.shown
  exact begun.trans stays.shown

/-- The line keeps the events with which the period before it ended. -/
theorem State.lineDone_has (k : Nat) (h : (s.at s.nextLine.at').endSheaf.has k = true) : s.lineDone.has k = true := by
  have begun : s.lineBegun.has k = true := State.endPeriod_lineStays.events k h
  exact stays.events k begun

/-- A published sheaf is the latest, and event 0 tells of it (01 R28). -/
theorem State.lineDone_published {a : Assembly} (hd : s.drillOn = true) (hp : s.drill.polled = true) (hu : s.unpublished = 0)
    (ha : s.sheaf.assembly = some a) : s.lineDone.sheaf.index = s.nextBuffer ∧ s.lineDone.sheaf.any = true
      ∧ s.lineDone.sheaf.lastPeriod = a.period ∧ s.lineDone.sheaf.published = s.sheaf.published + 1 ∧ s.lineDone.has 0 = true := by
  have shown := State.lineDone_shown stays
  have kept := State.lineDone_has stays 0
  rw [State.endSheaf_published (s := s.at s.nextLine.at') hd hp hu ha] at shown kept
  have published := State.publish_lineStays (s := s.at s.nextLine.at') a
  have closed := State.sheafClosed_lineStays (s := (s.at s.nextLine.at').publish a)
  obtain ⟨index, any, last, count⟩ := (published.trans closed).shown.trans shown
  exact ⟨index, any, last, count, kept (closed.events 0 (State.publish_ready a))⟩

/-- A period without a published sheaf leaves the publish index, and events 1 and 3 tell of it (01 R30 to R32). -/
theorem State.lineDone_unpublished (hd : s.drillOn = true) (hp : s.drill.polled = true) (hu : s.unpublished ≠ 0) :
    s.lineDone.sheaf.published = s.sheaf.published ∧ s.lineDone.sheaf.index = s.sheaf.index ∧ s.lineDone.has 1 = true
      ∧ (s.unpublished = 1 → s.lineDone.has 3 = true) := by
  have shown := State.lineDone_shown stays
  have kept := State.lineDone_has stays
  have ended := State.endSheaf_unpublished (s := s.at s.nextLine.at') hd hp hu
  simp only [ended] at shown kept
  have dropped := State.unpublish_lineStays (s := s.at s.nextLine.at') s.unpublished
  have closed := State.sheafClosed_lineStays (s := (s.at s.nextLine.at').unpublish s.unpublished)
  obtain ⟨index, -, -, count⟩ := (dropped.trans closed).shown.trans shown
  obtain ⟨one, three⟩ := State.unpublish_raises (s := s.at s.nextLine.at') s.unpublished
  exact ⟨count, index, kept 1 (closed.events 1 one), fun late => kept 3 (closed.events 3 (three late))⟩

end

/-! ### The obligation -/

/-- Settles O32: the end of the period is taken step by step, and nothing after the line's beginning undoes what it left. -/
theorem captureLineEndsPeriod : Obligations.CaptureLineEndsPeriod := by
  unfold Obligations.CaptureLineEndsPeriod
  intro s _ hclocked hwaking hfallow hagreed
  have stays := State.lineDone_lineStays (State.lineBegun_fallow hfallow) (State.lineBegun_agreed hagreed)
  obtain ⟨now, seen, period, capture, lines⟩ := stays.line
  obtain ⟨now', seen', period', capture', lines'⟩ := State.lineBegun_tm (s := s)
  refine ⟨s.lineDone, exec_captureLine hclocked hwaking, seen.trans seen', period.trans period', capture.trans capture',
    lines.trans lines', now.trans now', ?_, ?_, ?_⟩
  · exact fun hd hp hu a ha => State.lineDone_published stays hd hp hu ha
  · exact fun hd hp hu => State.lineDone_unpublished stays hd hp hu
  · exact fun hc hl hg hs hb => State.lineDone_sram hfallow hagreed hg hc hl hs hb

end Sys2Proof.Machine
end

section
/-! SUPPORT. EVENTS: what acknowledging events changes and keeps, and the verb served (02 R91; 13 R490). -/

namespace Sys2Proof.Machine

variable {s : State}

/-! ### Events acknowledged -/

/-- Acknowledging changes pending events and their report alone. -/
theorem State.ackEvents_eq (mask : Nat) : s.ackEvents mask = { s with ev := (s.ackEvents mask).ev } := by
  simp [State.ackEvents, State.ext_iff]

@[simp] theorem State.ackEvents_mb (mask : Nat) : (s.ackEvents mask).mb = s.mb := by simp [State.ackEvents]

@[simp] theorem State.ackEvents_quiet (mask : Nat) : (s.ackEvents mask).quiet = s.quiet := by rw [State.ackEvents_eq]; rfl

/-- An acknowledged event is no longer pending, and the others stay as they are (13 R490). -/
theorem State.ackEvents_has (mask : Nat) {k : Nat} (hk : k < 64) : (s.ackEvents mask).has k = (s.has k && !bitAt mask k) := by
  have cleared : (s.ackEvents mask).ev.pending = s.ev.pending &&& ((2 ^ 64 - 1) ^^^ mask) := State.settleInt_pending' _
  rw [State.has, cleared, bitAt, Nat.testBit_and, Nat.testBit_xor, Nat.testBit_two_pow_sub_one, decide_eq_true hk, Bool.true_xor]
  rfl

/-! ### The verb -/

/-- The payload of the reply: the pending events and the period (02 R91). -/
def State.eventsReply (s : State) : List Byte := leBytes 8 s.ev.pending ++ leBytes 6 s.tm.period ++ [0, 0]

/-- The execution of EVENTS: the events of the request's mask are acknowledged, and the answer is formed before that. -/
def runEvents (r : Req) (s : State) (_ : Ticket) : State × Answer := (s.ackEvents (pf r 0 8), .done stOk s.eventsReply)

theorem exec_events {r : Req} (hlen : r.length.toNat = 8) :
    exec (.events r) s = .next (s.serve 0x0A r true (fun _ => [noNoun r]) (runEvents r)) := by
  have h : exec (.events r) s = .next (s.serve 0x0A r (r.length.toNat == 8) (fun _ => [noNoun r]) (runEvents r)) := rfl
  rw [h, hlen]
  rfl

@[simp] theorem State.entered_eventsReply (v : Nat) (r : Req) : (s.entered v r).eventsReply = s.eventsReply := by
  simp [State.eventsReply]

/-- Step 7 of Table MB-4 passes a request whose noun and index are 0. -/
theorem noNoun_passes {r : Req} (hnoun : r.noun = 0) (hindex : r.index = 0) : firstFail [noNoun r] = none := by
  simp [firstFail, noNoun, hnoun, hindex]

/-! ### The obligation -/

/-- Settles O9: the answer is formed as the request arrives, its execution clears the named events, and the reply that is then
queued raises 22 and 23 alone. -/
theorem eventsAcknowledged : Obligations.EventsAcknowledged := by
  unfold Obligations.EventsAcknowledged
  intro r s fresh hlen hnoun hindex
  obtain ⟨answered, within, only⟩ := fresh.answers (fun _ => [noNoun r]) (runEvents r) stOk s.eventsReply
    (noNoun_passes hnoun hindex) (by simp [runEvents]) (by simp [runEvents, fresh.quiet]) (by simp [runEvents])
    (by simp [runEvents, fresh.chans]) (.inr rfl)
  refine ⟨_, exec_events hlen, answered, fun k hk not22 not23 => ?_, ?_⟩
  · calc _ = ((s.entered 0x0A r).ackEvents (pf r 0 8)).has k := only k (by simp [not22, not23])
      _ = ((s.entered 0x0A r).has k && !bitAt (pf r 0 8) k) := State.ackEvents_has _ hk
      _ = (s.has k && !bitAt (pf r 0 8) k) := by rw [State.entered_has]
  · have arrived : Within [.requests, .counters, .events, .almanac] s (s.entered 0x0A r) := State.entered_frame _ _ (Within.refl s)
    have acknowledged := State.ackEvents_frame (pf r 0 8) arrived
    exact acknowledged.trans within

end Sys2Proof.Machine
end

section
/-! SUPPORT. HARROW_ARM, HARROW_SET and HARROW_DISARM: what starting, ending and sealing leave of the episode slots, and the verbs
served (14 R493 to R502, R556). -/

namespace Sys2Proof.Machine

variable {s t u : State} {r : Req}

/-! ### Several episode slots at once -/

/-- The injector with the episodes of the named slots changed, each as its slot says. -/
def Hw.onSlots (h : Hw) (l : List Nat) (f : Nat → Episode → Episode) : Hw :=
  { h with episodes := l.foldl (fun es e => updAt es e (f e)) h.episodes }

theorem Hw.onSlots_cons (h : Hw) (a : Nat) (l : List Nat) (f : Nat → Episode → Episode) :
    h.onSlots (a :: l) f = Hw.onSlots { h with episodes := updAt h.episodes a (f a) } l f := rfl

/-- A slot that is not named keeps its episode. -/
theorem Hw.onSlots_spares {h : Hw} {l : List Nat} (f : Nat → Episode → Episode) {e : Nat} (he : e ∉ l) :
    nth {} (h.onSlots l f).episodes e = nth {} h.episodes e := by
  induction l generalizing h with
  | nil => rfl
  | cons a l ih =>
    obtain ⟨ne, rest⟩ := List.ne_and_not_mem_of_not_mem_cons he
    rw [Hw.onSlots_cons, ih rest, nth_updAt_ne _ _ _ _ _ (Ne.symm ne)]

/-- A slot named once has its episode changed once. -/
theorem Hw.onSlots_changes {h : Hw} {l : List Nat} (f : Nat → Episode → Episode) {e : Nat} (once : l.Nodup) (he : e ∈ l)
    (hlen : e < h.episodes.length) : nth {} (h.onSlots l f).episodes e = f e (nth {} h.episodes e) := by
  induction l generalizing h with
  | nil => cases he
  | cons a l ih =>
    obtain ⟨fresh, rest⟩ := List.nodup_cons.mp once
    rw [Hw.onSlots_cons]
    rcases List.mem_cons.mp he with rfl | later
    · rw [Hw.onSlots_spares f fresh, nth_updAt_self _ _ _ _ hlen]
    · rw [ih rest later (by simpa using hlen), nth_updAt_ne _ _ _ _ _ (ne_of_mem_of_not_mem later fresh).symm]

/-- An operation on one slot after another, each of which changes the injector in its slot's episode alone. -/
theorem State.each_hw {parts : List Part} {op : State → Nat → State} {f : Nat → Episode → Episode} (l : List Nat)
    (frame : ∀ u e, Within parts s u → Within parts s (op u e))
    (one : ∀ u e, Within parts s u → (op u e).hw = (u.modEpisode e (f e)).hw) (h : Within parts s u) :
    (u.each l op).hw = u.hw.onSlots l f := by
  induction l generalizing u with
  | nil => rfl
  | cons a l ih => exact (ih (frame u a h)).trans (by rw [one u a h]; rfl)

theorem slotsOf_nodup (mask : Nat) : (slotsOf mask).Nodup := List.nodup_range.filter _

theorem mem_slotsOf {mask e : Nat} : e ∈ slotsOf mask ↔ e < 4 ∧ bitAt mask e = true := by simp [slotsOf]

/-- A mask of four bits that is not 0 names a slot. -/
theorem slotsOf_ne_nil {mask : Nat} (low : 1 ≤ mask) (high : mask < 16) : slotsOf mask ≠ [] := by
  have named : ∀ m : Fin 16, 1 ≤ m.val → slotsOf m.val ≠ [] := by decide
  exact named ⟨mask, high⟩ low

/-- The parts that an episode's start or end may change. -/
def Part.ofEpisode : List Part := [.counters, .events, .almanac, .harrow]

/-! ### Episodes started -/

/-- An episode as its start leaves it (14 R493). -/
def State.started (s : State) (ch e : Nat) (p : Episode) : Episode :=
  { p with
    state := 1
    endReason := 0
    consented := !s.boot.testEn
    startedBy := ch
    lastPeriod := 0
    count := 0
    lfsr := lfsrLoad (if s.hwReg e 7 = 0 then s.tm.now % 2 ^ 32 else s.hwReg e 7)
    first := s.opensAt e }

/-- How an episode starts follows from the clock, the configuration and TEST_EN. -/
theorem State.started_congr (h : Within Part.ofEpisode s u) (ch e : Nat) : u.started ch e = s.started ch e := by
  have time : u.tm = s.tm := h .time (by decide)
  have config : u.cfg = s.cfg := h .config (by decide)
  have boot : u.boot = s.boot := h .boot (by decide)
  have words (w : Nat) : u.hwReg e w = s.hwReg e w := by simp only [State.hwReg, State.reg, config]
  have opens : u.opensAt e = s.opensAt e := by
    unfold State.opensAt State.startPeriod
    rw [words, words, time]
  funext p
  unfold State.started
  rw [words, opens, time, boot]

theorem State.startSlot_hw (ch e : Nat) : (s.startSlot ch e).hw = (s.modEpisode e (s.started ch e)).hw := by
  simp only [State.startSlot, State.raise_hw, State.log_hw, State.bump_hw]
  rfl

theorem State.startSlots_hw (ch : Nat) (l : List Nat) : (s.startSlots ch l).hw = s.hw.onSlots l (s.started ch) :=
  State.each_hw l (fun _ e h => State.startSlot_frame ch e h (by decide))
    (fun u e h => by rw [State.startSlot_hw, State.started_congr h]) (Within.refl (parts := Part.ofEpisode) s)

theorem Hw.onSlots_starts {h : Hw} {mask ch e : Nat} (named : e ∈ slotsOf mask) (hlen : h.episodes.length = 4) :
    nth {} (h.onSlots (slotsOf mask) (s.started ch)).episodes e = s.started ch e (nth {} h.episodes e) :=
  Hw.onSlots_changes _ (slotsOf_nodup mask) named (hlen ▸ (mem_slotsOf.mp named).1)

/-- Event 55 tells of a start (14 R502). -/
theorem State.startSlots_has {ch : Nat} {l : List Nat} (named : l ≠ []) : (s.startSlots ch l).has 55 = true := by
  obtain ⟨l, e, rfl⟩ := (List.eq_nil_or_concat l).resolve_left named
  simp [State.startSlots, State.each, State.startSlot]

/-! ### Episodes ended -/

/-- An episode as its end leaves it: one that neither waits nor runs stays (14 Table HW-4). -/
def Episode.ended (reason : Nat) (p : Episode) : Episode :=
  if p.state == 1 || p.state == 2 then { p with state := 3, endReason := reason } else p

/-- A change of one place is known by what becomes of the value there. -/
theorem updAt_congr {α : Type} {d : α} {l : List α} {i : Nat} {f g : α → α} (h : f (nth d l i) = g (nth d l i)) :
    updAt l i f = updAt l i g := by
  refine List.ext_getElem (by simp) fun j hj _ => ?_
  by_cases e : i = j
  · subst e
    have inside : i < l.length := by simpa using hj
    simpa [nth, updAt, inside] using h
  · simp [updAt, e]

theorem State.endEpisode_hw (e reason : Nat) : (s.endEpisode e reason).hw = (s.modEpisode e (Episode.ended reason)).hw := by
  simp only [State.endEpisode, State.endEpisodeAt]
  split
  next running =>
    simp only [State.raise_hw, State.log_hw, State.modEpisode_hw]
    rw [updAt_congr (d := {}) (g := Episode.ended reason) (by simp only [Episode.ended, running, if_true])]
  next idle =>
    rw [State.modEpisode_hw, updAt_congr (d := {}) (g := id) (by simp [Episode.ended, idle])]
    simp [updAt]

theorem State.mem_runningSlots {mask e : Nat} : e ∈ s.runningSlots mask
    ↔ e ∈ slotsOf mask ∧ ((nth {} s.hw.episodes e).state = 1 ∨ (nth {} s.hw.episodes e).state = 2) := by
  simp [State.runningSlots]

/-- Ending the episodes of a mask changes the injector in its running slots alone. -/
theorem State.disarm_hw (mask reason : Nat) :
    (s.disarm mask reason).1.hw = s.hw.onSlots (s.runningSlots mask) fun _ => Episode.ended reason :=
  State.each_hw _ (fun _ e h => State.endEpisode_frame e reason h (by decide)) (fun _ e _ => State.endEpisode_hw e reason)
    (Within.refl (parts := Part.ofEpisode) s)

/-- An episode that waits or runs and is named ends with the reason (14 R500). -/
theorem State.disarm_ends {mask reason e : Nat} (hlen : s.hw.episodes.length = 4) (he : e ∈ s.runningSlots mask) :
    (nth {} (s.disarm mask reason).1.hw.episodes e).state = 3 ∧ (nth {} (s.disarm mask reason).1.hw.episodes e).endReason = reason := by
  obtain ⟨named, running⟩ := State.mem_runningSlots.mp he
  have inside : e < s.hw.episodes.length := hlen ▸ (mem_slotsOf.mp named).1
  have once : (s.runningSlots mask).Nodup := (slotsOf_nodup mask).filter _
  rw [State.disarm_hw, Hw.onSlots_changes _ once he inside]
  simp [Episode.ended, running]

theorem State.disarm_spares {mask reason e : Nat} (he : e ∉ s.runningSlots mask) :
    nth {} (s.disarm mask reason).1.hw.episodes e = nth {} s.hw.episodes e := by
  rw [State.disarm_hw, Hw.onSlots_spares _ he]

/-! ### A Harrow verb answered -/

theorem firstFail_eq_none {l : List Check} : firstFail l = none ↔ ∀ c ∈ l, c.1 = true := by
  induction l with
  | nil => simp [firstFail]
  | cons c l ih =>
    obtain ⟨ok, st⟩ := c
    cases ok <;> simp [firstFail, ih]

/-- Where no window has opened, replies are sent as they are formed. -/
theorem State.quiet_of_noneOpened (h : s.quiet = true) (time : u.tm = s.tm) (config : u.cfg = s.cfg)
    (reorder : u.hw.reorder = s.hw.reorder)
    (noneOpened : ∀ e, (nth {} u.hw.episodes e).state = 2 → nth {} u.hw.episodes e = nth {} s.hw.episodes e) : u.quiet = true := by
  have closed (e : Nat) (was : ¬s.windowOpen e = true) : ¬u.windowOpen e = true := by
    by_cases active : (nth {} u.hw.episodes e).state = 2
    · have same : u.windowOpen e = s.windowOpen e := by
        unfold State.windowOpen State.hwReg State.reg
        rw [noneOpened e active, time, config]
      rwa [same]
    · simp [State.windowOpen, active]
  simp only [State.quiet, State.harrowActive, Bool.and_eq_true, Bool.not_eq_true', List.any_eq_false, reorder] at h ⊢
  obtain ⟨inactive, noSwap⟩ := h
  exact ⟨fun e he => closed e (inactive e he), noSwap⟩

/-- The mailbox, counters, events and the Almanac hold nothing of the injector. -/
theorem Within.sameHw (h : Within [.requests, .counters, .events, .almanac] s t) : t.hw = s.hw := by
  have harrow : Part.same .harrow s t := h .harrow (by decide)
  have sealed : t.hw.sealed = s.hw.sealed := h .seal (by decide)
  cases hs : s.hw
  cases ht : t.hw
  simp_all [Part.same]

/-- The parts that a Harrow verb may change in its execution. -/
def Part.ofHarrow : List Part := [.counters, .events, .almanac, .level, .harrow, .seal]

/-- A Harrow verb that executes and opens no window is answered, and the injector stands as its execution left it. -/
theorem Fresh.servesHarrow {v : Nat} (f : Fresh s v r) {checks : State → List Check} {run : State → Ticket → State × Answer}
    {p : List Byte} (passes : firstFail (checks (s.numbered v r)) = none)
    (runs : run (s.entered v r) (s.ticketFor r) = (u, .done stOk p)) (frame : Within Part.ofHarrow (s.entered v r) u)
    (reorder : u.hw.reorder = s.hw.reorder)
    (noneOpened : ∀ e, (nth {} u.hw.episodes e).state = 2 → nth {} u.hw.episodes e = nth {} s.hw.episodes e) :
    Answered s (s.serve v r true checks run) v r stOk p ∧ (s.serve v r true checks run).hw = u.hw
      ∧ EventsOnly [22, 23] u (s.serve v r true checks run) := by
  have time : u.tm = (s.entered v r).tm := frame .time (by decide)
  have config : u.cfg = (s.entered v r).cfg := frame .config (by decide)
  obtain ⟨chans, -, -, -⟩ : Part.same .requests (s.entered v r) u := frame .requests (by decide)
  have quiet := State.quiet_of_noneOpened f.quiet (time.trans (by simp)) (config.trans (by simp)) reorder noneOpened
  have served := f.answers checks run stOk p passes (by rw [runs]) (by rw [runs, quiet]) (by rw [runs, chans])
    (by rw [runs, chans, State.entered_chans_length, f.chans]) (.inr rfl)
  rw [runs] at served
  obtain ⟨answered, within, only⟩ := served
  exact ⟨answered, within.sameHw, only⟩

/-! ### HARROW_ARM -/

/-- A consent drawn for a channel takes the place of the one before it (14 R497). -/
def Hw.armed (h : Hw) (ch : Channel) (now : Nat) : Hw :=
  { h with
    consentGen := lfsrStep h.consentGen
    consents := h.consents.filter (·.ch != ch) ++ [{ ch, id := lfsrStep h.consentGen % 65536, at' := now }] }

/-- The payload of the reply: the consent's number and 1 000 ms (14 R497). -/
def Hw.armReply (h : Hw) : List Byte := leBytes 2 (lfsrStep h.consentGen % 65536) ++ leBytes 2 1000

def armChecks (r : Req) (s : State) : List Check := [noNoun r, (!s.hw.sealed, stLocked)]

/-- The execution of HARROW_ARM. -/
def runArm (r : Req) (s : State) (_ : Ticket) : State × Answer := (s.modHw (·.armed r.ch s.tm.now), .done stOk s.hw.armReply)

theorem exec_harrowArm (hlen : r.length.toNat = 0) :
    exec (.harrowArm r) s = .next (s.serve 0x40 r true (armChecks r) (runArm r)) := by
  have h : exec (.harrowArm r) s = .next (s.serve 0x40 r (r.length.toNat == 0) (armChecks r) (runArm r)) := rfl
  rw [h, hlen]
  rfl

/-- HARROW_ARM draws a consent and answers with it (14 R497, R557). -/
theorem Fresh.arms (f : Fresh s 0x40 r) (hnoun : r.noun = 0) (hindex : r.index = 0) (unsealed : s.hw.sealed = false) :
    Answered s (s.serve 0x40 r true (armChecks r) (runArm r)) 0x40 r stOk s.hw.armReply
      ∧ (s.serve 0x40 r true (armChecks r) (runArm r)).hw = s.hw.armed r.ch s.tm.now := by
  have passes : firstFail (armChecks r (s.numbered 0x40 r)) = none := by
    simp [firstFail_eq_none, armChecks, noNoun, hnoun, hindex, unsealed]
  have runs : runArm r (s.entered 0x40 r) (s.ticketFor r)
      = ((s.entered 0x40 r).modHw (·.armed r.ch s.tm.now), .done stOk s.hw.armReply) := by simp [runArm]
  obtain ⟨answered, hw, -⟩ := f.servesHarrow passes runs
    (State.modHw_frame _ (Within.refl _) (.inl (by decide)) (.inl (by decide))) (by simp [Hw.armed]) (by simp [Hw.armed])
  exact ⟨answered, hw.trans (by simp)⟩

/-! ### HARROW_SET -/

/-- The checks of HARROW_SET (14 R497, R499, R556). -/
def setChecks (r : Req) (s : State) : List Check :=
  [noNoun r,
   (!s.hw.sealed && (s.boot.testEn || s.consentFor r), stLocked),
   ((slotsOf (pf r 0 1)).all fun e => (nth {} s.hw.episodes e).state != 1 && (nth {} s.hw.episodes e).state != 2, stBusy),
   (pf r 0 1 < 16 && pz r 1 1 && (slotsOf (pf r 0 1)).all s.slotStarts, stField)]

@[simp] theorem State.numbered_consentFor (v : Nat) (q r : Req) : (s.numbered v q).consentFor r = s.consentFor r := by
  rw [State.numbered_eq]; rfl

@[simp] theorem State.numbered_slotStarts (v : Nat) (r : Req) (e : Nat) : (s.numbered v r).slotStarts e = s.slotStarts e := by
  rw [State.numbered_eq]; rfl

@[simp] theorem State.entered_started (v : Nat) (r : Req) (ch : Nat) : (s.entered v r).started ch = s.started ch := by
  rw [State.entered_eq]; rfl

/-- HARROW_SET under its checks; while TEST_EN is high its execution starts the named slots and needs no consent (14 R497). -/
theorem exec_harrowSet (hlen : r.length.toNat = 4) : ∃ run, exec (.harrowSet r) s = .next (s.serve 0x41 r true (setChecks r) run)
    ∧ ∀ u t, u.boot.testEn = true → ∃ p, run u t
      = (u.startSlots r.ch.val (slotsOf (pf r 0 1)), .done stOk (leBytes 1 (pf r 0 1) ++ [0] ++ leBytes 6 p)) := by
  have h : exec (.harrowSet r) s = .next (s.serve 0x41 r (r.length.toNat == 4) (setChecks r) _) := rfl
  rw [hlen] at h
  exact ⟨_, h, fun u t high => ⟨_, Prod.ext (by simp [high]) rfl⟩⟩

/-- HARROW_SET with TEST_EN high passes where each named slot may start and neither waits nor runs (14 R497, R499, R556). -/
theorem setChecks_pass (v : Nat) (hnoun : r.noun = 0) (hindex : r.index = 0) (unsealed : s.hw.sealed = false)
    (high : s.boot.testEn = true) (four : pf r 0 1 < 16) (reserved : pz r 1 1 = true)
    (startable : ∀ e, e ∈ slotsOf (pf r 0 1) →
      s.slotStarts e = true ∧ (nth {} s.hw.episodes e).state ≠ 1 ∧ (nth {} s.hw.episodes e).state ≠ 2) :
    firstFail (setChecks r (s.numbered v r)) = none := by
  simpa [firstFail_eq_none, setChecks, noNoun, hnoun, hindex, unsealed, high, four, reserved] using
    ⟨fun e named => (startable e named).2, fun e named => (startable e named).1⟩

/-- HARROW_SET starts its slots (14 R493, R502). -/
theorem Fresh.starts (f : Fresh s 0x41 r) (hlen : s.hw.episodes.length = 4) (named : slotsOf (pf r 0 1) ≠ [])
    (passes : firstFail (setChecks r (s.numbered 0x41 r)) = none) {run : State → Ticket → State × Answer} {p : List Byte}
    (runs : run (s.entered 0x41 r) (s.ticketFor r)
      = ((s.entered 0x41 r).startSlots r.ch.val (slotsOf (pf r 0 1)), .done stOk p)) :
    Answered s (s.serve 0x41 r true (setChecks r) run) 0x41 r stOk p
      ∧ (s.serve 0x41 r true (setChecks r) run).has 55 = true
      ∧ (s.serve 0x41 r true (setChecks r) run).hw = s.hw.onSlots (slotsOf (pf r 0 1)) (s.started r.ch.val) := by
  have hw : ((s.entered 0x41 r).startSlots r.ch.val (slotsOf (pf r 0 1))).hw
      = s.hw.onSlots (slotsOf (pf r 0 1)) (s.started r.ch.val) := by
    rw [State.startSlots_hw, State.entered_started, State.entered_hw]
  obtain ⟨answered, same, only⟩ := f.servesHarrow passes runs (State.startSlots_frame _ _ (Within.refl _) (by decide))
    (by rw [hw]; rfl) fun e active => by
      rw [hw] at active ⊢
      by_cases he : e ∈ slotsOf (pf r 0 1)
      · rw [Hw.onSlots_starts he hlen] at active
        cases active
      · exact Hw.onSlots_spares _ he
  refine ⟨answered, ?_, same.trans hw⟩
  rw [only 55 (by decide), State.startSlots_has named]

/-- HARROW_SET that names a slot that waits or runs is refused with BUSY (14 R556). -/
theorem setChecks_busy (hnoun : r.noun = 0) (hindex : r.index = 0) (unsealed : s.hw.sealed = false)
    (allowed : s.boot.testEn = true ∨ s.consentFor r = true)
    (running : ∃ e, e ∈ slotsOf (pf r 0 1) ∧ ((nth {} s.hw.episodes e).state = 1 ∨ (nth {} s.hw.episodes e).state = 2)) :
    firstFail (setChecks r s) = some stBusy := by
  have taken : ((slotsOf (pf r 0 1)).all fun e => (nth {} s.hw.episodes e).state != 1 && (nth {} s.hw.episodes e).state != 2) = false := by
    obtain ⟨e, named, state⟩ := running
    refine List.all_eq_false.mpr ⟨e, named, ?_⟩
    rcases state with state | state <;> simp [state]
  simp [setChecks, firstFail, noNoun, hnoun, hindex, unsealed, allowed, taken]

/-! ### HARROW_DISARM -/

/-- The checks of HARROW_DISARM (14 R500, Table HW-3). -/
def disarmChecks (r : Req) (s : State) : List Check :=
  [noNoun r,
   (pf r 0 1 != 2 || s.boot.service, stLocked),
   (pf r 0 1 ≤ 2 && pz r 2 2 && (pf r 0 1 != 0 || pf r 1 1 < 16) && (pf r 0 1 != 2 || pf r 4 8 == s.boot.serial), stField)]

/-- HARROW_DISARM under its checks: byte 0 of the request says what it executes (14 Table HW-3). -/
theorem State.harrowDisarm_serves (hlen : r.length.toNat = 12 ∨ r.length.toNat = 4 ∧ pf r 0 1 < 2) :
    ∃ run : State → Ticket → State × Answer, s.harrowDisarm r = s.serve 0x42 r true (disarmChecks r) run
      ∧ (pf r 0 1 = 0 → ∀ u t, run u t = u.disarm (pf r 1 1) 3) ∧ (pf r 0 1 = 1 → ∀ u t, run u t = u.disarm 15 3)
      ∧ (pf r 0 1 = 2 → ∀ u t, run u t = u.sealHarrow) := by
  have ok : (r.length.toNat == 12 || (r.length.toNat == 4 && decide (pf r 0 1 < 2))) = true := by simpa using hlen
  unfold State.harrowDisarm
  dsimp only
  rw [ok]
  exact ⟨_, rfl, fun op u t => by simp only [op], fun op u t => by simp only [op], fun op u t => by simp only [op]⟩

/-- The payload of the reply: the slots that ended, and the seal (14 Table HW-3). -/
theorem State.disarm_answer (mask reason : Nat) : (s.disarm mask reason).2
    = .done stOk (leBytes 1 (ofLsb ((List.range 4).map (s.runningSlots mask).contains)) ++ leBytes 1 (b2n s.hw.sealed)) := by
  have sealed : (s.disarm mask reason).1.hw.sealed = s.hw.sealed := by rw [State.disarm_hw]; rfl
  exact congrArg (fun b => Answer.done stOk (_ ++ leBytes 1 (b2n b))) sealed

/-- A slot whose episode has ended is not active, and every other slot is as it was. -/
theorem State.disarm_noneOpened {mask reason e : Nat} (hlen : s.hw.episodes.length = 4)
    (active : (nth {} (s.disarm mask reason).1.hw.episodes e).state = 2) :
    nth {} (s.disarm mask reason).1.hw.episodes e = nth {} s.hw.episodes e := by
  by_cases he : e ∈ s.runningSlots mask
  · rw [(State.disarm_ends hlen he).1] at active
    cases active
  · exact State.disarm_spares he

/-- The slots of a mask have ended with reason 3, as far as their episodes waited or ran, and nothing else of the injector's slots
or its seal has changed (14 R500). -/
def Disarmed (s t : State) (mask : Nat) : Prop :=
  t.hw.sealed = s.hw.sealed ∧ ∀ e, e < 4 →
    if e ∈ s.runningSlots mask then (nth {} t.hw.episodes e).state = 3 ∧ (nth {} t.hw.episodes e).endReason = 3
    else nth {} t.hw.episodes e = nth {} s.hw.episodes e

/-- HARROW_DISARM of slots or of all ends their episodes (14 R500). -/
theorem Fresh.disarms (f : Fresh s 0x42 r) (hlen : s.hw.episodes.length = 4) {mask : Nat}
    (passes : firstFail (disarmChecks r (s.numbered 0x42 r)) = none) {run : State → Ticket → State × Answer}
    (runs : run (s.entered 0x42 r) (s.ticketFor r) = (s.entered 0x42 r).disarm mask 3) : ∃ x,
    Answered s (s.serve 0x42 r true (disarmChecks r) run) 0x42 r stOk (x ++ leBytes 1 (b2n s.hw.sealed))
      ∧ Disarmed s (s.serve 0x42 r true (disarmChecks r) run) mask := by
  have entered : (s.entered 0x42 r).hw = s.hw := State.entered_hw _ _ _
  have slots : (s.entered 0x42 r).runningSlots mask = s.runningSlots mask := by rw [State.runningSlots, entered]; rfl
  have answer := State.disarm_answer (s := s.entered 0x42 r) mask 3
  rw [entered] at answer
  obtain ⟨answered, same, -⟩ := f.servesHarrow passes (runs.trans (Prod.mk.eta.symm.trans (congrArg (Prod.mk _) answer)))
    (State.disarm_frame _ _ (Within.refl _) (by decide)) (by rw [State.disarm_hw, entered]; rfl)
    fun e active => by rw [State.disarm_noneOpened (entered ▸ hlen) active, entered]
  refine ⟨_, answered, ?_, fun e _ => ?_⟩
  · rw [same, State.disarm_hw, entered]; rfl
  · rw [same]
    split
    next running => exact State.disarm_ends (entered ▸ hlen) (slots ▸ running)
    next spared => rw [State.disarm_spares (slots ▸ spared), entered]

/-- The injector sealed: no consent is open, and its episodes are as they were (14 R500). -/
def Hw.shut (h : Hw) : Hw := { h with sealed := true, consents := [] }

/-- Sealing ends every episode of the injector once sealed (14 R500). -/
theorem State.sealHarrow_disarms (unsealed : s.hw.sealed = false) :
    s.sealHarrow.1.hw = ((s.modHw Hw.shut).disarm 15 6).1.hw ∧ s.sealHarrow.2 = ((s.modHw Hw.shut).disarm 15 6).2 := by
  have h : s.sealHarrow = if s.hw.sealed then (s, .done stOk [0, 1]) else
    (((s.modHw Hw.shut).disarm 15 6).1.log 0x61 nHARROW 0 0 |>.newTable, ((s.modHw Hw.shut).disarm 15 6).2) := rfl
  simp [h, unsealed]

theorem State.sealHarrow_answer (unsealed : s.hw.sealed = false) : ∃ x, s.sealHarrow.2 = .done stOk (x ++ [1]) := by
  obtain ⟨-, answer⟩ := State.sealHarrow_disarms unsealed
  have told : leBytes 1 (b2n (s.modHw Hw.shut).hw.sealed) = [1] := rfl
  rw [State.disarm_answer, told] at answer
  exact ⟨_, answer⟩

theorem State.sealHarrow_reorder (unsealed : s.hw.sealed = false) : s.sealHarrow.1.hw.reorder = s.hw.reorder := by
  rw [(State.sealHarrow_disarms unsealed).1, State.disarm_hw]
  rfl

theorem State.sealHarrow_noneOpened {e : Nat} (hlen : s.hw.episodes.length = 4) (unsealed : s.hw.sealed = false)
    (active : (nth {} s.sealHarrow.1.hw.episodes e).state = 2) :
    nth {} s.sealHarrow.1.hw.episodes e = nth {} s.hw.episodes e := by
  rw [(State.sealHarrow_disarms unsealed).1] at active ⊢
  exact State.disarm_noneOpened (s := s.modHw Hw.shut) hlen active

/-- A sealed injector: no consent is open and no episode waits or runs (14 R500). -/
def Hw.Sealed (h : Hw) : Prop :=
  h.sealed = true ∧ h.consents = [] ∧ ∀ e, e < 4 → (nth {} h.episodes e).state ≠ 1 ∧ (nth {} h.episodes e).state ≠ 2

theorem State.sealHarrow_sealed (hlen : s.hw.episodes.length = 4) (unsealed : s.hw.sealed = false) : s.sealHarrow.1.hw.Sealed := by
  rw [(State.sealHarrow_disarms unsealed).1]
  refine ⟨by rw [State.disarm_hw]; rfl, by rw [State.disarm_hw]; rfl, fun e he => ?_⟩
  by_cases running : e ∈ (s.modHw Hw.shut).runningSlots 15
  · simp [State.disarm_ends (s := s.modHw Hw.shut) (reason := 6) hlen running]
  · have named : e ∈ slotsOf 15 := by
      have all : ∀ k : Fin 4, k.val ∈ slotsOf 15 := by decide
      exact all ⟨e, he⟩
    have idle := mt (fun state => State.mem_runningSlots.mpr ⟨named, state⟩) running
    rw [State.disarm_spares running]
    exact not_or.mp idle

/-- HARROW_DISARM with the serial number ends every episode and sets the seal (14 R500). -/
theorem Fresh.seals (f : Fresh s 0x42 r) (hlen : s.hw.episodes.length = 4) (unsealed : s.hw.sealed = false)
    (passes : firstFail (disarmChecks r (s.numbered 0x42 r)) = none) {run : State → Ticket → State × Answer}
    (runs : run (s.entered 0x42 r) (s.ticketFor r) = (s.entered 0x42 r).sealHarrow) : ∃ x,
    Answered s (s.serve 0x42 r true (disarmChecks r) run) 0x42 r stOk (x ++ [1])
      ∧ (s.serve 0x42 r true (disarmChecks r) run).hw.Sealed := by
  have entered : (s.entered 0x42 r).hw = s.hw := State.entered_hw _ _ _
  have unsealed' := entered ▸ unsealed
  have hlen' := entered ▸ hlen
  obtain ⟨x, answer⟩ := State.sealHarrow_answer unsealed'
  obtain ⟨answered, same, -⟩ := f.servesHarrow passes (runs.trans (Prod.mk.eta.symm.trans (congrArg (Prod.mk _) answer)))
    (State.sealHarrow_frame (Within.refl _) (by decide)) (by rw [State.sealHarrow_reorder unsealed', entered])
    fun e active => by rw [State.sealHarrow_noneOpened hlen' unsealed' active, entered]
  exact ⟨_, answered, same ▸ State.sealHarrow_sealed hlen' unsealed'⟩

theorem disarmChecks_pass (v : Nat) (hnoun : r.noun = 0) (hindex : r.index = 0) (reserved : pz r 2 2 = true) (op : pf r 0 1 ≤ 2)
    (slots : pf r 0 1 = 0 → pf r 1 1 < 16) (serial : pf r 0 1 = 2 → s.boot.service = true ∧ pf r 4 8 = s.boot.serial) :
    firstFail (disarmChecks r (s.numbered v r)) = none := by
  simpa [firstFail_eq_none, disarmChecks, noNoun, hnoun, hindex, reserved, op, ← imp_iff_not_or] using
    ⟨fun two => (serial two).1, slots, fun two => (serial two).2⟩

/-! ### The obligation -/

/-- Settles O27: each verb passes its checks, its execution leaves no window opened, and the reply that follows touches nothing of
the injector; a SET refused with BUSY executes nothing. -/
theorem harrowVerbsServe : Obligations.HarrowVerbsServe := by
  unfold Obligations.HarrowVerbsServe
  intro r s inv hnoun hindex
  have hlen : s.hw.episodes.length = 4 := by
    obtain ⟨shape, -⟩ := inv
    simp only [State.shape, Bool.and_eq_true, beq_iff_eq] at shape
    simp [shape]
  refine ⟨fun fresh len unsealed => ?_, fun fresh len unsealed high low four reserved startable => ?_,
    fun fresh len unsealed allowed running => ?_, fun fresh len reserved => ?_⟩
  · obtain ⟨answered, hw⟩ := fresh.arms hnoun hindex unsealed
    exact ⟨_, _, exec_harrowArm len, rfl, answered, hw⟩
  · obtain ⟨run, exec, runs⟩ := exec_harrowSet (s := s) len
    obtain ⟨p, runs⟩ := runs (s.entered 0x41 r) (s.ticketFor r) (by rw [State.entered_boot, high])
    have passes := setChecks_pass 0x41 hnoun hindex unsealed high four reserved startable
    obtain ⟨answered, event, hw⟩ := fresh.starts hlen (slotsOf_ne_nil low four) passes runs
    refine ⟨_, p, exec, answered, event, fun e named => ?_, fun e spared => ?_⟩
    · rw [hw, Hw.onSlots_starts named hlen]
      exact ⟨rfl, rfl, rfl, rfl⟩
    · rw [hw, Hw.onSlots_spares _ spared]
  · obtain ⟨run, exec, -⟩ := exec_harrowSet (s := s) len
    have busy : firstFail (setChecks r (s.numbered 0x41 r)) = some stBusy :=
      setChecks_busy hnoun hindex (by simpa using unsealed) (by simpa using allowed) (by simpa using running)
    obtain ⟨answered, within, -⟩ := fresh.refuses (setChecks r) run stBusy busy (.inl (by decide))
    exact ⟨_, exec, answered, within⟩
  · have passes := disarmChecks_pass (s := s) 0x42 hnoun hindex reserved
    obtain ⟨run, exec, slots, all, sealing⟩ := State.harrowDisarm_serves (s := s) len
    have executes := congrArg (Host.Outcome.next (φ := Fault) (ρ := Refusal)) exec
    refine ⟨fun op four => ?_, fun op => ?_, fun op service serial unsealed => ?_⟩
    · obtain ⟨x, answered, disarmed⟩ := fresh.disarms hlen (passes (by omega) (fun _ => four) (by omega)) (slots op _ _)
      exact ⟨_, x, executes, answered, disarmed⟩
    · obtain ⟨x, answered, disarmed⟩ := fresh.disarms hlen (passes (by omega) (by omega) (by omega)) (all op _ _)
      exact ⟨_, x, executes, answered, disarmed⟩
    · have served := passes (by omega) (by omega) fun _ => ⟨service, serial⟩
      obtain ⟨x, answered, sealed⟩ := fresh.seals hlen unsealed served (sealing op _ _)
      exact ⟨_, x, executes, answered, sealed⟩

end Sys2Proof.Machine
end

section
/-! SUPPORT. Every command and every step: that it completes, what it leaves alone, and what it keeps (00; 07; 13 R484; 14 R500). -/

namespace Sys2Proof.Machine

set_option Elab.async false

variable {parts : List Part} {s t : State}

/-! ### Every command -/

/-- A command changes at most the parts that `writes` lists for it. -/
theorem exec_frame : ∀ c : Instr, writes c ⊆ parts → Outcome.Within parts s (exec c s)
  | .badFrame .., h => execBadFrame_frame _ _ _ h
  | .describe .., h => execDescribe_frame _ h
  | .get .., h => execGet_frame _ h
  | .stage .., h => execStage_frame _ h
  | .commit .., h => execCommit_frame _ _ _ h
  | .discard .., h => execDiscard_frame _ h
  | .start .., h => execStart_frame _ h
  | .stop .., h => execStop_frame _ h
  | .carveAllocate .., h => execCarveAllocate_frame _ h
  | .carveRelease .., h => execCarveRelease_frame _ h
  | .carveQuery .., h => execCarveQuery_frame _ h
  | .snap .., h => execSnap_frame _ _ h
  | .events .., h => execEvents_frame _ h
  | .almanacRead .., h => execAlmanacRead_frame _ h
  | .almanacMark .., h => execAlmanacMark_frame _ h
  | .almanacClearFirst .., h => execAlmanacClearFirst_frame _ h
  | .thrLoadInlineChunk .., h => execThrLoadInlineChunk_frame _ h
  | .thrLoadFromStore .., h => execThrLoadFromStore_frame _ h
  | .thrUnload .., h => execThrUnload_frame _ h
  | .thrAllocate .., h => execThrAllocate_frame _ h
  | .thrSubmit .., h => execThrSubmit_frame _ h
  | .thrCancel .., h => execThrCancel_frame _ h
  | .thrStatus .., h => execThrStatus_frame _ h
  | .thrReturn .., h => execThrReturn_frame _ h
  | .yokeCtlForward .., h => execYokeCtlForward_frame _ h
  | .yokeCtlStatus .., h => execYokeCtlStatus_frame _ h
  | .yokeCtlRelease .., h => execYokeCtlRelease_frame _ h
  | .yokeCtlRerange .., h => execYokeCtlRerange_frame _ h
  | .yokeCtlLeave .., h => execYokeCtlLeave_frame _ h
  | .fallow .., h => execFallow_frame _ h
  | .wakeCancel .., h => execWakeCancel_frame _ h
  | .wakeHold .., h => execWakeHold_frame _ h
  | .harrowArm .., h => execHarrowArm_frame _ h
  | .harrowSet .., h => execHarrowSet_frame _ h
  | .harrowDisarmSlots .., h => execHarrowDisarmSlots_frame _ h
  | .harrowDisarmAll .., h => execHarrowDisarmAll_frame _ h
  | .harrowSeal .., h => execHarrowSeal_frame _ h
  | .updateStageBegin .., h => execUpdateStageBegin_frame _ h
  | .updateStageChunk .., h => execUpdateStageChunk_frame _ h
  | .updateStageFinish .., h => execUpdateStageFinish_frame _ h
  | .updateStageAbandon .., h => execUpdateStageAbandon_frame _ h
  | .updateSwap .., h => execUpdateSwap_frame _ h
  | .resetUnit .., h => execResetUnit_frame _ h
  | .detach .., h => execDetach_frame _ h
  | .powerQuery .., h => execPowerQuery_frame _ h
  | .powerSetBanks .., h => execPowerSetBanks_frame _ h
  | .twtRequestWrite .., h => execTwtRequestWrite_frame _ _ _ h
  | .twtReplyRead .., h => execTwtReplyRead_frame _ _ _ h
  | .twtRegisterRead .., h => execTwtRegisterRead_frame _ _ _ h
  | .twtRegisterWrite .., h => execTwtRegisterWrite_frame _ _ _ h
  | .virtualTargetRead .., h => execVirtualTargetRead_frame _ _ _ h
  | .twtBusTimeout .., h => execTwtBusTimeout_frame _ h
  | .ep2ReplyRead, h => execEp2ReplyRead_frame h
  | .shadowTimeout, h => execShadowTimeout_frame h
  | .captureLine, h => execCaptureLine_frame h
  | .syncInEdge .., h => execSyncInEdge_frame _ h
  | .recoveryFrameEnd .., h => execRecoveryFrameEnd_frame _ h
  | .entryLaunch .., h => execEntryLaunch_frame _ _ h
  | .entryComplete .., h => execEntryComplete_frame _ _ _ _ h
  | .deadlineAbort .., h => execDeadlineAbort_frame _ _ _ _ h
  | .startBitTimeout .., h => execStartBitTimeout_frame _ _ h
  | .assemblyStart, h => execAssemblyStart_frame h
  | .assemblyComplete, h => execAssemblyComplete_frame h
  | .txPrefetchComplete .., h => execTxPrefetchComplete_frame _ _ h
  | .drillHardFault .., h => execDrillHardFault_frame _ h
  | .slaveTransactionStart .., h => execSlaveTransactionStart_frame _ h
  | .slaveTransactionEnd .., h => execSlaveTransactionEnd_frame _ _ _ h
  | .norWindowWrite .., h => execNorWindowWrite_frame _ _ _ _ h
  | .norGatherEnd .., h => execNorGatherEnd_frame _ h
  | .norStatusPoll .., h => execNorStatusPoll_frame _ _ h
  | .norProgramDone .., h => execNorProgramDone_frame _ h
  | .programTimeout .., h => execProgramTimeout_frame _ h
  | .externalAccessTimeout .., h => execExternalAccessTimeout_frame _ _ _ _ _ h
  | .sentFrameEnd .., h => execSentFrameEnd_frame _ _ _ _ _ h
  | .sentAbsentTimeout .., h => execSentAbsentTimeout_frame _ h
  | .edgeSeen .., h => execEdgeSeen_frame _ _ _ h
  | .edgeAccept .., h => execEdgeAccept_frame _ h
  | .plotFault .., h => execPlotFault_frame _ _ _ _ _ h
  | .faultResolve, h => execFaultResolve_frame h
  | .bankWakeComplete .., h => execBankWakeComplete_frame _ h
  | .bankWakeTimeout .., h => execBankWakeTimeout_frame _ h
  | .bankIdleGate .., h => execBankIdleGate_frame _ h
  | .eccScrub .., h => execEccScrub_frame _ h
  | .emul .., h => execEmul_frame _ _ h
  | .eadd .., h => execEadd_frame _ _ h
  | .esub .., h => execEsub_frame _ h
  | .emac .., h => execEmac_frame _ h
  | .ntt .., h => execNtt_frame _ h
  | .intt .., h => execIntt_frame _ h
  | .automorph .., h => execAutomorph_frame _ h
  | .baseconv .., h => execBaseconv_frame _ h
  | .rescale .., h => execRescale_frame _ h
  | .decomp .., h => execDecomp_frame _ h
  | .polyeval .., h => execPolyeval_frame _ _ h
  | .feature .., h => execFeature_frame _ h
  | .rerand .., h => execRerand_frame _ h
  | .handoff .., h => execHandoff_frame _ h
  | .zero .., h => execZero_frame _ h
  | .drop .., h => execDrop_frame _ h
  | .endIteration .., h => execEndIteration_frame _ h
  | .preemptionPoint, h => execPreemptionPoint_frame h
  | .timeSliceExpiry, h => execTimeSliceExpiry_frame h
  | .laneIdleGate, h => execLaneIdleGate_frame h
  | .handoffTimeout .., h => execHandoffTimeout_frame _ h
  | .thrLoadOwnerTimeout .., h => execThrLoadOwnerTimeout_frame _ _ h
  | .markerSend, h => execMarkerSend_frame h
  | .markerReceived .., h => execMarkerReceived_frame _ _ h
  | .mbx .., h => execMbx_frame _ _ h
  | .joinAccept .., h => execJoinAccept_frame _ _ _ h
  | .range .., h => execRange_frame _ _ h
  | .setDelay .., h => execSetDelay_frame _ _ h
  | .trim .., h => execTrim_frame _ _ h
  | .grant .., h => execGrant_frame _ _ h
  | .quarantine .., h => execQuarantine_frame _ h
  | .release .., h => execRelease_frame _ h
  | .replyResend .., h => execReplyResend_frame _ _ h
  | .replyDone .., h => execReplyDone_frame _ h
  | .fallowPropose .., h => execFallowPropose_frame _ _ _ _ h
  | .fallowCommit .., h => execFallowCommit_frame _ _ _ h
  | .fallowAbort .., h => execFallowAbort_frame _ _ h
  | .segmentSend, h => execSegmentSend_frame h
  | .segmentReceived .., h => execSegmentReceived_frame _ _ _ h
  | .joinRequestSend, h => execJoinRequestSend_frame h
  | .joinRequestReceived .., h => execJoinRequestReceived_frame _ _ _ h
  | .trimRunEnd, h => execTrimRunEnd_frame h
  | .memberLost .., h => execMemberLost_frame _ h
  | .releaseRetryTimer, h => execReleaseRetryTimer_frame h
  | .orphanTimeout, h => execOrphanTimeout_frame h
  | .acceptLapse, h => execAcceptLapse_frame h
  | .commitMarkerMissing, h => execCommitMarkerMissing_frame h
  | .wakeBurstDetected, h => execWakeBurstDetected_frame h
  | .listenWindow .., h => execListenWindow_frame _ h
  | .wakeSource .., h => execWakeSource_frame _ h
  | .sleepTimerExpiry, h => execSleepTimerExpiry_frame h
  | .fallowResume .., h => execFallowResume_frame _ h
  | .vinUvloRise .., h => execVinUvloRise_frame _ _ _ h
  | .vinLowWarning .., h => execVinLowWarning_frame _ h
  | .vinUndervoltage .., h => execVinUndervoltage_frame _ h
  | .vinHighWarning .., h => execVinHighWarning_frame _ h
  | .vinOvervoltage .., h => execVinOvervoltage_frame _ h
  | .vinOvervoltageRecover .., h => execVinOvervoltageRecover_frame _ h
  | .vsysOverload, h => execVsysOverload_frame h
  | .vsysCollapse, h => execVsysCollapse_frame h
  | .bankSupplyLost .., h => execBankSupplyLost_frame _ h
  | .bankSupplyRestored .., h => execBankSupplyRestored_frame _ _ h
  | .thermalWarning, h => execThermalWarning_frame h
  | .thermalShutdown, h => execThermalShutdown_frame h
  | .thermalRestart, h => execThermalRestart_frame h
  | .vbakMeasure .., h => execVbakMeasure_frame _ _ h
  | .alarmInput .., h => execAlarmInput_frame _ _ h
  | .backupRecordWrite, h => execBackupRecordWrite_frame h
  | .alarmHoldoffEnd, h => execAlarmHoldoffEnd_frame h
  | .backupWriteAbort, h => execBackupWriteAbort_frame h
  | .prsntSettled, h => execPrsntSettled_frame h
  | .emergencyDetach, h => execEmergencyDetach_frame h
  | .detachRelease, h => execDetachRelease_frame h
  | .detachCycle, h => execDetachCycle_frame h
  | .resetNAssert, h => execResetNAssert_frame h
  | .resetRelease .., h => execResetRelease_frame _ h
  | .watchdogPrewarning, h => execWatchdogPrewarning_frame h
  | .watchdogExpiry, h => execWatchdogExpiry_frame h
  | .bootImageVerify, h => execBootImageVerify_frame h
  | .furtherPartFail .., h => execFurtherPartFail_frame _ h
  | .noReferenceAtBoot, h => execNoReferenceAtBoot_frame h
  | .mailboxesReady, h => execMailboxesReady_frame h
  | .autostartStart, h => execAutostartStart_frame h
  | .almanacScanDone, h => execAlmanacScanDone_frame h
  | .almanacRecordCommit .., h => execAlmanacRecordCommit_frame _ _ h
  | .mergeWindowClose .., h => execMergeWindowClose_frame _ h
  | .recordDrop, h => execRecordDrop_frame h
  | .ep6TransferEnd, h => execEp6TransferEnd_frame h
  | .intNCoalesceExpiry, h => execIntNCoalesceExpiry_frame h
  | .referenceLost, h => execReferenceLost_frame h
  | .holdoverExpiry, h => execHoldoverExpiry_frame h
  | .sourceQualified .., h => execSourceQualified_frame _ h
  | .sourceSwitchComplete, h => execSourceSwitchComplete_frame h
  | .relockComplete, h => execRelockComplete_frame h
  | .switchBack, h => execSwitchBack_frame h
  | .pllUnlock, h => execPllUnlock_frame h
  | .aonCalibrationRun .., h => execAonCalibrationRun_frame _ h
  | .timebaseRealign .., h => execTimebaseRealign_frame _ h
  | .usbPullupEnable, h => execUsbPullupEnable_frame h
  | .usbBusReset, h => execUsbBusReset_frame h
  | .vbusLost, h => execVbusLost_frame h
  | .usbSuspend, h => execUsbSuspend_frame h
  | .usbResume, h => execUsbResume_frame h
  | .remoteWake, h => execRemoteWake_frame h
  | .ep3Report, h => execEp3Report_frame h
  | .ep3ReportAck, h => execEp3ReportAck_frame h
  | .streamCopyComplete .., h => execStreamCopyComplete_frame _ h
  | .isoInToken .., h => execIsoInToken_frame _ h
  | .setInterface .., h => execSetInterface_frame _ _ h
  | .usbControlRequest .., h => execUsbControlRequest_frame _ h
  | .setPortPower .., h => execSetPortPower_frame _ h
  | .clearPortPower .., h => execClearPortPower_frame _ h
  | .clearTtBuffer, h => execClearTtBuffer_frame h
  | .resetTt, h => execResetTt_frame h
  | .hubOverCurrent .., h => execHubOverCurrent_frame _ h
  | .hubConnectChange .., h => execHubConnectChange_frame _ _ _ h
  | .bulkTransferFault .., h => execBulkTransferFault_frame _ h
  | .unitResetComplete .., h => execUnitResetComplete_frame _ h
  | .stagingTimeout, h => execStagingTimeout_frame h
  | .trialClear, h => execTrialClear_frame h
  | .consentExpiry .., h => execConsentExpiry_frame _ h
  | .harrowWindowClose .., h => execHarrowWindowClose_frame _ h
  | .noSuchVerb .., h => execNoSuchVerb_frame _ _ h
  | .vbusDetected, h => execVbusDetected_frame h
  | .backupStateLost, h => execBackupStateLost_frame h
  | .rtcAlarm, h => execRtcAlarm_frame h
  | .prsntChange .., h => execPrsntChange_frame _ h
  | .testEnChange .., h => execTestEnChange_frame _ h
  | .wakeHoldExpiry, h => execWakeHoldExpiry_frame h
  | .csp8IdleGate, h => execCsp8IdleGate_frame h
  | .dnRxIdle, h => execDnRxIdle_frame h
  | .dnRxForward .., h => execDnRxForward_frame _ _ _ h
  | .ep6Read, h => execEp6Read_frame h
  | .hubClassRequest .., h => execHubClassRequest_frame _ _ h
  | .usbFailure, h => execUsbFailure_frame h
  | .yokePhyFailure, h => execYokePhyFailure_frame h
  | .thresherControlError, h => execThresherControlError_frame h
  | .harrowDelayExpiry .., h => execHarrowDelayExpiry_frame _ h
  | .updateStageCompletion .., h => execUpdateStageCompletion_frame _ h

/-- No command changes the queue, the identity, the shape or the canonical forms, or breaks the seal. -/
theorem exec_kept : ∀ c : Instr, Outcome.Kept s (exec c s)
  | .badFrame .. => execBadFrame_kept _ _ _
  | .describe .. => execDescribe_kept _
  | .get .. => execGet_kept _
  | .stage .. => execStage_kept _
  | .commit .. => execCommit_kept _ _ _
  | .discard .. => execDiscard_kept _
  | .start .. => execStart_kept _
  | .stop .. => execStop_kept _
  | .carveAllocate .. => execCarveAllocate_kept _
  | .carveRelease .. => execCarveRelease_kept _
  | .carveQuery .. => execCarveQuery_kept _
  | .snap .. => execSnap_kept _ _
  | .events .. => execEvents_kept _
  | .almanacRead .. => execAlmanacRead_kept _
  | .almanacMark .. => execAlmanacMark_kept _
  | .almanacClearFirst .. => execAlmanacClearFirst_kept _
  | .thrLoadInlineChunk .. => execThrLoadInlineChunk_kept _
  | .thrLoadFromStore .. => execThrLoadFromStore_kept _
  | .thrUnload .. => execThrUnload_kept _
  | .thrAllocate .. => execThrAllocate_kept _
  | .thrSubmit .. => execThrSubmit_kept _
  | .thrCancel .. => execThrCancel_kept _
  | .thrStatus .. => execThrStatus_kept _
  | .thrReturn .. => execThrReturn_kept _
  | .yokeCtlForward .. => execYokeCtlForward_kept _
  | .yokeCtlStatus .. => execYokeCtlStatus_kept _
  | .yokeCtlRelease .. => execYokeCtlRelease_kept _
  | .yokeCtlRerange .. => execYokeCtlRerange_kept _
  | .yokeCtlLeave .. => execYokeCtlLeave_kept _
  | .fallow .. => execFallow_kept _
  | .wakeCancel .. => execWakeCancel_kept _
  | .wakeHold .. => execWakeHold_kept _
  | .harrowArm .. => execHarrowArm_kept _
  | .harrowSet .. => execHarrowSet_kept _
  | .harrowDisarmSlots .. => execHarrowDisarmSlots_kept _
  | .harrowDisarmAll .. => execHarrowDisarmAll_kept _
  | .harrowSeal .. => execHarrowSeal_kept _
  | .updateStageBegin .. => execUpdateStageBegin_kept _
  | .updateStageChunk .. => execUpdateStageChunk_kept _
  | .updateStageFinish .. => execUpdateStageFinish_kept _
  | .updateStageAbandon .. => execUpdateStageAbandon_kept _
  | .updateSwap .. => execUpdateSwap_kept _
  | .resetUnit .. => execResetUnit_kept _
  | .detach .. => execDetach_kept _
  | .powerQuery .. => execPowerQuery_kept _
  | .powerSetBanks .. => execPowerSetBanks_kept _
  | .twtRequestWrite .. => execTwtRequestWrite_kept _ _ _
  | .twtReplyRead .. => execTwtReplyRead_kept _ _ _
  | .twtRegisterRead .. => execTwtRegisterRead_kept _ _ _
  | .twtRegisterWrite .. => execTwtRegisterWrite_kept _ _ _
  | .virtualTargetRead .. => execVirtualTargetRead_kept _ _ _
  | .twtBusTimeout .. => execTwtBusTimeout_kept _
  | .ep2ReplyRead => execEp2ReplyRead_kept
  | .shadowTimeout => execShadowTimeout_kept
  | .captureLine => execCaptureLine_kept
  | .syncInEdge .. => execSyncInEdge_kept _
  | .recoveryFrameEnd .. => execRecoveryFrameEnd_kept _
  | .entryLaunch .. => execEntryLaunch_kept _ _
  | .entryComplete .. => execEntryComplete_kept _ _ _ _
  | .deadlineAbort .. => execDeadlineAbort_kept _ _ _ _
  | .startBitTimeout .. => execStartBitTimeout_kept _ _
  | .assemblyStart => execAssemblyStart_kept
  | .assemblyComplete => execAssemblyComplete_kept
  | .txPrefetchComplete .. => execTxPrefetchComplete_kept _ _
  | .drillHardFault .. => execDrillHardFault_kept _
  | .slaveTransactionStart .. => execSlaveTransactionStart_kept _
  | .slaveTransactionEnd .. => execSlaveTransactionEnd_kept _ _ _
  | .norWindowWrite .. => execNorWindowWrite_kept _ _ _ _
  | .norGatherEnd .. => execNorGatherEnd_kept _
  | .norStatusPoll .. => execNorStatusPoll_kept _ _
  | .norProgramDone .. => execNorProgramDone_kept _
  | .programTimeout .. => execProgramTimeout_kept _
  | .externalAccessTimeout .. => execExternalAccessTimeout_kept _ _ _ _ _
  | .sentFrameEnd .. => execSentFrameEnd_kept _ _ _ _ _
  | .sentAbsentTimeout .. => execSentAbsentTimeout_kept _
  | .edgeSeen .. => execEdgeSeen_kept _ _ _
  | .edgeAccept .. => execEdgeAccept_kept _
  | .plotFault .. => execPlotFault_kept _ _ _ _ _
  | .faultResolve => execFaultResolve_kept
  | .bankWakeComplete .. => execBankWakeComplete_kept _
  | .bankWakeTimeout .. => execBankWakeTimeout_kept _
  | .bankIdleGate .. => execBankIdleGate_kept _
  | .eccScrub .. => execEccScrub_kept _
  | .emul .. => execEmul_kept _ _
  | .eadd .. => execEadd_kept _ _
  | .esub .. => execEsub_kept _
  | .emac .. => execEmac_kept _
  | .ntt .. => execNtt_kept _
  | .intt .. => execIntt_kept _
  | .automorph .. => execAutomorph_kept _
  | .baseconv .. => execBaseconv_kept _
  | .rescale .. => execRescale_kept _
  | .decomp .. => execDecomp_kept _
  | .polyeval .. => execPolyeval_kept _ _
  | .feature .. => execFeature_kept _
  | .rerand .. => execRerand_kept _
  | .handoff .. => execHandoff_kept _
  | .zero .. => execZero_kept _
  | .drop .. => execDrop_kept _
  | .endIteration .. => execEndIteration_kept _
  | .preemptionPoint => execPreemptionPoint_kept
  | .timeSliceExpiry => execTimeSliceExpiry_kept
  | .laneIdleGate => execLaneIdleGate_kept
  | .handoffTimeout .. => execHandoffTimeout_kept _
  | .thrLoadOwnerTimeout .. => execThrLoadOwnerTimeout_kept _ _
  | .markerSend => execMarkerSend_kept
  | .markerReceived .. => execMarkerReceived_kept _ _
  | .mbx .. => execMbx_kept _ _
  | .joinAccept .. => execJoinAccept_kept _ _ _
  | .range .. => execRange_kept _ _
  | .setDelay .. => execSetDelay_kept _ _
  | .trim .. => execTrim_kept _ _
  | .grant .. => execGrant_kept _ _
  | .quarantine .. => execQuarantine_kept _
  | .release .. => execRelease_kept _
  | .replyResend .. => execReplyResend_kept _ _
  | .replyDone .. => execReplyDone_kept _
  | .fallowPropose .. => execFallowPropose_kept _ _ _ _
  | .fallowCommit .. => execFallowCommit_kept _ _ _
  | .fallowAbort .. => execFallowAbort_kept _ _
  | .segmentSend => execSegmentSend_kept
  | .segmentReceived .. => execSegmentReceived_kept _ _ _
  | .joinRequestSend => execJoinRequestSend_kept
  | .joinRequestReceived .. => execJoinRequestReceived_kept _ _ _
  | .trimRunEnd => execTrimRunEnd_kept
  | .memberLost .. => execMemberLost_kept _
  | .releaseRetryTimer => execReleaseRetryTimer_kept
  | .orphanTimeout => execOrphanTimeout_kept
  | .acceptLapse => execAcceptLapse_kept
  | .commitMarkerMissing => execCommitMarkerMissing_kept
  | .wakeBurstDetected => execWakeBurstDetected_kept
  | .listenWindow .. => execListenWindow_kept _
  | .wakeSource .. => execWakeSource_kept _
  | .sleepTimerExpiry => execSleepTimerExpiry_kept
  | .fallowResume .. => execFallowResume_kept _
  | .vinUvloRise .. => execVinUvloRise_kept _ _ _
  | .vinLowWarning .. => execVinLowWarning_kept _
  | .vinUndervoltage .. => execVinUndervoltage_kept _
  | .vinHighWarning .. => execVinHighWarning_kept _
  | .vinOvervoltage .. => execVinOvervoltage_kept _
  | .vinOvervoltageRecover .. => execVinOvervoltageRecover_kept _
  | .vsysOverload => execVsysOverload_kept
  | .vsysCollapse => execVsysCollapse_kept
  | .bankSupplyLost .. => execBankSupplyLost_kept _
  | .bankSupplyRestored .. => execBankSupplyRestored_kept _ _
  | .thermalWarning => execThermalWarning_kept
  | .thermalShutdown => execThermalShutdown_kept
  | .thermalRestart => execThermalRestart_kept
  | .vbakMeasure .. => execVbakMeasure_kept _ _
  | .alarmInput .. => execAlarmInput_kept _ _
  | .backupRecordWrite => execBackupRecordWrite_kept
  | .alarmHoldoffEnd => execAlarmHoldoffEnd_kept
  | .backupWriteAbort => execBackupWriteAbort_kept
  | .prsntSettled => execPrsntSettled_kept
  | .emergencyDetach => execEmergencyDetach_kept
  | .detachRelease => execDetachRelease_kept
  | .detachCycle => execDetachCycle_kept
  | .resetNAssert => execResetNAssert_kept
  | .resetRelease .. => execResetRelease_kept _
  | .watchdogPrewarning => execWatchdogPrewarning_kept
  | .watchdogExpiry => execWatchdogExpiry_kept
  | .bootImageVerify => execBootImageVerify_kept
  | .furtherPartFail .. => execFurtherPartFail_kept _
  | .noReferenceAtBoot => execNoReferenceAtBoot_kept
  | .mailboxesReady => execMailboxesReady_kept
  | .autostartStart => execAutostartStart_kept
  | .almanacScanDone => execAlmanacScanDone_kept
  | .almanacRecordCommit .. => execAlmanacRecordCommit_kept _ _
  | .mergeWindowClose .. => execMergeWindowClose_kept _
  | .recordDrop => execRecordDrop_kept
  | .ep6TransferEnd => execEp6TransferEnd_kept
  | .intNCoalesceExpiry => execIntNCoalesceExpiry_kept
  | .referenceLost => execReferenceLost_kept
  | .holdoverExpiry => execHoldoverExpiry_kept
  | .sourceQualified .. => execSourceQualified_kept _
  | .sourceSwitchComplete => execSourceSwitchComplete_kept
  | .relockComplete => execRelockComplete_kept
  | .switchBack => execSwitchBack_kept
  | .pllUnlock => execPllUnlock_kept
  | .aonCalibrationRun .. => execAonCalibrationRun_kept _
  | .timebaseRealign .. => execTimebaseRealign_kept _
  | .usbPullupEnable => execUsbPullupEnable_kept
  | .usbBusReset => execUsbBusReset_kept
  | .vbusLost => execVbusLost_kept
  | .usbSuspend => execUsbSuspend_kept
  | .usbResume => execUsbResume_kept
  | .remoteWake => execRemoteWake_kept
  | .ep3Report => execEp3Report_kept
  | .ep3ReportAck => execEp3ReportAck_kept
  | .streamCopyComplete .. => execStreamCopyComplete_kept _
  | .isoInToken .. => execIsoInToken_kept _
  | .setInterface .. => execSetInterface_kept _ _
  | .usbControlRequest .. => execUsbControlRequest_kept _
  | .setPortPower .. => execSetPortPower_kept _
  | .clearPortPower .. => execClearPortPower_kept _
  | .clearTtBuffer => execClearTtBuffer_kept
  | .resetTt => execResetTt_kept
  | .hubOverCurrent .. => execHubOverCurrent_kept _
  | .hubConnectChange .. => execHubConnectChange_kept _ _ _
  | .bulkTransferFault .. => execBulkTransferFault_kept _
  | .unitResetComplete .. => execUnitResetComplete_kept _
  | .stagingTimeout => execStagingTimeout_kept
  | .trialClear => execTrialClear_kept
  | .consentExpiry .. => execConsentExpiry_kept _
  | .harrowWindowClose .. => execHarrowWindowClose_kept _
  | .noSuchVerb .. => execNoSuchVerb_kept _ _
  | .vbusDetected => execVbusDetected_kept
  | .backupStateLost => execBackupStateLost_kept
  | .rtcAlarm => execRtcAlarm_kept
  | .prsntChange .. => execPrsntChange_kept _
  | .testEnChange .. => execTestEnChange_kept _
  | .wakeHoldExpiry => execWakeHoldExpiry_kept
  | .csp8IdleGate => execCsp8IdleGate_kept
  | .dnRxIdle => execDnRxIdle_kept
  | .dnRxForward .. => execDnRxForward_kept _ _ _
  | .ep6Read => execEp6Read_kept
  | .hubClassRequest .. => execHubClassRequest_kept _ _
  | .usbFailure => execUsbFailure_kept
  | .yokePhyFailure => execYokePhyFailure_kept
  | .thresherControlError => execThresherControlError_kept
  | .harrowDelayExpiry .. => execHarrowDelayExpiry_kept _
  | .updateStageCompletion .. => execUpdateStageCompletion_kept _

/-- An outcome that is a next state. -/
def Outcome.Completes (o : Host.Outcome State Fault Refusal) : Prop := ∃ t, o = .next t

theorem Outcome.completes_next (t : State) : Outcome.Completes (.next t) := ⟨t, rfl⟩

theorem Outcome.completes_ite (c : Prop) [Decidable c] {a b : Host.Outcome State Fault Refusal} (x : Outcome.Completes a)
    (y : Outcome.Completes b) : Outcome.Completes (if c then a else b) := by split <;> assumption

/-- Each branch of each meaning ends in a next state; the meanings named here have more than one. -/
theorem exec_completes (c : Instr) (s : State) : Outcome.Completes (exec c s) := by
  cases c <;> (try exact Outcome.completes_next _)
  all_goals dsimp only [exec,
    execBadFrame, execAlmanacRead, execThrSubmit, execThrReturn, execTwtBusTimeout, execEp2ReplyRead, execShadowTimeout,
    execCaptureLine, execSyncInEdge, execRecoveryFrameEnd, execEntryLaunch, execEntryComplete, execDeadlineAbort,
    execStartBitTimeout, execAssemblyStart, execAssemblyComplete, execTxPrefetchComplete, execDrillHardFault,
    execSlaveTransactionStart, execSlaveTransactionEnd, execNorGatherEnd, execNorStatusPoll, execNorProgramDone,
    execProgramTimeout, execExternalAccessTimeout, execSentFrameEnd, execSentAbsentTimeout, execEdgeSeen, execEdgeAccept,
    execPlotFault, execFaultResolve, execBankWakeComplete, execBankWakeTimeout, execEccScrub, execEndIteration,
    execPreemptionPoint, execTimeSliceExpiry, execHandoffTimeout, execThrLoadOwnerTimeout, execMarkerSend,
    execMarkerReceived, execMbx, execJoinAccept, execSegmentSend, execSegmentReceived, execJoinRequestSend,
    execJoinRequestReceived, execTrimRunEnd, execMemberLost, execReleaseRetryTimer, execOrphanTimeout, execAcceptLapse,
    execCommitMarkerMissing, execListenWindow, execSleepTimerExpiry, execFallowResume, execVinUvloRise, execVinLowWarning,
    execVinHighWarning, execVinOvervoltageRecover, execVsysOverload, execBankSupplyLost, execThermalShutdown,
    execThermalRestart, execVbakMeasure, execAlarmInput, execBackupRecordWrite, execAlarmHoldoffEnd, execBackupWriteAbort,
    execEmergencyDetach, execDetachRelease, execDetachCycle, execWatchdogExpiry, execBootImageVerify, execFurtherPartFail,
    execNoReferenceAtBoot, execMailboxesReady, execAutostartStart, execAlmanacScanDone, execAlmanacRecordCommit,
    execMergeWindowClose, execEp6TransferEnd, execIntNCoalesceExpiry, execReferenceLost, execHoldoverExpiry,
    execSourceQualified, execSourceSwitchComplete, execRelockComplete, execPllUnlock, execAonCalibrationRun,
    execTimebaseRealign, execUsbPullupEnable, execUsbBusReset, execVbusLost, execUsbSuspend, execRemoteWake, execEp3Report,
    execEp3ReportAck, execStreamCopyComplete, execIsoInToken, execSetInterface, execUsbControlRequest, execSetPortPower,
    execClearPortPower, execClearTtBuffer, execResetTt, execHubOverCurrent, execHubConnectChange, execUnitResetComplete,
    execStagingTimeout, execTrialClear, execConsentExpiry, execHarrowWindowClose, execNoSuchVerb, execVbusDetected,
    execRtcAlarm, execPrsntChange, execWakeHoldExpiry, execDnRxForward, execEp6Read, execHubClassRequest,
    execThresherControlError, execHarrowDelayExpiry, execUpdateStageCompletion]
  all_goals repeat' (first | exact Outcome.completes_next _ | apply Outcome.completes_ite | split)

/-! ### Every step -/

/-- What a step keeps: all that Kept says, but for the command that it takes from the queue. -/
theorem step_kept (h : step s = .next t) : Kept { s with pending := s.pending.tail } t := by
  unfold step at h
  split at h
  next empty =>
    cases h
    rw [empty]
    have kept : Kept { s with pending := [] } { s with pending := [] } := Kept.refl _
    have same : { s with pending := [] } = s := by rw [← empty]
    rw [List.tail_nil, same] at *
    exact Kept.ite _ (State.tick_kept (Kept.refl s)) (Kept.refl s)
  next c rest front =>
    rw [front]
    exact exec_kept c t h

/-- The invariant does not speak of the queue. -/
theorem State.inv_withQueue (q : List Instr) : State.Inv { s with pending := q } ↔ s.Inv := Iff.rfl

/-! ### The obligations -/

/-- Settles O1: a step with a command at the front is that command's effect, by definition. -/
theorem stepRunsFront : Obligations.StepRunsFront := by
  unfold Obligations.StepRunsFront
  intro c rest s front
  rw [step, front]

/-- Settles O2: an idle step is the tick, which changes only the time. -/
theorem idleStepTicks : Obligations.IdleStepTicks := by
  unfold Obligations.IdleStepTicks
  intro s empty
  refine ⟨s.idle, by rw [step, empty], ?_, State.idle_frame (Within.refl s)⟩
  unfold State.idle
  split <;> rfl

/-- Settles O3: every meaning ends in a next state. -/
theorem everyCommandCompletes : Obligations.EveryCommandCompletes := exec_completes

/-- Settles O4: the reset state has the numbered things, and its memories and tables are empty. -/
theorem invariantAtReset : Obligations.InvariantAtReset := by
  unfold Obligations.InvariantAtReset
  exact ⟨by simp [State.shape, State.reset, -List.reduceReplicate], rfl⟩

/-- Settles O5: a step keeps the lengths and the canonical forms, whatever it takes from the queue. -/
theorem stepKeepsInvariant : Obligations.StepKeepsInvariant := by
  unfold Obligations.StepKeepsInvariant
  intro s t inv h
  exact (step_kept h).inv ((State.inv_withQueue _).mpr inv)

/-- Settles O6: no step breaks the seal, and none writes the serial number. -/
theorem stepKeepsIdentity : Obligations.StepKeepsIdentity := by
  unfold Obligations.StepKeepsIdentity
  exact ⟨fun s t sealed h => (step_kept h).sealed sealed, fun s t h => (step_kept h).serial⟩

/-- Settles O7: the frame of every command, at its own list of parts. -/
theorem commandFrame : Obligations.CommandFrame := by
  unfold Obligations.CommandFrame
  intro c s t h
  exact exec_frame c (List.Subset.refl _) t h

end Sys2Proof.Machine
end

section
/-! SUPPORT. A new request served by an execution that leaves its channel, the clock and the fault injector alone: answered, held or
accepted (02 R56, R63). -/

namespace Sys2Proof.Machine

set_option Elab.async false

variable {parts : List Part} {s t u : State} {v : Nat} {r : Req} {lenOk : Bool} {checks : State → List Check}
  {run : State → Ticket → State × Answer} {st : Nat} {p : List Byte}

/-! ### Frames put together -/

theorem Within.mono {l m : List Part} (h : Within l s t) (sub : l ⊆ m) : Within m s t := fun q hq => h q fun hl => hq (sub hl)

theorem EventsOnly.trans {l : List Nat} (a : EventsOnly l s t) (b : EventsOnly l t u) : EventsOnly l s u :=
  fun k hk => (b k hk).trans (a k hk)

/-- Pending events are all there is to see of an event. -/
theorem EventsOnly.of_ev {l : List Nat} (h : t.ev = s.ev) : EventsOnly l s t := fun k _ => State.has_congr s h k

/-- What decides whether Harrow is quiet: its block, the clock and the applied words. -/
theorem State.quiet_congr (time : t.tm = s.tm) (config : t.cfg = s.cfg) (episodes : t.hw.episodes = s.hw.episodes)
    (reorder : t.hw.reorder = s.hw.reorder) : t.quiet = s.quiet := by
  have windows : t.windowOpen = s.windowOpen := by
    funext e
    unfold State.windowOpen State.hwReg State.reg
    rw [episodes, time, config]
  rw [State.quiet, State.harrowActive, windows, reorder]
  rfl

/-- An execution apart from requests and from all that decides on a reply's fate: it writes neither the channels nor the clock, the
applied words or the injector. -/
abbrev Apart (parts : List Part) : Prop := ∀ q ∈ [Part.requests, .time, .config, .harrow], q ∉ parts

theorem Within.quiet (w : Within parts s t) (apart : Apart parts) : t.quiet = s.quiet := by
  obtain ⟨episodes, -, -, -, -, -, -, reorder, -⟩ : Part.harrow.same s t := w .harrow (apart _ (by simp))
  exact State.quiet_congr (w .time (apart _ (by simp))) (w .config (apart _ (by simp))) episodes reorder

theorem Within.chans (w : Within parts s t) (apart : Apart parts) : t.mb.chans = s.mb.chans :=
  (w .requests (apart _ (by simp)) : Part.requests.same s t).1

/-! ### Served -/

/-- The parts that a request's arrival and its reply may change. -/
abbrev Part.ofReply : List Part := [.requests, .counters, .events, .almanac]

/-- A new request whose checks pass and whose execution answers it: one reply is queued. -/
theorem Fresh.serves (f : Fresh s v r) (len : lenOk = true) (passes : firstFail (checks (s.numbered v r)) = none)
    (runs : run (s.entered v r) (s.ticketFor r) = (u, .done st p)) (frame : Within parts (s.entered v r) u) (apart : Apart parts)
    (final : v ≠ 4 ∨ st = stOk := by decide) :
    Answered s (s.serve v r lenOk checks run) v r st p ∧ Within Part.ofReply u (s.serve v r lenOk checks run)
      ∧ EventsOnly [22, 23] u (s.serve v r lenOk checks run) := by
  subst len
  have chans := frame.chans apart
  have served := f.answers checks run st p passes (by rw [runs])
    (by rw [runs, frame.quiet apart, State.entered_quiet, f.quiet]) (by rw [runs, chans])
    (by rw [runs, chans, State.entered_chans_length, f.chans]) final
  rwa [runs] at served

/-- The same where the execution changes nothing. -/
theorem Fresh.servesAtOnce (f : Fresh s v r) (len : lenOk = true) (passes : firstFail (checks (s.numbered v r)) = none)
    (runs : run (s.entered v r) (s.ticketFor r) = (s.entered v r, .done st p)) (final : v ≠ 4 ∨ st = stOk := by decide) :
    Answered s (s.serve v r lenOk checks run) v r st p ∧ Within Part.ofReply s (s.serve v r lenOk checks run)
      ∧ EventsOnly [22, 23] s (s.serve v r lenOk checks run) := by
  obtain ⟨answered, within, only⟩ := f.serves (parts := []) len passes runs (Within.refl _) (by decide) final
  exact ⟨answered, (State.entered_frame v r (Within.refl s)).trans within, (EventsOnly.of_ev (State.entered_ev s v r)).trans only⟩

/-- The same with what the arrival, the execution and the reply change together. -/
theorem Fresh.servesWithin {whole : List Part} {ks : List Nat} (f : Fresh s v r) (len : lenOk = true)
    (passes : firstFail (checks (s.numbered v r)) = none) (runs : run (s.entered v r) (s.ticketFor r) = (u, .done st p))
    (frame : Within parts (s.entered v r) u) (only : EventsOnly ks (s.entered v r) u) (apart : Apart parts := by decide)
    (sub : parts ++ Part.ofReply ⊆ whole := by decide) (sub' : ks ++ [22, 23] ⊆ ks := by decide)
    (final : v ≠ 4 ∨ st = stOk := by decide) :
    Answered s (s.serve v r lenOk checks run) v r st p ∧ Within whole s (s.serve v r lenOk checks run)
      ∧ EventsOnly ks s (s.serve v r lenOk checks run) := by
  obtain ⟨answered, within, only'⟩ := f.serves len passes runs frame apart final
  obtain ⟨sub, subReply⟩ := List.append_subset.mp sub
  have arrived : Within whole s (s.entered v r) := (State.entered_frame (parts := Part.ofReply) v r (Within.refl s)).mono subReply
  refine ⟨answered, (arrived.trans (frame.mono sub)).trans (within.mono subReply), ?_⟩
  refine ((EventsOnly.of_ev (State.entered_ev s v r)).trans only).trans fun k hk => only' k fun reply => hk ?_
  exact sub' (List.mem_append_right _ reply)

/-- A new request that its execution holds: it stands in its channel's list, and nothing is answered. -/
theorem Fresh.servesHeld (f : Fresh s v r) (len : lenOk = true) (passes : firstFail (checks (s.numbered v r)) = none)
    (runs : run (s.entered v r) (s.ticketFor r) = (u, .hold)) (chans : u.mb.chans = (s.entered v r).mb.chans) :
    s.serve v r lenOk checks run = u ∧ HeldIn s u v r := by
  subst len
  have served := f.holds checks run passes (by rw [runs])
  rw [runs] at served
  obtain ⟨replies, held⟩ := State.entered_chan (s := s) v r (by rw [f.chans]; exact r.ch.isLt)
  exact ⟨served, by rw [chans, replies], by simp [chans, held]⟩

/-- What ACCEPTED leaves: the reply queued, and the channel's history and cache brought up to date. -/
theorem State.settle_accept (u : State) (v : Nat) (r : Req) (k : Ticket) (p : List Byte) (quiet : u.quiet = true) :
    ∃ (g : Chan → Chan) (y : Reply), (∀ c, (g c).replies = c.replies) ∧
      u.settle v r k (.accept p) = (u.modChan r.ch.val g).queueReply r.ch.val y ∧
      y.verb = v ∧ y.tag = r.tag.toNat ∧ y.status = stAccepted ∧ y.payload = p := by
  simp only [State.settle, State.answer, State.ite]
  split
  · rw [State.sendReply_quiet (by exact quiet)]
    refine ⟨fun c => { c with
      history := c.history.map fun h => if h.id == k.id then { h with status := stAccepted, state := .accepted } else h
      cache := if c.history.any (·.id == k.id) then cacheAdd c.cache k.id (mkReply u v r 0 stAccepted p) else c.cache },
      mkReply u v r 0 stAccepted p, fun c => rfl, ?_, rfl, rfl, rfl, rfl⟩
    rfl
  · rw [State.sendReply_quiet quiet]
    refine ⟨id, mkReply u v r 0 stAccepted p, fun c => rfl, ?_, rfl, rfl, rfl, rfl⟩
    simp [State.modChan, State.modMb, updAt]

/-- A new request that its execution accepts: one reply is queued, ACCEPTED with a payload, and the request awaits its completion. -/
theorem Fresh.servesAccepted (f : Fresh s v r) (len : lenOk = true) (passes : firstFail (checks (s.numbered v r)) = none)
    (runs : run (s.entered v r) (s.ticketFor r) = (u, .accept p)) (frame : Within parts (s.entered v r) u) (apart : Apart parts) :
    Answered s (s.serve v r lenOk checks run) v r stAccepted p ∧ Within Part.ofReply u (s.serve v r lenOk checks run)
      ∧ EventsOnly [22, 23] u (s.serve v r lenOk checks run) := by
  subst len
  have chans := frame.chans apart
  have quiet : u.quiet = true := by rw [frame.quiet apart, State.entered_quiet, f.quiet]
  have here : r.ch.val < s.mb.chans.length := by rw [f.chans]; exact r.ch.isLt
  have here' : r.ch.val < u.mb.chans.length := by rw [chans, State.entered_chans_length, f.chans]; exact r.ch.isLt
  rw [f.serve checks run passes, runs]
  simp only [State.answered]
  obtain ⟨g, y, replies, settled, verb, tag, status, payload⟩ := State.settle_accept
    (u.modChan r.ch.val fun c => { c with held := c.held.map fun h => if h.id == (s.ticketFor r).id then { h with accepted := true } else h })
    v r (s.ticketFor r) p quiet
  rw [settled]
  refine ⟨⟨y, ?_, verb, tag, status, payload⟩, ?_, fun k hk => ?_⟩
  · rw [State.queueReply_replies _ _ _ (by simp [here'])]
    simp [nth_updAt_self, here, chans, replies, (State.entered_chan (s := s) v r here).1]
  · exact State.queueReply_frame _ _ (State.modChan_frame _ _ (State.modChan_frame _ _ (Within.refl u)))
  · simp only [List.mem_cons, List.not_mem_nil, or_false, not_or] at hk
    exact State.queueReply_has _ _ _ _ hk.1 hk.2

end Sys2Proof.Machine
end

section
/-! SUPPORT. Accesses that pass (07 R241 to R243): what decides on them, what they leave, and the bytes that they read and write. -/

namespace Sys2Proof.Machine

set_option Elab.async false

variable {s t u : State} {a : Agent} {l : List Piece} {h v n : Nat} {bs : List Byte} {ws : List (Nat × List Byte)}

/-! ### What an access depends on -/

theorem State.reg_congr (config : t.cfg = s.cfg) : t.reg = s.reg := by
  funext n w
  rw [State.reg, config]
  rfl

theorem State.fld_congr (config : t.cfg = s.cfg) : t.fld = s.fld := by
  funext n w lo k
  rw [State.fld, State.reg_congr config]
  rfl

/-- The mapping stands in the applied words alone (07 R235). -/
theorem State.plot_congr (config : t.cfg = s.cfg) : t.plot = s.plot := by
  have only (x : State) : x.plot = State.plot { cfg := x.cfg } := rfl
  rw [only t, config, ← only]

theorem State.translate_congr (config : t.cfg = s.cfg) : t.translate = s.translate := by
  funext h dir v
  rw [State.translate, State.plot_congr config]
  rfl

theorem State.mapped_congr (config : t.cfg = s.cfg) : t.mapped = s.mapped := by
  funext h dir v n
  rw [State.mapped, State.translate_congr config]
  rfl

theorem State.firmwareParts_congr (config : t.cfg = s.cfg) : t.firmwareParts = s.firmwareParts := by
  funext h l
  rw [State.firmwareParts, State.translate_congr config]
  rfl

/-- The checks of an access look at the mapping, the banks, the error bits and the caches alone (07 Table PM-6). -/
theorem State.firstFault_congr (config : t.cfg = s.cfg) (mem : t.mem = s.mem) (a : Agent) (k ix : Nat) (l : List Piece) :
    t.firstFault a k ix l = s.firstFault a k ix l := by
  have run : t.runFault a = s.runFault a := by
    have only (x : State) : x.runFault a = State.runFault { cfg := x.cfg, mem := x.mem } a := rfl
    rw [only t, config, mem, ← only]
  induction l generalizing k ix with
  | nil => rfl
  | cons x l ih =>
    have piece : t.pieceFault a x = s.pieceFault a x := by
      rw [State.pieceFault, run]
      rfl
    simp only [State.firstFault, piece, ih]

theorem State.stalls_congr (config : t.cfg = s.cfg) (storage : t.csp8 = s.csp8) : t.stalls = s.stalls := by
  funext a l
  unfold State.stalls State.writing State.selectWaits
  rw [State.translate_congr config, storage]

theorem Passes.congr (p : Passes s a l) (config : t.cfg = s.cfg) (mem : t.mem = s.mem) (storage : t.csp8 = s.csp8) : Passes t a l where
  awake := by rw [State.suspended, mem]; exact p.awake
  clear := by rw [State.firstFault_congr config mem]; exact p.clear
  flows := by rw [State.stalls_congr config storage]; exact p.flows

theorem FirmwarePasses.congr (p : FirmwarePasses s a h l) (config : t.cfg = s.cfg) (mem : t.mem = s.mem) : FirmwarePasses t a h l := by
  rw [FirmwarePasses, State.firstFault_congr config mem, State.firmwareParts_congr config]
  exact p

/-! ### Bytes -/

@[simp] theorem SameBytes.refl (s : State) : SameBytes s s := ⟨rfl, rfl, rfl⟩

theorem SameBytes.trans (x : SameBytes s t) (y : SameBytes t u) : SameBytes s u := by
  obtain ⟨sram, nor, psram⟩ := x
  obtain ⟨sram', nor', psram'⟩ := y
  exact ⟨sram'.trans sram, nor'.trans nor, psram'.trans psram⟩

theorem SameBytes.symm (x : SameBytes s t) : SameBytes t s := ⟨x.1.symm, x.2.1.symm, x.2.2.symm⟩

theorem SameBytes.of_mem (mem : t.mem = s.mem) : SameBytes s t := by simp [SameBytes, mem]

/-- An operation whose frame holds none of the three memories. -/
theorem Within.bytes {parts : List Part} (w : Within parts s t) (apart : ∀ q ∈ [Part.sram, .nor, .psram], q ∉ parts := by decide) :
    SameBytes s t := ⟨w .sram (apart _ (by simp)), w .nor (apart _ (by simp)), w .psram (apart _ (by simp))⟩

/-- What a read gives stands in the mapping and the bytes alone. -/
theorem State.virtRead_congr (config : t.cfg = s.cfg) (bytes : SameBytes s t) (h v n : Nat) : t.virtRead h v n = s.virtRead h v n := by
  have only (x : State) : x.virtRead h v n
      = State.virtRead { cfg := x.cfg, mem := { sram := x.mem.sram, nor := x.mem.nor, psram := x.mem.psram } } h v n := rfl
  obtain ⟨sram, nor, psram⟩ := bytes
  rw [only t, config, sram, nor, psram, ← only]

/-- A write to a physical address changes bytes by the mapping and the bytes alone. -/
theorem State.physWrite_bytes (config : t.cfg = s.cfg) (bytes : SameBytes s t) (p : Nat) (bs : List Byte) :
    SameBytes (s.physWrite p bs) (t.physWrite p bs) := by
  obtain ⟨sram, nor, psram⟩ := bytes
  unfold State.physWrite State.storeWrite State.kindOf
  rw [State.fld_congr config]
  dsimp only
  (repeat' split) <;> simp [SameBytes, sram, nor, psram]

@[simp] theorem State.virtWrite_cfg (h v : Nat) (bs : List Byte) : (s.virtWrite h v bs).cfg = s.cfg :=
  (State.virtWrite_frame (parts := [.sram, .nor, .psram, .fabric]) h v bs (Within.refl s)) .config (by decide)

@[simp] theorem State.physWrite_cfg (p : Nat) (bs : List Byte) : (s.physWrite p bs).cfg = s.cfg :=
  (State.physWrite_frame (parts := [.sram, .nor, .psram, .fabric]) p bs (Within.refl s)) .config (by decide)

@[simp] theorem State.writeOne_cfg (a : Agent) (w : Nat × List Byte) : (s.writeOne a w).cfg = s.cfg := State.virtWrite_cfg _ _ _

theorem State.virtWrite_bytes (config : t.cfg = s.cfg) (bytes : SameBytes s t) (h v : Nat) (bs : List Byte) :
    SameBytes (s.virtWrite h v bs) (t.virtWrite h v bs) := by
  unfold State.virtWrite
  generalize plotRuns v bs.length = runs
  induction runs generalizing s t with
  | nil => exact bytes
  | cons x runs ih =>
    simp only [List.foldl_cons, State.translate_congr config]
    split
    · exact ih (by simp [config]) (State.physWrite_bytes config bytes _ _)
    · exact ih config bytes

theorem State.writes_bytes (config : t.cfg = s.cfg) (bytes : SameBytes s t) (ws : List (Nat × List Byte)) :
    SameBytes (ws.foldl (fun x w => x.writeOne a w) s) (ws.foldl (fun x w => x.writeOne a w) t) := by
  induction ws generalizing s t with
  | nil => exact bytes
  | cons w ws ih => exact ih (by simp [config]) (State.virtWrite_bytes config bytes _ _ _)

/-! ### An access that passes -/

/-- The parts that an access that passes may change. -/
abbrev Part.ofAccess : List Part := [.counters, .events, .storage, .fabric, .power]

theorem State.accessed_within (a : Agent) (l : List Piece) : Within Part.ofAccess s (s.accessed a l) :=
  State.accessed_frame a l (Within.refl s)

@[simp] theorem State.accessed_cfg (a : Agent) (l : List Piece) : (s.accessed a l).cfg = s.cfg := State.accessed_within a l .config (by decide)

/-- An access that passes moves no byte (07 R241). -/
@[simp] theorem State.accessed_bytes (a : Agent) (l : List Piece) : SameBytes s (s.accessed a l) := (State.accessed_within a l).bytes

@[simp] theorem State.accessed_virtRead (a : Agent) (l : List Piece) (h v n : Nat) : (s.accessed a l).virtRead h v n = s.virtRead h v n :=
  State.virtRead_congr (State.accessed_cfg a l) (State.accessed_bytes a l) h v n

theorem State.correct_events (dir : Access) (p n : Nat) : EventsOnly [42] s (s.correct dir p n) := by
  intro k hk
  have ne : ¬42 = k := by simpa [eq_comm] using hk
  unfold State.correct
  dsimp only
  split
  · rfl
  · rw [State.raise_has, decide_eq_false ne, Bool.or_false]
    rfl

theorem State.touchRun_events (a : Agent) (dir : Access) (v n : Nat) : EventsOnly [42] s (s.touchRun a dir v n) := by
  have within : Within [.fabric] s (s.enterCache (holdingOf a) (v / 4096)) := State.enterCache_frame _ _ (Within.refl s)
  have cached : EventsOnly [42] s (s.enterCache (holdingOf a) (v / 4096)) := EventsOnly.of_ev (within .events (by decide))
  unfold State.touchRun
  dsimp only
  split
  · exact fun _ _ => rfl
  · split
    · exact (cached.trans (EventsOnly.of_ev (State.modSram_ev _ _ _))).trans (State.correct_events _ _ _)
    · exact cached

/-- An access that passes raises no event but 42, for a word that it corrects (07 R227). -/
theorem State.accessed_events (a : Agent) (l : List Piece) : EventsOnly [42] s (s.accessed a l) := by
  have touched (x : State) (p : Piece) : EventsOnly [42] x (x.touch a p) := by
    unfold State.touch
    generalize plotRuns p.vaddr p.len = runs
    induction runs generalizing x with
    | nil => exact fun _ _ => rfl
    | cons y runs ih => exact (State.touchRun_events _ _ _ _).trans (ih _)
  have all : EventsOnly [42] s (l.foldl (fun s x => s.touch a x) s) := by
    induction l generalizing s with
    | nil => exact fun _ _ => rfl
    | cons x l ih => exact (touched s x).trans ih
  exact all

theorem Passes.reach (p : Passes s a l) : s.reach a l = (s.accessed a l, .done) := by
  simp [State.reach, p.clear, p.flows]

theorem Passes.access (p : Passes s a l) : s.access a l = (s.accessed a l, .done) := by
  simp [State.access, p.awake, p.reach]

theorem Passes.store (p : Passes s a (writeParts ws)) :
    s.store a ws = (ws.foldl (fun s w => s.writeOne a w) (s.accessed a (writeParts ws)), .done) := by
  simp [State.store, State.put, p.awake, p.reach]

/-- A write that passes leaves its bytes, as if it made nothing else of the state. -/
theorem Passes.store_bytes (p : Passes s a (writeParts ws)) : SameBytes (ws.foldl (fun s w => s.writeOne a w) s) (s.store a ws).1 := by
  rw [p.store]
  exact State.writes_bytes (State.accessed_cfg _ _) (State.accessed_bytes _ _) ws

/-- An access of the firmware that passes (07 Table PM-8). -/
theorem FirmwarePasses.firmware (p : FirmwarePasses s a h l) : s.firmware a h l = (s.accessed a (s.firmwareParts h l), true) := by
  rw [FirmwarePasses] at p
  simp [State.firmware, State.fwAccess, p]

end Sys2Proof.Machine
end

section
/-! SUPPORT. DESCRIBE, GET and SNAP: their checks pass, and they answer with what they read (02 R61, R69; 03 R92; 04 R150, R151). -/

namespace Sys2Proof.Machine

set_option Elab.async false

variable {s : State} {r : Req}

/-! ### Checks that pass -/

@[simp] theorem State.numbered_snapBuffer (v : Nat) (r q : Req) : (s.numbered v r).snapBuffer q = s.snapBuffer q := by
  rw [State.numbered_eq]
  rfl

@[simp] theorem State.entered_snapBuffer (v : Nat) (r q : Req) : (s.entered v r).snapBuffer q = s.snapBuffer q := by
  rw [State.entered_eq]
  rfl

@[simp] theorem State.entered_bufferAt (v : Nat) (r : Req) (b : Nat) : (s.entered v r).bufferAt b = s.bufferAt b := by
  rw [State.entered_eq]
  rfl

/-- Step 7 for a verb that names a noun: it exists, it is unindexed, and in ROM service it is SYS (02 R56). -/
theorem State.nounCheck_passes (hindex : r.index = 0) (exists' : (findNoun s.boot.legacy r.noun.toNat).isSome = true)
    (rom : s.boot.phase = .romService → r.noun.toNat = nSYS) : (s.nounCheck r).1 = true := by
  by_cases h : s.boot.phase = .romService <;> simp_all [State.nounCheck]

/-! ### DESCRIBE -/

/-- DESCRIBE answers with bytes of the Syntax table (03 R92). -/
theorem Fresh.describes (f : Fresh s 0x01 r) (len : r.length.toNat = 8) (hnoun : r.noun = 0) (hindex : r.index = 0)
    (reserved : pf r 6 2 = 0) (some' : 1 ≤ pf r 4 2) (most : pf r 4 2 ≤ 4070) (inside : pf r 0 4 < (syntaxTable (s.numbered 0x01 r)).length)
    (fits : s.fits r (8 + pf r 4 2) = true) : ∃ t, exec (.describe r) s = .next t
      ∧ Answered s t 0x01 r stOk (leBytes 4 (syntaxTable (s.entered 0x01 r)).length ++ leBytes 4 (pf r 0 4)
          ++ ((syntaxTable (s.entered 0x01 r)).drop (pf r 0 4)).take (pf r 4 2))
      ∧ Within Part.ofReply s t ∧ EventsOnly [22, 23] s t := by
  refine ⟨_, rfl, f.servesAtOnce ?_ ?_ ?_⟩
  · simp [len, f.framing, State.describeMax, Nat.min_eq_left most, fits]
  · simp [firstFail_eq_none, noNoun, hnoun, hindex, f.framing, State.describeMax, some', most, pz, reserved, inside]
  · simp [f.framing, State.describeMax]

/-! ### GET -/

/-- A GET clears the counters that it has read, and nothing else (02 R61). -/
theorem State.clearRcs_within (n : Noun) (off : Nat) (l : List Nat) : Within [.counters] s (l.foldl (fun s i => s.clearRc n (off + i)) s) :=
  Within.foldl _ l (Within.refl s) fun _ _ h => State.clearRc_frame _ _ h

/-- GET answers with the words as they read once it is entered (02 R69). -/
theorem Fresh.gets (f : Fresh s 0x02 r) (len : r.length.toNat = 4) (noun : (s.nounCheck r).1 = true) (some' : 1 ≤ pf r 2 2)
    (most : pf r 2 2 ≤ 1018) (inside : pf r 0 2 + pf r 2 2 ≤ (s.nounOf r).words) (rc : s.rcTooLong r = false)
    (fits : s.fits r (4 + 4 * pf r 2 2) = true) : ∃ t, exec (.get r) s = .next t
      ∧ Answered s t 0x02 r stOk (leBytes 2 (pf r 0 2) ++ leBytes 2 (pf r 2 2)
          ++ (List.range (pf r 2 2)).flatMap fun i =>
            leBytes 4 ((s.entered 0x02 r).getWord (s.nounOf r) (pf r 0 2 + i) (bitAt r.flags.toNat 2)))
      ∧ Within Part.ofReply s t ∧ EventsOnly [22, 23] s t := by
  have cleared := State.clearRcs_within (s := s.entered 0x02 r) (s.nounOf r) (pf r 0 2) (List.range (pf r 2 2))
  refine ⟨_, rfl, f.servesWithin (ks := [22, 23]) ?_ ?_ (Prod.ext ?_ ?_) cleared (EventsOnly.of_ev (cleared .events (by decide)))⟩
  · simp [len, rc, fits]
  · simp [firstFail_eq_none, noun, some', f.framing, most, inside]
  · simp
  · simp [f.framing]

/-! ### SNAP -/

/-- The parts that a read of the firmware may change. -/
abbrev Part.ofRead : List Part := [.requests, .counters, .events, .almanac, .storage, .fabric, .power]

@[simp] theorem State.accessed_bufferAt (a : Agent) (l : List Piece) (b : Nat) : (s.accessed a l).bufferAt b = s.bufferAt b := by
  rw [State.bufferAt, State.reg_congr (State.accessed_cfg a l)]
  rfl

@[simp] theorem State.accessed_boot (a : Agent) (l : List Piece) : (s.accessed a l).boot = s.boot := State.accessed_within a l .boot (by decide)

@[simp] theorem State.entered_virtRead (v : Nat) (r : Req) (h a n : Nat) : (s.entered v r).virtRead h a n = s.virtRead h a n :=
  State.virtRead_congr (State.entered_cfg s v r) (SameBytes.of_mem (State.entered_mem s v r)) h a n

@[simp] theorem State.entered_firmwareParts (v : Nat) (r : Req) (h : Nat) (l : List Piece) :
    (s.entered v r).firmwareParts h l = s.firmwareParts h l := by rw [State.firmwareParts_congr (State.entered_cfg s v r)]

variable {i : Nat} {b : Buffer}

/-- SNAP answers with a part of the buffer, as the memory holds it, where the steward's read of it passes; where the buffer is
reused meanwhile, with ABORTED (04 R150, R151). -/
theorem Fresh.snaps (f : Fresh s 0x09 r) (len : r.length.toNat = 16) (hnoun : r.noun = 0) (hindex : r.index = 0) (sel : pf r 0 1 ≤ 1)
    (pad : pf r 1 1 = 0) (pad' : pf r 14 2 = 0) (some' : 1 ≤ pf r 12 2) (most : pf r 12 2 ≤ 4062) (buffer : s.snapBuffer r = some (i, b))
    (inside : pf r 8 4 + pf r 12 2 ≤ b.header + b.body) (fits : s.fits r (16 + pf r 12 2) = true) :
    (FirmwarePasses s .steward 2 [⟨.read, s.bufferAt i + pf r 8 4, pf r 12 2⟩] →
      ∃ t, exec (.snap r false) s = .next t
        ∧ Answered s t 0x09 r stOk (leBytes 6 b.period ++ [0, 0] ++ leBytes 4 (if s.boot.legacy then 0 else b.layout)
            ++ leBytes 4 (pf r 8 4) ++ s.virtRead 2 (s.bufferAt i + pf r 8 4) (pf r 12 2))
        ∧ SameBytes s t ∧ Within Part.ofRead s t ∧ EventsOnly [22, 23, 42] s t)
    ∧ ∃ t, exec (.snap r true) s = .next t ∧ Answered s t 0x09 r stAborted [] ∧ Within Part.ofReply s t ∧ EventsOnly [22, 23] s t := by
  have long : (r.length.toNat == 16 && s.fits r (16 + min (pf r 12 2) 4062)) = true := by simp [len, Nat.min_eq_left most, fits]
  refine ⟨fun passes => ?_, _, rfl, f.servesAtOnce long ?_ ?_⟩
  · let pieces := s.firmwareParts 2 [⟨.read, s.bufferAt i + pf r 8 4, pf r 12 2⟩]
    have read := FirmwarePasses.firmware (passes.congr (State.entered_cfg s 0x09 r) (State.entered_mem s 0x09 r))
    have answers : ∃ t, exec (.snap r false) s = .next t
        ∧ Answered s t 0x09 r stOk (leBytes 6 b.period ++ [0, 0] ++ leBytes 4 (if s.boot.legacy then 0 else b.layout)
            ++ leBytes 4 (pf r 8 4) ++ s.virtRead 2 (s.bufferAt i + pf r 8 4) (pf r 12 2))
        ∧ Within Part.ofRead s t ∧ EventsOnly [22, 23, 42] s t := by
      refine ⟨_, rfl, f.servesWithin long ?_ (Prod.ext ?_ ?_) (State.accessed_within .steward pieces)
        fun k hk => State.accessed_events _ pieces k fun h => hk (by simp_all)⟩
      · simp [firstFail_eq_none, noNoun, hnoun, hindex, sel, pz, pad, pad', some', most, buffer, inside]
      · simp [buffer, read, pieces]
      · simp [buffer, read]
    obtain ⟨t, exec, answered, within, only⟩ := answers
    exact ⟨t, exec, answered, within.bytes, within, only⟩
  · simp [firstFail_eq_none, noNoun, hnoun, hindex, sel, pz, pad, pad', some', most, buffer, inside]
  · simp [buffer]

/-! ### The obligation -/

/-- Settles O8: each verb passes its checks, and its execution writes at most counters and what an access touches. -/
theorem readsAnswer : Obligations.ReadsAnswer := by
  unfold Obligations.ReadsAnswer
  refine ⟨fun r s f len noun index pad least most inside fits => f.describes len noun index pad least most inside fits,
    fun r s f len index known rom least most inside rc fits => f.gets len (State.nounCheck_passes index known rom) least most inside rc fits,
    fun r s i b f len noun index sel pad pad' least most buffer inside fits =>
      f.snaps len noun index sel pad pad' least most buffer inside fits⟩

end Sys2Proof.Machine
end

section
/-! SUPPORT. The next-epoch shadow: STAGE opens it, COMMIT holds it, DISCARD and silence end it; START and STOP are held for their line
(02 R70 to R78; 04 R145 to R148). -/

namespace Sys2Proof.Machine

set_option Elab.async false

variable {s t : State} {r : Req}

/-! ### A STAGE into the shadow -/

/-- A word as a shadow has it: staged where the shadow touched it, else as it was applied (02 R72). -/
def Shadow.word (h : Shadow) (s : State) (n w : Nat) : Nat :=
  if h.touched.contains (regKey n w) then Tab.get resetWord h.words (regKey n w) else s.reg n w

/-- One write into a shadow: an empty mask touches nothing (02 R70). -/
def Shadow.write (s : State) (n : Nat) (h : Shadow) (x : Nat × Nat × Nat) : Shadow :=
  if x.2.1 = 0 then h
  else
    { h with
      words := Tab.set resetWord h.words (regKey n x.1) (writtenWord [x] (h.word s n x.1) x.1)
      touched := if h.touched.contains (regKey n x.1) then h.touched else h.touched ++ [regKey n x.1] }

theorem State.writeShadow_eq (n : Noun) (ws : List (Nat × Nat × Nat)) : s.writeShadow r n ws
    = s.modMb fun m => { m with shadow := some (ws.foldl (Shadow.write s n.id) (s.mb.shadow.getD { owner := r.ch, words := [], touched := [] })) } := rfl

theorem writtenWord_cons (x : Nat × Nat × Nat) (ws : List (Nat × Nat × Nat)) (cur w : Nat) :
    writtenWord (x :: ws) cur w = writtenWord ws (writtenWord [x] cur w) w := rfl

theorem regKey_inj {n w w' : Nat} : regKey n w = regKey n w' ↔ w = w' := by simp [regKey]

@[simp] theorem Shadow.write_owner (n : Nat) (h : Shadow) (x : Nat × Nat × Nat) : (h.write s n x).owner = h.owner := by
  unfold Shadow.write
  split <;> rfl

theorem Shadow.write_wf (n : Nat) {h : Shadow} (wf : Tab.wf resetWord h.words = true) (x : Nat × Nat × Nat) :
    Tab.wf resetWord (h.write s n x).words = true := by
  unfold Shadow.write
  split
  · exact wf
  · exact Tab.wf_set _ _ _ _ wf

/-- A write changes the word that it addresses, and no other. -/
theorem Shadow.write_word (n : Nat) {h : Shadow} (wf : Tab.wf resetWord h.words = true) (x : Nat × Nat × Nat) (mask : x.2.1 ≠ 0) (w : Nat) :
    (h.write s n x).word s n w = writtenWord [x] (h.word s n w) w := by
  by_cases here : x.1 = w
  · subst here
    by_cases old : h.touched.contains (regKey n x.1) = true <;> simp_all [Shadow.write, Shadow.word, Tab.get_set]
  · have other : regKey n w ≠ regKey n x.1 := fun e => here (regKey_inj.mp e).symm
    have same : writtenWord [x] (h.word s n w) w = h.word s n w := by simp [writtenWord, here]
    rw [same]
    by_cases old : h.touched.contains (regKey n x.1) = true <;> simp_all [Shadow.write, Shadow.word, Tab.get_set]

/-- After all the writes each word has its masked bits replaced, in order (02 R70). -/
theorem Shadow.writes_word (n : Nat) (ws : List (Nat × Nat × Nat)) {h : Shadow} (wf : Tab.wf resetWord h.words = true) (w : Nat) :
    (ws.foldl (Shadow.write s n) h).word s n w = writtenWord (ws.filter fun x => x.2.1 != 0) (h.word s n w) w := by
  induction ws generalizing h with
  | nil => rfl
  | cons x ws ih =>
    rw [List.foldl_cons, ih (Shadow.write_wf n wf x)]
    by_cases mask : x.2.1 = 0
    · simp [Shadow.write, mask]
    · rw [List.filter_cons_of_pos (by simpa using mask), writtenWord_cons, Shadow.write_word n wf x mask]

theorem Shadow.writes_owner (n : Nat) (ws : List (Nat × Nat × Nat)) (h : Shadow) : (ws.foldl (Shadow.write s n) h).owner = h.owner := by
  induction ws generalizing h with
  | nil => rfl
  | cons x ws ih => rw [List.foldl_cons, ih, Shadow.write_owner]

/-- Where no write of framing v1 waits, a word reads as the shadow has it. -/
theorem State.stagedWord_eq {h : Shadow} (shadow : t.mb.shadow = some h) (legacy : t.mb.legacy = []) (config : t.cfg = s.cfg) (n w : Nat) :
    t.stagedWord n w = h.word s n w := by
  simp only [State.stagedWord, legacy, shadow, Shadow.word, State.reg_congr config]
  rfl

/-- An item that writes something counts in the reply (02 R70). -/
theorem stageCount_ne_zero {n : Noun} {l : List StageItem} (rws : (stageKinds n (stageWrites l)).1 = true) :
    (l.filter fun i => i.2.any fun p => p.1 != 0).length ≠ 0 := by
  simp only [stageKinds, stageWrites, List.any_flatMap, List.any_eq_true, List.any_map] at rws
  obtain ⟨i, item, x, pair, hit⟩ := rws
  have mask : x.1.1 ≠ 0 := fun zero => by simp [zero] at hit
  have inside : x.1 ∈ i.2 := by
    obtain ⟨⟨m, v⟩, k⟩ := x
    exact (List.mem_zipIdx' pair).2 ▸ List.getElem_mem _
  rw [Ne, List.length_eq_zero_iff, List.filter_eq_nil_iff]
  exact fun none => none i item (List.any_eq_true.mpr ⟨x.1, inside, by simpa using mask⟩)

@[simp] theorem State.numbered_stageDefined (v : Nat) (r : Req) (n : Noun) (cur : Nat → Nat) (l : List StageItem) :
    (s.numbered v r).stageDefined n cur l = s.stageDefined n cur l := by
  rw [State.numbered_eq]
  rfl

/-- Where no shadow is open and no write of framing v1 waits, a word reads as it was applied. -/
theorem State.stagedWord_applied (shadow : t.mb.shadow = none) (legacy : t.mb.legacy = []) (n : Nat) : t.stagedWord n = t.reg n := by
  funext w
  simp [State.stagedWord, shadow, legacy]

/-- The shadow that a first STAGE opens (02 R74). -/
def Shadow.opened (r : Req) : Shadow := { owner := r.ch, words := [], touched := [] }

/-- Settles O10: the checks pass, and the execution opens the shadow with the masked bits and applies nothing. -/
theorem stageOpensShadow : Obligations.StageOpensShadow := by
  unfold Obligations.StageOpensShadow
  intro r s l f items index known rom unsealed epoch shadow commit legacy fallow kinds noSlot inside defined
  have later : stageImmediate (s.nounOf r) (stageWrites l) = false := by simp [stageImmediate, kinds]
  have counts := stageCount_ne_zero (n := s.nounOf r) (l := l) (by rw [kinds])
  have staged := State.stagedWord_applied (t := s.numbered 0x03 r) (by simpa using shadow) (by simpa using legacy) (s.nounOf r).id
  have noun := State.nounCheck_passes index known fun h => absurd h rom
  have mine : s.shadowMine r = true := by simp [State.shadowMine, shadow]
  have regs : (s.numbered 0x03 r).reg = s.reg := State.reg_congr (State.numbered_cfg _ _ _)
  have opened := State.writeShadow_eq (s := s.entered 0x03 r) (r := r) (s.nounOf r) (stageWrites l)
  have frame : Within [.shadow] (s.entered 0x03 r) ((s.entered 0x03 r).writeShadow r (s.nounOf r) (stageWrites l)) :=
    State.writeShadow_frame _ _ _ (Within.refl _)
  have answers : ∃ t, exec (.stage r) s = .next t
      ∧ Answered s t 0x03 r stOk (leBytes 2 ((l.filter fun i => i.2.any fun p => p.1 != 0).length) ++ [0, 0])
      ∧ Within Part.ofReply ((s.entered 0x03 r).writeShadow r (s.nounOf r) (stageWrites l)) t
      ∧ EventsOnly [22, 23] ((s.entered 0x03 r).writeShadow r (s.nounOf r) (stageWrites l)) t := by
    refine ⟨_, rfl, f.serves (by rw [items]; rfl) ?_ (Prod.ext ?_ ?_) frame (by decide)⟩
    · simpa [firstFail_eq_none, items, noun, unsealed, later, epoch, mine, commit, fallow, f.framing, kinds, staged, regs, defined]
        using ⟨fun e he hit => absurd hit (by simp [noSlot e he]), by simpa using inside⟩
    · simp [items, later, counts, f.framing]
    · simp [items, later, counts, f.framing]
  obtain ⟨t, exec, answered, reply, -⟩ := answers
  obtain ⟨epoch', shadow', -, -, legacy', -, -⟩ : Part.shadow.same _ t := reply .shadow (by decide)
  have config' : t.cfg = s.cfg := (reply .config (by decide) : t.cfg = _).trans (by rw [opened]; simp)
  simp only [opened, State.modMb_mb, State.entered_mb_shadow, shadow, Option.getD_none] at shadow'
  refine ⟨t, exec, answered, ?_, fun w => ?_, config', ?_, ?_⟩
  · rw [shadow', Option.any_some, Shadow.writes_owner, beq_iff_eq]
  · rw [State.stagedWord_eq (s := s.entered 0x03 r) shadow' ?_ ?_, Shadow.writes_word _ _ rfl]
    · simp [Shadow.word]
    · rw [legacy', opened]; simpa using legacy
    · rw [config']; simp
  · rw [epoch', opened]; simp
  · have arrived : Within Part.ofReply s (s.entered 0x03 r) := State.entered_frame _ _ (Within.refl s)
    exact ((arrived.mono (by decide)).trans (frame.mono (by decide))).trans (reply.mono (by decide))

/-! ### COMMIT -/

theorem Fresh.heldRoom {v : Nat} (f : Fresh s v r) : (s.numbered v r).heldRoom r = s.heldRoom r :=
  State.numbered_heldRoom v r (by rw [f.chans]; exact r.ch.isLt)

/-- A COMMIT for the next capture line, of a set that passes and changes no plan, is held with the shadow frozen (02 R75). -/
theorem State.runCommit_next {k : Ticket} {h : Shadow} {ticks : Nat} {ok : Bool} (next : pf r 0 1 = 0) (unsaved : pf r 1 1 = 0) (alone : s.joined = [])
    (pass : (s.atApply none).checkSet (s.wordsWith h.words h.touched) false = none) :
    ∃ ready, s.runCommit r k h ticks ok
      = (s.modMb fun m => { m with commit := some { ticket := k, named := none, shadow := h, ready, notBefore := 0, save := none } }, .hold) := by
  refine ⟨s.tm.now + min ticks (ticksMs 20), ?_⟩
  simp [State.runCommit, next, unsaved, alone, pass, bitAt, State.ite]

/-- Settles O11: the checks pass, and the execution only freezes the shadow. -/
theorem commitIsHeld : Obligations.CommitIsHeld := by
  unfold Obligations.CommitIsHeld
  intro r ticks ok s h f len noun index epoch shadow owner room fallow detach commit fences named save alone pass
  obtain ⟨ready, runs⟩ := State.runCommit_next (s := s.entered 0x04 r) (k := s.ticketFor r) (ticks := ticks) (ok := ok) named save
    (by simpa using alone) pass
  have mine : s.shadowMine r = true := by simp [State.shadowMine, shadow, owner]
  have held : exec (.commit r ticks ok) s = .next ((s.entered 0x04 r).runCommit r (s.ticketFor r) h ticks ok).1
      ∧ HeldIn s ((s.entered 0x04 r).runCommit r (s.ticketFor r) h ticks ok).1 0x04 r := by
    refine (f.servesHeld ?_ ?_ (Prod.ext ?_ ?_) ?_).imp_left (congrArg Host.Outcome.next)
    · simp [len]
    · simp [firstFail_eq_none, noNoun, noun, index, epoch, mine, f.heldRoom, room, State.noFallow, fallow, State.notDetached, detach, commit, shadow, fences, named, save]
    · simp [shadow]
    · simp [shadow, runs]
    · simp [runs]
  obtain ⟨exec, held⟩ := held
  rw [runs] at exec held
  refine ⟨_, exec, held, by simp, by simp, by simp, ?_⟩
  exact State.modMb_frame _ (State.entered_frame _ _ (Within.refl s))

/-! ### The shadow's end -/

theorem State.dropShadow_idle (st : Nat) (idle : s.mb.commit = none) :
    s.dropShadow st = s.modMb fun m => { m with shadow := none, commit := none } := by
  simp [State.dropShadow, idle, State.completeOpt]

/-- DISCARD is answered, and clears the shadow (02 R78). -/
theorem Fresh.discards (f : Fresh s 0x05 r) (len : r.length.toNat = 0) (noun : r.noun = 0) (index : r.index = 0)
    (epoch : s.epochOk r = true) (mine : s.shadowMine r = true) (idle : s.mb.commit = none) :
    ∃ t, exec (.discard r) s = .next t ∧ Answered s t 0x05 r stOk [] ∧ t.mb.shadow = none ∧ t.mb.epoch = s.mb.epoch
      ∧ t.cfg = s.cfg ∧ Within [.requests, .shadow, .counters, .events, .almanac] s t ∧ EventsOnly [22, 23] s t := by
  have dropped := State.dropShadow_idle (s := s.entered 0x05 r) stAborted (by simpa using idle)
  have frame : Within [.shadow] (s.entered 0x05 r) ((s.entered 0x05 r).dropShadow stAborted) := by
    rw [dropped]
    exact State.modMb_frame _ (Within.refl _)
  have arrived : Within Part.ofReply s (s.entered 0x05 r) := State.entered_frame _ _ (Within.refl s)
  have answers : ∃ t, exec (.discard r) s = .next t ∧ Answered s t 0x05 r stOk []
      ∧ Within Part.ofReply ((s.entered 0x05 r).dropShadow stAborted) t ∧ EventsOnly [22, 23] ((s.entered 0x05 r).dropShadow stAborted) t := by
    refine ⟨_, rfl, f.serves ?_ ?_ (Prod.ext rfl rfl) frame (by decide)⟩
    · simp [len]
    · simp [firstFail_eq_none, noNoun, noun, index, epoch, mine]
  obtain ⟨t, exec, answered, reply, only⟩ := answers
  obtain ⟨epoch', shadow', -⟩ : Part.shadow.same _ t := reply .shadow (by decide)
  rw [dropped] at epoch' shadow'
  have within := ((arrived.mono (by decide)).trans (frame.mono (by decide))).trans
    (reply.mono (m := [.requests, .shadow, .counters, .events, .almanac]) (by decide))
  refine ⟨t, exec, answered, shadow', by simpa using epoch', within .config (by decide), within, ?_⟩
  exact (EventsOnly.of_ev (by rw [dropped]; simp)).trans only

/-- Settles O12: each clears the shadow, and touches neither the applied words nor the epoch. -/
theorem shadowEnds : Obligations.ShadowEnds := by
  unfold Obligations.ShadowEnds
  refine ⟨fun r s f len noun index epoch mine idle => f.discards len noun index epoch mine idle, fun s h shadow idle => ?_⟩
  let due := (nth {} s.mb.chans h.owner.val).lastRequest + ticksS 10
  have ends : exec .shadowTimeout s = .next ((s.at due).modMb fun m => { m with shadow := none }) := by
    simp [exec, execShadowTimeout, shadow, idle, due]
  have within : Within [.time, .shadow] s ((s.at due).modMb fun m => { m with shadow := none }) :=
    State.modMb_frame _ (State.at_frame _ (Within.refl s))
  refine ⟨_, ends, rfl, ?_, within .config (by decide), within⟩
  simp [due, State.at, ticksS]

/-! ### START and STOP -/

/-- A START or STOP executed, before it is answered or held: no other is pending, and no start from reset (04 R148). -/
def State.runCleared (s : State) : State := (s.setRun none).modBoot fun b => { b with autostart := false }

theorem State.setRun_idle (p : Option PendingRun) (idle : s.mb.run = none) : s.setRun p = s.modMb fun m => { m with run := p } := by
  simp [State.setRun, idle]

theorem State.runCleared_within (idle : s.mb.run = none) : Within [.shadow, .boot] s s.runCleared := by
  rw [State.runCleared, State.setRun_idle none idle]
  exact State.modBoot_frame _ (State.modMb_frame _ (Within.refl s))

theorem State.runCleared_run (idle : s.mb.run = none) : s.runCleared.mb.run = none := by
  simp [State.runCleared, State.setRun_idle none idle]

variable {v : Nat} {lenOk : Bool} {checks : State → List Check} {run : State → Ticket → State × Answer} {p : List Byte} {pend : PendingRun}

/-- A START or STOP with nothing to wait for is answered at once. -/
theorem Fresh.runAnswers (f : Fresh s v r) (idle : s.mb.run = none) (len : lenOk = true) (passes : firstFail (checks (s.numbered v r)) = none)
    (runs : run (s.entered v r) (s.ticketFor r) = ((s.entered v r).runCleared, .done stOk p)) :
    (Answered s (s.serve v r lenOk checks run) v r stOk p ∧ (s.serve v r lenOk checks run).mb.run = none)
      ∧ (s.serve v r lenOk checks run).boot.autostart = false ∧ (s.serve v r lenOk checks run).drill = s.drill := by
  have frame := State.runCleared_within (s := s.entered v r) (by simpa using idle)
  obtain ⟨answered, reply, -⟩ := f.serves len passes runs frame (by decide) (Or.inr rfl)
  obtain ⟨-, -, -, run', -⟩ : Part.shadow.same _ (s.serve v r lenOk checks run) := reply .shadow (by decide)
  have boot : (s.serve v r lenOk checks run).boot = _ := reply .boot (by decide)
  have drill : (s.serve v r lenOk checks run).drill = _ := reply .drill (by decide)
  have drill' : (s.entered v r).runCleared.drill = _ := frame .drill (by decide)
  rw [State.runCleared_run (by simpa using idle)] at run'
  exact ⟨⟨answered, run'⟩, by rw [boot, State.runCleared]; rfl, by rw [drill, drill', State.entered_drill]⟩

/-- A START or STOP that waits for its capture line is held. -/
theorem Fresh.runHolds (f : Fresh s v r) (idle : s.mb.run = none) (len : lenOk = true) (passes : firstFail (checks (s.numbered v r)) = none)
    (runs : run (s.entered v r) (s.ticketFor r) = ((s.entered v r).runCleared.setRun (some pend), .hold)) :
    (HeldIn s (s.serve v r lenOk checks run) v r ∧ (s.serve v r lenOk checks run).mb.run = some pend)
      ∧ (s.serve v r lenOk checks run).boot.autostart = false ∧ (s.serve v r lenOk checks run).drill = s.drill := by
  have cleared : (s.entered v r).runCleared.mb.run = none := State.runCleared_run (by simpa using idle)
  have frame := State.runCleared_within (s := s.entered v r) (by simpa using idle)
  have drill : (s.entered v r).runCleared.drill = _ := frame .drill (by decide)
  rw [State.setRun_idle (some pend) cleared] at runs
  obtain ⟨served, held⟩ := f.servesHeld len passes runs (by simpa using frame.chans (by decide))
  rw [served]
  exact ⟨⟨held, rfl⟩, rfl, by simp [drill]⟩

theorem Fresh.runChecks_pass (f : Fresh s v r) (start : Bool) (noun : r.noun = 0) (index : r.index = 0) (room : (s.heldRoom r).1 = true)
    (fallow : s.pw.fallow = none) (detach : start = true → s.pw.detach = .none) (pad : pf r 1 1 = 0)
    (named : pf r 0 1 = 0 ∨ pf r 0 1 = 1 ∧ s.namedOk (pf r 2 6) = true) : firstFail (runChecks r start (s.numbered v r)) = none := by
  have there : start = false ∨ s.pw.detach = .none := by
    cases start
    · exact Or.inl rfl
    · exact Or.inr (detach rfl)
  rcases named with now | ⟨named, ok⟩
  · simp [firstFail_eq_none, runChecks, noNoun, noun, index, f.heldRoom, room, State.noFallow, fallow, State.notDetached, there, pz, pad, now]
  · simp [firstFail_eq_none, runChecks, noNoun, noun, index, f.heldRoom, room, State.noFallow, fallow, State.notDetached, there, pz, pad, named, ok]

/-- Settles O13: by the drill's mode, each is answered at once or held for its line. -/
theorem startAndStop : Obligations.StartAndStop := by
  unfold Obligations.StartAndStop
  intro r s len noun index room fallow idle pad named
  have cleared (v : Nat) : (s.entered v r).setRun none = (s.entered v r).modMb fun m => { m with run := none } :=
    State.setRun_idle none (by simpa using idle)
  refine ⟨fun f detach => ⟨_, rfl, ?_⟩, fun f => ⟨_, rfl, ?_⟩⟩
  · have passes := f.runChecks_pass true noun index room fallow (fun _ => detach) pad named
    by_cases stopped : s.drill.mode = 0
    · rw [if_pos stopped]
      exact f.runHolds idle (by simp [len]) passes (by simp [f.framing, State.runCleared, cleared, stopped])
    · rw [if_neg stopped]
      exact f.runAnswers idle (by simp [len]) passes (by simp [f.framing, State.runCleared, cleared, stopped, runReply])
  · have passes := f.runChecks_pass false noun index room fallow (fun h => by cases h) pad named
    by_cases stopped : s.drill.mode = 0
    · rw [if_pos stopped]
      exact f.runAnswers idle (by simp [len]) passes (by simp [State.runCleared, cleared, stopped, runReply])
    · rw [if_neg stopped]
      exact f.runHolds idle (by simp [len]) passes (by simp [State.runCleared, cleared, stopped])

end Sys2Proof.Machine
end

section
/-! SUPPORT. CARVE, and the verbs of the Almanac (07 R253 to R256; 13 R479 to R481). -/

namespace Sys2Proof.Machine

set_option Elab.async false

variable {parts : List Part} {s t : State} {r : Req} {e : Nat}

/-- An operation whose frame holds no part of the memories leaves their block as it was. -/
theorem Within.mem (w : Within parts s t) (apart : ∀ q ∈ [Part.sram, .nor, .psram, .fabric], q ∉ parts := by decide) : t.mem = s.mem := by
  have sram : t.mem.sram = s.mem.sram := w .sram (apart _ (by simp))
  have nor : t.mem.nor = s.mem.nor := w .nor (apart _ (by simp))
  have psram : t.mem.psram = s.mem.psram := w .psram (apart _ (by simp))
  obtain ⟨banks, bad, faults, cursors, holding, kind, resolved, attempts, lost, vaddr, time, pool, one, caches⟩ : Part.fabric.same s t :=
    w .fabric (apart _ (by simp))
  cases hs : s.mem
  cases ht : t.mem
  simp_all

/-! ### CARVE -/

/-- The reply of CARVE stands in the pool alone. -/
theorem State.carveReply_congr (pool : t.mem.pool = s.mem.pool) (e : Nat) : t.carveReply e = s.carveReply e := by
  simp [State.carveReply, pool]

@[simp] theorem State.numbered_epEnabled (v : Nat) (r : Req) (e : Nat) : (s.numbered v r).epEnabled e = s.epEnabled e := by
  simp [State.epEnabled]

/-- What CARVE leaves before its answer: an endpoint's allocation, and nothing of the others. -/
def State.carved (s : State) (e : Nat) (a : Nat × Nat) : State := (s.setPool e a).emptyCache 3

theorem State.carved_within (e : Nat) (a : Nat × Nat) : Within [.fabric] s (s.carved e a) :=
  State.emptyCache_frame _ (State.setPool_frame _ _ (Within.refl s))

theorem State.carved_mem (v : Nat) (a : Nat × Nat) : ((s.entered v r).carved e a).mem
    = { s.mem with pool := updAt s.mem.pool (e - 1) fun _ => a, caches := updAt s.mem.caches 3 fun _ => [] } := by
  simp [State.carved, State.emptyCache, State.setPool]

/-- Settles O14: the checks of each op pass, and its execution replaces at most one allocation. -/
theorem carveAnswers : Obligations.CarveAnswers := by
  unfold Obligations.CarveAnswers
  intro r s f len noun index room fallow pad granules
  have answered {u t : State} {a : Nat × Nat} (frame : u = (s.entered 8 r).carved (pf r 1 1) a)
      (x : Answered s t 0x08 r stOk (u.carveReply (pf r 1 1)) ∧ Within Part.ofReply u t ∧ EventsOnly [22, 23] u t) :
      Answered s t 0x08 r stOk (t.carveReply (pf r 1 1)) ∧ t.mem
        = { s.mem with pool := updAt s.mem.pool (pf r 1 1 - 1) fun _ => a, caches := updAt s.mem.caches 3 fun _ => [] } := by
    obtain ⟨answer, reply, -⟩ := x
    have mem := reply.mem
    rw [State.carveReply_congr (congrArg _ mem)]
    exact ⟨answer, by rw [mem, frame, State.carved_mem]⟩
  refine ⟨fun op least most disabled some' few none' g run => ?_, fun op least most disabled zero held => ?_, fun op most zero => ?_⟩
  · refine ⟨_, rfl, answered (a := (g, pf r 2 2)) rfl (f.serves ?_ ?_ (Prod.ext ?_ ?_) (State.carved_within _ _) (by decide))⟩
    · simp [len]
    · simp [firstFail_eq_none, noNoun, noun, index, f.heldRoom, room, State.noFallow, fallow, op, least, most, disabled, pad, some', few, granules,
        none', run, Nat.ne_of_gt least]
    · simp [op, run, State.carved]
    · simp [op, run, State.carved]
  · refine ⟨_, rfl, answered (a := (0, 0)) rfl (f.serves ?_ ?_ (Prod.ext ?_ ?_) (State.carved_within _ _) (by decide))⟩
    · simp [len]
    · simp [firstFail_eq_none, noNoun, noun, index, f.heldRoom, room, State.noFallow, fallow, op, least, most, disabled, pad, zero, granules,
        held, Nat.ne_of_gt least]
    · simp [op, State.carved]
    · simp [op, State.carved]
  · have same : (s.entered 8 r).carveReply (pf r 1 1) = s.carveReply (pf r 1 1) := State.carveReply_congr (by simp) _
    have answers : ∃ t, exec (.carveQuery r) s = .next t ∧ Answered s t 0x08 r stOk (s.carveReply (pf r 1 1)) ∧ Within Part.ofReply s t
        ∧ EventsOnly [22, 23] s t := by
      refine ⟨_, rfl, f.servesAtOnce ?_ ?_ ?_⟩
      · simp [len]
      · simp [firstFail_eq_none, noNoun, noun, index, f.heldRoom, room, State.noFallow, fallow, op, most, pad, zero, granules]
      · simp [op, same]
    obtain ⟨t, exec, answer, within, -⟩ := answers
    exact ⟨t, exec, answer, within.mem⟩

/-! ### ALMANAC_READ -/

@[simp] theorem State.stream6_almBytes (b : List Byte) : (s.stream6 b).alm.bytes = s.alm.bytes := by
  unfold State.stream6
  split <;> simp

@[simp] theorem State.queueReply_almBytes (ch : Nat) (y : Reply) : (s.queueReply ch y).alm.bytes = s.alm.bytes := by
  simp only [State.queueReply, State.ite]
  (repeat' split) <;> simp

variable {u : State} {v : Nat} {lenOk : Bool} {checks : State → List Check} {run : State → Ticket → State × Answer} {st : Nat} {p : List Byte}

/-- A request answered leaves the Almanac's bytes as its execution did: a reply only enters the trace (13 R482). -/
theorem Fresh.serve_almBytes (f : Fresh s v r) (len : lenOk = true) (passes : firstFail (checks (s.numbered v r)) = none)
    (runs : run (s.entered v r) (s.ticketFor r) = (u, .done st p)) (quiet : u.quiet = true) (final : v ≠ 4 ∨ st = stOk := by decide) :
    (s.serve v r lenOk checks run).alm.bytes = u.alm.bytes := by
  subst len
  rw [f.serve checks run passes, runs]
  simp only [State.answered]
  obtain ⟨g, y, -, settled, -⟩ := State.settle_done
    (u.modChan r.ch.val fun c => { c with held := c.held.filter (·.id != (s.ticketFor r).id) }) v r (s.ticketFor r) st p quiet final
  rw [settled]
  simp

/-- Settles O15: the selection passes, and the execution reads. -/
theorem almanacReadAnswers : Obligations.AlmanacReadAnswers := by
  unfold Obligations.AlmanacReadAnswers
  intro r s f len noun index ok fits
  have long : (r.length.toNat == 8 && (!almReadOk r || s.fits r (16 + 64 * (s.almRead (pf r 0 1) (pf r 1 1) (pf r 2 2) (pf r 4 4)).units.length)))
      = true := by simp [len, fits]
  have passes : firstFail [noNoun r, (almReadOk r, stField)] = none := by simp [firstFail_eq_none, noNoun, noun, index, ok]
  have served (p : List Byte) := f.servesAtOnce (checks := fun _ => [noNoun r, (almReadOk r, stField)]) (run := fun s _ => (s, .done stOk p))
    long passes rfl
  have bytes (p : List Byte) := f.serve_almBytes (checks := fun _ => [noNoun r, (almReadOk r, stField)]) (run := fun s _ => (s, .done stOk p))
    long passes rfl (by rw [State.entered_quiet, f.quiet])
  obtain ⟨answered, within, only⟩ := served _
  exact ⟨_, rfl, answered, within, only, (bytes _).trans (by rw [State.entered_alm])⟩

/-! ### ALMANAC_MARK and ALMANAC_CLEAR_FIRST -/

/-- A record that finds room stands at the end of the queue (13 R472). -/
theorem State.enqueue_room (x : AlmRec) (room : s.alm.queue.length < 48) :
    s.enqueue x = s.modAlm fun a => { a with queue := a.queue ++ [x] } := by
  have few : ¬48 ≤ s.alm.queue.length ∧ ¬64 ≤ s.alm.queue.length := by omega
  simp only [State.enqueue, decide_eq_false few.1, decide_eq_false few.2, Bool.false_and, Bool.or_self, Bool.false_eq_true, if_false]

theorem State.requestRecord_congr (time : t.tm = s.tm) : t.requestRecord = s.requestRecord := by
  funext k type index code detail
  rw [State.requestRecord, time]
  rfl

/-- A request held for its record's commit: the record is queued, and besides it only an event may be raised. -/
theorem Fresh.holdsRecord {x : AlmRec} {pending : Nat → Bool} (f : Fresh s v r) (len : lenOk = true)
    (passes : firstFail (checks (s.numbered v r)) = none) (runs : run (s.entered v r) (s.ticketFor r) = (u.enqueue x, .hold))
    (mb : u.mb = (s.entered v r).mb) (alm : u.alm = s.alm) (has : ∀ k, u.has k = pending k) (room : s.alm.queue.length < 48) :
    HeldIn s (s.serve v r lenOk checks run) v r
      ∧ (s.serve v r lenOk checks run).alm = { s.alm with queue := s.alm.queue ++ [x] }
      ∧ ∀ k, (s.serve v r lenOk checks run).has k = pending k := by
  rw [State.enqueue_room x (by rw [alm]; exact room)] at runs
  obtain ⟨served, held⟩ := f.servesHeld len passes runs (by simp [mb])
  rw [served]
  exact ⟨held, by simp [alm], fun k => (State.has_congr _ (by simp) _).trans (has k)⟩

/-- Settles O16: the checks pass, and the execution queues the record. -/
theorem almanacRecordsAreHeld : Obligations.AlmanacRecordsAreHeld := by
  unfold Obligations.AlmanacRecordsAreHeld
  intro r s noun index held room
  refine ⟨fun f len raise pad => ?_, fun f len service used pad => ?_⟩
  · have stands : ∀ u, u = (s.entered 0x11 r).ite (pf r 2 1 == 1) (·.raise 63) →
        u.mb = (s.entered 0x11 r).mb ∧ u.alm = s.alm ∧ u.tm = s.tm ∧ ∀ k, u.has k = (s.has k || (k == 63 && pf r 2 1 == 1)) := by
      rintro u rfl
      have arrived (k : Nat) : (s.entered 0x11 r).has k = s.has k := State.has_congr _ (State.entered_ev s 0x11 r) k
      by_cases marks : pf r 2 1 = 1 <;> simp [State.ite, marks, arrived, Bool.beq_eq_decide_eq, eq_comm (a := 63)]
    obtain ⟨mb, alm, tm, has⟩ := stands _ rfl
    refine ⟨_, rfl, f.holdsRecord ?_ ?_ ?_ mb alm has room⟩
    · simp [len]
    · simp [firstFail_eq_none, noNoun, noun, index, State.queueRoom, room, raise, pad]
    · rw [← State.requestRecord_congr tm]
  · have same : (s.entered 0x12 r).requestRecord = s.requestRecord := State.requestRecord_congr (by simp)
    refine ⟨_, rfl, f.holdsRecord ?_ ?_ (Prod.ext ?_ rfl) rfl (by simp) (State.has_congr _ (by simp)) room⟩
    · simp [len]
    · simp [firstFail_eq_none, noNoun, noun, index, service, f.heldRoom, held, State.queueRoom, room, used, pad]
    · simp [same]

end Sys2Proof.Machine
end

section
/-! SUPPORT. The Thresher's contexts and objects, and the verb that loads them (08 R260, R262, R283, R284, R290). -/

namespace Sys2Proof.Machine

set_option Elab.async false

variable {s t : State} {n id v : Nat} {o : Obj} {a : Agent} {bs : List Byte} {r : Req}

/-! ### Contexts and objects -/

theorem State.ctx_congr (thr : t.thr = s.thr) : t.ctx = s.ctx := by
  funext n
  rw [State.ctx, thr]
  rfl

theorem State.Inv.ctxs (inv : s.Inv) : s.thr.ctxs.length = 4 := by
  obtain ⟨shape, -⟩ := inv
  simp only [State.shape, Bool.and_eq_true, beq_iff_eq] at shape
  exact shape.2

/-- The context changed is the one that its operation names. -/
theorem State.modCtx_ctx (f : Ctx → Ctx) (here : n < s.thr.ctxs.length) : (s.modCtx n f).ctx n = f (s.ctx n) :=
  nth_updAt_self _ _ _ _ here

theorem State.modCtx_ctx_ne (f : Ctx → Ctx) {m : Nat} (other : m ≠ n) : (s.modCtx n f).ctx m = s.ctx m :=
  nth_updAt_ne _ _ _ _ _ (Ne.symm other)

/-- An object put in place stands under its ID. -/
theorem State.putObj_obj (o : Obj) (here : n < s.thr.ctxs.length) : ((s.putObj n o).ctx n).obj o.id = some o := by
  rw [State.putObj, State.modCtx_ctx _ here, Ctx.obj, List.find?_append]
  have gone : (((s.ctx n).objects.filter (·.id != o.id)).find? (·.id == o.id)) = none := by
    rw [List.find?_eq_none]
    intro x inside
    simpa using (List.mem_filter.mp inside).2
  simp [gone]

/-- An ID freed holds nothing, and the other IDs are as they were. -/
theorem State.dropObj_obj (here : n < s.thr.ctxs.length) (k : Nat) :
    ((s.dropObj n id).ctx n).obj k = if k = id then none else (s.ctx n).obj k := by
  rw [State.dropObj, State.modCtx_ctx _ here, Ctx.obj, List.find?_filter, Ctx.obj]
  split
  · next same =>
    rw [List.find?_eq_none]
    intro x _
    simp [same]
  · next other =>
    congr 1
    funext x
    by_cases hit : x.id = k
    · simp [hit, other]
    · simp [hit]

theorem Ctx.obj_id {c : Ctx} (found : c.obj id = some o) : o.id = id := by simpa using List.find?_some found

/-- The checks on an object stand in the mapping, the bytes and the objects of its context (08 R262). -/
theorem State.objOk_congr (config : t.cfg = s.cfg) (bytes : SameBytes s t) (thr : t.thr = s.thr) (n : Nat) (o : Obj) : t.objOk n o = s.objOk n o := by
  have only (x : State) : x.objOk n o
      = State.objOk { cfg := x.cfg, mem := { sram := x.mem.sram, nor := x.mem.nor, psram := x.mem.psram }, thr := x.thr } n o := rfl
  obtain ⟨sram, nor, psram⟩ := bytes
  rw [only t, config, sram, nor, psram, thr, ← only]

/-! ### Bytes put into a context's space -/

/-- The bytes of an access by the firmware that passes, written into a context's space. -/
def State.placed (s : State) (a : Agent) (n v : Nat) (bs : List Byte) : State :=
  (s.accessed a (s.firmwareParts (6 + n) [⟨.write, v, bs.length⟩])).virtWrite (6 + n) v bs

/-- The parts that such a write may change. -/
abbrev Part.ofPlaced : List Part := [.counters, .events, .storage, .sram, .nor, .psram, .fabric, .power]

theorem State.placed_within (a : Agent) (n v : Nat) (bs : List Byte) : Within Part.ofPlaced s (s.placed a n v bs) :=
  State.virtWrite_frame _ _ _ ((State.accessed_within a _).mono (by decide))

theorem State.placed_bytes (a : Agent) (n v : Nat) (bs : List Byte) : SameBytes (s.virtWrite (6 + n) v bs) (s.placed a n v bs) :=
  State.virtWrite_bytes (State.accessed_cfg _ _) (State.accessed_bytes _ _) _ _ _

@[simp] theorem State.placed_cfg (a : Agent) (n v : Nat) (bs : List Byte) : (s.placed a n v bs).cfg = s.cfg :=
  State.placed_within a n v bs .config (by decide)

@[simp] theorem State.placed_thr (a : Agent) (n v : Nat) (bs : List Byte) : (s.placed a n v bs).thr = s.thr :=
  State.placed_within a n v bs .thresher (by decide)

@[simp] theorem State.placed_tm (a : Agent) (n v : Nat) (bs : List Byte) : (s.placed a n v bs).tm = s.tm :=
  State.placed_within a n v bs .time (by decide)

theorem State.stewardWrite_passes (passes : FirmwarePasses s .steward (6 + n) [⟨.write, v, bs.length⟩]) :
    s.stewardWrite n v bs = (s.placed .steward n v bs, true) := by
  simp [State.stewardWrite, passes.firmware, State.placed]

/-- What becomes of an object whose last byte has arrived, as a function of the object that its header describes. -/
def State.judge (s : State) (n id : Nat) (o : Obj) : State × Answer :=
  let st := if tagStatus o.type != 0 then tagStatus o.type
    else if !s.objOk n o then stField
    else if o.type == 1 then s.ringStatus n o else 0
  if st != 0 then (s.dropObj n id, .done st [])
  else
    let awaited := s.awaitedPool n == some id
    let o := { o with complete := true }
    let s := s.putObj n o
    let s := s.ite (o.type == 7) fun s => s.modCtx n fun c => { c with poolLeft := o.entries }
    let s := s.ite (awaited && o.type == 7) fun s => (s.modCtx n fun c => { c with state := 1 }).dispatch
    (s, .done stOk (loadReply n o))

theorem State.finishLoad_eq (n id v k : Nat) :
    s.finishLoad n id v k = s.judge n id { objOf id v (s.virtRead (6 + n) v 64) with received := k } := rfl

/-- A program or a feature map whose checks pass becomes usable when its last byte has arrived (08 R262). -/
theorem State.finishLoad_passes {k : Nat} (header : { objOf id v (s.virtRead (6 + n) v 64) with received := k } = o) (type : o.type = 8 ∨ o.type = 9)
    (ok : s.objOk n o = true) : s.finishLoad n id v k = (s.putObj n { o with complete := true }, .done stOk (loadReply n { o with complete := true })) := by
  have tag : tagStatus o.type = 0 ∧ o.type ≠ 1 ∧ o.type ≠ 7 := by
    rcases type with type | type <;> rw [type] <;> decide
  obtain ⟨tag, ring, pool⟩ := tag
  rw [State.finishLoad_eq, header]
  simp [State.judge, tag, ok, ring, pool, State.ite]

/-! ### THR_LOAD -/

@[simp] theorem State.numbered_idBusy (w : Nat) (r : Req) (n id : Nat) (refill : Bool) : (s.numbered w r).idBusy n id refill = s.idBusy n id refill := by
  rw [State.numbered_eq]
  rfl

@[simp] theorem State.numbered_loadOwner (w : Nat) (r : Req) (n id : Nat) : (s.numbered w r).loadOwner n id = s.loadOwner n id := by
  rw [State.numbered_eq]
  rfl

@[simp] theorem State.entered_mapped (w : Nat) (r : Req) (h : Nat) (dir : Access) (v k : Nat) : (s.entered w r).mapped h dir v k = s.mapped h dir v k := by
  rw [State.mapped_congr (State.entered_cfg s w r)]

theorem State.entered_bytes (w : Nat) (r : Req) : SameBytes s (s.entered w r) := SameBytes.of_mem (State.entered_mem s w r)

theorem State.entered_passes (w : Nat) (r : Req) {h : Nat} {l : List Piece} (p : FirmwarePasses s a h l) : FirmwarePasses (s.entered w r) a h l :=
  p.congr (State.entered_cfg s w r) (State.entered_mem s w r)

/-- The parts that loading an object may change. -/
abbrev Part.ofLoad : List Part := .thresher :: Part.ofPlaced

/-- The object that a first chunk leaves: incomplete, and its channel's (08 R283). -/
def State.chunkObj (s : State) (r : Req) (n id v k : Nat) : Obj :=
  { objOf id v (s.virtRead (6 + n) v 64) with received := k, owner := some r.ch, lastChunk := s.tm.now }

/-- A first chunk of an ID that holds nothing is written where the request says (08 R283, R284). -/
theorem State.loadChunk_first (ctx : pf r 0 1 = n) (name : pf r 2 1 = id) (addr : pf r 4 4 = v) (off : pf r 8 4 = 0) (more : pf r 3 1 = 0)
    (empty : (s.ctx n).obj id = none) (tag : tagStatus (leAt (r.payload.drop 16) 4 1) = 0)
    (mapped : s.mapped (6 + n) .write v (r.payload.drop 16).length = true)
    (passes : FirmwarePasses s .steward (6 + n) [⟨.write, v, (r.payload.drop 16).length⟩]) :
    ∀ u, u = s.placed .steward n v (r.payload.drop 16) → ∀ o, o = u.chunkObj r n id v (r.payload.drop 16).length →
      s.loadChunk r = (u.putObj n o, .done stOk (loadReply n o)) := by
  rintro u rfl o rfl
  unfold State.loadChunk
  generalize r.payload.drop 16 = data at *
  simp [ctx, name, addr, off, more, empty, tag, mapped, State.stewardWrite_passes passes, State.chunkObj]

theorem State.idBusy_refill (busy : s.idBusy n id false = false) (refill : Bool) : s.idBusy n id refill = false := by
  unfold State.idBusy at *
  split at busy <;> simp_all

/-- The length that an op of THR_LOAD has (08 R283). -/
def loadLen (r : Req) : Bool :=
  match pf r 1 1 with
  | 0 => 16 ≤ r.length.toNat && r.length.toNat == 16 + pf r 12 4
  | 3 => r.length.toNat == 80
  | _ => r.length.toNat == 16

/-- What an op of THR_LOAD executes (08 R283). -/
def State.loadRun (s : State) (r : Req) : State × Answer :=
  match pf r 1 1 with
  | 0 => s.loadChunk r
  | 1 => s.loadStore r
  | 2 => s.unload r
  | _ => s.allocate r

def State.loadChecks (r : Req) (s : State) : List Check :=
  [noNoun r, (pf r 0 1 < 4, stNoNoun), (!s.ctxFenced (pf r 0 1) && !s.idBusy (pf r 0 1) (pf r 2 1) (pf r 1 1 ≤ 1), stBusy),
    (pf r 1 1 != 0 || (match s.loadOwner (pf r 0 1) (pf r 2 1) with | some c => c == r.ch | none => true), stBusy),
    (pf r 1 1 ≤ 3 && pf r 2 1 < 64 && pf r 3 1 ≤ 1 && (pf r 1 1 == 2 || pf r 4 4 % 256 == 0), stField)]

/-- THR_LOAD that passes its checks is answered as its op says (08 R283). -/
theorem Fresh.loads {u : State} {p : List Byte} (f : Fresh s 0x20 r) (noun : r.noun = 0) (index : r.index = 0)
    (ctx : pf r 0 1 = n) (few : n < 4) (name : pf r 2 1 = id) (small : id < 64) (fence : s.ctxFenced n = false) (busy : s.idBusy n id false = false)
    (known : pf r 1 1 ≤ 3) (last : pf r 3 1 ≤ 1) (place : pf r 1 1 = 2 ∨ pf r 4 4 % 256 = 0) (mine : pf r 1 1 = 0 → s.loadOwner n id = none)
    (len : loadLen r = true) (runs : (s.entered 0x20 r).loadRun r = (u, .done stOk p)) (frame : Within Part.ofLoad (s.entered 0x20 r) u) :
    Answered s (s.thrLoad r) 0x20 r stOk p ∧ (s.thrLoad r).ctx = u.ctx ∧ (s.thrLoad r).mem = u.mem := by
  have owner : (pf r 1 1 != 0 || (match s.loadOwner n id with | some c => c == r.ch | none => true)) = true := by
    by_cases chunk : pf r 1 1 = 0
    · simp [mine chunk]
    · simp [chunk]
  have passes : firstFail ((s.numbered 0x20 r).loadChecks r) = none := by
    have placed : (pf r 1 1 == 2 || pf r 4 4 % 256 == 0) = true := by simpa using place
    simp only [State.loadChecks, firstFail_eq_none, ctx, name, State.numbered_ctxFenced, State.numbered_idBusy, State.numbered_loadOwner, fence,
      State.idBusy_refill busy, owner, placed]
    simp [noNoun, noun, index, few, small, known, last]
  obtain ⟨answered, reply, -⟩ := f.serves (run := fun s _ => s.loadRun r) len passes runs frame (by decide)
  exact ⟨answered, State.ctx_congr (reply .thresher (by decide)), reply.mem⟩

/-- A complete object left by ops 1 and 3: its bytes are written, and its checks pass (08 R262). -/
theorem State.finishLoad_placed {k : Nat} (config : s.cfg = t.cfg) (bytes : SameBytes t s) (thr : s.thr = t.thr)
    (header : { objOf id v ((t.virtWrite (6 + n) v bs).virtRead (6 + n) v 64) with received := k } = o) (type : o.type = 8 ∨ o.type = 9)
    (ok : (t.virtWrite (6 + n) v bs).objOk n o = true) :
    (s.placed a n v bs).finishLoad n id v k = ((s.placed a n v bs).putObj n { o with complete := true }, .done stOk (loadReply n { o with complete := true })) := by
  have written : SameBytes (t.virtWrite (6 + n) v bs) (s.placed a n v bs) :=
    (State.virtWrite_bytes config bytes _ _ _).trans (State.placed_bytes _ _ _ _)
  have config' : (s.placed a n v bs).cfg = (t.virtWrite (6 + n) v bs).cfg := by simp [config]
  have thr' : (s.placed a n v bs).thr = (t.virtWrite (6 + n) v bs).thr := by
    rw [State.placed_thr, thr]
    exact ((State.virtWrite_frame (parts := Part.ofPlaced) _ _ _ (Within.refl t)) .thresher (by decide)).symm
  refine State.finishLoad_passes ?_ type ?_
  · exact (State.virtRead_congr config' written _ _ _) ▸ header
  · exact (State.objOk_congr config' written thr' n o).trans ok

theorem nor_length (k j : Nat) : (s.nor k j).length = j := by simp [State.nor, Memory.readList]

/-- A program or a feature map has a tag that may be loaded (08 R260). -/
theorem tagStatus_plain {k : Nat} (type : k = 8 ∨ k = 9) : tagStatus k = 0 := by
  rcases type with rfl | rfl <;> rfl

/-- The storage port copies an object from the store (05 R187; 08 R262). -/
theorem State.loadStore_passes {k : Nat} (ctx : pf r 0 1 = n) (name : pf r 2 1 = id) (addr : pf r 4 4 = v) (size : pf r 12 4 = k) (ready : s.selectWaits 0 = false)
    (long : 64 ≤ k) (inside : 0x900000 + pf r 8 4 + k ≤ s.fld (nCSP 8) 7 16 9 * 0x100000)
    (tag : tagStatus (leAt (s.nor (0x900000 + pf r 8 4) k) 4 1) = 0) (mapped : s.mapped (6 + n) .write v k = true)
    (passes : FirmwarePasses s .storage (6 + n) [⟨.write, v, k⟩]) :
    s.loadStore r = (s.placed .storage n v (s.nor (0x900000 + pf r 8 4) k)).finishLoad n id v k := by
  have fits : ¬(s.fld (nCSP 8) 7 16 9 * 0x100000 < 0x900000 + pf r 8 4 + k ∨ k < 64) := by omega
  unfold State.loadStore State.placed
  rw [nor_length]
  dsimp only
  rw [ctx, name, addr, size, passes.firmware]
  simp only [ready, tag, mapped, Bool.or_eq_true, decide_eq_true_eq, fits]
  rfl

/-- An object is made from its header, with zeros behind it (08 R262). -/
theorem State.allocate_passes {h : List Byte} (ctx : pf r 0 1 = n) (name : pf r 2 1 = id) (addr : pf r 4 4 = v) (header : slice r.payload 16 64 = h)
    (tag : tagStatus (leAt h 4 1) = 0) (mapped : s.mapped (6 + n) .write v (64 + leAt h 12 4) = true) (data : bs = h ++ List.replicate (leAt h 12 4) 0)
    (passes : FirmwarePasses s .steward (6 + n) [⟨.write, v, bs.length⟩]) :
    s.allocate r = (s.placed .steward n v bs).finishLoad n id v (64 + leAt h 12 4) := by
  unfold State.allocate
  dsimp only
  rw [ctx, name, addr, header, ← data, State.stewardWrite_passes passes]
  simp only [tag, mapped]
  rfl

theorem leAt_take {l : List Byte} {m off k : Nat} (inside : off + k ≤ m) : leAt (l.take m) off k = leAt l off k := by
  unfold leAt slice
  rw [List.drop_take, List.take_take, Nat.min_eq_left (by omega)]

/-- A header stands in the first 64 bytes (08 Table TH-2). -/
theorem objOf_take (id v : Nat) (l : List Byte) : objOf id v (l.take 64) = objOf id v l := by
  unfold objOf
  simp only [leAt_take (l := l) (m := 64), Nat.reduceAdd, Nat.reduceLeDiff]

theorem State.entered_placed_bytes (w : Nat) (r : Req) : SameBytes (s.virtWrite (6 + n) v bs) ((s.entered w r).placed a n v bs) :=
  (State.virtWrite_bytes (State.entered_cfg s w r) (State.entered_bytes w r) _ _ _).trans (State.placed_bytes _ _ _ _)

/-- Settles O17: each op passes its checks; its write passes, and the object in its context is as the rules say. -/
theorem thrLoadAnswers : Obligations.ThrLoadAnswers := by
  unfold Obligations.ThrLoadAnswers
  intro r s n id v inv f noun index ctx few name small addr fence busy
  have here (u : State) (thr : u.thr = s.thr) : n < u.thr.ctxs.length := by rw [thr, inv.ctxs]; exact few
  have answers {u : State} {p : List Byte} (known : pf r 1 1 ≤ 3) (last : pf r 3 1 ≤ 1) (place : pf r 1 1 = 2 ∨ pf r 4 4 % 256 = 0) (mine : pf r 1 1 = 0 → s.loadOwner n id = none)
      (len : loadLen r = true) (runs : (s.entered 0x20 r).loadRun r = (u, .done stOk p)) (frame : Within Part.ofLoad (s.entered 0x20 r) u) :=
    f.loads noun index ctx few name small fence busy known last place mine len runs frame
  have completes {a : Agent} {k : Nat} {bs : List Byte} {o : Obj} (known : pf r 1 1 ≤ 3) (last : pf r 3 1 ≤ 1) (place : pf r 4 4 % 256 = 0)
      (chunk : pf r 1 1 ≠ 0) (len : loadLen r = true) (runs : (s.entered 0x20 r).loadRun r = ((s.entered 0x20 r).placed a n v bs).finishLoad n id v k)
      (header : { objOf id v ((s.virtWrite (6 + n) v bs).virtRead (6 + n) v 64) with received := k } = o) (type : o.type = 8 ∨ o.type = 9)
      (ok : (s.virtWrite (6 + n) v bs).objOk n o = true) :
      ((s.thrLoad r).ctx n).obj id = some { o with complete := true } ∧ SameBytes (s.virtWrite (6 + n) v bs) (s.thrLoad r)
        ∧ Answered s (s.thrLoad r) 0x20 r stOk (loadReply n { o with complete := true }) := by
    have named : o.id = id := by rw [← header]; rfl
    rw [State.finishLoad_placed (State.entered_cfg s _ _) (State.entered_bytes _ _) (State.entered_thr s _ _) header type ok] at runs
    obtain ⟨answered, ctx', mem⟩ := answers known last (Or.inr place) (fun h => absurd h chunk) len runs
      (State.putObj_frame _ _ ((State.placed_within a n v bs).mono (by decide)))
    refine ⟨?_, (State.entered_placed_bytes (a := a) 0x20 r).trans (SameBytes.of_mem (mem.trans rfl)), answered⟩
    have put := State.putObj_obj (s := (s.entered 0x20 r).placed a n v bs) { o with complete := true } (here _ (by simp))
    rw [ctx', ← named]
    exact put
  refine ⟨fun op _ len empty more aligned off tag mapped passes => ?_, fun op len last aligned ready long inside mapped passes o header type ok bytes => ?_,
    fun op len last o found => ?_, fun op len last aligned h bs o hd hbs mapped passes header type bytes ok => ?_⟩
  · let u := (s.entered 0x20 r).placed .steward n v (r.payload.drop 16)
    have runs := State.loadChunk_first (s := s.entered 0x20 r) ctx name addr off more (by simpa using empty) tag
      (by simpa using mapped) (State.entered_passes _ _ passes) u rfl _ rfl
    have frame : Within Part.ofLoad (s.entered 0x20 r) (u.putObj n (u.chunkObj r n id v (r.payload.drop 16).length)) :=
      State.putObj_frame _ _ ((State.placed_within .steward n v (r.payload.drop 16)).mono (by decide))
    obtain ⟨answered, ctx', mem⟩ := answers (by omega) (by omega) (Or.inr (by rw [addr]; exact aligned))
      (fun _ => by simp [State.loadOwner, empty]) (by simp [loadLen, op, len]) (by rw [State.loadRun, op]; exact runs) frame
    refine ⟨_, rfl, ?_, u.chunkObj r n id v (r.payload.drop 16).length, ?_, rfl, rfl, rfl, rfl, ?_, answered⟩
    · exact (State.entered_placed_bytes 0x20 r).trans (SameBytes.of_mem mem)
    · rw [ctx']
      exact State.putObj_obj (o := u.chunkObj r n id v (r.payload.drop 16).length) (here u (by simp [u]))
    · simp [u, State.chunkObj]
  · have same : (s.entered 0x20 r).nor = s.nor := by
      funext k j
      simp [State.nor]
    have done := completes (a := .storage) (k := pf r 12 4) (bs := s.nor (0x900000 + pf r 8 4) (pf r 12 4)) (o := o) (by omega) last
      (by rw [addr]; exact aligned) (by omega) (by simp [loadLen, op, len]) ?_ (by rw [bytes, objOf_take, header]) type ok
    · obtain ⟨held, written, answered⟩ := done
      exact ⟨_, rfl, held, written, answered⟩
    · have tag : tagStatus (leAt (s.nor (0x900000 + pf r 8 4) (pf r 12 4)) 4 1) = 0 := tagStatus_plain (by rw [header] at type; exact type)
      rw [State.loadRun, op, ← same]
      exact State.loadStore_passes ctx name addr rfl (by simpa [State.selectWaits] using ready) long (by simpa using inside) (by rw [same]; exact tag)
        (by simpa using mapped) (State.entered_passes _ _ passes)
  · let gone := (s.entered 0x20 r).dropObj n id
    have runs : (s.entered 0x20 r).unload r = (gone, .done stOk (loadReply n { o with complete := false, received := 0 })) := by
      simp [State.unload, ctx, name, found, gone, Ctx.obj_id found]
    obtain ⟨answered, ctx', mem⟩ := answers (u := gone) (by omega) last (Or.inl op) (fun h => by omega) (by simp [loadLen, op, len])
      (by rw [State.loadRun, op]; exact runs) (State.dropObj_frame _ _ (Within.refl _))
    have objs (k : Nat) : ((s.thrLoad r).ctx n).obj k = if k = id then none else (s.ctx n).obj k := by
      rw [ctx', State.dropObj_obj (here _ (by simp)), State.entered_ctx]
    exact ⟨_, rfl, by rw [objs, if_pos rfl], mem.trans (by simp [gone, State.dropObj]), fun k other => by rw [objs, if_neg other], answered⟩
  · have done := completes (a := .steward) (k := 64 + leAt h 12 4) (bs := bs) (o := o) (by omega) last
      (by rw [addr]; exact aligned) (by omega) (by simp [loadLen, op, len]) ?_ (by rw [bytes, header]) type ok
    · obtain ⟨held, written, answered⟩ := done
      exact ⟨_, rfl, held, written, answered⟩
    · rw [State.loadRun, op]
      exact State.allocate_passes ctx name addr hd.symm (tagStatus_plain (by rw [header] at type; exact type)) (by simpa using mapped) hbs
        (State.entered_passes _ _ passes)

end Sys2Proof.Machine
end

section
/-! SUPPORT. THR_SUBMIT, THR_CANCEL, THR_STATUS and THR_RETURN, and what a dispatch leaves of a context (08 R273 to R291). -/

namespace Sys2Proof.Machine

set_option Elab.async false

variable {s t : State} {n id v : Nat} {o : Obj} {r : Req}

/-- A program's instructions stand in the mapping and the bytes. -/
theorem State.program_congr (config : t.cfg = s.cfg) (bytes : SameBytes s t) : t.program = s.program := by
  funext n o
  simp only [State.program, State.objBytes, State.virtRead_congr config bytes]

/-- The static check stands in the mapping, the bytes, the objects and the layout (08 R275). -/
theorem State.checkInstr_congr (config : t.cfg = s.cfg) (bytes : SameBytes s t) (thr : t.thr = s.thr) (sheaf : t.sheaf = s.sheaf) :
    t.checkInstr = s.checkInstr := by
  funext n env i
  have only (x : State) : x.checkInstr n env i = State.checkInstr
      { cfg := x.cfg, mem := { sram := x.mem.sram, nor := x.mem.nor, psram := x.mem.psram }, thr := x.thr, sheaf := x.sheaf } n env i := rfl
  obtain ⟨sram, nor, psram⟩ := bytes
  rw [only t, config, sram, nor, psram, thr, sheaf, ← only]

theorem State.symbols_congr (config : t.cfg = s.cfg) (bytes : SameBytes s t) (thr : t.thr = s.thr) : t.symbols = s.symbols := by
  funext n
  have only (x : State) : x.symbols n
      = State.symbols { cfg := x.cfg, mem := { sram := x.mem.sram, nor := x.mem.nor, psram := x.mem.psram }, thr := x.thr } n := rfl
  obtain ⟨sram, nor, psram⟩ := bytes
  rw [only t, config, sram, nor, psram, thr, ← only]

theorem State.checkProgram_congr (config : t.cfg = s.cfg) (bytes : SameBytes s t) (thr : t.thr = s.thr) (sheaf : t.sheaf = s.sheaf) (n : Nat)
    (l : List ThrInstr) : t.checkProgram n l = s.checkProgram n l := by
  have from' (env : List Sym) (k : Nat) (l : List ThrInstr) : t.checkFrom n env k l = s.checkFrom n env k l := by
    induction l generalizing env k with
    | nil => rfl
    | cons i l ih => simp only [State.checkFrom, State.checkInstr_congr config bytes thr sheaf, ih]
  simp only [State.checkProgram, from', State.symbols_congr config bytes thr]

/-! ### THR_SUBMIT -/

@[simp] theorem State.accessed_ctx (a : Agent) (l : List Piece) : (s.accessed a l).ctx = s.ctx :=
  State.ctx_congr (State.accessed_within a l .thresher (by decide))

@[simp] theorem State.accessed_thr (a : Agent) (l : List Piece) : (s.accessed a l).thr = s.thr :=
  State.accessed_within a l .thresher (by decide)

@[simp] theorem State.accessed_sheaf (a : Agent) (l : List Piece) : (s.accessed a l).sheaf = s.sheaf :=
  State.accessed_within a l .sheaf (by decide)

/-- The job of a request, before its first instruction is sought (08 R275). -/
def State.newJob (s : State) (r : Req) (k : Ticket) (n : Nat) (o : Obj) : Job :=
  { ticket := some k, number := (s.ctx n).jobNumber % (2 ^ 32 - 1) + 1, program := o.id, every := pf r 4 2, count := pf r 8 4
    first := if pf r 1 1 == 1 then some (pf r 12 6) else none
    pc := 0, iteration := 0, sheaf := none, skipping := false, waitSince := 0, ending := none, returned := [], layout := s.sheaf.layout }

/-- A context with a job that waits for its first sample, its counts at zero (08 R275). -/
def Ctx.started (c : Ctx) (j : Job) (l : List ThrInstr) : Ctx :=
  { c with
    state := 3, job := some { j with pc := j.next l 0 }, jobNumber := j.number, done := 0, skipped := 0, overruns := 0
    instr := j.next l 0 % 256 }

/-- THR_SUBMIT of a program that passes is accepted (08 R275). -/
theorem Fresh.submits (f : Fresh s 0x21 r) (inv : s.Inv) (len : r.length.toNat = 18) (noun : r.noun = 0) (index : r.index = 0) (ctx : pf r 0 1 = n)
    (few : n < 4) (room : (s.heldRoom r).1 = true) (fence : s.ctxFenced n = false) (idle : (s.ctx n).job = none)
    (named : pf r 1 1 = 0 ∨ pf r 1 1 = 1 ∧ s.namedOk (pf r 12 6) = true) (pad : pz r 3 1 = true) (pad' : pz r 6 2 = true) (every : 1 ≤ pf r 4 2)
    (found : (s.ctx n).loaded (pf r 2 1) = some o) (type : o.type = 8) (passes : FirmwarePasses s .steward (6 + n) ((s.ctx n).checkParts o))
    (ok : s.checkProgram n (s.program n o) = none) :
    ∃ t, exec (.thrSubmit r) s = .next t
      ∧ Answered s t 0x21 r stAccepted (leBytes 1 n ++ [0] ++ leBytes 4 ((s.ctx n).jobNumber % (2 ^ 32 - 1) + 1))
      ∧ t.ctx n = (s.ctx n).started (s.newJob r (s.ticketFor r) n o) (s.program n o) ∧ SameBytes s t := by
  let x := (s.entered 0x21 r).accessed .steward ((s.entered 0x21 r).firmwareParts (6 + n) ((s.ctx n).checkParts o))
  let u := x.modCtx n fun c => c.started (s.newJob r (s.ticketFor r) n o) (s.program n o)
  have config : x.cfg = s.cfg := by simp [x]
  have bytes : SameBytes s x := (State.entered_bytes 0x21 r).trans (State.accessed_bytes _ _)
  have thr : x.thr = s.thr := by simp [x]
  have sheaf : x.sheaf = s.sheaf := by simp [x]
  have ctxs : x.ctx = s.ctx := State.ctx_congr thr
  have read := FirmwarePasses.firmware (State.entered_passes 0x21 r passes)
  have frame : Within (.thresher :: Part.ofAccess) (s.entered 0x21 r) u :=
    State.modCtx_frame _ _ ((State.accessed_within _ _).mono (by decide))
  have answers : ∃ t, exec (.thrSubmit r) s = .next t
      ∧ Answered s t 0x21 r stAccepted (leBytes 1 n ++ [0] ++ leBytes 4 ((s.ctx n).jobNumber % (2 ^ 32 - 1) + 1))
      ∧ Within Part.ofReply u t ∧ EventsOnly [22, 23] u t := by
    refine ⟨_, rfl, f.servesAccepted ?_ ?_ ?_ frame (by decide)⟩
    · simp [len]
    · have named' : pf r 1 1 ≤ 1 ∧ (pf r 1 1 ≠ 1 ∨ s.namedOk (pf r 12 6) = true) := by
        rcases named with now | ⟨later, ok⟩
        · simp [now]
        · simp [later, ok]
      simp [firstFail_eq_none, noNoun, noun, index, ctx, few, f.heldRoom, room, fence, idle, pad, pad', every, found, type, named'.1]
      exact named'.2
    · dsimp only
      rw [ctx, State.entered_ctx, found]
      dsimp only
      rw [read]
      dsimp only
      change (match x.checkProgram n (x.program n o) with | some (k, reason) => _ | none => _) = _
      rw [State.checkProgram_congr config bytes thr sheaf, State.program_congr config bytes, ok]
      simp only [State.accessed_ctx, State.entered_ctx, State.accessed_sheaf, State.entered_sheaf]
      rfl
  obtain ⟨t, exec, answered, reply, -⟩ := answers
  refine ⟨t, exec, answered, ?_, bytes.trans ((SameBytes.of_mem rfl).trans (SameBytes.of_mem reply.mem))⟩
  rw [State.ctx_congr (reply .thresher (by decide)), State.modCtx_ctx _ (by rw [thr, inv.ctxs]; exact few), ctxs]

/-! ### What a dispatch leaves (08 R286) -/

/-- The engine is given to one of the four contexts, and to one that may run (08 R286). -/
theorem State.nextCtx_eligible {after m : Nat} (next : s.nextCtx after = some m) : m < 4 ∧ (s.ctx m).eligible = true := by
  have keeps (l : List Nat) (b : Option Nat) (all : ∀ x ∈ l, x < 4 ∧ (s.ctx x).eligible = true)
      (first : ∀ x, b = some x → x < 4 ∧ (s.ctx x).eligible = true) :
      ∀ m, l.foldl (fun b n => match b with | some m => if s.priority m < s.priority n then some n else b | none => some n) b = some m →
        m < 4 ∧ (s.ctx m).eligible = true := by
    induction l generalizing b with
    | nil => exact first
    | cons x l ih =>
      refine ih _ (fun y inside => all y (List.mem_cons_of_mem _ inside)) fun y chosen => ?_
      have here := all x List.mem_cons_self
      dsimp only at chosen
      split at chosen
      · split at chosen
        · cases chosen
          exact here
        · exact first y chosen
      · cases chosen
        exact here
  refine keeps _ none (fun x inside => ?_) (fun x h => by cases h) m next
  obtain ⟨listed, eligible⟩ := List.mem_filter.mp inside
  obtain ⟨i, -, rfl⟩ := List.mem_map.mp listed
  exact ⟨Nat.mod_lt _ (by decide), eligible⟩

theorem State.nextCtx_busy {after m : Nat} (next : s.nextCtx after = some m) (off : (s.ctx n).eligible = false) : n ≠ m := by
  rintro rfl
  rw [(State.nextCtx_eligible next).2] at off
  cases off

/-- An access of any outcome leaves the contexts alone. -/
theorem State.access_thr (a : Agent) (l : List Piece) : (s.access a l).1.thr = s.thr :=
  (State.access_frame (parts := [.counters, .events, .almanac, .storage, .fabric, .power]) a l (Within.refl s)) .thresher (by decide)

/-- A restore changes no context but its own. -/
theorem State.restoreCtx_ctx_ne {m : Nat} (other : n ≠ m) : (s.restoreCtx m).1.ctx n = s.ctx n := by
  unfold State.restoreCtx
  split
  · rfl
  · next k _ =>
    have read := State.ctx_congr (State.access_thr (s := s) (thrAgent m) [⟨.read, s.saveAddr m, 2048⟩])
    split
    · next t same =>
      rw [same] at read
      dsimp only at read ⊢
      split
      · rw [read]
      · rw [State.modCtx_ctx_ne _ other, read]
    · rw [read]

theorem State.runCtx_ctx_ne {m : Nat} (other : n ≠ m) : (s.runCtx m).ctx n = s.ctx n := State.modCtx_ctx_ne _ other

/-- A context whose job has ended (08 R285). -/
def Ctx.closed (c : Ctx) : Ctx := { c with job := none, state := 0, saved := none, parking := none }

theorem State.completeOpt_thr (k : Option Ticket) (st : Nat) (p : List Byte) : (s.completeOpt k st p).thr = s.thr :=
  (State.completeOpt_frame (parts := [.requests, .counters, .events, .almanac, .harrow]) k st p (Within.refl s)) .thresher (by decide)

/-- The end of a job changes its own context (08 R285). -/
theorem State.closeJob_ctx {j : Job} (reason : Nat) (job : (s.ctx n).job = some j) :
    (s.closeJob n reason).ctx = (s.modCtx n Ctx.closed).ctx := by
  have freed : ((s.modCtx n Ctx.closed).freeEngine n).ctx = (s.modCtx n Ctx.closed).ctx := by
    unfold State.freeEngine
    split <;> rfl
  have told (x : State) (d : List Byte) : (if reason = 0 then (x.bump nTHRESHER 2 0 32).raise 35
      else if reason = 1 || reason = 2 then x
      else ((x.ite (reason == 4) (·.bump nTHRESHER 4 16 16)).log 0x30 (nTHRCTX n) 0 reason d).raise 36).thr = x.thr := by
    simp only [State.ite]
    (repeat' split) <;> simp
  unfold State.closeJob
  dsimp only
  rw [job]
  dsimp only
  rw [State.ctx_congr (State.completeOpt_thr _ _ _), State.ctx_congr (told _ _), ← freed]
  rfl

theorem State.closeJob_ctx_ne {m : Nat} (reason : Nat) (other : n ≠ m) : (s.closeJob m reason).ctx n = s.ctx n := by
  cases job : (s.ctx m).job with
  | none => simp [State.closeJob, job]
  | some j => rw [State.closeJob_ctx reason job, State.modCtx_ctx_ne _ other]

/-- A dispatch leaves a context that may not run alone (08 R286). -/
theorem State.dispatchN_idle (k : Nat) (idle : (s.ctx n).eligible = false) : (State.dispatchN k s).ctx n = s.ctx n := by
  induction k generalizing s with
  | zero => rfl
  | succ k ih =>
    unfold State.dispatchN
    split
    · split
      · rfl
      · next m next =>
        have other := State.nextCtx_busy next idle
        have restored := State.restoreCtx_ctx_ne (s := s) other
        split
        · next u same =>
          rw [same] at restored
          rw [State.runCtx_ctx_ne other, restored]
        · next u same =>
          rw [same] at restored
          split
          · have kept : (u.modCtx m fun c => { c with state := 4 }).ctx n = s.ctx n := by rw [State.modCtx_ctx_ne _ other, restored]
            rw [ih (by rw [kept]; exact idle), kept]
          · exact restored
        · next u same =>
          rw [same] at restored
          have kept : (u.closeJob m 4).ctx n = s.ctx n := by rw [State.closeJob_ctx_ne _ other, restored]
          rw [ih (by rw [kept]; exact idle), kept]
    · rfl

/-! ### THR_CANCEL -/

/-- Serving any request leaves what its execution left, but for the mailbox, counters, events, the trace and the injector's draw. -/
theorem Fresh.serve_within {w : Nat} {checks : State → List Check} {run : State → Ticket → State × Answer} {lenOk : Bool} (f : Fresh s w r)
    (len : lenOk = true) (passes : firstFail (checks (s.numbered w r)) = none) :
    Within [.requests, .counters, .events, .almanac, .harrow] (run (s.entered w r) (s.ticketFor r)).1 (s.serve w r lenOk checks run) := by
  subst len
  rw [f.serve checks run passes]
  exact State.answered_frame _ _ _ _ (Within.refl _)

/-- The parts that the end of a job and a dispatch may change. -/
abbrev Part.ofDispatch : List Part := [.requests, .counters, .events, .almanac, .storage, .fabric, .power, .harrow, .thresher]

/-- A job told to end while it holds the engine only takes a note of it (08 R287). -/
theorem State.stopJob_running {j : Job} (reason : Nat) (here : n < s.thr.ctxs.length) (running : s.thr.running = some n)
    (awake : s.suspended (thrAgent n) = false) (job : (s.ctx n).job = some j) (going : j.ending = none) :
    Within [.thresher] s (s.stopJob n reason) ∧ ((s.stopJob n reason).ctx n).job = some { j with ending := some reason } := by
  have stopped : s.stopJob n reason
      = s.modCtx n fun c => { c with job := c.job.map fun j => { j with ending := j.ending <|> some reason } } := by
    simp [State.stopJob, running, awake]
  rw [stopped]
  refine ⟨State.modCtx_frame _ _ (Within.refl s), ?_⟩
  rw [State.modCtx_ctx _ here]
  simp [job, going]

/-- Any other job ends at once (08 R287). -/
theorem State.stopJob_ends {j : Job} (reason : Nat) (here : n < s.thr.ctxs.length) (job : (s.ctx n).job = some j)
    (idle : ¬(s.thr.running = some n ∧ s.suspended (thrAgent n) = false)) : (s.stopJob n reason).ctx n = (s.ctx n).closed := by
  have stopped : s.stopJob n reason = (s.closeJob n reason).dispatch := by
    have off : (s.thr.running == some n && !s.suspended (thrAgent n)) = false := by simpa using idle
    simp [State.stopJob, off, State.endJob]
  have closed : (s.closeJob n reason).ctx n = (s.ctx n).closed := by rw [State.closeJob_ctx reason job, State.modCtx_ctx _ here]
  rw [stopped, State.dispatch, State.dispatchN_idle 5 (by rw [closed]; rfl), closed]

theorem Fresh.cancels {j : Job} (f : Fresh s 0x22 r) (inv : s.Inv) (len : r.length.toNat = 8) (noun : r.noun = 0) (index : r.index = 0)
    (ctx : pf r 0 1 = n) (few : n < 4) (fence : s.ctxFenced n = false) (pad : pz r 1 3 = true) (job : (s.ctx n).job = some j)
    (number : pf r 4 4 = 0 ∨ pf r 4 4 = j.number) (going : j.ending = none) : ∃ t, exec (.thrCancel r) s = .next t ∧ SameBytes s t
      ∧ (if s.thr.running = some n ∧ s.suspended (thrAgent n) = false then
          Answered s t 0x22 r stOk [] ∧ (t.ctx n).job = some { j with ending := some 1 }
        else (t.ctx n).job = none ∧ (t.ctx n).state = 0) := by
  let checks (s : State) : List Check := [noNoun r, (pf r 0 1 < 4, stNoNoun), (!s.ctxFenced (pf r 0 1), stBusy),
    (pz r 1 3 && (pf r 4 4 == 0 || ((s.ctx (pf r 0 1)).job.any fun j => j.number == pf r 4 4)), stField)]
  have long : (r.length.toNat == 8) = true := by simp [len]
  have passes : firstFail (checks (s.numbered 0x22 r)) = none := by
    simp [checks, firstFail_eq_none, noNoun, noun, index, ctx, few, fence, pad, job]
    exact number.imp_right Eq.symm
  have execs : exec (.thrCancel r) s = .next (s.serve 0x22 r (r.length.toNat == 8) checks fun s _ => (s.stopJob n 1, .done stOk [])) := by
    rw [← ctx]
    rfl
  have served := f.serve_within (run := fun s _ => (s.stopJob n 1, .done stOk [])) long passes
  have here : n < (s.entered 0x22 r).thr.ctxs.length := by rw [State.entered_thr, inv.ctxs]; exact few
  have job' : ((s.entered 0x22 r).ctx n).job = some j := by rw [State.entered_ctx]; exact job
  have ctx' := State.ctx_congr (served .thresher (by decide))
  refine ⟨_, execs, ?_, ?_⟩
  · have ended : Within Part.ofDispatch (s.entered 0x22 r) ((s.entered 0x22 r).stopJob n 1) := State.stopJob_frame _ _ (Within.refl _)
    exact ((State.entered_bytes 0x22 r).trans ended.bytes).trans served.bytes
  · split
    · next holds =>
      obtain ⟨frame, told⟩ := State.stopJob_running 1 here (by simpa using holds.1) (by simpa [State.suspended] using holds.2) job' going
      obtain ⟨answered, -, -⟩ := f.serves (run := fun s _ => (s.stopJob n 1, .done stOk [])) long passes rfl frame (by decide)
      exact ⟨answered, by rw [ctx', told]⟩
    · next waits =>
      have closed := State.stopJob_ends 1 here job' (by simpa [State.suspended] using waits)
      rw [ctx']
      dsimp only
      rw [closed]
      exact ⟨rfl, rfl⟩

/-- Settles O18: a program that passes is given its context, and a cancelled job ends or is told to. -/
theorem jobsAcceptedAndCancelled : Obligations.JobsAcceptedAndCancelled := by
  unfold Obligations.JobsAcceptedAndCancelled
  refine ⟨fun r s n o inv f len noun index ctx few room fence idle named pad pad' every found type passes ok => ?_,
    fun r s n j inv f len noun index ctx few fence pad job number going => f.cancels inv len noun index ctx few fence pad job number going⟩
  obtain ⟨t, exec, answered, ctx', bytes⟩ := f.submits inv len noun index ctx few room fence idle named pad pad' every found type passes ok
  refine ⟨t, exec, answered, ?_⟩
  rw [ctx']
  refine ⟨rfl, rfl, rfl, rfl, rfl, ?_, bytes⟩
  simp [Ctx.started, State.newJob]

end Sys2Proof.Machine
end

section
/-! SUPPORT. What of the state decides whether an access passes, and that an access of one holding leaves that of another as it was
(07 R237, R241); THR_STATUS and THR_RETURN (08 R281, R286, R291). -/

namespace Sys2Proof.Machine

set_option Elab.async false

variable {s t u : State} {a : Agent} {l : List Piece} {n h v : Nat} {r : Req}

/-! ### The path of an access -/

/-- What decides whether accesses through holding h pass: the mapping, the banks, the words with errors, the holding's cache, the faults
that suspend an agent, and what the storage port is at. -/
structure SamePath (h : Nat) (s t : State) : Prop where
  cfg : t.cfg = s.cfg
  banks : ∀ k, (t.bank k).state = (s.bank k).state
  words : t.mem.eccBad = s.mem.eccBad
  cache : nth [] t.mem.caches h = nth [] s.mem.caches h
  faults : t.mem.faults = s.mem.faults
  busy : t.csp8.busy = s.csp8.busy
  queue : t.csp8.queue = s.csp8.queue
  fence : t.csp8.fence = s.csp8.fence

theorem SamePath.refl (h : Nat) (s : State) : SamePath h s s := ⟨rfl, fun _ => rfl, rfl, rfl, rfl, rfl, rfl, rfl⟩

theorem SamePath.trans (x : SamePath h s t) (y : SamePath h t u) : SamePath h s u where
  cfg := y.cfg.trans x.cfg
  banks k := (y.banks k).trans (x.banks k)
  words := y.words.trans x.words
  cache := y.cache.trans x.cache
  faults := y.faults.trans x.faults
  busy := y.busy.trans x.busy
  queue := y.queue.trans x.queue
  fence := y.fence.trans x.fence

theorem SamePath.of_same (config : t.cfg = s.cfg) (mem : t.mem = s.mem) (storage : t.csp8 = s.csp8) : SamePath h s t where
  cfg := config
  banks k := by rw [State.bank, mem]; rfl
  words := by rw [mem]
  cache := by rw [mem]
  faults := by rw [mem]
  busy := by rw [storage]
  queue := by rw [storage]
  fence := by rw [storage]

theorem SamePath.runFault (x : SamePath (holdingOf a) s t) : t.runFault a = s.runFault a := by
  funext dir v k
  have walk (p : Nat) : t.walkBad (holdingOf a) p = s.walkBad (holdingOf a) p := by
    simp only [State.walkBad, State.cached, State.leafUsed, x.words, x.cache, State.plot_congr x.cfg]
  simp only [State.runFault, walk, State.plot_congr x.cfg, x.banks, x.words]

theorem SamePath.firstFault (x : SamePath (holdingOf a) s t) (k ix : Nat) (l : List Piece) : t.firstFault a k ix l = s.firstFault a k ix l := by
  induction l generalizing k ix with
  | nil => rfl
  | cons y l ih => simp only [State.firstFault, State.pieceFault, x.runFault, ih]

theorem SamePath.stalls (x : SamePath h s t) : t.stalls = s.stalls := by
  funext a l
  simp only [State.stalls, State.writing, State.selectWaits, State.translate_congr x.cfg, x.busy, x.queue, x.fence]

theorem Passes.path (p : Passes s a l) (x : SamePath (holdingOf a) s t) : Passes t a l where
  awake := by rw [State.suspended, x.faults]; exact p.awake
  clear := by rw [x.firstFault]; exact p.clear
  flows := by rw [x.stalls]; exact p.flows

/-! ### What leaves the path of another holding -/

/-- A field of every item that a change keeps. -/
theorem nth_updAt_field {α β : Type} (g : α → β) (d : α) (l : List α) (i j : Nat) (f : α → α) (keeps : ∀ x, g (f x) = g x) :
    g (nth d (updAt l i f) j) = g (nth d l j) := by
  by_cases same : i = j
  · subst same
    by_cases inside : i < l.length
    · rw [nth_updAt_self d l i f inside, keeps]
    · simp [nth, updAt, inside]
  · rw [nth_updAt_ne d l i j f same]

theorem State.enterCache_path (g p : Nat) (other : g ≠ h) : SamePath h s (s.enterCache g p) := by
  unfold State.enterCache
  split
  · exact SamePath.refl h s
  · exact { SamePath.refl h s with cache := nth_updAt_ne _ _ _ _ _ other }

theorem State.correct_path (dir : Access) (p k : Nat) : SamePath h s (s.correct dir p k) := by
  unfold State.correct
  dsimp only
  split
  · exact { SamePath.refl h s with }
  · exact SamePath.trans (t := s.modMem fun m => { m with eccOne := m.eccOne.filter fun w => !(w < p + k && p < w + 8) })
      { SamePath.refl h s with } (SamePath.of_same (by simp) (by simp) (by simp))

theorem State.touchRun_path (dir : Access) (v k : Nat) (other : holdingOf a ≠ h) : SamePath h s (s.touchRun a dir v k) := by
  unfold State.touchRun
  dsimp only
  split
  · exact SamePath.refl h s
  · refine (State.enterCache_path (holdingOf a) (v / 4096) other).trans ?_
    split
    · next b _ =>
      refine SamePath.trans ?_ (State.correct_path _ _ _)
      exact { SamePath.refl h _ with banks := fun j => nth_updAt_field Bank.state _ _ _ _ _ fun _ => rfl }
    · exact { SamePath.refl h _ with }

/-- An access through one holding leaves the path of another as it was. -/
theorem State.accessed_path (l : List Piece) (other : holdingOf a ≠ h) : SamePath h s (s.accessed a l) := by
  have touched (x : State) (p : Piece) : SamePath h x (x.touch a p) := by
    unfold State.touch
    generalize plotRuns p.vaddr p.len = runs
    induction runs generalizing x with
    | nil => exact SamePath.refl h x
    | cons y runs ih => exact (State.touchRun_path _ _ _ other).trans (ih _)
  have all : SamePath h s (l.foldl (fun s x => s.touch a x) s) := by
    induction l generalizing s with
    | nil => exact SamePath.refl h s
    | cons x l ih => exact (touched s x).trans ih
  exact all.trans { SamePath.refl h _ with }

/-- The same bytes written in two states leave a path the same in both. -/
theorem SamePath.virtWrite (x : SamePath h s t) (g v : Nat) (bs : List Byte) : SamePath h (s.virtWrite g v bs) (t.virtWrite g v bs) := by
  unfold State.virtWrite
  generalize plotRuns v bs.length = runs
  induction runs generalizing s t with
  | nil => exact x
  | cons y runs ih =>
    simp only [List.foldl_cons, State.translate_congr x.cfg]
    split
    · refine ih ?_
      unfold State.physWrite State.storeWrite State.kindOf
      rw [State.fld_congr x.cfg]
      dsimp only
      (repeat' split)
      · exact { x with words := by simp [x.words] }
      all_goals exact { x with }
    · exact ih x

/-! ### THR_STATUS -/

/-- What THR_STATUS tells, but for the object's flags (08 Table TH-7). -/
def statusReply (n : Nat) (c : Ctx) (fl : Byte) (off : Nat) (bs : List Byte) : List Byte :=
  leBytes 1 n ++ leBytes 1 c.state ++ leBytes 2 c.instr ++ leBytes 4 c.jobNumber ++ leBytes 4 c.done ++ leBytes 4 c.skipped
    ++ leBytes 4 c.overruns ++ leBytes 2 c.handoff ++ [fl] ++ [0] ++ leBytes 4 off ++ leBytes 4 bs.length ++ bs

theorem leBytes_one (n : Nat) : leBytes 1 n = [BitVec.ofNat 8 n] := by
  simp [leBytes]

/-- THR_STATUS answers with the context, and with a part of an object where it names one (08 R283). -/
theorem Fresh.tells {o : Option Obj} (f : Fresh s 0x23 r) (len : r.length.toNat = 10) (noun : r.noun = 0) (index : r.index = 0) (ctx : pf r 0 1 = n)
    (few : n < 4) (fits : s.fits r (32 + pf r 8 2) = true) (fence : s.ctxFenced n = false) (pad : pz r 2 2 = true) (small : pf r 8 2 ≤ 4046)
    (asked : (if pf r 1 1 == 0xFF then none else (s.ctx n).obj (pf r 1 1)) = o)
    (inside : pf r 1 1 = 0xFF ∨ ∃ x, o = some x ∧ pf r 4 4 + pf r 8 2 ≤ (if x.complete then 64 + x.dataLen else x.received))
    (passes : FirmwarePasses s .steward (6 + n) (o.map fun x => ⟨.read, x.vaddr + pf r 4 4, pf r 8 2⟩).toList) :
    ∃ t, exec (.thrStatus r) s = .next t
      ∧ Answered s t 0x23 r stOk (statusReply n (s.ctx n) (BitVec.ofNat 8 ((o.map (·.flags)).getD 0)) (pf r 4 4)
          ((o.map fun x => s.objBytes n x (pf r 4 4) (pf r 8 2)).getD []))
      ∧ Within Part.ofRead s t ∧ EventsOnly [22, 23, 42] s t := by
  let pieces := s.firmwareParts (6 + n) (o.map fun x => ⟨.read, x.vaddr + pf r 4 4, pf r 8 2⟩).toList
  have read := FirmwarePasses.firmware (State.entered_passes 0x23 r passes)
  rw [State.entered_firmwareParts] at read
  refine ⟨_, rfl, f.servesWithin ?_ ?_ (Prod.ext ?_ ?_) (State.accessed_within .steward pieces)
    fun k hk => State.accessed_events .steward pieces k fun h => hk (by simp_all)⟩
  · simp [len, Nat.min_eq_left small, fits]
  · simp only [firstFail_eq_none, ctx, State.numbered_ctx, State.numbered_ctxFenced]
    rcases inside with none' | ⟨x, named, within⟩
    · simp [noNoun, noun, index, few, fence, pad, small, none']
    · have other : pf r 1 1 ≠ 0xFF := fun none' => by simp [none', named] at asked
      have found : (s.ctx n).obj (pf r 1 1) = some x := by simpa [other, named] using asked
      simpa [noNoun, noun, index, few, fence, pad, small, found] using Or.inr within
  · simp only [ctx, State.entered_ctx, asked, read]
    rfl
  · simp only [ctx, State.entered_ctx, asked, read]
    cases o <;> simp [statusReply, leBytes_one, State.objBytes]

/-! ### THR_RETURN -/

theorem State.jobProgram_congr (config : t.cfg = s.cfg) (bytes : SameBytes s t) (thr : t.thr = s.thr) : t.jobProgram = s.jobProgram := by
  funext n
  simp only [State.jobProgram, State.ctx_congr thr, State.program_congr config bytes]

variable {j : Job} {bs : List Byte}

/-- A replacement taken in one state is taken in another with the same mapping, bytes and objects, and leaves the same there (08 R281). -/
theorem State.takeReturn_same (taken : s.takeReturn n j bs = some u) (config : t.cfg = s.cfg) (bytes : SameBytes s t) (thr : t.thr = s.thr) :
    ∃ y, t.takeReturn n j bs = some y ∧ y.cfg = u.cfg ∧ y.thr = u.thr ∧ SameBytes u y ∧ Within Part.ofLoad t y
      ∧ ∀ h, SamePath h s t → SamePath h u y := by
  unfold State.takeReturn at taken ⊢
  rw [State.jobProgram_congr config bytes thr, State.ctx_congr thr]
  dsimp only at taken ⊢
  cases found : (s.ctx n).loaded (handleId ((s.jobProgram n).getD j.pc thrEnd).dst) with
  | none =>
    rw [found] at taken
    cases taken
  | some d =>
    have bytes' := State.virtWrite_bytes config bytes (6 + n) d.vaddr bs
    have written (x : State) : Within Part.ofPlaced x (x.virtWrite (6 + n) d.vaddr bs) := State.virtWrite_frame _ _ _ (Within.refl x)
    have thr' : (t.virtWrite (6 + n) d.vaddr bs).thr = (s.virtWrite (6 + n) d.vaddr bs).thr := by
      rw [written t .thresher (by decide), written s .thresher (by decide), thr]
    rw [found] at taken
    simp only [Option.bind_some, State.objOk_congr (n := n) (by simpa using config) bytes' thr'] at taken ⊢
    split at taken
    · next fits =>
      rw [if_pos fits]
      cases taken
      refine ⟨_, rfl, by simpa [State.putObj] using config, ?_, bytes', ?_, fun h x => ?_⟩
      · simp [State.putObj, State.modCtx, thr']
      · exact State.putObj_frame _ _ ((written t).mono (by decide))
      · have path := x.virtWrite (6 + n) d.vaddr bs
        exact { path with }
    · cases taken

/-- A replacement is taken by writing it and putting its object in place. -/
theorem State.takeReturn_thr (taken : s.takeReturn n j bs = some u) :
    u.thr.ctxs.length = s.thr.ctxs.length ∧ u.thr.running = s.thr.running := by
  unfold State.takeReturn at taken
  dsimp only at taken
  cases found : (s.ctx n).loaded (handleId ((s.jobProgram n).getD j.pc thrEnd).dst) with
  | none =>
    rw [found] at taken
    cases taken
  | some d =>
    have written : (s.virtWrite (6 + n) d.vaddr bs).thr = s.thr :=
      (State.virtWrite_frame (parts := Part.ofPlaced) _ _ _ (Within.refl s)) .thresher (by decide)
    rw [found, Option.bind_some] at taken
    split at taken
    · cases taken
      simp [State.putObj, State.modCtx, State.modThr, written]
    · cases taken

theorem State.modCtx_congr {m : Nat} (thr : t.thr = s.thr) (f : Ctx → Ctx) : (t.modCtx m f).ctx = (s.modCtx m f).ctx :=
  State.ctx_congr (by rw [State.modCtx, State.modCtx, State.modThr, State.modThr, thr])

/-- A context read back, or with nothing to read back, changes at most its own place in its program (08 R287). -/
theorem State.restoreCtx_done {m : Nat} (restorable : Restorable s m) : ∃ x, s.restoreCtx m = (x, .done)
    ∧ Within (.thresher :: Part.ofAccess) s x ∧ x.thr.ctxs.length = s.thr.ctxs.length
    ∧ (x.ctx = s.ctx ∨ ∃ pc, x.ctx = (s.modCtx m fun c => { c with job := c.job.map fun j => { j with pc } }).ctx) := by
  unfold State.restoreCtx
  rcases restorable with none' | passes
  · rw [none']
    exact ⟨s, rfl, Within.refl s, rfl, Or.inl rfl⟩
  · split
    · exact ⟨s, rfl, Within.refl s, rfl, Or.inl rfl⟩
    · next k _ =>
      have frame : Within (.thresher :: Part.ofAccess) s (s.accessed (thrAgent m) [⟨.read, s.saveAddr m, 2048⟩]) :=
        (State.accessed_within _ _).mono (by decide)
      rw [passes.access]
      dsimp only
      split
      · exact ⟨_, rfl, frame, by simp, Or.inl (by simp)⟩
      · exact ⟨_, rfl, State.modCtx_frame _ _ frame, by simp [State.modCtx], Or.inr ⟨_, State.modCtx_congr (State.accessed_thr _ _) _⟩⟩

/-- Where every context can be read back, a dispatch gives an idle engine to one context at most (08 R286). -/
theorem State.dispatch_restores (all : ∀ m, m < 4 → Restorable s m) : s.dispatch = s
    ∨ s.thr.running = none ∧ ∃ m x, s.restoreCtx m = (x, .done) ∧ Restorable s m ∧ s.dispatch = x.runCtx m := by
  unfold State.dispatch State.dispatchN
  split
  · next idle =>
    simp only [Bool.and_eq_true, Option.isNone_iff_eq_none] at idle
    split
    · exact Or.inl rfl
    · next m next =>
      have restorable := all m (State.nextCtx_eligible next).1
      obtain ⟨x, done, -⟩ := State.restoreCtx_done restorable
      rw [done]
      exact Or.inr ⟨idle.2, m, x, done, restorable, rfl⟩
  · exact Or.inl rfl

/-- A context ready, or on the engine at once: its job goes on, at a place that only a restore may change (08 R286). -/
structure Ctx.Ready (c d : Ctx) : Prop where
  state : d.state = c.state ∨ d.state = 2
  job : d.job = c.job ∨ ∃ pc, d.job = c.job.map fun j => { j with pc }

/-- After a dispatch a context is as it was, or runs. -/
theorem State.dispatch_ready (all : ∀ m, m < 4 → Restorable s m) (here : s.thr.ctxs.length = 4) (few : n < 4) :
    Within (.thresher :: Part.ofAccess) s s.dispatch ∧ (s.ctx n).Ready (s.dispatch.ctx n) := by
  rcases State.dispatch_restores all with same | ⟨-, m, x, done, restorable, runs⟩
  · rw [same]
    exact ⟨Within.refl s, Or.inl rfl, Or.inl rfl⟩
  · obtain ⟨y, again, frame, done', ctx⟩ := State.restoreCtx_done restorable
    cases done.symm.trans again
    rw [runs]
    have long : x.thr.ctxs.length = 4 := done'.trans here
    refine ⟨State.runCtx_frame _ frame, ?_⟩
    by_cases same : n = m
    · subst same
      have ran : (x.runCtx n).ctx n = { x.ctx n with state := 2, saved := none } := State.modCtx_ctx _ (by simpa [State.modThr, long] using few)
      rw [ran]
      rcases ctx with ctx | ⟨pc, ctx⟩
      · exact ⟨Or.inr rfl, Or.inl (by rw [ctx])⟩
      · exact ⟨Or.inr rfl, Or.inr ⟨pc, by rw [ctx, State.modCtx_ctx _ (by omega)]⟩⟩
    · rw [State.runCtx_ctx_ne same]
      have kept : x.ctx n = s.ctx n := by
        rcases ctx with ctx | ⟨pc, ctx⟩
        · rw [ctx]
        · rw [ctx, State.modCtx_ctx_ne _ same]
      rw [kept]
      exact ⟨Or.inl rfl, Or.inl rfl⟩

theorem State.dispatch_running (busy : s.thr.running.isSome = true) : s.dispatch = s := by
  have held : s.thr.running.isNone = false := by simpa using busy
  simp [State.dispatch, State.dispatchN, held]

@[simp] theorem holdingOf_thrAgent {m : Nat} (few : m < 4) : holdingOf (thrAgent m) = 6 + m := by
  simp [holdingOf, thrAgent, Nat.mod_eq_of_lt few]

theorem Restorable.path {m : Nat} (p : Restorable s m) (x : SamePath (holdingOf (thrAgent m)) s t) (saved : (t.ctx m).saved = (s.ctx m).saved) :
    Restorable t m := by
  rcases p with none' | passes
  · exact Or.inl (saved.trans none')
  · right
    have same : t.saveAddr m = s.saveAddr m := by rw [State.saveAddr, State.reg_congr x.cfg]; rfl
    rw [same]
    exact passes.path x

@[simp] theorem State.entered_returnPart (w : Nat) (r : Req) (n : Nat) (j : Job) (bs : List Byte) :
    (s.entered w r).returnPart n j bs = s.returnPart n j bs := by
  simp only [State.returnPart, State.entered_ctx, State.jobProgram_congr (State.entered_cfg s w r) (State.entered_bytes w r) (State.entered_thr s w r)]

/-- The checks of THR_RETURN (08 R281). -/
def returnChecks (r : Req) (s : State) : List Check :=
  [noNoun r, (pf r 0 1 < 4, stNoNoun), (!s.ctxFenced (pf r 0 1), stBusy),
    (pf r 1 1 ≤ 1 && (s.ctx (pf r 0 1)).state == 5 && pf r 2 2 == (s.ctx (pf r 0 1)).handoff
      && ((s.ctx (pf r 0 1)).job.any fun j => j.returned.length == pf r 4 4), stField)]

/-- A context whose hand-off has been answered: its job stands behind the HANDOFF (08 R281). -/
def Ctx.resumed (c : Ctx) (j : Job) (l : List ThrInstr) : Ctx :=
  { c with state := 1, instr := j.next l (j.pc + 1) % 256, job := some { j with pc := j.next l (j.pc + 1), returned := [] } }

/-- What THR_RETURN executes where the context has a job (08 R281). -/
def State.returnRun (r : Req) (s : State) : State × Answer :=
  match (s.ctx (pf r 0 1)).job with
  | none => (s, .done stField [])
  | some j =>
    let bs := j.returned ++ r.payload.drop 8
    if pf r 1 1 = 0 then
      (s.modCtx (pf r 0 1) fun c => { c with job := some { j with returned := bs } }, .done stOk (leBytes 4 bs.length))
    else match s.firmware .steward (6 + pf r 0 1) (s.returnPart (pf r 0 1) j bs).toList with
      | (s, false) => (s, .done stFault [])
      | (s, true) =>
      match s.takeReturn (pf r 0 1) j bs with
      | none => (s.modCtx (pf r 0 1) fun c => { c with job := some { j with returned := [] } }, .done stField [])
      | some s => ((s.modCtx (pf r 0 1) fun c => c.resumed j (s.jobProgram (pf r 0 1))).dispatch, .done stOk (leBytes 4 bs.length))

theorem exec_thrReturn (r : Req) (s : State) :
    exec (.thrReturn r) s = .next (s.serve 0x24 r (8 ≤ r.length.toNat) (returnChecks r) fun s _ => s.returnRun r) := rfl

theorem returnChecks_pass {w : Nat} (noun : r.noun = 0) (index : r.index = 0) (ctx : pf r 0 1 = n) (few : n < 4) (fence : s.ctxFenced n = false)
    (waits : (s.ctx n).state = 5) (number : pf r 2 2 = (s.ctx n).handoff) (job : (s.ctx n).job = some j) (joined : j.returned.length = pf r 4 4)
    (op : pf r 1 1 ≤ 1) : firstFail (returnChecks r (s.numbered w r)) = none := by
  simp [returnChecks, firstFail_eq_none, noNoun, noun, index, ctx, few, fence, waits, number, job, joined, op]

/-- A chunk that is not the last is joined to what has been returned (08 R281). -/
theorem State.returnRun_joins (ctx : pf r 0 1 = n) (job : (s.ctx n).job = some j) (op : pf r 1 1 = 0) (whole : bs = j.returned ++ r.payload.drop 8) :
    s.returnRun r = (s.modCtx n fun c => { c with job := some { j with returned := bs } }, .done stOk (leBytes 4 bs.length)) := by
  simp [State.returnRun, ctx, job, op, whole]

/-- The last chunk, whose whole replaces dst, makes the job ready (08 R281, R286). -/
theorem State.returnRun_takes {x y : State} (ctx : pf r 0 1 = n) (job : (s.ctx n).job = some j) (op : pf r 1 1 = 1) (whole : bs = j.returned ++ r.payload.drop 8)
    (passes : FirmwarePasses s .steward (6 + n) (s.returnPart n j bs).toList)
    (reached : x = s.accessed .steward (s.firmwareParts (6 + n) (s.returnPart n j bs).toList)) (taken : x.takeReturn n j bs = some y) :
    s.returnRun r = ((y.modCtx n fun c => c.resumed j (y.jobProgram n)).dispatch, .done stOk (leBytes 4 bs.length)) := by
  subst whole
  have read := passes.firmware
  rw [← reached] at read
  simp [State.returnRun, ctx, job, op, read, taken]

/-- THR_RETURN of the last chunk (08 R281, R286). -/
theorem Fresh.returns (f : Fresh s 0x24 r) (inv : s.Inv) (len : 8 ≤ r.length.toNat) (noun : r.noun = 0) (index : r.index = 0) (ctx : pf r 0 1 = n)
    (few : n < 4) (fence : s.ctxFenced n = false) (waits : (s.ctx n).state = 5) (number : pf r 2 2 = (s.ctx n).handoff) (job : (s.ctx n).job = some j)
    (joined : j.returned.length = pf r 4 4) (whole : bs = j.returned ++ r.payload.drop 8) (op : pf r 1 1 = 1)
    (passes : FirmwarePasses s .steward (6 + n) (s.returnPart n j bs).toList) (taken : s.takeReturn n j bs = some u)
    (all : ∀ m, m < 4 → Restorable u m) : ∃ t, exec (.thrReturn r) s = .next t ∧ Answered s t 0x24 r stOk (leBytes 4 bs.length) ∧ SameBytes u t
      ∧ (((u.ctx n).resumed j (u.jobProgram n)).Ready (t.ctx n))
      ∧ (s.thr.running.isSome = true → t.ctx n = (u.ctx n).resumed j (u.jobProgram n)) := by
  let e := s.entered 0x24 r
  let pieces := e.firmwareParts (6 + n) (e.returnPart n j bs).toList
  have arrived : FirmwarePasses e .steward (6 + n) (e.returnPart n j bs).toList := by
    rw [State.entered_returnPart]
    exact State.entered_passes 0x24 r passes
  obtain ⟨y, again, config, thr, bytes, within, path⟩ := State.takeReturn_same (t := e.accessed .steward pieces) taken (by simp [e])
    ((State.entered_bytes 0x24 r).trans (State.accessed_bytes _ _)) (by simp [e])
  have runs := State.returnRun_takes (s := e) ctx (by simpa [e] using job) op whole arrived rfl again
  let z := y.modCtx n fun c => c.resumed j (y.jobProgram n)
  obtain ⟨count, running⟩ := State.takeReturn_thr taken
  have four : y.thr.ctxs.length = 4 := by rw [thr, count, inv.ctxs]
  have here : n < y.thr.ctxs.length := by omega
  have resumed : z.ctx n = (u.ctx n).resumed j (u.jobProgram n) := by
    rw [State.modCtx_ctx _ here, State.ctx_congr thr, State.jobProgram_congr config bytes thr]
  have restorable (m : Nat) (low : m < 4) : Restorable z m := by
    have reach : SamePath (holdingOf (thrAgent m)) s (e.accessed .steward pieces) :=
      (SamePath.of_same (by simp [e]) (by simp [e]) (by simp [e])).trans (State.accessed_path _ (by rw [holdingOf_thrAgent low]; simp only [holdingOf]; omega))
    refine (all m low).path ((path _ reach).trans (SamePath.of_same rfl rfl rfl)) ?_
    by_cases same : m = n
    · rw [same, resumed]
      rfl
    · rw [State.modCtx_ctx_ne _ same, State.ctx_congr thr]
  obtain ⟨frame, ready⟩ := State.dispatch_ready restorable (by simpa [z, State.modCtx, State.modThr] using four) few
  have all' : Within Part.ofLoad e z.dispatch :=
    (((State.accessed_within _ _).mono (by decide)).trans ((within.trans (State.modCtx_frame _ _ (Within.refl y))))).trans (frame.mono (by decide))
  have served := f.serves (checks := returnChecks r) (run := fun s _ => s.returnRun r) (lenOk := decide (8 ≤ r.length.toNat)) (by simpa using len)
    (returnChecks_pass noun index ctx few fence waits number job joined (by omega)) runs all' (by decide)
  obtain ⟨answered, reply, -⟩ := served
  have ctx' := State.ctx_congr (reply .thresher (by decide))
  refine ⟨_, exec_thrReturn r s, answered, ?_, ?_, fun busy => ?_⟩
  · exact (bytes.trans frame.bytes).trans (SameBytes.of_mem reply.mem)
  · rw [ctx', ← resumed]
    exact ready
  · have same : z.dispatch = z := State.dispatch_running (by rw [← running, ← thr] at busy; exact busy)
    rw [ctx', same, resumed]

/-- Settles O19: a status reads, a chunk is joined, and the last one is taken and the job made ready. -/
theorem jobsToldAndTaken : Obligations.JobsToldAndTaken := by
  unfold Obligations.JobsToldAndTaken
  refine ⟨fun r s n f len noun index ctx few fits fence pad small asked => ?_,
    fun r s n j bs inv f len noun index ctx few fence waits number job joined whole => ⟨fun op => ?_, fun op passes u taken all => ?_⟩⟩
  · have told (o : Option Obj) (asked' : (if pf r 1 1 == 0xFF then none else (s.ctx n).obj (pf r 1 1)) = o)
        (inside : pf r 1 1 = 0xFF ∨ ∃ x, o = some x ∧ pf r 4 4 + pf r 8 2 ≤ (if x.complete then 64 + x.dataLen else x.received))
        (passes : FirmwarePasses s .steward (6 + n) (o.map fun x => ⟨.read, x.vaddr + pf r 4 4, pf r 8 2⟩).toList) :=
      f.tells len noun index ctx few fits fence pad small asked' inside passes
    by_cases none' : pf r 1 1 = 0xFF
    · obtain ⟨t, exec, answered, within, only⟩ := told none (by simp [none']) (Or.inl none') rfl
      exact ⟨t, [], exec, by rw [if_pos none'], ⟨_, answered⟩, within.bytes, within, only⟩
    · obtain ⟨o, found, inside, passes⟩ := asked.resolve_left none'
      obtain ⟨t, exec, answered, within, only⟩ := told (some o) (by simp [none', found]) (Or.inr ⟨o, rfl, inside⟩) passes
      exact ⟨t, s.objBytes n o (pf r 4 4) (pf r 8 2), exec, by rw [if_neg none']; exact ⟨o, found, rfl⟩, ⟨_, answered⟩, within.bytes, within, only⟩
  · let u := (s.entered 0x24 r).modCtx n fun c => { c with job := some { j with returned := bs } }
    have served := f.serves (u := u) (parts := [.thresher]) (checks := returnChecks r) (run := fun s _ => s.returnRun r) (lenOk := decide (8 ≤ r.length.toNat))
      (by simpa using len) (returnChecks_pass noun index ctx few fence waits number job joined (by omega))
      (State.returnRun_joins ctx (by simpa using job) op whole) (State.modCtx_frame _ _ (Within.refl _)) (by decide)
    obtain ⟨answered, reply, -⟩ := served
    refine ⟨_, exec_thrReturn r s, answered, ?_, reply.mem.trans (State.entered_mem s _ _)⟩
    rw [State.ctx_congr (reply .thresher (by decide)), State.modCtx_ctx _ (by rw [State.entered_thr, inv.ctxs]; exact few)]
  · obtain ⟨t, exec, answered, bytes, ready, busy⟩ :=
      f.returns inv len noun index ctx few fence waits number job joined whole op passes taken all
    refine ⟨t, exec, answered, bytes, ?_, ready.state, fun held => ?_⟩
    · rcases ready.job with job' | ⟨pc, job'⟩ <;> rw [job'] <;> simp [Ctx.resumed]
    · rw [busy held]
      exact ⟨rfl, rfl⟩

end Sys2Proof.Machine
end

section
/-! SUPPORT. The arithmetic of a limb: Barrett's and Montgomery's products, and the residue check (08 R263 to R266, R271). -/

namespace Sys2Proof.Machine

set_option Elab.async false

variable {l : Limb} {a b w : Nat}

/-! ### Sums and differences -/

theorem Limb.add_eq (ha : a < l.q) (hb : b < l.q) : l.add a b = (a + b) % l.q := by
  unfold Limb.add
  split
  · rw [Nat.mod_eq_sub_mod ‹_›, Nat.mod_eq_of_lt (by omega)]
  · rw [Nat.mod_eq_of_lt (by omega)]

theorem Limb.sub_eq (ha : a < l.q) (hb : b < l.q) : l.sub a b = (a + l.q - b) % l.q := by
  unfold Limb.sub
  split
  · rw [show a + l.q - b = a - b + l.q by omega, Nat.add_mod_right, Nat.mod_eq_of_lt (by omega)]
  · rw [Nat.mod_eq_of_lt (by omega)]

/-! ### RECIP: Barrett's quotient is at most two too small -/

/-- With P the highest power of two in q, the quotient digit t of x < q² is neither too large nor more than two too small. -/
theorem barrett {P q x : Nat} (low : P ≤ q) (high : q < 2 * P) (small : x < q * q) :
    x / P * (4 * P * P / q) / (4 * P) * q ≤ x ∧ x < (x / P * (4 * P * P / q) / (4 * P) + 3) * q := by
  have hP : 0 < P := by omega
  have hq : 0 < q := by omega
  generalize hm : 4 * P * P / q = m
  generalize hx : x / P = y
  generalize ht : y * m / (4 * P) = t
  have m_le : m * q ≤ 4 * P * P := hm ▸ Nat.div_mul_le_self _ _
  have lt_m : 4 * P * P < (m + 1) * q := by
    rw [← hm]
    linarith [Nat.lt_mul_div_succ (4 * P * P) hq]
  have y_le : y * P ≤ x := hx ▸ Nat.div_mul_le_self _ _
  have lt_y : x < (y + 1) * P := by
    rw [← hx, Nat.mul_comm (_ + 1)]
    exact Nat.lt_mul_div_succ _ hP
  have t_le : t * (4 * P) ≤ y * m := ht ▸ Nat.div_mul_le_self _ _
  have lt_t : y * m < (t + 1) * (4 * P) := by
    rw [← ht, Nat.mul_comm (_ + 1)]
    exact Nat.lt_mul_div_succ _ (by omega)
  constructor
  · have scaled : t * q * (4 * P * P) ≤ x * (4 * P * P) := calc
      t * q * (4 * P * P) = t * (4 * P) * (P * q) := by ring
      _ ≤ y * m * (P * q) := Nat.mul_le_mul_right _ t_le
      _ = y * P * (m * q) := by ring
      _ ≤ x * (4 * P * P) := Nat.mul_le_mul y_le m_le
    exact Nat.le_of_mul_le_mul_right scaled (by positivity)
  · have y_lt : y < 4 * P := by
      have : y * P < 4 * P * P := calc
        y * P ≤ x := y_le
        _ < q * q := small
        _ ≤ 2 * P * (2 * P) := Nat.mul_le_mul high.le high.le
        _ = 4 * P * P := by ring
      exact Nat.lt_of_mul_lt_mul_right this
    have scaled : x * (4 * P) < (t + 3) * q * (4 * P) := calc
      x * (4 * P) < (y + 1) * P * (4 * P) := Nat.mul_lt_mul_of_pos_right lt_y (by omega)
      _ = y * (4 * P * P) + P * (4 * P) := by ring
      _ ≤ y * ((m + 1) * q) + q * (4 * P) := Nat.add_le_add (Nat.mul_le_mul_left _ lt_m.le) (Nat.mul_le_mul_right _ low)
      _ = y * m * q + y * q + q * (4 * P) := by ring
      _ ≤ (t + 1) * (4 * P) * q + 4 * P * q + q * (4 * P) :=
        Nat.add_le_add_right (Nat.add_le_add (Nat.mul_le_mul_right _ lt_t.le) (Nat.mul_le_mul_right _ y_lt.le)) _
      _ = (t + 3) * q * (4 * P) := by ring
    exact Nat.lt_of_mul_lt_mul_right scaled

/-- The digit of a RECIP product (08 R266). -/
theorem Limb.recip_digit (recip : l.mont = false) (mu : l.mu = 2 ^ (2 * l.beta) / l.q) (pos : 0 < l.q) (ha : a < l.q) (hb : b < l.q) :
    l.digit a b * l.q ≤ a * b ∧ a * b < (l.digit a b + 3) * l.q := by
  have low : 2 ^ Nat.log2 l.q ≤ l.q := Nat.log2_self_le pos.ne'
  have high : l.q < 2 * 2 ^ Nat.log2 l.q := by rw [← Nat.pow_succ']; exact Nat.lt_log2_self
  have squares : 2 ^ (2 * (Nat.log2 l.q + 1)) = 4 * 2 ^ Nat.log2 l.q * 2 ^ Nat.log2 l.q := by ring
  have next : 2 ^ (Nat.log2 l.q + 1 + 1) = 4 * 2 ^ Nat.log2 l.q := by ring
  have key := barrett low high (Nat.mul_lt_mul'' ha hb)
  simpa only [Limb.digit, recip, mu, Limb.beta, Nat.add_sub_cancel, squares, next, Bool.false_eq_true, if_false] using key

/-- A RECIP product before its conditional subtractions, taken apart (08 R266). -/
theorem Limb.recip_parts (recip : l.mont = false) (mu : l.mu = 2 ^ (2 * l.beta) / l.q) (pos : 0 < l.q) (ha : a < l.q) (hb : b < l.q) :
    a * b = (l.digit a b + l.subs (l.rawMul a b)) * l.q + l.mul a b ∧ l.mul a b < l.q := by
  obtain ⟨low, high⟩ := Limb.recip_digit recip mu pos ha hb
  have raw : l.rawMul a b = a * b - l.digit a b * l.q := by simp [Limb.rawMul, recip]
  have few : l.rawMul a b / l.q ≤ 2 := by
    rw [← Nat.lt_succ_iff, Nat.div_lt_iff_lt_mul pos, raw]
    rw [Nat.add_mul] at high
    omega
  have subs : l.subs (l.rawMul a b) = l.rawMul a b / l.q := by simp [Limb.subs, recip, Nat.max_eq_left pos, few]
  have rest : l.mul a b = l.rawMul a b % l.q := by rw [Limb.mul, subs, Nat.mul_comm, Nat.mod_eq_sub]
  have parts := Nat.div_add_mod' (l.rawMul a b) l.q
  rw [rest, subs]
  refine ⟨?_, Nat.mod_lt _ pos⟩
  rw [Nat.add_mul, Nat.add_assoc, parts, raw]
  omega

/-! ### MONT: Montgomery's sum is a multiple of 2^64 -/

theorem mont_divides {q p x : Nat} (inverse : q * p % 2 ^ 64 = 2 ^ 64 - 1) : 2 ^ 64 ∣ x + x % 2 ^ 64 * p % 2 ^ 64 * q := by
  have minus : q * p + 1 ≡ 0 [MOD 2 ^ 64] := by
    unfold Nat.ModEq
    rw [Nat.add_mod, inverse]
    rfl
  have digit : x % 2 ^ 64 * p % 2 ^ 64 * q ≡ x * p * q [MOD 2 ^ 64] :=
    ((Nat.mod_modEq _ _).trans ((Nat.mod_modEq _ _).mul_right p)).mul_right q
  refine (Nat.modEq_zero_iff_dvd).mp ?_
  calc x + x % 2 ^ 64 * p % 2 ^ 64 * q ≡ x + x * p * q [MOD 2 ^ 64] := digit.add_left x
    _ = x * (q * p + 1) := by ring
    _ ≡ x * 0 [MOD 2 ^ 64] := minus.mul_left x

/-- A MONT product taken apart (08 R266). -/
theorem Limb.mont_parts (mont : l.mont = true) (word : l.q < 2 ^ 64) (inverse : l.q * l.qPrime % 2 ^ 64 = 2 ^ 64 - 1) (ha : a < l.q) (hb : b < l.q) :
    a * b + l.digit a b * l.q = (l.mul a b + l.subs (l.rawMul a b) * l.q) * 2 ^ 64 ∧ l.mul a b < l.q := by
  have digit : l.digit a b = a * b % 2 ^ 64 * l.qPrime % 2 ^ 64 := by simp [Limb.digit, mont]
  have raw : l.rawMul a b * 2 ^ 64 = a * b + l.digit a b * l.q := by
    rw [Limb.rawMul, if_pos mont]
    exact Nat.div_mul_cancel (digit ▸ mont_divides inverse)
  have low : l.digit a b < 2 ^ 64 := digit ▸ Nat.mod_lt _ (by decide)
  have few : l.rawMul a b < 2 * l.q := by
    refine Nat.lt_of_mul_lt_mul_right (a := 2 ^ 64) ?_
    rw [raw]
    have product : a * b < l.q * 2 ^ 64 := Nat.mul_lt_mul'' ha (hb.trans word)
    have carry : l.digit a b * l.q ≤ 2 ^ 64 * l.q := Nat.mul_le_mul_right _ low.le
    omega
  rw [← raw, Limb.mul, Limb.subs, if_pos mont]
  by_cases large : l.q ≤ l.rawMul a b
  · rw [decide_eq_true large, b2n, if_pos rfl]
    omega
  · rw [decide_eq_false large, b2n, if_neg (by decide)]
    omega

/-! ### The residue check (08 R271) -/

theorem modEq_iff_beq {x y : Nat} : (x % checkModulus == y % checkModulus) = true ↔ x ≡ y [MOD 65521] := by
  rw [beq_iff_eq]
  rfl

/-- The identity of a product holds for exactly the words that agree with it. -/
theorem LastOp.prod_holds (pos : 1 < l.q) (ha : a < l.q) (hb : b < l.q)
    (constants : if l.mont then l.q < 2 ^ 64 ∧ l.q * l.qPrime % 2 ^ 64 = 2 ^ 64 - 1 else l.mu = 2 ^ (2 * l.beta) / l.q) :
    (LastOp.prod a b).holds l w = true ↔ w ≡ l.mul a b [MOD 65521] := by
  by_cases mont : l.mont = true
  · rw [if_pos mont] at constants
    obtain ⟨parts, -⟩ := Limb.mont_parts mont constants.1 constants.2 ha hb
    simp only [LastOp.holds, if_pos mont, modEq_iff_beq]
    rw [parts]
    constructor
    · intro same
      exact (Nat.ModEq.add_right_cancel' _ (same.cancel_right_of_coprime (by decide))).symm
    · exact fun same => ((same.symm).add_right _).mul_right _
  · rw [if_neg mont] at constants
    obtain ⟨parts, -⟩ := Limb.recip_parts (by simpa using mont) constants (by omega) ha hb
    simp only [LastOp.holds, if_neg mont, modEq_iff_beq]
    constructor
    · intro same
      rw [parts] at same
      exact (Nat.ModEq.add_left_cancel' _ same).symm
    · intro same
      rw [parts]
      exact (same.symm).add_left _

theorem LastOp.sum_holds : (LastOp.sum a b).holds l w = true ↔ w ≡ l.add a b [MOD 65521] := by
  have parts : a + b = l.add a b + b2n (l.q ≤ a + b) * l.q := by
    unfold Limb.add
    by_cases large : l.q ≤ a + b
    · rw [if_pos large, decide_eq_true large, b2n, if_pos rfl]
      omega
    · rw [if_neg large, decide_eq_false large, b2n, if_neg (by decide)]
      omega
  simp only [LastOp.holds, modEq_iff_beq]
  generalize b2n (decide (l.q ≤ a + b)) * l.q = c at parts ⊢
  rw [parts]
  exact ⟨fun same => (Nat.ModEq.add_right_cancel' c same).symm, fun same => same.symm.add_right c⟩

/-- Settles O20: Barrett's quotient is at most two too small, Montgomery's sum is a multiple of 2^64, and the check compares residues. -/
theorem limbsAndResidues : Obligations.LimbsAndResidues := by
  unfold Obligations.LimbsAndResidues
  refine ⟨fun l a b big ha hb => ⟨Limb.add_eq ha hb, Limb.sub_eq ha hb, fun recip mu => ?_, fun mont word inverse => ?_⟩, fun l op w big inside constants => ?_⟩
  · obtain ⟨parts, small⟩ := Limb.recip_parts recip mu (by omega) ha hb
    rw [parts, Nat.mul_add_mod', Nat.mod_eq_of_lt small]
  · obtain ⟨parts, small⟩ := Limb.mont_parts mont word inverse ha hb
    refine ⟨small, ?_⟩
    calc l.mul a b * 2 ^ 64 % l.q = (l.mul a b * 2 ^ 64 + l.subs (l.rawMul a b) * 2 ^ 64 * l.q) % l.q := (Nat.add_mul_mod_self_right _ _ _).symm
      _ = (a * b + l.digit a b * l.q) % l.q := by
        rw [parts]
        ring_nf
      _ = a * b % l.q := Nat.add_mul_mod_self_right _ _ _
  · cases op with
    | prod a b => exact LastOp.prod_holds big inside.1 inside.2 constants
    | sum a b => exact LastOp.sum_holds
    | keep a =>
      simp only [LastOp.holds, modEq_iff_beq]
      exact ⟨Nat.ModEq.symm, Nat.ModEq.symm⟩

end Sys2Proof.Machine
end

section
/-! SUPPORT. Instructions of the Thresher whose accesses pass, and the ways in which a context leaves the engine (08 R267 to R281, R287). -/

namespace Sys2Proof.Machine

set_option Elab.async false

variable {s t : State} {n : Nat} {j : Job} {i : ThrInstr} {parts reads : List Piece} {out : Option KernelResult} {r : KernelResult}
  {next : State → State}

/-! ### Instructions whose accesses pass -/

@[simp] theorem State.accessed_nil (a : Agent) : s.accessed a [] = s := by simp [State.accessed, State.modMem]

theorem State.finish_passes (passes : Passes s (thrAgent n) (writeParts r.writes)) : s.finish n r next = s.instrDone n [] r next := by
  rw [State.finish, passes.store]
  simp [State.instrDone]

/-- An instruction that passes reads its operands and writes its result (08 R270, R271, R291). -/
theorem InstrPasses.perform (p : InstrPasses s n j parts out reads r) : s.perform n j parts out next = s.instrDone n reads r next := by
  obtain ⟨either, readsPass, writesPass⟩ := p
  rcases either with ⟨new, rfl, rfl⟩ | ⟨kept, rfl⟩
  · simp only [State.perform, new, readsPass.access, State.finish_passes writesPass, State.instrDone, State.accessed_nil]
  · rw [State.accessed_nil] at writesPass
    rw [State.perform, kept]
    exact State.finish_passes writesPass

/-- The kernel at which a job stands runs (08 R270). -/
theorem InstrPasses.kernel {k : Nat} {f : ThrInstr → Option KernelResult} (p : InstrPasses s n j (s.instrParts n i) out reads r)
    (current : s.current n = some (j, i)) (op : i.op = k) (result : f i = out) : s.kernel n k f = s.instrDone n reads r (·.advance n) := by
  simp only [State.kernel, State.service, current, op, if_true, result, p.perform]

/-- A hardened kernel at which a job stands runs (08 R271). -/
theorem InstrPasses.hardened {k : Nat} {u : Option Upset} {f : List Limb → List Comp → List Comp → List (List (List LastOp))} {x y : Operand}
    {h : List Comp × Bool} (current : s.current n = some (j, i)) (op : i.op = k) (hx : s.operand n i.a = some x) (hy : s.operand n i.b = some y)
    (hh : h = harden x.ls (2 ^ x.k) (f x.ls x.comps y.comps) (u.map fun v => (v.element, v.mask.toNat)))
    (p : InstrPasses s n j (s.instrParts n i) (s.polyOut n i.dst h.1 x.obj.limbs x.k (bitAt x.obj.flags 1) h.2) reads r) :
    s.hardened n k u f = s.instrDone n reads r (·.advance n) := by
  subst hh
  exact p.kernel current op (by simp only [hx, hy])

/-- A kernel of one operand at which a job stands runs. -/
theorem InstrPasses.unary {k : Nat} {f : ThrInstr → Operand → Option KernelResult} {x : Operand} (current : s.current n = some (j, i)) (op : i.op = k)
    (hx : s.operand n i.a = some x) (p : InstrPasses s n j (s.instrParts n i) (f i x) reads r) :
    s.kernel n k (fun i => (s.operand n i.a).bind fun x => f i x) = s.instrDone n reads r (·.advance n) :=
  p.kernel current op (by rw [hx]; rfl)

/-- Settles O21: each kernel's result is the one that its accesses carry, and an instruction that passes writes it. -/
theorem kernelsRun : Obligations.KernelsRun := by
  unfold Obligations.KernelsRun
  refine ⟨fun c u s j i x y rd r current hx hy => ⟨fun op h hh p => ?_, fun op h hh p => ?_, fun op p => ?_, fun op d hd p => ?_⟩,
    fun c s j i x rd r current hx => ⟨fun op p => ?_, fun op p => ?_, fun op p => ?_, fun op d k ls hd hr p => ?_, fun op p => ?_, fun op p => ?_,
      fun op p => ?_, fun op u b key e hb hkey he p => ?_⟩⟩ <;> refine congrArg Host.Outcome.next ?_
  · exact InstrPasses.hardened current op hx hy hh p
  · exact InstrPasses.hardened current op hx hy hh p
  · exact p.kernel current op (by simp only [hx, hy])
  · simp only [State.service, current, op, if_true, hx, hy, hd, p.perform]
  · exact InstrPasses.unary current op hx p
  · exact InstrPasses.unary current op hx p
  · exact InstrPasses.unary current op hx p
  · exact p.kernel current op (by simp only [hx, hd, hr, Option.bind_some, Option.map_some])
  · exact InstrPasses.unary current op hx p
  · exact InstrPasses.unary current op hx p
  · exact InstrPasses.unary current op hx p
  · exact p.kernel current op (by simp only [hx, hb, hkey, he])

end Sys2Proof.Machine
end

section
/-! SUPPORT. FEATURE, RERAND, HANDOFF and ZERO: skipped samples, waits and saved contexts (08 R274 to R281, R287). -/

namespace Sys2Proof.Machine

set_option Elab.async false

variable {s t u : State} {n st : Nat} {j : Job} {i : ThrInstr} {parts reads : List Piece} {out : Option KernelResult} {r : KernelResult}
  {next : State → State}

/-- A context that holds the engine has its job there (08 R286). -/
theorem State.current_eq (current : s.current n = some (j, i)) : s.thr.running = some n ∧ (s.ctx n).job = some j := by
  unfold State.current at current
  split at current
  · next holds =>
    simp only [Bool.and_eq_true, beq_iff_eq] at holds
    obtain ⟨k, job, pair⟩ := Option.map_eq_some_iff.mp current
    cases pair
    exact ⟨holds.1, job⟩
  · cases current

/-! ### A context that leaves the engine (08 R287) -/

theorem Passes.put {a : Agent} {ws : List (Nat × List Byte)} (p : Passes s a (writeParts ws)) :
    s.put a ws = (ws.foldl (fun s w => s.writeOne a w) (s.accessed a (writeParts ws)), .done) := by
  simp [State.put, p.reach]

@[simp] theorem State.writeOne_thr (a : Agent) (w : Nat × List Byte) : (s.writeOne a w).thr = s.thr :=
  (State.virtWrite_frame (parts := Part.ofPlaced) _ _ _ (Within.refl s)) .thresher (by decide)

@[simp] theorem State.writeOne_ev (a : Agent) (w : Nat × List Byte) : (s.writeOne a w).ev = s.ev :=
  (State.virtWrite_frame (parts := [.sram, .nor, .psram, .fabric]) _ _ _ (Within.refl s)) .events (by decide)

/-- The state of a context is written to its save area, and the context remembers it. -/
theorem State.saveCtx_passes (saves : Saves s n) : ∃ x : State, s.saveCtx n = (x.modCtx n fun c => { c with saved := some s.freeCount }, .done)
    ∧ x.thr = s.thr ∧ ∀ k, s.has k = true → x.has k = true := by
  let w := (s.saveAddr n, savedBytes s.freeCount)
  let drawn : State := { s with freeCount := s.freeCount + 2048 }
  have writes : writeParts [w] = [⟨.write, s.saveAddr n, 2048⟩] := by simp [writeParts, w, savedBytes]
  have passes : Passes drawn (thrAgent n) (writeParts [w]) := by
    rw [writes]
    exact saves.congr rfl rfl rfl
  refine ⟨(drawn.accessed (thrAgent n) (writeParts [w])).writeOne (thrAgent n) w, ?_, by simp [drawn], fun k pending => ?_⟩
  · unfold State.saveCtx
    rw [passes.put]
    simp only [List.foldl_cons, List.foldl_nil]
  · rw [State.has_congr _ (State.writeOne_ev _ _)]
    exact (State.accessed_lineStays _ _ (LineStays.refl drawn)).events k pending

/-- A context whose state can be saved leaves the engine, which another may take (08 R286, R287). -/
theorem State.parkCtx_saves (here : n < s.thr.ctxs.length) (running : s.thr.running = some n) (going : (s.ctx n).job.bind (·.ending) = none)
    (saves : Saves s n) (off : st ≠ 1) : (s.parkCtx n st).ctx n = { s.ctx n with state := st, parking := none, saved := some s.freeCount }
      ∧ ∀ k, s.has k = true → (s.parkCtx n st).has k = true := by
  obtain ⟨x, saved, thr, events⟩ := State.saveCtx_passes saves
  let y := x.modCtx n fun c => { c with saved := some s.freeCount }
  let z := (y.modCtx n fun c => { c with state := st, parking := none }).freeEngine n
  have parked : s.parkCtx n st = z.dispatch := by
    simp only [State.parkCtx, running, bne_self_eq_false, Bool.false_eq_true, if_false, going, saved]
    rfl
  have freed : z.ctx n = { s.ctx n with state := st, parking := none, saved := some s.freeCount } := by
    have same : z.ctx = (y.modCtx n fun c => { c with state := st, parking := none }).ctx := by
      unfold z State.freeEngine
      split <;> rfl
    have long : n < y.thr.ctxs.length := by simpa [y, State.modCtx, State.modThr, thr] using here
    rw [same, State.modCtx_ctx _ long, State.modCtx_ctx _ (by rw [thr]; exact here), State.ctx_congr thr]
  have idle : (z.ctx n).eligible = false := by simp [freed, Ctx.eligible, off]
  have ev : z.ev = x.ev := by
    have w : Within [.thresher] x z := State.freeEngine_frame _ (State.modCtx_frame _ _ (State.modCtx_frame _ _ (Within.refl x)))
    exact w .events (by decide)
  rw [parked]
  refine ⟨by rw [State.dispatch, State.dispatchN_idle 5 idle, freed], fun k pending => ?_⟩
  exact (State.dispatch_lineStays (LineStays.refl z)).events k (by rw [State.has_congr _ ev]; exact events k pending)

theorem Saves.congr (saves : Saves s n) (config : t.cfg = s.cfg) (mem : t.mem = s.mem) (storage : t.csp8 = s.csp8) : Saves t n := by
  have same : t.saveAddr n = s.saveAddr n := by rw [State.saveAddr, State.reg_congr config]; rfl
  rw [Saves, same]
  exact Passes.congr saves config mem storage

/-- A context that begins a wait: its job remembers since when, and event 38 tells of it (08 R280, R281). -/
theorem State.waitFor_saves (here : n < s.thr.ctxs.length) (running : s.thr.running = some n) (job : (s.ctx n).job = some j) (going : j.ending = none)
    (saves : Saves s n) (off : st ≠ 1) : (s.waitFor n st).ctx n = { s.ctx n with
      state := st, parking := none, saved := some s.freeCount, poolLeft := if st = 6 then 0 else (s.ctx n).poolLeft
      job := some { j with waitSince := s.tm.now } } ∧ (s.waitFor n st).has 38 = true := by
  let x := (s.modCtx n fun c => { c with
    poolLeft := if st = 6 then 0 else c.poolLeft
    job := c.job.map fun j => { j with waitSince := s.tm.now } }).raise 38
  have waits : s.waitFor n st = x.parkCtx n st := by
    unfold State.waitFor
    rw [job, Option.bind_some, going]
  have noted : x.ctx n = { s.ctx n with
      poolLeft := if st = 6 then 0 else (s.ctx n).poolLeft, job := some { j with waitSince := s.tm.now } } := by
    rw [State.ctx_congr (State.raise_thr _ _), State.modCtx_ctx _ here, job]
    rfl
  have free : x.freeCount = s.freeCount := by simp [x]
  obtain ⟨ctx, events⟩ := State.parkCtx_saves (s := x) (st := st) (by simpa [x, State.modCtx, State.modThr] using here)
    (by simpa [x, State.modCtx, State.modThr] using running) (by rw [noted]; exact going)
    (saves.congr (by simp [x]) (by simp [x]) (by simp [x])) off
  rw [waits]
  refine ⟨?_, events 38 (by simp [x])⟩
  rw [ctx, noted, free]

/-! ### RERAND and HANDOFF (08 R280, R281) -/

theorem InstrPasses.rerandThen {h pool : Nat} (p : InstrPasses s n j (s.rerandParts n h pool) (s.rerand n h pool) reads r) :
    s.rerandThen n j h pool next = s.instrDone n reads r next := by
  have runs : (j.result.isNone && (s.rerand n h pool).isNone) = false := by
    rcases p.either with ⟨-, -, out⟩ | ⟨kept, -⟩
    · simp [out]
    · simp [kept]
  rw [State.rerandThen, runs]
  exact p.perform

theorem State.rerandThen_waits {h pool : Nat} (new : j.result = none) (none' : s.rerand n h pool = none) :
    s.rerandThen n j h pool next = s.waitFor n 6 := by
  simp [State.rerandThen, new, none']

/-- The instruction at which a job stands. -/
theorem State.service_current {k : Nat} {f : Job → ThrInstr → State} (current : s.current n = some (j, i)) (op : i.op = k) : s.service n k f = f j i := by
  simp [State.service, current, op]

/-- A hand-off takes the next number, and waits for the return of dst (08 R281). -/
theorem State.handOff_saves (here : n < s.thr.ctxs.length) (running : s.thr.running = some n) (job : (s.ctx n).job = some j) (going : j.ending = none)
    (saves : Saves s n) : ((s.handOff n).ctx n).state = 5 ∧ (s.handOff n).has 38 = true
      ∧ ((s.handOff n).ctx n).handoff = ((s.ctx n).handoff + 1) % 65536
      ∧ ((s.handOff n).ctx n).job = some { j with returned := [], waitSince := s.tm.now } := by
  let x := s.modCtx n fun c => { c with handoff := (c.handoff + 1) % 65536, job := c.job.map fun j => { j with returned := [] } }
  have noted : x.ctx n = { s.ctx n with handoff := ((s.ctx n).handoff + 1) % 65536, job := some { j with returned := [] } } := by
    rw [State.modCtx_ctx _ here, job]
    rfl
  obtain ⟨ctx, announced⟩ := State.waitFor_saves (s := x) (st := 5) (j := { j with returned := [] }) (by simpa [x, State.modCtx, State.modThr] using here)
    running (by rw [noted]) going (saves.congr rfl rfl rfl) (by decide)
  have waits : s.handOff n = x.waitFor n 5 := rfl
  rw [waits, ctx, noted]
  exact ⟨rfl, announced, rfl, rfl⟩

/-! ### FEATURE (08 R276, R277) -/

/-- A sample skipped is counted, and its job goes on as one that skips (08 R277). -/
theorem State.skipSample_skips (here : n < s.thr.ctxs.length) (job : (s.ctx n).job = some j) (going : j.ending = none) :
    ((s.skipSample n).ctx n).skipped = (s.ctx n).skipped + 1 ∧ ((s.skipSample n).ctx n).job.any (·.skipping) = true ∧ SameBytes s (s.skipSample n) := by
  let x := s.modCtx n fun c => { c with skipped := c.skipped + 1, job := c.job.map fun j => { j with skipping := true } }
  have noted : x.ctx n = { s.ctx n with skipped := (s.ctx n).skipped + 1, job := some { j with skipping := true } } := by
    rw [State.modCtx_ctx _ here, job]
    rfl
  have long : n < x.thr.ctxs.length := by simpa [x, State.modCtx, State.modThr] using here
  have skips : s.skipSample n = x.modCtx n fun c => { c with
      instr := Job.next { j with skipping := true } (x.jobProgram n) (j.pc + 1) % 256
      job := some { j with skipping := true, pc := Job.next { j with skipping := true } (x.jobProgram n) (j.pc + 1) } } := by
    change x.advance n = _
    unfold State.advance
    rw [noted]
    simp only [going]
  rw [skips, State.modCtx_ctx _ long, noted]
  exact ⟨rfl, rfl, SameBytes.of_mem rfl⟩

/-- FEATURE of an instruction that computes its result anew, once its sheaf and map have been read (08 R276). -/
theorem exec_feature {c : Fin 4} {m d : Obj} {ps : List Piece} (current : s.current c.val = some (j, i)) (op : i.op = 0x10)
    (hm : (s.ctx c.val).loaded (handleId i.a) = some m) (hd : (s.ctx c.val).loaded (handleId i.dst) = some d)
    (reads : ps = s.operandParts c.val i.a ++ (s.featurePart c.val j).toList) (new : j.result = none) (passes : Passes s (thrAgent c.val) ps) :
    exec (.feature c) s = .next ((s.accessed (thrAgent c.val) ps).feature c.val j i m d) := by
  subst reads
  refine congrArg Host.Outcome.next ((State.service_current current op).trans ?_)
  simp only [hm, hd, new, passes.access]

/-- FEATURE of an instruction that has only its result left to write (08 R291). -/
theorem exec_feature_kept {c : Fin 4} {m d : Obj} (current : s.current c.val = some (j, i)) (op : i.op = 0x10)
    (hm : (s.ctx c.val).loaded (handleId i.a) = some m) (hd : (s.ctx c.val).loaded (handleId i.dst) = some d)
    (kept : j.result = some r) (passes : Passes s (thrAgent c.val) (writeParts r.writes)) :
    exec (.feature c) s = .next (s.instrDone c.val [] r (·.advance c.val)) := by
  refine congrArg Host.Outcome.next ((State.service_current current op).trans ?_)
  simp only [hm, hd, kept, State.finish_passes passes]

/-- Settles O22: each instruction that passes writes its result, and the waits and the skipped sample leave what the rules say. -/
theorem serviceKernelsRun : Obligations.ServiceKernelsRun := by
  unfold Obligations.ServiceKernelsRun
  intro c s j i inv current going
  obtain ⟨running, job⟩ := State.current_eq current
  have here : c.val < s.thr.ctxs.length := by rw [inv.ctxs]; exact c.isLt
  refine ⟨fun op o len at' rd r loaded hlen hat p => ?_, fun op m d u ps hm hd hps hu => ⟨fun new passes => ⟨fun lost => ?_, fun bs found => ⟨fun changed => ?_,
      fun same fs k ls slot r fields ring hslot result writes => ?_⟩⟩, fun r kept passes => exec_feature_kept current op hm hd kept passes⟩,
    fun op => ⟨fun rd r p => ?_, fun new none' saves => ?_⟩, fun op => ⟨fun only saves => ?_, fun pool rd r p => ?_, fun pool new none' saves => ?_⟩⟩
  · refine congrArg Host.Outcome.next (p.kernel current op ?_)
    rw [State.zeroResult, loaded, hat, hlen]
    rfl
  · have u_here : c.val < u.thr.ctxs.length := by rw [hu, State.accessed_thr]; exact here
    have u_ctx : u.ctx c.val = s.ctx c.val := by rw [hu, State.accessed_ctx]
    obtain ⟨skipped, skipping, bytes⟩ := State.skipSample_skips (s := u) u_here (by rw [u_ctx]; exact job) going
    have skips : u.feature c.val j i m d = u.skipSample c.val := by
      unfold State.feature
      rcases lost with gone | ⟨bs, found, same, unusable⟩
      · rw [gone]
      · rw [found]
        simp [same, unusable]
    rw [u_ctx] at skipped
    refine ⟨_, exec_feature current op hm hd hps new passes, ?_⟩
    rw [← hu, skips]
    exact ⟨skipped, skipping, SameBytes.trans (hu ▸ State.accessed_bytes _ _) bytes⟩
  · rw [exec_feature current op hm hd hps new passes, ← hu]
    simp [State.feature, found, changed]
  · rw [exec_feature current op hm hd hps new passes, ← hu]
    subst hslot
    simp only [State.feature, found, same, bne_self_eq_false, Bool.false_eq_true, if_false, fields, Option.bind_some, State.featureResult, ring, result,
      State.finish_passes writes]
  · exact congrArg Host.Outcome.next ((State.service_current current op).trans p.rerandThen)
  · have waits : s.service c.val 0x11 (fun j i => s.rerandThen c.val j i.dst i.a (·.advance c.val)) = s.waitFor c.val 6 :=
      (State.service_current current op).trans (State.rerandThen_waits new none')
    obtain ⟨ctx, announced⟩ := State.waitFor_saves (st := 6) here running job going saves (by decide)
    refine ⟨_, congrArg Host.Outcome.next waits, ?_, announced, ?_⟩ <;> rw [ctx]
  · have waits : s.service c.val 0x12 (fun j i => if i.b == 0xFFFF then s.handOff c.val else s.rerandThen c.val j i.a i.b (·.handOff c.val)) = s.handOff c.val := by
      rw [State.service_current current op]
      simp [only]
    obtain ⟨state, announced, number, job'⟩ := State.handOff_saves here running job going saves
    exact ⟨_, congrArg Host.Outcome.next waits, state, announced, number, job'⟩
  · refine congrArg Host.Outcome.next ((State.service_current current op).trans ?_)
    simp [pool, p.rerandThen]
  · have waits : s.service c.val 0x12 (fun j i => if i.b == 0xFFFF then s.handOff c.val else s.rerandThen c.val j i.a i.b (·.handOff c.val))
        = s.waitFor c.val 6 := by
      rw [State.service_current current op]
      simp [pool, State.rerandThen_waits new none']
    obtain ⟨ctx, announced⟩ := State.waitFor_saves (st := 6) here running job going saves (by decide)
    refine ⟨_, congrArg Host.Outcome.next waits, ?_, announced, ?_⟩ <;> rw [ctx]

end Sys2Proof.Machine
end

section
/-! SUPPORT. A state in which the next number is already held by another request, and a FALLOW that takes it (11 R402). -/

namespace Sys2Proof.Machine

set_option Elab.async false

/-- A request of MBX1 with the tag 1 and framing v2, for no noun. -/
def sleepRequest : Req :=
  { ch := 1, index := 0, noun := 0, tag := 1, flags := 0, epoch := 0, length := 8, payload := [0, 0, 0, 0] ++ leBytes 4 1000 }

/-- A native lead at L3 that is alone, where MBX1 holds an ALMANAC_MARK under the number that the next request takes. -/
def numberTaken : State :=
  let s : State := {
    tm := { now := 30000000, lineSeen := true, period := 10, capture := 29970000, lines := 11 }
    boot := { phase := .ready, runningFrom := 1 }
    lev := { level := 3, firmware := true }
    clk := { active := 0, locked := true, bootLocked := true, xtalOk := true }
    alm := { scanDone := true }
    pw := { prsntMet := true } }
  s.modChan 1 fun c => { c with held := [⟨s.mb.nextId, 0x11, sleepRequest, false⟩] }

theorem numberTaken_fresh : Fresh numberTaken 0x31 sleepRequest where
  chans := by decide +kernel
  framing := by decide +kernel
  accepts := by decide +kernel
  head := by decide +kernel
  tag := by decide +kernel
  quiet := by decide +kernel

/-- The number stands twice in the list of held requests, and the reply goes to the request that stands first. -/
theorem fallow_answers_the_other {t : State} (ran : exec (.fallow sleepRequest) numberTaken = .next t) :
    (nth {} t.mb.chans 1).replies.map (·.verb) = [0x11] := by
  cases ran
  decide +kernel

/-- Refutes O26: its states may hold another request under the number that FALLOW takes next. A lead that is alone answers its FALLOW
by that number (11 R402), and the reply it queues is then the one of the other request, an ALMANAC_MARK. -/
theorem not_sleepVerbsServe : ¬ Obligations.SleepVerbsServe := by
  unfold Obligations.SleepVerbsServe
  intro claim
  obtain ⟨serves, -⟩ := claim sleepRequest numberTaken rfl rfl (by decide +kernel)
  obtain ⟨alone, -⟩ := serves numberTaken_fresh (by decide +kernel) (by decide +kernel) (by decide +kernel) (by decide +kernel)
    (by decide +kernel) (by decide +kernel)
  obtain ⟨t, pc, ran, ⟨y, queued, verb, -⟩, -⟩ := alone (by decide +kernel) (by decide +kernel)
  have replies : (nth {} t.mb.chans 1).replies = [y] := queued
  have mark := fallow_answers_the_other ran
  rw [replies, List.map_singleton, verb] at mark
  exact absurd mark (by decide)

end Sys2Proof.Machine
end

section
/-! SUPPORT. UPDATE_STAGE and UPDATE_SWAP: the slot state saved, and the staging (14 R510 to R516). -/

namespace Sys2Proof.Machine

set_option Elab.async false

variable {s t u : State} {r : Req} {g : Staging} {v : Nat} {parts : List Part} {p : List Byte} {k : Ticket}

/-! ### The slot state stands in the NOR -/

theorem State.nor_congr (mem : t.mem = s.mem) : t.nor = s.nor := by
  unfold State.nor
  rw [mem]

theorem State.slotChoice_congr (mem : t.mem = s.mem) : t.slotChoice = s.slotChoice := by
  simp only [State.slotChoice, State.slotCopy, State.nor_congr mem]

theorem State.slotState_congr (mem : t.mem = s.mem) : t.slotState = s.slotState := by
  simp only [State.slotState, State.slotChoice_congr mem]

theorem State.stagingReply_congr (mem : t.mem = s.mem) : t.stagingReply = s.stagingReply := by
  unfold State.stagingReply
  rw [State.slotState_congr mem]

theorem State.saveSlots_mem (mem : t.mem = s.mem) (x : SlotState) : (t.saveSlots x).mem = (s.saveSlots x).mem := by
  simp only [State.saveSlots, State.slotChoice_congr mem, State.buildIdOf, State.nor_congr mem, State.modMem, mem]

theorem State.beginSlot_congr (mem : t.mem = s.mem) (boot : t.boot = s.boot) : t.beginSlot = s.beginSlot := by
  unfold State.beginSlot
  rw [State.slotState_congr mem, boot]

theorem State.swapSlot_congr (mem : t.mem = s.mem) (boot : t.boot = s.boot) : t.swapSlot = s.swapSlot := by
  simp only [State.swapSlot, State.slotState_congr mem, boot]

/-! ### UPDATE_STAGE -/

@[simp] theorem State.numbered_stageBusy (w : Nat) (q : Req) : (s.numbered w q).stageBusy r = s.stageBusy r := by
  simp only [State.stageBusy, State.numbered_upd]

@[simp] theorem State.numbered_stageFieldOk (w : Nat) (q : Req) : (s.numbered w q).stageFieldOk r = s.stageFieldOk r := by
  simp only [State.stageFieldOk, State.numbered_upd, State.numbered_boot, State.beginSlot_congr (State.numbered_mem s w q) (State.numbered_boot s w q)]

/-- The checks of UPDATE_STAGE after those of its head. -/
def State.stageChecks (r : Req) (s : State) : List Check :=
  [noNoun r, s.heldRoom r, s.noFallow, (s.upd.swap.isNone && !s.stageBusy r, stBusy), (s.stageFieldOk r, stField)]

theorem State.stageVerb_eq (r : Req) :
    s.stageVerb r = s.serve 0x50 r (stageLenOk r) (State.stageChecks r) fun s k => s.stageOp r k := rfl

/-- The staging that a begin opens in its slot. -/
def State.opened (s : State) (r : Req) (k : Ticket) (slot : Nat) : State :=
  (s.saveSlots (s.slotState.set slot 1)).modUpd fun x => { x with
    staging := some { ch := r.ch, slot, length := pf r 4 4, received := 0, lastRequest := s.tm.now, chunks := [], op := some (k, 0) } }

theorem State.opened_within (k : Ticket) (slot : Nat) : Within [.nor, .update] s (s.opened r k slot) :=
  State.modUpd_frame _ (State.saveSlots_frame _ (Within.refl s))

theorem State.stageOp_begin (k : Ticket) (op : pf r 0 1 = 0) : s.stageOp r k
    = (s.opened r k (s.beginSlot (pf r 1 1)), .accept ((s.opened r k (s.beginSlot (pf r 1 1))).stagingReply (s.beginSlot (pf r 1 1)) 0 0)) := by
  have saved := State.saveSlots_frame (parts := [.nor]) (s.slotState.set (s.beginSlot (pf r 1 1)) 1) (Within.refl s)
  have time : (s.saveSlots (s.slotState.set (s.beginSlot (pf r 1 1)) 1)).tm = s.tm := saved .time (by decide)
  simp only [State.stageOp, op, State.opened, time]
  rw [State.stagingReply_congr (State.modUpd_mem _ _)]

section
variable (f : Fresh s 0x50 r) (noun : r.noun = 0) (index : r.index = 0) (room : (s.heldRoom r).1 = true)
  (awake : s.pw.fallow = none) (swap : s.upd.swap = none)
include f noun index room awake swap

theorem Fresh.stageChecks_pass (free : s.stageBusy r = false) (fields : s.stageFieldOk r = true) :
    firstFail (State.stageChecks r (s.numbered 0x50 r)) = none := by
  simp [State.stageChecks, firstFail_eq_none, noNoun, noun, index, f.heldRoom, room, State.noFallow, awake, swap, free, fields]

/-- An op that its execution accepts: one reply, and the staging and the memories as the execution left them. -/
theorem Fresh.stages (len : stageLenOk r = true) (free : s.stageBusy r = false) (fields : s.stageFieldOk r = true)
    (runs : (s.entered 0x50 r).stageOp r (s.ticketFor r) = (u, .accept p)) (frame : Within parts (s.entered 0x50 r) u)
    (apart : Apart parts) :
    Answered s (s.stageVerb r) 0x50 r stAccepted p ∧ (s.stageVerb r).upd = u.upd ∧ (s.stageVerb r).mem = u.mem := by
  rw [State.stageVerb_eq]
  obtain ⟨answered, within, -⟩ := f.servesAccepted (run := fun s k => s.stageOp r k) len
    (f.stageChecks_pass noun index room awake swap free fields) runs frame apart
  exact ⟨answered, within .update (by decide), within.mem⟩

/-- Begin: its slot is saved as being staged, and the staging is the channel's (14 R510, R511). -/
theorem Fresh.begins (len : stageLenOk r = true) (pad : pz r 2 2 = true) (op : pf r 0 1 = 0) (staging : s.upd.staging = none)
    (named : pf r 1 1 ≤ 2) (apart : s.beginSlot (pf r 1 1) ≠ s.boot.runningFrom) (least : 1024 ≤ pf r 4 4) (most : pf r 4 4 ≤ 0x400000) :
    ∃ t, exec (.updateStageBegin r) s = .next t ∧ Answered s t 0x50 r stAccepted (t.stagingReply (s.beginSlot (pf r 1 1)) 0 0)
      ∧ t.mem = (s.saveSlots (s.slotState.set (s.beginSlot (pf r 1 1)) 1)).mem
      ∧ t.upd.staging = some { ch := r.ch, slot := s.beginSlot (pf r 1 1), length := pf r 4 4, received := 0, lastRequest := s.tm.now, chunks := [], op := some (s.ticketFor r, 0) } := by
  have mem : (s.entered 0x50 r).mem = s.mem := State.entered_mem s _ r
  have runs := (s.entered 0x50 r).stageOp_begin (r := r) (s.ticketFor r) op
  rw [State.beginSlot_congr mem (State.entered_boot s _ r)] at runs
  obtain ⟨answered, update, bytes⟩ := f.stages noun index room awake swap len (by simp [State.stageBusy, staging])
    (by simp [State.stageFieldOk, pad, op, named, apart, least, most]) runs (State.opened_within _ _) (by decide)
  refine ⟨_, rfl, ?_, ?_, ?_⟩
  · rwa [State.stagingReply_congr bytes]
  · rw [bytes, State.opened, State.modUpd_mem, State.slotState_congr mem]
    exact State.saveSlots_mem mem _
  · rw [update, State.opened, State.modUpd_upd]
    simp

/-- An op after the begin that only changes the staging: a chunk, or a finish. -/
theorem Fresh.continues {g' : Staging} (len : stageLenOk r = true) (free : s.stageBusy r = false) (fields : s.stageFieldOk r = true)
    (runs : (s.entered 0x50 r).stageOp r (s.ticketFor r) = ((s.entered 0x50 r).modUpd fun x => { x with staging := some g' },
      .accept ((s.entered 0x50 r).stagingReply g'.slot 0 g'.received))) :
    Answered s (s.stageVerb r) 0x50 r stAccepted ((s.stageVerb r).stagingReply g'.slot 0 g'.received)
      ∧ (s.stageVerb r).upd.staging = some g' ∧ (s.stageVerb r).mem = s.mem := by
  have frame : Within [.update] (s.entered 0x50 r) ((s.entered 0x50 r).modUpd fun x => { x with staging := some g' }) :=
    State.modUpd_frame _ (Within.refl _)
  obtain ⟨answered, update, bytes⟩ := f.stages noun index room awake swap len free fields runs frame (by decide)
  refine ⟨?_, by rw [update]; rfl, bytes.trans (State.entered_mem s _ r)⟩
  rwa [State.stagingReply_congr bytes]

/-- Abandon: the staging is gone, and no byte of the memories changes (14 R510). -/
theorem Fresh.abandons (len : stageLenOk r = true) (pad : pz r 2 2 = true) (op : pf r 0 1 = 3) (staging : s.upd.staging = some g)
    (owner : g.ch = r.ch) : ∃ t, exec (.updateStageAbandon r) s = .next t ∧ t.upd.staging = none ∧ t.mem = s.mem := by
  have passes := f.stageChecks_pass noun index room awake swap (by simp [State.stageBusy, staging, op, owner])
    (by simp [State.stageFieldOk, pad, op, staging])
  have served := State.settleAbandon_frame r.ch.val (f.serve_within (run := fun s k => s.stageOp r k) len passes)
  have cleared : ((s.entered 0x50 r).stageOp r (s.ticketFor r)).1
      = (((s.entered 0x50 r).modUpd fun x => { x with staging := none }).endRequests g.tickets stAborted).1 := by
    simp [State.stageOp, op, staging, State.endStaging]
  rw [cleared] at served
  have ended : Within [.requests, .counters, .events, .almanac, .harrow] ((s.entered 0x50 r).modUpd fun x => { x with staging := none })
      ((((s.entered 0x50 r).modUpd fun x => { x with staging := none }).endRequests g.tickets stAborted).1) :=
    State.endRequests_frame _ _ (Within.refl _)
  have whole := ended.trans served
  refine ⟨_, rfl, ?_, whole.mem.trans (State.entered_mem s _ r)⟩
  exact congrArg Upd.staging (whole .update (by decide))

end

/-! ### UPDATE_SWAP -/

/-- The slot state and the swap as UPDATE_SWAP leaves them; in ROM service the steward restarts at once (14 R516). -/
def State.swapTo (s : State) (k : Ticket) (slot : Nat) (trial : Bool) : State :=
  let s := (s.saveSlots { s.slotState with active := slot, trial }).modUpd fun u => { u with swap := some (k, slot, trial), result := none }
  if s.boot.phase == .romService then s.romSwap else s

theorem State.swapTo_within (k : Ticket) (slot : Nat) (trial : Bool) : Within [.nor, .update, .level, .boot] s (s.swapTo k slot trial) := by
  have saved : Within [.nor, .update, .level, .boot] s
      ((s.saveSlots { s.slotState with active := slot, trial }).modUpd fun u => { u with swap := some (k, slot, trial), result := none }) :=
    State.modUpd_frame _ (State.saveSlots_frame _ (Within.refl s))
  unfold State.swapTo
  dsimp only
  split
  · exact State.modBoot_frame _ (State.modLev_frame _ saved)
  · exact saved

theorem State.swapTo_swap (k : Ticket) (slot : Nat) (trial : Bool) : (s.swapTo k slot trial).upd.swap = some (k, slot, trial) := by
  unfold State.swapTo
  dsimp only
  split <;> rfl

theorem State.swapTo_mem (k : Ticket) (slot : Nat) (trial : Bool) :
    (s.swapTo k slot trial).mem = (s.saveSlots { s.slotState with active := slot, trial }).mem := by
  unfold State.swapTo
  dsimp only
  split <;> rfl

theorem State.swapTo_phase (k : Ticket) (slot : Nat) (trial : Bool) :
    (s.swapTo k slot trial).boot.phase = if s.boot.phase = .romService then .rom else s.boot.phase := by
  have saved := State.saveSlots_frame (parts := [.nor]) { s.slotState with active := slot, trial } (Within.refl s)
  have boot : (s.saveSlots { s.slotState with active := slot, trial }).boot = s.boot := saved .boot (by decide)
  simp only [State.swapTo, State.modUpd_boot, boot, beq_iff_eq]
  split
  · rfl
  · rw [State.modUpd_boot, boot]

@[simp] theorem State.numbered_anyFence (w : Nat) (q : Req) : (s.numbered w q).anyFence = s.anyFence := by
  simp only [State.anyFence, State.numbered_fenced]

@[simp] theorem State.numbered_swapSlot (w : Nat) (q : Req) : (s.numbered w q).swapSlot = s.swapSlot :=
  State.swapSlot_congr (State.numbered_mem s w q) (State.numbered_boot s w q)

/-- UPDATE_SWAP to a verified slot: it is active from then on, and the request is held (14 R515, R516). -/
theorem Fresh.swaps {slot : Nat} (f : Fresh s 0x51 r) (noun : r.noun = 0) (index : r.index = 0) (room : (s.heldRoom r).1 = true)
    (awake : s.pw.fallow = none) (swap : s.upd.swap = none) (len : r.length.toNat = 4) (stays : s.pw.detach = .none)
    (fence : s.anyFence = false) (staging : s.upd.staging = none) (op : pf r 0 1 ≤ 1) (pad : pz r 1 3 = true) (found : s.swapSlot = some slot) :
    ∃ t, exec (.updateSwap r) s = .next t ∧ HeldIn s t 0x51 r ∧ t.upd.swap = some (s.ticketFor r, slot, pf r 0 1 == 1)
      ∧ t.mem = (s.saveSlots { s.slotState with active := slot, trial := pf r 0 1 == 1 }).mem
      ∧ t.boot.phase = if s.boot.phase = .romService then .rom else s.boot.phase := by
  have mem : (s.entered 0x51 r).mem = s.mem := State.entered_mem s _ r
  have found' : (s.entered 0x51 r).swapSlot = some slot := by rw [State.swapSlot_congr mem (State.entered_boot s _ r), found]
  have frame := (s.entered 0x51 r).swapTo_within (s.ticketFor r) slot (pf r 0 1 == 1)
  let checks (s : State) : List Check := [noNoun r, s.heldRoom r, s.noFallow, s.notDetached,
    (!s.anyFence && s.upd.staging.isNone && s.upd.swap.isNone, stBusy), (pf r 0 1 ≤ 1 && pz r 1 3 && s.swapSlot.isSome, stField)]
  let run (s : State) (k : Ticket) : State × Answer := match s.swapSlot with
    | none => (s, .done stField [])
    | some slot => (s.swapTo k slot (pf r 0 1 == 1), .hold)
  have passes : firstFail (checks (s.numbered 0x51 r)) = none := by
    simp [checks, firstFail_eq_none, noNoun, noun, index, f.heldRoom, room, State.noFallow, awake, State.notDetached, stays, fence, staging, swap, op, pad, found]
  obtain ⟨served, held⟩ := f.servesHeld (run := run) (lenOk := r.length.toNat == 4) (by simp [len]) passes (by simp only [run, found'])
    (frame.chans (by decide))
  refine ⟨(s.entered 0x51 r).swapTo (s.ticketFor r) slot (pf r 0 1 == 1), congrArg Host.Outcome.next served, held, State.swapTo_swap _ _ _, ?_, ?_⟩
  · rw [State.swapTo_mem, State.slotState_congr mem, State.saveSlots_mem mem]
  · rw [State.swapTo_phase, State.entered_boot]

/-- Settles O28: each op of UPDATE_STAGE by what it does to the staging, and UPDATE_SWAP by the slot state that it saves. -/
theorem updateVerbsServe : Obligations.UpdateVerbsServe := by
  unfold Obligations.UpdateVerbsServe
  refine fun r s g noun index room awake swap => ⟨fun f len pad op staging named apart least most => ?_,
    fun f len pad op staging owner place fits => ?_, fun f len pad op staging owner idle whole => ?_,
    fun f len pad op staging owner => f.abandons noun index room awake swap len pad op staging owner,
    fun f len stays fence staging op pad slot found => f.swaps noun index room awake swap len stays fence staging op pad found⟩
  · exact f.begins noun index room awake swap len pad op staging named apart least most
  · exact ⟨_, rfl, f.continues noun index room awake swap
      (g' := { g with received := g.received + (r.payload.drop 8).length, lastRequest := s.tm.now, chunks := g.chunks ++ [(s.ticketFor r, g.received, r.payload.drop 8)] })
      len (by simp [State.stageBusy, staging, op, owner]) (by simp [State.stageFieldOk, pad, op, staging, place, fits])
      (by simp [State.stageOp, op, staging, place])⟩
  · exact ⟨_, rfl, f.continues noun index room awake swap (g' := { g with lastRequest := s.tm.now, op := some (s.ticketFor r, 2) })
      len (by simp [State.stageBusy, staging, op, owner, idle]) (by simp [State.stageFieldOk, pad, op, staging, whole])
      (by simp [State.stageOp, op, staging])⟩

end Sys2Proof.Machine
end

section
/-! SUPPORT. Counters: what one more, an event and a record do to each of them (00 Table SC-4; 13, Events; 13 R472). -/

namespace Sys2Proof.Machine

set_option Elab.async false

variable {s t : State} {n w lo wd n' w' lo' : Nat}

/-- A value other than the default is read back, and every other key as before, in a table of any form. -/
theorem Tab.get_set_value (d : Nat → Nat) (l : Tab) (k j : Nat) {v : Nat} (value : v ≠ d k) :
    Tab.get d (Tab.set d l k v) j = if j = k then v else Tab.get d l j := by
  induction l with
  | nil => grind [Tab.set, Tab.get]
  | cons c l ih => grind [Tab.set, Tab.get]

theorem State.count_congr (cnt : t.cnt = s.cnt) : t.count = s.count := by
  unfold State.count
  rw [cnt]

theorem cntKey_eq_iff (h : w < 1024) (h' : w' < 1024) (i : lo < 32) (i' : lo' < 32) :
    cntKey n w lo = cntKey n' w' lo' ↔ n = n' ∧ w = w' ∧ lo = lo' := by
  simp only [cntKey, regKey]
  omega

/-- One more on a counter of at least one bit; every other counter is unchanged. -/
theorem State.bump_count (width : 0 < wd) : (s.bump n w lo wd).count n' w' lo'
    = if cntKey n' w' lo' = cntKey n w lo then satAdd wd (s.count n w lo) 1 else s.count n' w' lo' := by
  have room : 2 ≤ 2 ^ wd := Nat.le_self_pow (by omega) 2
  refine Tab.get_set_value _ _ _ _ ?_
  simp only [satAdd]
  omega

theorem State.bump_count_same (width : 0 < wd) : (s.bump n w lo wd).count n w lo = satAdd wd (s.count n w lo) 1 := by
  rw [State.bump_count width, if_pos rfl]

theorem State.bump_count_other (width : 0 < wd) (other : cntKey n' w' lo' ≠ cntKey n w lo) :
    (s.bump n w lo wd).count n' w' lo' = s.count n' w' lo' := by
  rw [State.bump_count width, if_neg other]

/-! ### Updates of one component -/

@[simp] theorem State.modTm_count (f : Tm → Tm) : (s.modTm f).count = s.count := rfl
@[simp] theorem State.modMb_count (f : Mb → Mb) : (s.modMb f).count = s.count := rfl
@[simp] theorem State.modEv_count (f : Ev → Ev) : (s.modEv f).count = s.count := rfl
@[simp] theorem State.modAlm_count (f : Alm → Alm) : (s.modAlm f).count = s.count := rfl
@[simp] theorem State.modDrill_count (f : Drill → Drill) : (s.modDrill f).count = s.count := rfl
@[simp] theorem State.modSheaf_count (f : Sheaf → Sheaf) : (s.modSheaf f).count = s.count := rfl
@[simp] theorem State.modCsp8_count (f : Csp8 → Csp8) : (s.modCsp8 f).count = s.count := rfl
@[simp] theorem State.modMem_count (f : Mem → Mem) : (s.modMem f).count = s.count := rfl
@[simp] theorem State.modClk_count (f : Clk → Clk) : (s.modClk f).count = s.count := rfl
@[simp] theorem State.modBoot_count (f : Boot → Boot) : (s.modBoot f).count = s.count := rfl
@[simp] theorem State.modLev_count (f : Lev → Lev) : (s.modLev f).count = s.count := rfl
@[simp] theorem State.modPw_count (f : Pw → Pw) : (s.modPw f).count = s.count := rfl
@[simp] theorem State.modBackup_count (f : Backup → Backup) : (s.modBackup f).count = s.count := rfl
@[simp] theorem State.modUsb_count (f : Usb → Usb) : (s.modUsb f).count = s.count := rfl
@[simp] theorem State.modYoke_count (f : Yoke → Yoke) : (s.modYoke f).count = s.count := rfl
@[simp] theorem State.modHw_count (f : Hw → Hw) : (s.modHw f).count = s.count := rfl
@[simp] theorem State.modUpd_count (f : Upd → Upd) : (s.modUpd f).count = s.count := rfl
@[simp] theorem State.modThr_count (f : Thr → Thr) : (s.modThr f).count = s.count := rfl
@[simp] theorem State.modPort_count (k : Nat) (f : CspPort → CspPort) : (s.modPort k f).count = s.count := rfl
@[simp] theorem State.modSent_count (k : Nat) (f : SentChan → SentChan) : (s.modSent k f).count = s.count := rfl
@[simp] theorem State.modEdge_count (k : Nat) (f : EdgeIn → EdgeIn) : (s.modEdge k f).count = s.count := rfl
@[simp] theorem State.modBank_count (k : Nat) (f : EdgeBank → EdgeBank) : (s.modBank k f).count = s.count := rfl
@[simp] theorem State.modTwt_count (k : Nat) (f : Twt → Twt) : (s.modTwt k f).count = s.count := rfl
@[simp] theorem State.modSram_count (k : Nat) (f : Bank → Bank) : (s.modSram k f).count = s.count := rfl
@[simp] theorem State.modStream_count (k : Nat) (f : Stream → Stream) : (s.modStream k f).count = s.count := rfl
@[simp] theorem State.modHub_count (k : Nat) (f : HubPort → HubPort) : (s.modHub k f).count = s.count := rfl
@[simp] theorem State.modPos_count (k : Nat) (f : Position → Position) : (s.modPos k f).count = s.count := rfl
@[simp] theorem State.modEpisode_count (k : Nat) (f : Episode → Episode) : (s.modEpisode k f).count = s.count := rfl
@[simp] theorem State.modCtx_count (k : Nat) (f : Ctx → Ctx) : (s.modCtx k f).count = s.count := rfl
@[simp] theorem State.modChan_count (k : Nat) (f : Chan → Chan) : (s.modChan k f).count = s.count := rfl
@[simp] theorem State.modEntry_count (k : Nat) (f : EntryRt → EntryRt) : (s.modEntry k f).count = s.count := rfl
@[simp] theorem State.at_count (k : Nat) : (s.at k).count = s.count := rfl

/-! ### Events and records -/

@[simp] theorem State.settleInt_count : s.settleInt.count = s.count := State.count_congr (State.settleInt_cnt s)

/-- An event counts nothing but a notification that EP3 lost (13 R491). -/
theorem State.raise_count (k : Nat) (other : cntKey n w lo ≠ cntKey nEVENTS 11 0) : (s.raise k).count n w lo = s.count n w lo := by
  simp only [State.raise, State.settleInt_count, State.ite]
  (repeat' split) <;> simp [State.bump_count_other (by decide : 0 < 32) other]

theorem State.raiseOnce_count (k : Nat) (other : cntKey n w lo ≠ cntKey nEVENTS 11 0) : (s.raiseOnce k).count n w lo = s.count n w lo := by
  unfold State.raiseOnce
  split
  · rfl
  · rw [State.raise_count k other, State.modEv_count]

/-- A record counts nothing but one that the queue discards (13 R472). -/
theorem State.enqueue_count (r : AlmRec) (other : cntKey n w lo ≠ cntKey nALMANAC 6 0) : (s.enqueue r).count n w lo = s.count n w lo := by
  simp only [State.enqueue]
  split
  · rw [State.count_congr (State.tellDrops_cnt _), State.modAlm_count, State.bump_count_other (by decide) other]
  · rfl

theorem State.closeWindow_count (v : MergeWin) (k : Nat) (other : cntKey n w lo ≠ cntKey nALMANAC 6 0) :
    (s.closeWindow v k).count n w lo = s.count n w lo := by
  simp only [State.closeWindow]
  split
  · rfl
  · rw [State.enqueue_count _ other, State.modAlm_count]

theorem State.record_count (r : AlmRec) (other : cntKey n w lo ≠ cntKey nALMANAC 6 0) : (s.record r).count n w lo = s.count n w lo := by
  simp only [State.record]
  (repeat' split) <;> simp [State.enqueue_count _ other, State.closeWindow_count _ _ other]

theorem State.log_count (type source index code : Nat) (detail : List Byte) (other : cntKey n w lo ≠ cntKey nALMANAC 6 0) :
    (s.log type source index code detail).count n w lo = s.count n w lo := State.record_count _ other

/-! ### Events of a period -/

theorem State.raiseOnce_has_self {k : Nat} (first : bitAt s.ev.inPeriod k = false) : (s.raiseOnce k).has k = true := by
  simp [State.raiseOnce, first]

/-! ### The numbered things -/

theorem State.Inv.shaped (inv : s.Inv) : s.mb.chans.length = 4 ∧ s.drill.entries.length = 288 ∧ s.csp.length = 8 ∧ s.sent.length = 24 ∧ s.edge.length = 32 ∧ s.banks.length = 4 ∧ s.twt.length = 2 ∧ s.mirror.length = 64 ∧ s.mem.banks.length = 64 ∧ s.usb.streams.length = 2 ∧ s.usb.ports.length = 4 ∧ s.yoke.positions.length = 7 ∧ s.hw.episodes.length = 4 := by
  obtain ⟨shape, -⟩ := inv
  simp only [State.shape, Bool.and_eq_true, beq_iff_eq] at shape
  grind

theorem State.Inv.chans (inv : s.Inv) : s.mb.chans.length = 4 := by
  have shaped := inv.shaped
  tauto
theorem State.Inv.entries (inv : s.Inv) : s.drill.entries.length = 288 := by
  have shaped := inv.shaped
  tauto
theorem State.Inv.ports (inv : s.Inv) : s.csp.length = 8 := by
  have shaped := inv.shaped
  tauto
theorem State.Inv.sent (inv : s.Inv) : s.sent.length = 24 := by
  have shaped := inv.shaped
  tauto
theorem State.Inv.edges (inv : s.Inv) : s.edge.length = 32 := by
  have shaped := inv.shaped
  tauto
theorem State.Inv.edgeBanks (inv : s.Inv) : s.banks.length = 4 := by
  have shaped := inv.shaped
  tauto
theorem State.Inv.targets (inv : s.Inv) : s.twt.length = 2 := by
  have shaped := inv.shaped
  tauto
theorem State.Inv.mirror (inv : s.Inv) : s.mirror.length = 64 := by
  have shaped := inv.shaped
  tauto
theorem State.Inv.banks (inv : s.Inv) : s.mem.banks.length = 64 := by
  have shaped := inv.shaped
  tauto
theorem State.Inv.streams (inv : s.Inv) : s.usb.streams.length = 2 := by
  have shaped := inv.shaped
  tauto
theorem State.Inv.hubPorts (inv : s.Inv) : s.usb.ports.length = 4 := by
  have shaped := inv.shaped
  tauto
theorem State.Inv.positions (inv : s.Inv) : s.yoke.positions.length = 7 := by
  have shaped := inv.shaped
  tauto
theorem State.Inv.episodes (inv : s.Inv) : s.hw.episodes.length = 4 := by
  have shaped := inv.shaped
  tauto

end Sys2Proof.Machine
end

section
/-! SUPPORT. The two-wire targets: the bytes that a read clocks out, and their transactions (06 R208 to R221). -/

namespace Sys2Proof.Machine

set_option Elab.async false

variable {s t : State} {k n m a b : Nat} {l : List Byte}

/-! ### Slices -/

@[simp] theorem slice_length : (slice l a n).length = n := by
  simp only [slice, List.length_append, List.length_take, List.length_drop, List.length_replicate]
  omega

/-- A slice in bytes: past the end of its list it reads 0. -/
theorem slice_getElem (i : Nat) (h : i < (slice l a n).length) : (slice l a n)[i] = l.getD (a + i) 0 := by
  simp only [slice_length] at h
  simp only [slice, List.getElem_append, List.length_take, List.length_drop, List.getElem_replicate, List.getElem_take, List.getElem_drop,
    List.getD_eq_getElem?_getD]
  split
  · rw [List.getElem?_eq_getElem (by omega)]
    rfl
  · rw [List.getElem?_eq_none (by omega)]
    rfl

theorem slice_append_slice : slice l a n ++ slice l (a + n) m = slice l a (n + m) := by
  refine List.ext_getElem (by simp) fun i _ _ => ?_
  rw [List.getElem_append]
  split
  · rw [slice_getElem, slice_getElem]
  · rw [slice_getElem, slice_getElem, slice_length]
    congr 1
    simp only [slice_length] at *
    omega

/-- A slice of a slice that ends at the end of the list, or past it. -/
theorem slice_slice (whole : l.length ≤ a + n) : slice (slice l a n) 0 m = slice l a m := by
  refine List.ext_getElem (by simp) fun i _ _ => ?_
  rw [slice_getElem, slice_getElem, Nat.zero_add, List.getD_eq_getElem?_getD, List.getD_eq_getElem?_getD]
  rcases Nat.lt_or_ge i n with inside | outside
  · rw [List.getElem?_eq_getElem (by simpa using inside), slice_getElem, List.getD_eq_getElem?_getD]
    rfl
  · rw [List.getElem?_eq_none (by simpa using outside), List.getElem?_eq_none (by omega)]

/-! ### Register blocks (06 R212) -/

theorem blockStream_plain (sent : List Byte) (bs : List (List Byte)) : blockStream false sent bs = bs.flatten := by
  induction bs generalizing sent with
  | nil => rfl
  | cons b bs ih => simp [blockStream, ih]

@[simp] theorem leBytes_length (v : Nat) : (leBytes n v).length = n := by
  induction n generalizing v with
  | zero => rfl
  | succ n ih => simp [leBytes, ih]

theorem State.twtRegisters_length : (s.twtRegisters k).length = 64 := by
  simp [State.twtRegisters, State.fwBytes, syntaxPointer]

/-- Whole blocks from a boundary are one slice. -/
theorem blocks_flatten (c n : Nat) : ((List.range n).map fun i => slice l (16 * (c + i)) 16).flatten = slice l (16 * c) (16 * n) := by
  induction n with
  | zero => rfl
  | succ n ih =>
    rw [List.range_succ, List.map_append, List.flatten_append, ih, Nat.mul_add, Nat.mul_one, ← slice_append_slice]
    simp [Nat.mul_add]

/-- The blocks from a pointer are the registers from it on. -/
theorem State.registerBlocks_flatten {q : Nat} (inside : q ≤ 64) : (s.registerBlocks k q).flatten = slice (s.twtRegisters k) q (64 - q) := by
  simp only [State.registerBlocks]
  rcases Nat.eq_or_lt_of_le inside with rfl | below
  · rfl
  · obtain ⟨n, hn⟩ : ∃ n, 4 - q / 16 = n + 1 := ⟨3 - q / 16, by omega⟩
    have first : q + (16 - q % 16) = 16 * (q / 16 + 1) := by omega
    have rest : 64 - q = (16 - q % 16) + 16 * n := by omega
    rw [hn, List.range_succ_eq_map, List.map_cons, List.flatten_cons, List.map_map, if_pos rfl, rest, ← slice_append_slice, first,
      ← blocks_flatten]
    refine congrArg (_ ++ List.flatten ·) (List.map_congr_left fun i _ => ?_)
    rw [Function.comp_apply, if_neg (Nat.succ_ne_zero i), show q / 16 + (i + 1) = q / 16 + 1 + i by omega]

/-! ### What each step of a transaction changes -/

@[simp] theorem State.setPointer_twt (p : Nat) : (s.setPointer k p).twt = updAt s.twt k fun t => { t with pointer := p } := rfl
@[simp] theorem State.setPointer_mb (p : Nat) : (s.setPointer k p).mb = s.mb := rfl
@[simp] theorem State.setPointer_tm (p : Nat) : (s.setPointer k p).tm = s.tm := rfl
@[simp] theorem State.setPointer_ev (p : Nat) : (s.setPointer k p).ev = s.ev := rfl
@[simp] theorem State.setPointer_cfg (p : Nat) : (s.setPointer k p).cfg = s.cfg := rfl
@[simp] theorem State.setPointer_mirror (p : Nat) : (s.setPointer k p).mirror = s.mirror := rfl
@[simp] theorem State.setPointer_count (p : Nat) : (s.setPointer k p).count = s.count := rfl

@[simp] theorem State.twtOut_twt (bs : List Byte) : (s.twtOut k bs).twt = updAt s.twt k fun t => { t with acked := true, out := bs } := rfl
@[simp] theorem State.twtOut_mb (bs : List Byte) : (s.twtOut k bs).mb = s.mb := rfl
@[simp] theorem State.twtOut_tm (bs : List Byte) : (s.twtOut k bs).tm = s.tm := rfl
@[simp] theorem State.twtOut_ev (bs : List Byte) : (s.twtOut k bs).ev = s.ev := rfl
@[simp] theorem State.twtOut_cfg (bs : List Byte) : (s.twtOut k bs).cfg = s.cfg := rfl
@[simp] theorem State.twtOut_mirror (bs : List Byte) : (s.twtOut k bs).mirror = s.mirror := rfl
theorem State.twtOut_count (bs : List Byte) {n w lo : Nat} : (s.twtOut k bs).count n w lo
    = if cntKey n w lo = cntKey (nTWT k) 1 0 then satAdd 32 (s.count (nTWT k) 1 0) 1 else s.count n w lo :=
  State.bump_count (by decide)

@[simp] theorem State.nackAddress_twt : (s.nackAddress k).twt = updAt s.twt k fun t => { t with acked := false, out := [] } := rfl
@[simp] theorem State.nackAddress_mb : (s.nackAddress k).mb = s.mb := rfl
@[simp] theorem State.nackAddress_tm : (s.nackAddress k).tm = s.tm := rfl
@[simp] theorem State.nackAddress_ev : (s.nackAddress k).ev = s.ev := rfl
@[simp] theorem State.nackAddress_cfg : (s.nackAddress k).cfg = s.cfg := rfl
@[simp] theorem State.nackAddress_mirror : (s.nackAddress k).mirror = s.mirror := rfl

@[simp] theorem State.nackData_twt : (s.nackData k).twt = updAt s.twt k fun t => { t with acked := false, out := [] } := rfl
@[simp] theorem State.nackData_mb : (s.nackData k).mb = s.mb := rfl
@[simp] theorem State.nackData_tm : (s.nackData k).tm = s.tm := rfl
@[simp] theorem State.nackData_ev : (s.nackData k).ev = s.ev := rfl
@[simp] theorem State.nackData_cfg : (s.nackData k).cfg = s.cfg := rfl
@[simp] theorem State.nackData_mirror : (s.nackData k).mirror = s.mirror := rfl

@[simp] theorem State.twtEvent_mb : (s.twtEvent k).mb = s.mb := State.raiseOnce_mb _ _
@[simp] theorem State.twtEvent_tm : (s.twtEvent k).tm = s.tm := State.raiseOnce_tm _ _
@[simp] theorem State.twtEvent_twt : (s.twtEvent k).twt = s.twt := State.raiseOnce_twt _ _
@[simp] theorem State.twtEvent_cfg : (s.twtEvent k).cfg = s.cfg := State.raiseOnce_cfg _ _
@[simp] theorem State.twtEvent_mirror : (s.twtEvent k).mirror = s.mirror := State.raiseOnce_mirror _ _

/-- A counter of a target is not the one of notifications lost. -/
theorem twt_ne_lost {w lo : Nat} (small : k < 2) (inside : w < 1024) (low : lo < 32) : cntKey (nTWT k) w lo ≠ cntKey nEVENTS 11 0 := by
  rw [Ne, cntKey_eq_iff inside (by decide) low (by decide)]
  simp only [nTWT, nEVENTS]
  omega

theorem State.twtEvent_count {w lo : Nat} (small : k < 2) (inside : w < 1024) (low : lo < 32) :
    (s.twtEvent k).count (nTWT k) w lo = s.count (nTWT k) w lo := State.raiseOnce_count _ (twt_ne_lost small inside low)

theorem State.twtEvent_has (first : bitAt s.ev.inPeriod (20 + k) = false) : (s.twtEvent k).has (20 + k) = true :=
  State.raiseOnce_has_self first

/-! ### Transactions -/

/-- A request written is the last that its channel has received, and its target is busy for 50 µs (06 R213). -/
theorem State.writeRequest_takes {data : List Byte} {pec : Byte} (here : k < s.twt.length) (chan : twtChan k < s.mb.chans.length) (small : k < 2)
    (up : s.twtAck k = true) (served : s.windowServed k = true) (some' : data ≠ []) (accepts : s.accepts (twtChan k) = true)
    (whole : s.pecOk k (0x40 :: data) pec = true) :
    (nth {} (s.writeRequest k data pec).mb.chans (twtChan k)).rx = (nth {} s.mb.chans (twtChan k)).rx ++ [data.take 4096]
      ∧ (nth {} (s.writeRequest k data pec).twt k).busyUntil = s.tm.now + 6000 ∧ (nth {} (s.writeRequest k data pec).twt k).pointer = 0x40
      ∧ (bitAt s.ev.inPeriod (20 + k) = false → (s.writeRequest k data pec).has (20 + k) = true)
      ∧ (s.writeRequest k data pec).count (nTWT k) 1 0 = satAdd 32 (s.count (nTWT k) 1 0) 1
      ∧ (s.writeRequest k data pec).count (nTWT k) 3 0
        = (if 4096 < data.length then satAdd 16 (s.count (nTWT k) 3 0) 1 else s.count (nTWT k) 3 0) := by
  have nonempty : data.isEmpty = false := by simpa using some'
  have ticks : ticksUs 50 = 6000 := rfl
  simp only [State.writeRequest, up, served, nonempty, accepts, whole, Bool.not_true, Bool.not_false, Bool.false_eq_true, if_false, Bool.and_false]
  by_cases long : 4096 < data.length
  all_goals
    refine ⟨?_, ?_, ?_, fun first => State.twtEvent_has (by simpa [State.ite, long] using first), ?_, ?_⟩
    · simp [State.ite, long, nth_updAt_self, chan]
    · simp [State.ite, long, nth_updAt_self, here, ticks]
    · simp [State.ite, long, nth_updAt_self, here]
    · simp [State.ite, long, State.twtEvent_count small, State.twtOut_count, State.bump_count, cntKey_eq_iff]
    · simp [State.ite, long, State.twtEvent_count small, State.twtOut_count, State.bump_count, cntKey_eq_iff]

/-- A reply collected leaves its queue, where no change of framing waits for it (02 R66). -/
theorem State.collect_eq (settled : s.mb.compatNext = none) (ch : Nat) : s.collect ch
    = s.modChan ch fun c => { c with replies := c.replies.tail, flow := c.flow && decide (16 < c.replies.length) } := by
  have settled' : (s.modChan ch fun c => { c with replies := c.replies.tail, flow := c.flow && decide (16 < c.replies.length) }).mb.compatNext = none :=
    settled
  simp only [State.collect, settled']

/-- A read of the reply window clocks out the oldest reply, which leaves its queue with its last byte (06 R214, R215). -/
theorem State.readReply_oldest {c : Nat} {phases : List Byte} {y : Reply} {rest : List Reply} (here : k < s.twt.length)
    (chan : twtChan k < s.mb.chans.length) (oldest : (nth {} s.mb.chans (twtChan k)).replies = y :: rest) (settled : s.mb.compatNext = none) :
    (nth {} (s.readReply k c phases).twt k).out = slice (blockStream (s.flag (nTWT k) 0 1) phases [y.bytes]) 0 c
      ∧ (nth {} (s.readReply k c phases).mb.chans (twtChan k)).replies
        = if y.bytes.length + b2n (s.flag (nTWT k) 0 1) ≤ c then rest else y :: rest := by
  simp only [State.readReply, oldest, List.head?_cons]
  split
  · rw [State.collect_eq (by exact settled)]
    simp [nth_updAt_self, here, chan, oldest]
  · simp [nth_updAt_self, here, oldest]

/-- A read of registers gives their blocks from the pointer on; without PEC, the registers themselves (06 R210, R212). -/
theorem State.readRegisters_reads {q c : Nat} {phases : List Byte} (here : k < s.twt.length) (inside : q ≤ 0x40) :
    (s.readRegisters k q c phases).mb = s.mb
      ∧ (nth {} (s.readRegisters k q c phases).twt k).out = slice (blockStream (s.flag (nTWT k) 0 1) phases (s.registerBlocks k q)) 0 c
      ∧ (s.flag (nTWT k) 0 1 = false → (nth {} (s.readRegisters k q c phases).twt k).out = slice (s.twtRegisters k) q c
        ∧ (nth {} (s.readRegisters k q c phases).twt k).pointer = min 0x40 (q + c)) := by
  refine ⟨by simp [State.readRegisters], by simp [State.readRegisters, nth_updAt_self, here], fun plain => ⟨?_, ?_⟩⟩
  · have whole : (s.twtRegisters k).length ≤ q + (64 - q) := by rw [State.twtRegisters_length]; omega
    simp [State.readRegisters, nth_updAt_self, here, plain, blockStream_plain, State.registerBlocks_flatten inside, slice_slice whole]
  · simp [State.readRegisters, nth_updAt_self, here, plain, dataClocked]

/-- A read of a target that answers, at a pointer that its window allows: of registers, or of the oldest reply (06 R210, R214). -/
theorem State.readTarget_eq {p : Option Byte} {c q : Nat} (up : s.twtAck k = true) (served : s.windowServed k = true)
    (from' : q = (p.map (·.toNat)).getD (nth {} s.twt k).pointer) (inside : q ≤ 0x41) : s.readTarget k p c
      = if q = 0x41 then (s.setPointer k q).readReply k c (readPhases (s.twtAddr k) p) else s.readRegisters k q c (readPhases (s.twtAddr k) p) := by
  have allowed : ¬0x41 < q := by omega
  simp [State.readTarget, up, served, ← from', allowed]

/-- A write of a pointer alone sets it and raises the activity event (06 R210, R221). -/
theorem execTwtRegisterWrite_pointer {target : Fin 2} {p : Byte} {d : TwtData} (up : s.twtAck target.val = true)
    (served : s.windowServed target.val = true) (inside : p.toNat ≤ 0x41) (alone : d.bytes = []) (whole : s.pecOk target.val [p] d.pec = true) :
    execTwtRegisterWrite target p d s = .next (((s.setPointer target.val p.toNat).twtOut target.val []).twtEvent target.val) := by
  have allowed : ¬0x41 < p.toNat := by omega
  have some' : (!d.bytes.isEmpty) = false := by simp [alone]
  by_cases window : p = 0x40
  · subst window
    rw [← alone] at whole
    simp_all [execTwtRegisterWrite, State.writeRequest]
  · have window' : (p == 0x40) = false := beq_false_of_ne window
    simp only [execTwtRegisterWrite, window', up, served, some', whole, allowed, Bool.not_true, Bool.and_false, Bool.false_eq_true, decide_false,
      Bool.or_false, if_false]

/-- Data for another register than the window is not acknowledged (06 R221). -/
theorem execTwtRegisterWrite_data {target : Fin 2} {p : Byte} {d : TwtData} (up : s.twtAck target.val = true)
    (served : s.windowServed target.val = true) (inside : p.toNat ≤ 0x41) (other : p ≠ 0x40) (some' : d.bytes ≠ []) :
    execTwtRegisterWrite target p d s = .next ((s.setPointer target.val p.toNat).nackData target.val) := by
  have allowed : ¬0x41 < p.toNat := by omega
  have window : (p == 0x40) = false := beq_false_of_ne other
  have nonempty : (!d.bytes.isEmpty) = true := by simpa using some'
  simp only [execTwtRegisterWrite, window, up, served, nonempty, allowed, Bool.not_true, Bool.and_false, Bool.false_eq_true, decide_false,
    Bool.or_false, if_false, if_true]

/-! ### Virtual targets -/

/-- A read of a view clocks it out from its pointer and remembers the period and layout read (06 R210, R218). -/
theorem State.readVirtual_reads {v c q : Nat} {p : Option Byte} (here : 1 < s.twt.length) (slot : v < s.mirror.length)
    (from' : q = (p.map (·.toNat)).getD (nth {} s.mirror v).pointer) (inside : p.isSome = true → q < (s.virtualView v).length) :
    (nth {} (s.readVirtual a v p c).twt 1).out = slice (blockStream (s.flag (nTWT 1) 0 1) (readPhases a p) [(s.virtualView v).drop q]) 0 c
      ∧ (nth {} (s.readVirtual a v p c).mirror v).readPeriod = some ((nth {} s.mirror v).period, (nth {} s.mirror v).layout)
      ∧ (nth {} (s.readVirtual a v p c).mirror v).pointer = min (s.virtualView v).length (q + c)
      ∧ ∀ j, j ≠ v → nth {} (s.readVirtual a v p c).mirror j = nth {} s.mirror j := by
  have read : ¬(p.isSome = true ∧ (s.virtualView v).length ≤ q) := fun ⟨given, past⟩ => by have := inside given; omega
  have eq : s.readVirtual a v p c
      = { s.twtOut 1 (slice (blockStream (s.flag (nTWT 1) 0 1) (readPhases a p) [(s.virtualView v).drop q]) 0 c) with
          mirror := updAt s.mirror v fun m => { m with readPeriod := some (m.period, m.layout), pointer := min (s.virtualView v).length (q + c) } } := by
    simp only [State.readVirtual, ← from', Bool.and_eq_true, decide_eq_true_eq, read, if_false, State.twtOut_mirror]
  rw [eq]
  exact ⟨by simp [nth_updAt_self, here], by simp [nth_updAt_self, slot], by simp [nth_updAt_self, slot], fun j other => nth_updAt_ne _ _ _ _ _ (Ne.symm other)⟩

/-- Settles O31: each transaction by what it changes of its target, its channel and its counters. -/
theorem twoWireTargetsServe : Obligations.TwoWireTargetsServe := by
  unfold Obligations.TwoWireTargetsServe
  refine ⟨fun k s pecOn inv up served pec => ?_, fun s inv => ?_⟩
  · have here : k.val < s.twt.length := by rw [inv.targets]; exact k.isLt
    have chan : twtChan k.val < s.mb.chans.length := by rw [inv.chans, twtChan]; omega
    subst pec
    refine ⟨fun data pec some' accepts whole => ⟨_, rfl, State.writeRequest_takes here chan k.isLt up served some' accepts whole⟩,
      fun n pc y rest oldest settled => ?_, fun p n q from' inside => ?_, fun n => ?_, fun p d inside alone whole => ?_,
      fun p d inside other some' => ?_⟩
    · refine ⟨_, rfl, ?_⟩
      simp only [up, served, Bool.not_true, Bool.false_eq_true, if_false]
      exact State.readReply_oldest (s := s.setPointer k.val 0x41) (by simpa using here) chan oldest settled
    · refine ⟨_, rfl, ?_⟩
      rw [State.readTarget_eq up served from' (by omega), if_neg (by omega)]
      exact State.readRegisters_reads here inside
    · simp only [exec, execTwtRegisterRead, execTwtReplyRead]
      rw [State.readTarget_eq (q := 0x41) up served rfl (by decide)]
      simp [up, served, b2n]
    · refine ⟨_, execTwtRegisterWrite_pointer up served inside alone whole, ?_, ?_, by simp, by simp, fun first => State.twtEvent_has first⟩
      · simp [nth_updAt_self, here]
      · simp [nth_updAt_self, here]
    · refine ⟨_, execTwtRegisterWrite_data up served inside other some', ?_, ?_, by simp, by simp⟩
      · simp [nth_updAt_self, here]
      · simp [nth_updAt_self, here]
  · have here : 1 < s.twt.length := by rw [inv.targets]; decide
    refine ⟨fun a k p n q up target virtual slot shown from' inside => ?_, fun a k p n up target virtual hidden => ?_,
      fun a p n target => by simp [exec, execVirtualTargetRead, target], fun k up => ?_⟩
    · obtain ⟨v, rfl⟩ := Nat.exists_eq_succ_of_ne_zero virtual
      refine ⟨s.readVirtual a.toNat (v + 1) p n, by simp [exec, execVirtualTargetRead, target, up, shown], ?_⟩
      exact State.readVirtual_reads here (by rw [inv.mirror]; exact slot) from' inside
    · obtain ⟨v, rfl⟩ := Nat.exists_eq_succ_of_ne_zero virtual
      refine ⟨s.nackAddress 1, by simp [exec, execVirtualTargetRead, target, hidden], ?_, rfl, State.bump_count_same (by decide)⟩
      simp [nth_updAt_self, here]
    · have here : k.val < s.twt.length := by rw [inv.targets]; exact k.isLt
      refine ⟨_, (if_pos up : execTwtBusTimeout k s = _), ?_, ?_, ?_, by simp⟩
      · simp [nth_updAt_self, here]
      · simp [nth_updAt_self, here]
      · simp [State.twtEvent_count k.isLt, State.bump_count]

end Sys2Proof.Machine
end

section
/-! SUPPORT. Counters under an injection, and entries aborted at their deadline (14 R494; 01 R19; 04 R129). -/

namespace Sys2Proof.Machine

set_option Elab.async false

variable {s t : State} {n w lo k : Nat}

/-! ### Counters of units -/

/-- A counter that is not of SYS, EVENTS, ALMANAC or HARROW: no reply, event, record or injection advances it. -/
structure Elsewhere (n w lo : Nat) : Prop where
  inside : w < 1024
  low : lo < 32
  sys : n ≠ nSYS
  events : n ≠ nEVENTS
  almanac : n ≠ nALMANAC
  harrow : n ≠ nHARROW

theorem Elsewhere.lost (h : Elsewhere n w lo) : cntKey n w lo ≠ cntKey nEVENTS 11 0 := by
  rw [Ne, cntKey_eq_iff h.inside (by decide) h.low (by decide)]
  exact fun same => h.events same.1

theorem Elsewhere.dropped (h : Elsewhere n w lo) : cntKey n w lo ≠ cntKey nALMANAC 6 0 := by
  rw [Ne, cntKey_eq_iff h.inside (by decide) h.low (by decide)]
  exact fun same => h.almanac same.1

theorem Elsewhere.injections (h : Elsewhere n w lo) {v : Nat} (inside : v < 1024) : cntKey n w lo ≠ cntKey nHARROW v 0 := by
  rw [Ne, cntKey_eq_iff h.inside inside h.low (by decide)]
  exact fun same => h.harrow same.1

theorem State.endEpisode_count (h : Elsewhere n w lo) (e reason : Nat) : (s.endEpisode e reason).count n w lo = s.count n w lo := by
  simp only [State.endEpisode, State.endEpisodeAt]
  split
  · rw [State.raise_count _ h.lost, State.log_count _ _ _ _ _ h.dropped, State.modEpisode_count]
  · rfl

theorem State.injected_count (h : Elsewhere n w lo) {e : Nat} (slot : e < 4) : (s.injected e).count n w lo = s.count n w lo := by
  have counted (f : Episode → Episode) : (((s.bump nHARROW 2 0 32).bump nHARROW (8 + 12 * e + 9) 0 32).modEpisode e f).count n w lo = s.count n w lo := by
    rw [State.modEpisode_count, State.bump_count_other (by decide) (h.injections (by omega)), State.bump_count_other (by decide) (h.injections (by decide))]
  simp only [State.injected]
  split
  · rw [State.endEpisode_count h, counted]
  · rw [counted]

/-- The selections of an entry are of the four slots. -/
theorem State.selected_slot {ix : Nat} {x : Selection} (selected : x ∈ s.selected ix) : x.slot < 4 := by
  simp only [State.selected, List.mem_flatMap, List.mem_range, List.mem_filter, beq_iff_eq] at selected
  obtain ⟨e, few, -, slot⟩ := selected
  omega

/-- An operation whose frame holds no counters leaves them all. -/
theorem Within.count {parts : List Part} (w : Within parts s t) (apart : Part.counters ∉ parts := by decide) : t.count = s.count :=
  State.count_congr (w .counters apart)

theorem State.undraw_count (ix clocked : Nat) (p : Profile) : (s.undraw k ix clocked p).count = s.count :=
  have frame : Within [.harrow] s (s.undraw k ix clocked p) := State.undraw_frame k ix clocked p (Within.refl s)
  frame.count

theorem State.abortPort_count (f e clocked : Nat) : (s.abortPort f e clocked).count = s.count :=
  have frame : Within [.ports] s (s.abortPort f e clocked) := State.abortPort_frame f e clocked (Within.refl s)
  frame.count

/-- A fold of updates that each leave a value keeps it. -/
theorem foldl_keeps {α β γ : Type} (value : β → γ) (f : β → α → β) (l : List α) (keeps : ∀ b, ∀ a ∈ l, value (f b a) = value b) (b : β) :
    value (l.foldl f b) = value b := by
  induction l generalizing b with
  | nil => rfl
  | cons a l ih =>
    rw [List.foldl_cons, ih (fun b a mem => keeps b a (List.mem_cons_of_mem _ mem)), keeps b a List.mem_cons_self]

theorem State.abortSelections_count (h : Elsewhere n w lo) (f e clocked : Nat) : (s.abortSelections f e clocked).count n w lo = s.count n w lo := by
  simp only [State.abortSelections, State.clearSelections, State.modHw_count]
  rw [foldl_keeps (fun u : State => u.count n w lo), State.undraw_count]
  intro u x selected
  split
  · exact State.injected_count h (State.selected_slot selected)
  · rfl

/-! ### Deadlines -/

@[simp] theorem State.missDeadline_drill (f e : Nat) : (s.missDeadline f e).drill = { s.drill with abortedNow := s.drill.abortedNow + 1 } := by
  simp [State.missDeadline]

@[simp] theorem State.missDeadline_tm (f e : Nat) : (s.missDeadline f e).tm = s.tm := by simp [State.missDeadline]

/-- A missed deadline counts in the period, beside the count of its furrow (01 R19). -/
theorem State.missDeadline_count {f : Nat} (e : Nat) : (s.missDeadline f e).count nPERIOD 4 0 = satAdd 32 (s.count nPERIOD 4 0) 1 := by
  have here : Elsewhere nPERIOD 4 0 := ⟨by decide, by decide, by decide, by decide, by decide, by decide⟩
  have furrow : cntKey nPERIOD 4 0 ≠ cntKey (furrowNoun f) 3 0 := by
    rw [Ne, cntKey_eq_iff (by decide) (by decide) (by decide) (by decide)]
    exact fun same => absurd same.2.1 (by decide)
  simp only [State.missDeadline]
  rw [State.raise_count _ here.lost, State.log_count _ _ _ _ _ here.dropped, State.modDrill_count, State.bump_count_other (by decide) furrow,
    State.bump_count_same (by decide)]

/-- What an abort does before its entry is marked: to the port and its selections, or to a SENT channel (04 R129, R135). -/
def State.abortWire (s : State) (f e clocked : Nat) (wireDone : Bool) (ph : EntryPhase) : State :=
  if entType s.reg f e == 1 && ph == .running then
    (if wireDone then s.releasePort f else s.abortPort f e clocked).abortSelections f e (if wireDone then (s.profile f e).frameBits else clocked)
  else if entType s.reg f e == 2 && clocked == 0 then s.modSent (entTarget s.reg 8 e) fun x => { x with trigger := none }
  else s

/-- What an abort may change before its entry is marked. -/
abbrev Part.ofAbort : List Part := [.ports, .sent, .counters, .events, .almanac, .harrow]

theorem State.abortWire_within (f e clocked : Nat) (wireDone : Bool) (ph : EntryPhase) :
    Within Part.ofAbort s (s.abortWire f e clocked wireDone ph) := by
  unfold State.abortWire
  split
  · refine State.abortSelections_frame _ _ _ ?_
    split
    · exact State.releasePort_frame _ (Within.refl s)
    · exact State.abortPort_frame _ _ _ (Within.refl s)
  · split
    · exact State.modSent_frame _ _ (Within.refl s)
    · exact Within.refl s

theorem State.abortWire_count (h : Elsewhere n w lo) (f e clocked : Nat) (wireDone : Bool) (ph : EntryPhase) :
    (s.abortWire f e clocked wireDone ph).count n w lo = s.count n w lo := by
  unfold State.abortWire
  split
  · rw [State.abortSelections_count h]
    split
    · rfl
    · rw [State.abortPort_count]
  · split <;> rfl

/-- Settles O35: the entry is marked after what its abort does on the wire, and the miss is counted last. -/
theorem deadlinesAbort : Obligations.DeadlinesAbort := by
  unfold Obligations.DeadlinesAbort
  intro f e clocked wireDone s inv going kind
  have phase : ((s.entry f.val e.val).phase == .running || (s.entry f.val e.val).phase == .wireDone) = true := by simpa using going
  have type : (entType s.reg f.val e.val == 1 || entType s.reg f.val e.val == 2) = true := by simpa using kind
  let u := ((s.at (s.deadlineAt f.val e.val)).discardWrite f.val e.val).abortWire f.val e.val clocked wireDone (s.entry f.val e.val).phase
  have frame : Within Part.ofAbort ((s.at (s.deadlineAt f.val e.val)).discardWrite f.val e.val) u := State.abortWire_within _ _ _ _ _
  have drill : u.drill = s.drill := frame .drill (by decide)
  have slot : entIx f.val e.val < u.drill.entries.length := by
    rw [drill, inv.entries, entIx]
    omega
  have counts : u.count nPERIOD 4 0 = s.count nPERIOD 4 0 :=
    State.abortWire_count ⟨by decide, by decide, by decide, by decide, by decide, by decide⟩ _ _ _ _ _
  have time : u.tm = { s.tm with now := max s.tm.now (s.deadlineAt f.val e.val) } := frame .time (by decide)
  have executes : exec (.deadlineAbort f e clocked wireDone) s = .next ((u.modEntry (entIx f.val e.val) fun r =>
      { r with phase := .aborted, lastEnd := 0, lastOutcome := 3, waitStart := false }).missDeadline f.val e.val) := by
    simp only [exec, execDeadlineAbort, phase, type, Bool.and_self, if_true]
    rfl
  refine ⟨_, executes, ?_, ?_, ?_, ?_, ?_, ?_, ?_⟩
  · simp [State.entry, nth_updAt_self, slot]
  · simp [State.entry, nth_updAt_self, slot]
  · simp [State.entry, nth_updAt_self, slot]
  · simp [State.missDeadline]
  · simp [drill]
  · rw [State.missDeadline_count, State.modEntry_count, counts]
  · simp [time]

end Sys2Proof.Machine
end

section
/-! SUPPORT. Counters under a reply, and the ports: missing start bits, recovery frames and TX buffers (05 R162, R172; 04 R131). -/

namespace Sys2Proof.Machine

set_option Elab.async false

variable {s t u : State} {n w lo k : Nat}

/-! ### Counters under a reply -/

theorem Elsewhere.flow (h : Elsewhere n w lo) : cntKey n w lo ≠ cntKey nSYS 12 16 := by
  rw [Ne, cntKey_eq_iff h.inside (by decide) h.low (by decide)]
  exact fun same => h.sys same.1

theorem Elsewhere.streamed (h : Elsewhere n w lo) : cntKey n w lo ≠ cntKey nALMANAC 7 16 := by
  rw [Ne, cntKey_eq_iff h.inside (by decide) h.low (by decide)]
  exact fun same => h.almanac same.1

theorem State.stream6_count (h : Elsewhere n w lo) (b : List Byte) : (s.stream6 b).count n w lo = s.count n w lo := by
  unfold State.stream6
  split
  · exact State.bump_count_other (by decide) h.streamed
  · rfl

theorem State.queueReply_count (h : Elsewhere n w lo) (ch : Nat) (r : Reply) : (s.queueReply ch r).count n w lo = s.count n w lo := by
  simp only [State.queueReply, State.ite]
  (repeat' split) <;> simp [State.raise_count _ h.lost, State.bump_count_other (by decide : 0 < 16) h.flow, State.stream6_count h]

theorem State.drawSlot_slot {e width : Nat} {x : State} {q : Pick} (drawn : s.drawSlot e width = (x, some q)) : q.slot = e := by
  simp only [State.drawSlot, Prod.mk.injEq] at drawn
  obtain ⟨-, pick⟩ := drawn
  split at pick
  · cases pick
    rfl
  · cases pick

/-- Every pick is of one of the four slots (14 R493). -/
theorem State.drawUnit_slot (target k : Nat) (j : Option Nat) (width : Nat) : ∀ q ∈ (s.drawUnit target k j width).2, q.slot < 4 := by
  unfold State.drawUnit
  have few : ∀ e ∈ List.range 4, e < 4 := fun e he => List.mem_range.mp he
  generalize List.range 4 = l at few
  suffices grows : ∀ (acc : List Pick) (none' : ∀ q ∈ acc, q.slot < 4), ∀ q ∈ (l.foldl (fun (s, ps) e =>
      if ps.any (·.cls == 0) || !s.candidate e target k j then (s, ps)
      else match s.drawSlot e width with
        | (s, some p) => (s, ps ++ [p])
        | (s, none) => (s, ps)) (s, acc)).2, q.slot < 4 from grows [] (by simp)
  intro acc none'
  induction l generalizing s acc with
  | nil => exact none'
  | cons e l ih =>
    simp only [List.foldl_cons]
    split
    · exact ih (fun e he => few e (List.mem_cons_of_mem _ he)) _ none'
    · split
      · next drawn =>
        refine ih (fun e he => few e (List.mem_cons_of_mem _ he)) _ fun q hq => ?_
        rcases List.mem_append.mp hq with old | new
        · exact none' q old
        · rw [List.mem_singleton.mp new, State.drawSlot_slot drawn]
          exact few e List.mem_cons_self
      · exact ih (fun e he => few e (List.mem_cons_of_mem _ he)) _ none'

theorem State.drawUnit_count (target k : Nat) (j : Option Nat) (width : Nat) : (s.drawUnit target k j width).1.count = s.count :=
  have frame : Within [.harrow] s (s.drawUnit target k j width).1 := State.drawUnit_frame target k j width (Within.refl s)
  frame.count

/-- A reply exchanged with the newest one still queued, or queued (14 Table HW-2; log 24). -/
def State.exchange (s : State) (ch : Nat) (r : Reply) (due pick : Bool) : State :=
  match (nth ({} : Chan) s.mb.chans ch).replies.getLast? with
  | some l => if due || pick then
      ((s.modChan ch fun c => { c with replies := c.replies.dropLast }).queueReply ch r).modChan ch fun c => { c with replies := c.replies ++ [l] }
    else s.queueReply ch r
  | none => (s.ite pick fun s => s.modHw fun h => { h with reorder := h.reorder ++ [ch] }).queueReply ch r

theorem State.exchange_count (h : Elsewhere n w lo) (ch : Nat) (r : Reply) (due pick : Bool) :
    (s.exchange ch r due pick).count n w lo = s.count n w lo := by
  simp only [State.exchange, State.ite]
  (repeat' split) <;> simp only [State.queueReply_count h, State.modChan_count, State.modHw_count]

theorem State.sendReply_count (h : Elsewhere n w lo) (ch : Nat) (r : Reply) : (s.sendReply ch r).count n w lo = s.count n w lo := by
  unfold State.sendReply
  split
  · exact State.queueReply_count h ch r
  · have slots := State.drawUnit_slot (s := s) 4 ch none (8 * r.clean.length)
    have count := State.drawUnit_count (s := s) 4 ch none (8 * r.clean.length)
    revert slots count
    generalize s.drawUnit 4 ch none (8 * r.clean.length) = drawn
    obtain ⟨x, ps⟩ := drawn
    intro slots count
    have folds (p : Pick → Bool) (y : State) : (ps.foldl (fun s q => if p q then s.injected q.slot else s) y).count n w lo = y.count n w lo := by
      refine foldl_keeps (fun y : State => y.count n w lo) _ ps (fun y q hq => ?_) y
      split
      · exact State.injected_count h (slots q hq)
      · rfl
    dsimp only
    split
    · rw [folds (·.cls == 0), count]
    · split
      · rw [State.modHw_count, folds fun p => p.cls == 1 || p.cls == 2 || p.cls == 4, count]
      · have exchanged (y : State) : (match ps.find? (fun q : Pick => q.cls == 3) with | some p => y.injected p.slot | none => y).count n w lo = y.count n w lo := by
          split
          · next pick => exact State.injected_count h (slots _ (List.mem_of_find?_eq_some pick))
          · rfl
        have told (y : State) (due : Bool) : (y.ite due fun s => s.modHw fun h => { h with reorder := h.reorder.erase ch }).count n w lo = y.count n w lo := by
          unfold State.ite
          split <;> rfl
        exact (State.exchange_count h _ _ _ _).trans ((told _ _).trans ((exchanged _).trans ((folds (fun p => p.cls == 1 || p.cls == 2 || p.cls == 4) x).trans (by rw [count]))))

theorem State.answer_count (h : Elsewhere n w lo) (ch id : Nat) (r : Reply) (st : HistState) : (s.answer ch id r st).count n w lo = s.count n w lo := by
  simp only [State.answer, State.sendReply_count h, State.ite]
  split <;> rfl

theorem State.complete_count (h : Elsewhere n w lo) (k : Ticket) (st : Nat) (p : List Byte) : (s.complete k st p).count n w lo = s.count n w lo := by
  unfold State.complete
  split
  · rfl
  · rw [State.answer_count h, State.modChan_count]

theorem State.completeOpt_count (h : Elsewhere n w lo) (k : Option Ticket) (st : Nat) (p : List Byte) :
    (s.completeOpt k st p).count n w lo = s.count n w lo := by
  cases k with
  | none => rfl
  | some k => exact State.complete_count h k st p

/-! ### Units taken -/

/-- A unit taken leaves what its port's held chain drives. -/
theorem State.takeUnit_held (k sel j : Nat) (p : Profile) (v : Nat) (ok stuck : Bool) :
    (nth {} (s.takeUnit k sel j p v ok stuck).1.csp k).held = (nth {} s.csp k).held := by
  simp only [State.takeUnit, State.portFault]
  (repeat' split) <;> simp only [State.raiseOnce_csp, State.log_csp, State.bump_csp, State.modPort_csp] <;>
    exact nth_updAt_field CspPort.held _ _ _ _ _ fun c => rfl

/-- The units of a run tell each whether it passed its check. -/
theorem State.takeUnits_tell (k sel : Nat) (p : Profile) (us : List (Nat × Bool × Bool)) :
    (nth {} (s.takeUnits k sel p us).1.csp k).held = (nth {} s.csp k).held ∧ (s.takeUnits k sel p us).2.map (·.ok) = us.map (·.2.1) := by
  suffices grows : ∀ (l : List ((Nat × Bool × Bool) × Nat)) (s : State) (acc : List CspUnit),
      let y := l.foldl (fun (s, acc) ((v, ok, stuck), j) =>
        let (s, u) := s.takeUnit k sel j p v ok stuck
        (s, acc ++ [u])) (s, acc)
      (nth {} y.1.csp k).held = (nth {} s.csp k).held ∧ y.2.map (·.ok) = acc.map (·.ok) ++ l.map (·.1.2.1) by
    obtain ⟨held, oks⟩ := grows us.zipIdx s []
    refine ⟨held, oks.trans ?_⟩
    have oks : us.zipIdx.map (fun x => x.1.2.1) = (us.zipIdx.map Prod.fst).map (·.2.1) := by rw [List.map_map]; rfl
    rw [List.map_nil, List.nil_append, oks, List.zipIdx_map_fst]
  intro l
  induction l with
  | nil => simp
  | cons x l ih =>
    intro s acc
    obtain ⟨⟨v, ok, stuck⟩, j⟩ := x
    obtain ⟨held, oks⟩ := ih (s.takeUnit k sel j p v ok stuck).1 (acc ++ [(s.takeUnit k sel j p v ok stuck).2])
    refine ⟨held.trans (State.takeUnit_held _ _ _ _ _ _ _), oks.trans ?_⟩
    have told : (s.takeUnit k sel j p v ok stuck).2.ok = ok := rfl
    simp [told]
/-- A run with a unit that fails its check leaves its entry completed with an error, its port released (05 R162, R163). -/
theorem State.completeCsp_fails {f e t : Nat} {us : List (Nat × Bool × Bool)} (inv : s.Inv) (slot : entIx f e < 288) (port : f < 8)
    (failed : ∃ x ∈ us, x.2.1 = false) : ((s.completeCsp f e t us).1.entry f e).phase = .completeErr
      ∧ ((s.completeCsp f e t us).1.entry f e).lastOutcome = 2 ∧ (nth {} (s.completeCsp f e t us).1.csp f).active = none
      ∧ (nth {} (s.completeCsp f e t us).1.csp f).selects = (nth {} s.csp f).held := by
  obtain ⟨held, oks⟩ := State.takeUnits_tell (s := s) f (s.selectOf f e) (s.profile f e) us
  have shaped : (s.takeUnits f (s.selectOf f e) (s.profile f e) us).1.Inv := (State.takeUnits_kept _ _ _ _ (Kept.refl s)).inv inv
  have bad : ((s.takeUnits f (s.selectOf f e) (s.profile f e) us).2.all fun u => u.ok && !u.absent) = false := by
    obtain ⟨x, mem, fails⟩ := failed
    have told : x.2.1 ∈ (s.takeUnits f (s.selectOf f e) (s.profile f e) us).2.map (·.ok) := by
      rw [oks]
      exact List.mem_map_of_mem mem
    obtain ⟨u, memU, same⟩ := List.mem_map.mp told
    exact List.all_eq_false.mpr ⟨u, memU, by simp [same, fails]⟩
  simp only [State.completeCsp, bad]
  have slot' := shaped.entries ▸ slot
  have port' := shaped.ports ▸ port
  refine ⟨?_, ?_, ?_, ?_⟩
  · simp [State.entry, State.clearSelections, State.releasePort, State.finishEntry, nth_updAt_self, slot']
  · simp [State.entry, State.clearSelections, State.releasePort, State.finishEntry, nth_updAt_self, slot']
  · simp [State.clearSelections, State.releasePort, State.finishEntry, nth_updAt_self, port']
  · simp [State.clearSelections, State.releasePort, State.finishEntry, nth_updAt_self, port', held]

/-- The values of a run go to the fields of its entry in the capture area (07 R239). -/
theorem State.completeCsp_parts (f e t : Nat) (us : List (Nat × Bool × Bool)) :
    writeParts (s.completeCsp f e t us).2 = (s.fieldsOf f e).map (s.capturePart .write) := by
  have frame : Within [.counters, .events, .almanac, .ports] s (s.takeUnits f (s.selectOf f e) (s.profile f e) us).1 :=
    State.takeUnits_frame _ _ _ _ (Within.refl s)
  have config : (s.takeUnits f (s.selectOf f e) (s.profile f e) us).1.cfg = s.cfg := frame .config (by decide)
  have sheaf : (s.takeUnits f (s.selectOf f e) (s.profile f e) us).1.sheaf = s.sheaf := frame .sheaf (by decide)
  have reg := State.reg_congr config
  simp only [State.completeCsp, State.captureWrites, writeParts, State.fieldsOf, State.clearSelections, State.releasePort, State.finishEntry,
    State.modHw_sheaf, State.bump_sheaf, State.modPort_sheaf, State.modEntry_sheaf, sheaf, List.map_map]
  refine List.map_congr_left fun x _ => ?_
  simp only [Function.comp_apply, leBytes_length, State.capturePart]
  exact congrArg (fun a => (⟨.write, a + x.offset, x.size⟩ : Piece)) (congrFun (congrFun reg nPLOTMAP) 1)

theorem State.writeBack_passes {ws : List (Nat × List Byte)} (passes : Passes s .drill (writeParts ws)) :
    s.writeBack u ws = (u.store .drill ws).1 := by
  simp [State.writeBack, passes.store]

/-- A DETACH that does not wait for its ports leaves them (11 R424). -/
theorem State.detachPark_other (apart : s.pw.detach ≠ .parking) : s.detachPark = s := by
  simp [State.detachPark, apart]

theorem State.detachRecord_csp : s.detachRecord.csp = s.csp :=
  have frame : Within [.requests, .counters, .events, .almanac, .power, .harrow] s s.detachRecord := State.detachRecord_frame (Within.refl s)
  frame .ports (by decide)

theorem State.detachRecord_count (h : Elsewhere n w lo) : s.detachRecord.count n w lo = s.count n w lo := by
  simp only [State.detachRecord]
  split
  · rw [State.log_count _ _ _ _ _ h.dropped, State.modPw_count]
  · rw [State.completeOpt_count h, State.modPw_count]

theorem State.detachPark_count (h : Elsewhere n w lo) : s.detachPark.count n w lo = s.count n w lo := by
  unfold State.detachPark
  split
  · exact State.detachRecord_count h
  · rfl

theorem State.detachPark_tm : s.detachPark.tm = s.tm :=
  have frame : Within [.requests, .counters, .events, .almanac, .power, .harrow, .ports, .sent] s s.detachPark := State.detachPark_frame (Within.refl s)
  frame .time (by decide)

theorem State.detachPark_chain (idle : (nth {} s.csp k).chain = none) : (nth {} s.detachPark.csp k).chain = none := by
  unfold State.detachPark
  split
  · rw [State.detachRecord_csp]
    simp only [State.parkPorts, nth, List.getD_eq_getElem?_getD, List.getElem?_map]
    cases s.csp[k]? <;> rfl
  · exact idle

theorem elsewhere_csp {k : Nat} (few : k < 16) (inside : w < 1024) (low : lo < 32) : Elsewhere (nCSP k) w lo := by
  refine ⟨inside, low, ?_, ?_, ?_, ?_⟩ <;> simp only [nCSP, nSYS, nEVENTS, nALMANAC, nHARROW] <;> omega

/-- The recovery frame of a port that is not fenced ends: its selects are released and its transfer is counted (04 R131). -/
def State.recovered (s : State) (k t0 : Nat) (h : HeldChain) : State :=
  ((s.at (t0 + h.ticks)).modPort k fun c => { c with
    chain := none
    selects := c.selects &&& (0xF ^^^ h.selects)
    fence := c.fence.map fun f => if f.step == .recovery then { f with step := .reset } else f }).bump (nCSP k) 2 0 32

theorem execRecoveryFrameEnd_unfenced {k : Fin 8} {h : HeldChain} {t0 : Nat} (port : k.val < s.csp.length) (chain : (nth {} s.csp k.val).chain = some h)
    (since : h.since = some t0) (fence : (nth {} s.csp k.val).fence = none) :
    execRecoveryFrameEnd k s = .next (s.recovered k.val t0 h).detachPark := by
  have unfenced : (nth {} (s.recovered k.val t0 h).csp k.val).fence.any (·.step == .reset) = false := by
    simp [State.recovered, nth_updAt_self, port, fence]
  have executes : execRecoveryFrameEnd k s = .next (if (nth {} (s.recovered k.val t0 h).csp k.val).fence.any (·.step == .reset)
      then (s.recovered k.val t0 h).resetPort k.val else s.recovered k.val t0 h).detachPark := by
    simp only [execRecoveryFrameEnd, chain, since]
    rfl
  rw [executes, unfenced]
  rfl

/-- Settles O36: an error completion is written back where its accesses pass, a recovery frame releases its chain, and a TX buffer read is kept. -/
theorem portsRecover : Obligations.PortsRecover := by
  unfold Obligations.PortsRecover
  refine fun k e s inv => ⟨fun running waits type units awake passes => ?_, fun h t0 chain since fence => ?_, fun used type source passes => ?_⟩
  · let at' := s.launchAt k.val e.val + (s.profile k.val e.val).lead + (s.profile k.val e.val).wait + (s.profile k.val e.val).delay + (s.profile k.val e.val).lag + 8
    let us := (List.range (s.profile k.val e.val).units).map fun _ => (0, false, true)
    let u := (s.at at').completeCsp k.val e.val at' us
    have inv' : (s.at at').Inv := (State.at_kept _ (Kept.refl s)).inv inv
    have slot : entIx k.val e.val < 288 := by unfold entIx; omega
    obtain ⟨phase, outcome, active, selects⟩ := State.completeCsp_fails (t := at') inv' slot k.isLt
      (us := us) ⟨(0, false, true), List.mem_map.mpr ⟨0, List.mem_range.mpr units, rfl⟩, rfl⟩
    have passes' : Passes (s.at at') .drill (writeParts u.2) := by
      rw [State.completeCsp_parts]
      exact passes.congr rfl rfl rfl
    have stored : Within [.counters, .events, .almanac, .storage, .sram, .nor, .psram, .fabric, .power] u.1 (u.1.store .drill u.2).1 :=
      State.store_frame _ _ (Within.refl u.1)
    have executes : exec (.startBitTimeout k e) s = .next (u.1.store .drill u.2).1 := by
      rw [← State.writeBack_passes passes']
      simp only [exec, execStartBitTimeout, running, waits, type, awake]
      rfl
    have drill := stored .drill (by decide)
    have ports := stored .ports (by decide)
    simp only [Part.same] at drill ports
    refine ⟨_, executes, ?_, ?_, ?_, ?_⟩
    · rw [State.entry, drill]; exact phase
    · rw [State.entry, drill]; exact outcome
    · rw [ports]; exact active
    · rw [ports]; exact selects
  · have port : k.val < s.csp.length := by rw [inv.ports]; exact k.isLt
    have released : nth {} (s.recovered k.val t0 h).csp k.val = { nth {} s.csp k.val with
        chain := none
        selects := (nth {} s.csp k.val).selects &&& (0xF ^^^ h.selects)
        fence := (nth {} s.csp k.val).fence.map fun f => if f.step == .recovery then { f with step := .reset } else f } :=
      nth_updAt_self _ _ _ _ port
    refine ⟨_, execRecoveryFrameEnd_unfenced port chain since fence, State.detachPark_chain (by rw [released]), fun apart => ?_, ?_, ?_⟩
    · rw [State.detachPark_other (by exact apart), released]
    · rw [State.detachPark_count (elsewhere_csp (by omega) (by decide) (by decide)), State.recovered, State.bump_count_same (by decide)]
      rfl
    · rw [State.detachPark_tm]
      rfl
  · have slot : entIx k.val e.val < s.drill.entries.length := by rw [inv.entries, entIx]; omega
    let part : List Piece := [⟨.read, (s.profile k.val e.val).txAddr, ceilDiv (s.profile k.val e.val).frameBits 8⟩]
    have drill : (s.accessed .drill part).drill = s.drill := State.accessed_within .drill part .drill (by decide)
    refine ⟨_, by simp only [exec, execTxPrefetchComplete, used, type, source, passes.access]; rfl, ?_, ?_, ?_⟩
    · simp [State.entry, nth_updAt_self, slot, drill, part]
    · simp [State.entry, nth_updAt_self, slot, drill, part]
    · exact (State.accessed_bytes .drill part).trans (SameBytes.of_mem rfl)

end Sys2Proof.Machine
end

section
/-! SUPPORT. The assembly of a sheaf, and hard faults of its path (04 R130, R137; 07 R239). -/

namespace Sys2Proof.Machine

set_option Elab.async false

variable {s t u : State} {a : Agent} {l : List Piece}

/-! ### What an access leaves of the supplies -/

theorem State.touchRun_supplies (dir : Access) (v n : Nat) :
    (s.touchRun a dir v n).pw.vddioOk = s.pw.vddioOk ∧ (s.touchRun a dir v n).pw.prsntMet = s.pw.prsntMet := by
  have cached : (s.enterCache (holdingOf a) (v / 4096)).pw = s.pw :=
    have frame : Within [.fabric] s (s.enterCache (holdingOf a) (v / 4096)) := State.enterCache_frame _ _ (Within.refl s)
    frame .power (by decide)
  have corrected (x : State) (p : Nat) : (x.correct dir p n).pw = x.pw := by
    unfold State.correct
    dsimp only
    split
    · rfl
    · rw [State.raise_pw]
      rfl
  unfold State.touchRun
  dsimp only
  split
  · exact ⟨rfl, rfl⟩
  · split
    · rw [corrected, State.modSram_pw, cached]
      exact ⟨rfl, rfl⟩
    · rw [State.modPw_pw, State.modCsp8_pw, cached]
      exact ⟨rfl, rfl⟩

theorem State.accessed_supplies (a : Agent) (l : List Piece) :
    (s.accessed a l).pw.vddioOk = s.pw.vddioOk ∧ (s.accessed a l).pw.prsntMet = s.pw.prsntMet := by
  have touched (x : State) (p : Piece) : (x.touch a p).pw.vddioOk = x.pw.vddioOk ∧ (x.touch a p).pw.prsntMet = x.pw.prsntMet := by
    unfold State.touch
    exact ⟨foldl_keeps (fun y : State => y.pw.vddioOk) _ _ (fun y r _ => (State.touchRun_supplies _ _ _).1) x,
      foldl_keeps (fun y : State => y.pw.prsntMet) _ _ (fun y r _ => (State.touchRun_supplies _ _ _).2) x⟩
  exact ⟨foldl_keeps (fun y : State => y.pw.vddioOk) _ l (fun y p _ => (touched y p).1) s,
    foldl_keeps (fun y : State => y.pw.prsntMet) _ l (fun y p _ => (touched y p).2) s⟩

theorem State.writes_within (a : Agent) (ws : List (Nat × List Byte)) (x : State) :
    Within [.sram, .nor, .psram, .fabric] x (ws.foldl (fun s w => s.writeOne a w) x) := by
  induction ws generalizing x with
  | nil => exact Within.refl x
  | cons w ws ih =>
    have one : Within [.sram, .nor, .psram, .fabric] x (x.writeOne a w) := State.virtWrite_frame _ _ _ (Within.refl x)
    exact one.trans (ih _)

/-! ### What the fields are given -/

theorem State.given_congr (config : t.cfg = s.cfg) (ports : t.csp = s.csp) (drill : t.drill = s.drill) (sheaf : t.sheaf = s.sheaf)
    (level : t.lev = s.lev) (banks : t.pw.vddioOk = s.pw.vddioOk) (present : t.pw.prsntMet = s.pw.prsntMet) (sent : t.sent = s.sent)
    (edges : t.edge = s.edge) (edgeBanks : t.banks = s.banks) : t.given = s.given := by
  have only (x : State) : x.given = State.given { cfg := x.cfg, csp := x.csp, drill := x.drill, sheaf := x.sheaf, lev := x.lev
                                                  pw := { vddioOk := x.pw.vddioOk, prsntMet := x.pw.prsntMet }
                                                  sent := x.sent, edge := x.edge, banks := x.banks } := rfl
  rw [only t, config, ports, drill, sheaf, level, banks, present, sent, edges, edgeBanks, ← only]

/-- Writes of the drill that pass change nothing that a field is given. -/
theorem Passes.store_given {ws : List (Nat × List Byte)} (p : Passes s a (writeParts ws)) : (s.store a ws).1.given = s.given := by
  have writes (x : State) : Within [.sram, .nor, .psram, .fabric] x (ws.foldl (fun s w => s.writeOne a w) x) :=
    State.writes_within a ws x
  have accessed := State.accessed_within (s := s) a (writeParts ws)
  obtain ⟨banks, present⟩ := State.accessed_supplies (s := s) a (writeParts ws)
  rw [p.store]
  have written := writes (s.accessed a (writeParts ws))
  have whole : Within ([.sram, .nor, .psram, .fabric] ++ Part.ofAccess) s (ws.foldl (fun s w => s.writeOne a w) (s.accessed a (writeParts ws))) :=
    (accessed.mono (List.subset_append_right _ _)).trans (written.mono (List.subset_append_left _ _))
  have power : (ws.foldl (fun s w => s.writeOne a w) (s.accessed a (writeParts ws))).pw = (s.accessed a (writeParts ws)).pw :=
    written .power (by decide)
  have edges := whole .edges (by decide)
  exact State.given_congr (whole .config (by decide)) (whole .ports (by decide)) (whole .drill (by decide)) (whole .sheaf (by decide))
    (whole .level (by decide)) (by rw [power, banks]) (by rw [power, present]) (whole .sent (by decide)) edges.1 edges.2

/-! ### Levels -/

/-- Bringing the level to what the failures leave changes none of them (01 R44). -/
theorem State.relevel_failures (row : Nat) : (s.relevel row).lev.fail = s.lev.fail := by
  simp only [State.relevel]
  split
  · rfl
  · simp only [State.ite]
    split
    · have frame (x : State) : Within [.requests, .counters, .events, .almanac, .storage, .fabric, .power, .usb, .harrow, .thresher] x x.leaveL3 :=
        State.leaveL3_frame (Within.refl x)
      rw [show (State.leaveL3 _).lev = _ from frame _ .level (by decide), State.log_lev]
      rfl
    · rw [State.log_lev]
      rfl

theorem State.fail_failures (row : Nat) (f : Fail → Fail) : (s.fail row f).lev.fail = f s.lev.fail := State.relevel_failures row

theorem State.fail_drill (row : Nat) (f : Fail → Fail) : (s.fail row f).drill = s.drill :=
  have frame : Within [.requests, .counters, .events, .almanac, .storage, .fabric, .level, .power, .usb, .harrow, .thresher] s (s.fail row f) :=
    State.fail_frame row f (Within.refl s)
  frame .drill (by decide)

/-! ### Assembly -/

/-- An assembly takes a slot for every field of the layout in force (04 R130). -/
theorem State.assemble_begins (s : State) : s.assemble.tm = s.tm ∧ s.assemble.sheaf.assembly.any
    (fun a => a.period == s.tm.period && !a.done && !a.faulted && a.slots.length == s.sheaf.layout.fields.length) = true := by
  have closed (x : State) (l : List Nat) : Within [.sent, .edges] x (x.each l State.closeEntry) :=
    State.each_frame _ _ (Within.refl x) fun _ _ hk => State.closeEntry_frame _ hk
  simp only [State.assemble]
  constructor
  · exact (closed _ _ .time (by decide)).trans rfl
  · rw [show (State.each _ _ State.closeEntry).sheaf = _ from closed _ _ .sheaf (by decide)]
    simp [State.slots, State.hold]

/-- A hard fault spoils the sheaf of its period, and the committed set is reloaded at the next line (04 R137). -/
theorem State.hardFault_first (first : s.drill.hardAt ≠ some s.tm.lines) :
    s.hardFault.drill = { s.drill with spoiled := true, hardAt := some (s.tm.lines + 1) } := by
  have other : (s.drill.hardAt == some s.tm.lines) = false := beq_false_of_ne first
  simp [State.hardFault, other]

/-- Another one in the period after the reload halts the drill (04 R137). -/
theorem State.hardFault_second (second : s.drill.hardAt = some s.tm.lines) :
    s.hardFault.drill.mode = 0 ∧ s.hardFault.drill.dead = true ∧ s.hardFault.lev.fail.drill = true := by
  simp [State.hardFault, second, State.fail_drill, State.fail_failures]

/-- Settles O37: an assembly from the writes and reads that pass, its sheaf written, and the two hard faults. -/
theorem sheafAssembled : Obligations.SheafAssembled := by
  unfold Obligations.SheafAssembled
  intro s inv
  refine ⟨fun on polled none' u eq writes reads => ?_, fun a assembly begun sound writes => ?_, fun b on first => ?_, fun b on second => ?_⟩
  · have collected : Within [.drill] (s.at (s.tm.capture + s.limit)) u := by
      rw [eq]
      exact State.each_frame _ _ (Within.refl _) fun _ _ hk => State.endCollect_frame _ hk
    have stored : Within [.counters, .events, .almanac, .storage, .sram, .nor, .psram, .fabric, .power] u (u.store .drill u.collectWrites).1 :=
      State.store_frame _ _ (Within.refl u)
    have parts : (u.store .drill u.collectWrites).1.assemblyParts = u.assemblyParts := by
      have sheaf := stored .sheaf (by decide)
      have reg := State.reg_congr (stored .config (by decide))
      simp only [Part.same] at sheaf
      unfold State.assemblyParts State.capturePart
      rw [writes.store_given, sheaf, reg]
    let w := (u.store .drill u.collectWrites).1
    have accessed := State.accessed_within (s := w) .assembler w.assemblyParts
    obtain ⟨time, assembly⟩ := State.assemble_begins (w.accessed .assembler w.assemblyParts)
    have time' : (w.accessed .assembler w.assemblyParts).tm = { s.tm with now := max s.tm.now (s.tm.capture + s.limit) } :=
      (accessed .time (by decide)).trans ((stored .time (by decide)).trans (collected .time (by decide)))
    have layout : (w.accessed .assembler w.assemblyParts).sheaf = s.sheaf :=
      (accessed .sheaf (by decide)).trans ((stored .sheaf (by decide)).trans (collected .sheaf (by decide)))
    refine ⟨(w.accessed .assembler w.assemblyParts).assemble, ?_, by rw [time, time'], ?_⟩
    · have stores : u.store .drill u.collectWrites = (w, .done) := Prod.ext rfl (by rw [writes.store])
      have reads' : w.access .assembler w.assemblyParts = (w.accessed .assembler w.assemblyParts, .done) :=
        Passes.access (by rw [parts]; exact reads)
      have waits : (s.drillOn && s.drill.polled && s.sheaf.assembly.isNone) = true := by simp [on, polled, none']
      simp only [exec, execAssemblyStart, waits, if_true, ← eq, stores, reads']
    · rw [time', layout] at assembly
      exact assembly
  · let v := s.at (s.tm.capture + s.limit + s.sheaf.ticks)
    have passes : Passes v .assembler (writeParts [(v.bufferAt v.nextBuffer, v.sheafOf a)]) := writes.congr rfl rfl rfl
    have stores : v.store .assembler [(v.bufferAt v.nextBuffer, v.sheafOf a)]
        = ((v.store .assembler [(v.bufferAt v.nextBuffer, v.sheafOf a)]).1, .done) := by rw [passes.store]
    have stored : Within [.counters, .events, .almanac, .storage, .sram, .nor, .psram, .fabric, .power] v
        (v.store .assembler [(v.bufferAt v.nextBuffer, v.sheafOf a)]).1 := State.store_frame _ _ (Within.refl v)
    refine ⟨(v.store .assembler [(v.bufferAt v.nextBuffer, v.sheafOf a)]).1.modSheaf fun h => { h with assembly := some { a with done := true } },
      ?_, rfl, ?_, ?_⟩
    · have going : (a.done || a.faulted) = false := by simp [begun, sound]
      simp only [exec, execAssemblyComplete, assembly, going, Bool.false_eq_true, if_false]
      rw [stores]
    · rw [State.modSheaf_tm, show (v.store .assembler _).1.tm = v.tm from stored .time (by decide)]
      rfl
    · have same : SameBytes (s.virtWrite 2 (s.bufferAt s.nextBuffer) (s.sheafOf a)) (v.virtWrite 2 (s.bufferAt s.nextBuffer) (s.sheafOf a)) :=
        State.virtWrite_bytes (s := s) (t := v) rfl (SameBytes.of_mem rfl) _ _ _
      exact same.trans (passes.store_bytes.trans (SameBytes.of_mem rfl))
  · refine ⟨(if b then s.modSheaf fun h => { h with assembly := h.assembly.map fun a => { a with faulted := true } } else s).hardFault, ?_, ?_⟩
    · simp [exec, execDrillHardFault, on]
    · cases b
      · rw [State.hardFault_first (by exact first)]
        exact ⟨rfl, rfl, rfl⟩
      · rw [State.hardFault_first (by exact first)]
        exact ⟨rfl, rfl, rfl⟩
  · refine ⟨(if b then s.modSheaf fun h => { h with assembly := h.assembly.map fun a => { a with faulted := true } } else s).hardFault, ?_, ?_⟩
    · simp [exec, execDrillHardFault, on]
    · cases b
      · exact State.hardFault_second (by exact second)
      · exact State.hardFault_second (by exact second)

end Sys2Proof.Machine
end

section
/-! SUPPORT. Counters under an access, and a port in slave role (07 R228; 05 R169 to R171). -/

namespace Sys2Proof.Machine

set_option Elab.async false

variable {s t : State} {n w lo wd : Nat} {a : Agent}

/-! ### Counters under an access -/

theorem State.bumpBy_count_other {n' w' lo' k : Nat} (width : 0 < wd) (some' : 0 < k) (other : cntKey n' w' lo' ≠ cntKey n w lo) :
    (s.bumpBy n w lo wd k).count n' w' lo' = s.count n' w' lo' := by
  have room : 2 ≤ 2 ^ wd := Nat.le_self_pow (by omega) 2
  have value : satAdd wd (s.count n w lo) k ≠ 0 := by
    simp only [satAdd]
    omega
  exact (Tab.get_set_value _ _ _ _ value).trans (if_neg other)

theorem State.correct_count (h : Elsewhere n w lo) (plot : n ≠ nPLOTMAP) (dir : Access) (p k : Nat) : (s.correct dir p k).count n w lo = s.count n w lo := by
  have other : cntKey n w lo ≠ cntKey nPLOTMAP 12 0 := by
    rw [Ne, cntKey_eq_iff h.inside (by decide) h.low (by decide)]
    exact fun same => plot same.1
  unfold State.correct
  dsimp only
  split
  · rfl
  · next hit =>
    rw [State.raise_count _ h.lost, State.bumpBy_count_other (by decide) (List.length_pos_iff.mpr (by simpa using hit)) other]
    rfl

theorem State.touchRun_count (h : Elsewhere n w lo) (plot : n ≠ nPLOTMAP) (dir : Access) (v k : Nat) :
    (s.touchRun a dir v k).count n w lo = s.count n w lo := by
  have cached : (s.enterCache (holdingOf a) (v / 4096)).count = s.count :=
    have frame : Within [.fabric] s (s.enterCache (holdingOf a) (v / 4096)) := State.enterCache_frame _ _ (Within.refl s)
    frame.count
  unfold State.touchRun
  dsimp only
  split
  · rfl
  · split
    · rw [State.correct_count h plot, State.modSram_count, cached]
    · rw [State.modPw_count, State.modCsp8_count, cached]

/-- An access that passes counts nothing but the words that it corrects (07 R228). -/
theorem State.accessed_count (h : Elsewhere n w lo) (plot : n ≠ nPLOTMAP) (l : List Piece) : (s.accessed a l).count n w lo = s.count n w lo := by
  have touched (x : State) (p : Piece) : (x.touch a p).count n w lo = x.count n w lo :=
    foldl_keeps (fun y : State => y.count n w lo) _ _ (fun y r _ => State.touchRun_count h plot _ _ _) x
  exact foldl_keeps (fun y : State => y.count n w lo) _ l (fun y p _ => touched y p) s

/-! ### The slave role -/

variable {k units : Nat} {x : SlaveTx}

theorem State.slaveBits_congr (config : t.cfg = s.cfg) (bytes : SameBytes s t) (sheaf : t.sheaf = s.sheaf) : t.slaveBits = s.slaveBits := by
  funext k x units m
  have reg := State.reg_congr config
  have at' : t.bufferAt = s.bufferAt := by
    funext b
    simp only [State.bufferAt, reg]
  simp only [State.slaveBits, State.slaveBytes, State.slavePart, reg, at', sheaf, State.virtRead_congr config bytes]

/-- What a transaction leaves in its port when its select is released (05 R169, R171). -/
def State.slaveEnded (s : State) (k : Nat) (x : SlaveTx) (units : Nat) (under : Bool) : State :=
  let m := if under then min units (Config.unitsSupplied s.freeCount) else units
  let sent := s.slaveBits k x units m
  let last := (x.buffer.bind fun i => nth none s.sheaf.buffers i).map fun b => (x.order, b.layout)
  let s := if under then { s with freeCount := s.freeCount + 1 } else s
  let s := (s.bump (nCSP k) 2 0 32).modPort k fun c => { c with
    slave := none
    selects := 0
    underrun := under
    sdo := sent
    slaveLast := if last.isSome then last else c.slaveLast }
  if under then ((s.bump (nCSP k) 3 16 16).log 0x12 (nCSP k) 0 3).raise (4 + k) else s

theorem State.slaveEnded_count (few : k < 16) (under : Bool) : (s.slaveEnded k x units under).count (nCSP k) 2 0 = satAdd 32 (s.count (nCSP k) 2 0) 1
    ∧ (s.slaveEnded k x units under).count (nCSP k) 3 16 = if under then satAdd 16 (s.count (nCSP k) 3 16) 1 else s.count (nCSP k) 3 16 := by
  have transfers : Elsewhere (nCSP k) 2 0 := elsewhere_csp few (by decide) (by decide)
  have underruns : Elsewhere (nCSP k) 3 16 := elsewhere_csp few (by decide) (by decide)
  have apart : cntKey (nCSP k) 2 0 ≠ cntKey (nCSP k) 3 16 := by
    rw [Ne, cntKey_eq_iff (by decide) (by decide) (by decide) (by decide)]
    exact fun same => absurd same.2.1 (by decide)
  cases under
  · exact ⟨State.bump_count_same (by decide), State.bump_count_other (by decide) apart.symm⟩
  · simp only [State.slaveEnded, if_true]
    rw [State.raise_count _ transfers.lost, State.log_count _ _ _ _ _ transfers.dropped, State.raise_count _ underruns.lost,
      State.log_count _ _ _ _ _ underruns.dropped, State.bump_count_other (by decide) apart, State.bump_count_same (by decide),
      State.modPort_count, State.bump_count_same (by decide), State.bump_count_other (by decide) apart.symm]
    exact ⟨rfl, rfl⟩

theorem State.slaveEnded_port (under : Bool) (few : k < s.csp.length) : (nth {} (s.slaveEnded k x units under).csp k).slave = none
    ∧ (nth {} (s.slaveEnded k x units under).csp k).selects = 0 ∧ (nth {} (s.slaveEnded k x units under).csp k).underrun = under
    ∧ (under = false → (nth {} (s.slaveEnded k x units under).csp k).sdo = s.slaveBits k x units units) := by
  cases under <;> simp [State.slaveEnded, nth_updAt_self, few]

theorem State.slaveEnded_mem (under : Bool) : (s.slaveEnded k x units under).mem = s.mem := by
  cases under <;> simp [State.slaveEnded]

theorem execSlaveTransactionEnd_passes {k : Fin 8} {b : Bool} (slave : (nth {} s.csp k.val).slave = some x)
    (passes : Passes s .slaveReader (s.slavePart k.val x units).toList) : execSlaveTransactionEnd k units b s
      = .next ((s.accessed .slaveReader (s.slavePart k.val x units).toList).slaveEnded k.val x units (b || x.starved)) := by
  have ends : (b || x.starved || (Reach.done != .done)) = (b || x.starved) := by cases b <;> cases x.starved <;> rfl
  simp only [execSlaveTransactionEnd, slave, passes.access, ends]
  rfl

/-- Settles O38: what the select's assertion latches and drives, and what its release leaves in the port. -/
theorem slaveServes : Obligations.SlaveServes := by
  unfold Obligations.SlaveServes
  refine fun k s inv => ⟨fun on role idle fence b latest => ?_, fun x units b slave passes => ?_⟩
  · have port : k.val < s.csp.length := by rw [inv.ports]; exact k.isLt
    subst latest
    have ready : (s.cspOn k.val && s.flag (nCSP k.val) 0 1 && (nth {} s.csp k.val).slave.isNone && !fencedOut (nth {} s.csp k.val).fence) = true := by
      simp [on, role, idle, fence, fencedOut]
    refine ⟨_, (if_pos ready : execSlaveTransactionStart k s = _), ?_, ?_, ?_, rfl⟩
    · simp [nth_updAt_self, port]
    · simp [nth_updAt_self, port]
    · simp [nth_updAt_self, port]
  · let u := s.accessed .slaveReader (s.slavePart k.val x units).toList
    have accessed : Within Part.ofAccess s u := State.accessed_within _ _
    have ports : u.csp = s.csp := accessed .ports (by decide)
    have few : k.val < u.csp.length := by rw [ports, inv.ports]; exact k.isLt
    obtain ⟨ended, selects, underrun, sdo⟩ := State.slaveEnded_port (s := u) (x := x) (units := units) (b || x.starved) few
    obtain ⟨transfers, underruns⟩ := State.slaveEnded_count (s := u) (k := k.val) (x := x) (units := units) (by omega) (b || x.starved)
    have plot : nCSP k.val ≠ nPLOTMAP := by simp only [nCSP, nPLOTMAP]; omega
    rw [State.accessed_count (elsewhere_csp (by omega) (by decide) (by decide)) plot] at transfers underruns
    refine ⟨_, execSlaveTransactionEnd_passes slave passes, ended, selects, underrun, transfers, underruns, fun under => ?_, fun fed sound => ?_,
      accessed.bytes.trans (SameBytes.of_mem (State.slaveEnded_mem _))⟩
    · rw [under]
      simp [State.slaveEnded]
    · rw [sdo (by simp [fed, sound]), State.slaveBits_congr (accessed .config (by decide)) accessed.bytes (accessed .sheaf (by decide))]

end Sys2Proof.Machine
end

section
/-! SUPPORT. What leaves the programs and the counters of the storage port alone: faults, jobs and the ends of operations (07 R242 to
R248; 08 R285 to R287). -/

namespace Sys2Proof.Machine

set_option Elab.async false

variable {s t u : State} {a : Agent} {l : List Piece} {n : Nat}

/-- From s to t the programs on the wire and the counters of the storage port stay, and no pending event is lost. -/
structure StorageStays (s t : State) : Prop where
  busy : t.csp8.busy = s.csp8.busy
  counts : ∀ w lo, w < 1024 → lo < 32 → t.count (nCSP 8) w lo = s.count (nCSP 8) w lo
  events : ∀ k, s.has k = true → t.has k = true

theorem StorageStays.refl (s : State) : StorageStays s s := ⟨rfl, fun _ _ _ _ => rfl, fun _ h => h⟩

theorem StorageStays.trans (x : StorageStays s t) (y : StorageStays t u) : StorageStays s u where
  busy := y.busy.trans x.busy
  counts w lo inside low := (y.counts w lo inside low).trans (x.counts w lo inside low)
  events k h := y.events k (x.events k h)

/-- An update of another part of the state. -/
theorem StorageStays.of_same (storage : t.csp8 = s.csp8) (count : t.cnt = s.cnt) (events : t.ev = s.ev) : StorageStays s t where
  busy := by rw [storage]
  counts w lo _ _ := by rw [State.count_congr count]
  events k h := (State.has_congr s events k).trans h

theorem Within.storageStays {parts : List Part} (w : Within parts s t)
    (apart : ∀ q ∈ [Part.storage, .counters, .events], q ∉ parts := by decide) : StorageStays s t :=
  StorageStays.of_same (w .storage (apart _ (by simp))) (w .counters (apart _ (by simp))) (w .events (apart _ (by simp)))

theorem StorageStays.foldl {α : Type} (f : State → α → State) (l : List α) (each : ∀ x, ∀ b ∈ l, StorageStays x (f x b)) (s : State) :
    StorageStays s (l.foldl f s) := by
  induction l generalizing s with
  | nil => exact StorageStays.refl s
  | cons b l ih => exact (each s b List.mem_cons_self).trans (ih (fun x c hc => each x c (List.mem_cons_of_mem _ hc)) _)

/-! ### Updates of another component -/

theorem State.modMem_storageStays (f : Mem → Mem) : StorageStays s (s.modMem f) := StorageStays.of_same rfl rfl rfl
theorem State.modThr_storageStays (f : Thr → Thr) : StorageStays s (s.modThr f) := StorageStays.of_same rfl rfl rfl
theorem State.modDrill_storageStays (f : Drill → Drill) : StorageStays s (s.modDrill f) := StorageStays.of_same rfl rfl rfl
theorem State.modSheaf_storageStays (f : Sheaf → Sheaf) : StorageStays s (s.modSheaf f) := StorageStays.of_same rfl rfl rfl
theorem State.modUsb_storageStays (f : Usb → Usb) : StorageStays s (s.modUsb f) := StorageStays.of_same rfl rfl rfl
theorem State.modLev_storageStays (f : Lev → Lev) : StorageStays s (s.modLev f) := StorageStays.of_same rfl rfl rfl
theorem State.modAlm_storageStays (f : Alm → Alm) : StorageStays s (s.modAlm f) := StorageStays.of_same rfl rfl rfl
theorem State.modCtx_storageStays (k : Nat) (f : Ctx → Ctx) : StorageStays s (s.modCtx k f) := StorageStays.of_same rfl rfl rfl
theorem State.modStream_storageStays (k : Nat) (f : Stream → Stream) : StorageStays s (s.modStream k f) := StorageStays.of_same rfl rfl rfl
theorem State.modPos_storageStays (k : Nat) (f : Position → Position) : StorageStays s (s.modPos k f) := StorageStays.of_same rfl rfl rfl
theorem State.modSram_storageStays (k : Nat) (f : Bank → Bank) : StorageStays s (s.modSram k f) := StorageStays.of_same rfl rfl rfl

/-! ### Counters, events and records -/

theorem State.bumpBy_storageStays (n w lo wd k : Nat) (width : 0 < wd) (some' : 0 < k) (inside : w < 1024) (low : lo < 32) (other : n ≠ nCSP 8) :
    StorageStays s (s.bumpBy n w lo wd k) where
  busy := rfl
  counts w' lo' inside' low' := by
    refine State.bumpBy_count_other width some' ?_
    rw [Ne, cntKey_eq_iff inside' inside low' low]
    exact fun same => other same.1.symm
  events _ h := h

theorem State.bump_storageStays (n w lo wd : Nat) (width : 0 < wd := by decide) (inside : w < 1024 := by decide) (low : lo < 32 := by decide)
    (other : n ≠ nCSP 8 := by decide) : StorageStays s (s.bump n w lo wd) :=
  State.bumpBy_storageStays n w lo wd 1 width (by decide) inside low other

theorem State.raise_storageStays (k : Nat) : StorageStays s (s.raise k) where
  busy := by rw [State.raise_csp8]
  counts _ _ inside low := State.raise_count k (elsewhere_csp (by decide) inside low).lost
  events j h := by rw [State.raise_has, h, Bool.true_or]

theorem State.log_storageStays (type source index code : Nat) (detail : List Byte) : StorageStays s (s.log type source index code detail) where
  busy := by rw [State.log_csp8]
  counts _ _ inside low := State.log_count _ _ _ _ _ (elsewhere_csp (by decide) inside low).dropped
  events k h := by rw [State.has_congr s (State.log_ev ..) k, h]

theorem State.complete_storageStays (k : Ticket) (st : Nat) (p : List Byte) : StorageStays s (s.complete k st p) where
  busy := by
    have frame : Within [.requests, .counters, .events, .almanac, .harrow] s (s.complete k st p) := State.complete_frame _ _ _ (Within.refl s)
    rw [show (s.complete k st p).csp8 = s.csp8 from frame .storage (by decide)]
  counts _ _ inside low := State.complete_count (elsewhere_csp (by decide) inside low) k st p
  events := (State.complete_lineStays k st p (LineStays.refl s)).events

theorem State.completeOpt_storageStays (k : Option Ticket) (st : Nat) (p : List Byte) : StorageStays s (s.completeOpt k st p) := by
  cases k with
  | none => exact StorageStays.refl s
  | some k => exact State.complete_storageStays k st p

/-! ### Accesses -/

theorem State.correct_storageStays (dir : Access) (p k : Nat) : StorageStays s (s.correct dir p k) := by
  unfold State.correct
  dsimp only
  split
  · exact State.modMem_storageStays _
  · next hit =>
    exact (State.modMem_storageStays _).trans ((State.bumpBy_storageStays _ _ _ _ _ (by decide)
      (List.length_pos_iff.mpr (by simpa using hit)) (by decide) (by decide) (by decide)).trans (State.raise_storageStays 42))

theorem State.touchRun_storageStays (dir : Access) (v k : Nat) : StorageStays s (s.touchRun a dir v k) := by
  have cached : Within [.fabric] s (s.enterCache (holdingOf a) (v / 4096)) := State.enterCache_frame _ _ (Within.refl s)
  unfold State.touchRun
  dsimp only
  split
  · exact StorageStays.refl s
  · refine cached.storageStays.trans ?_
    split
    · exact (State.modSram_storageStays _ _).trans (State.correct_storageStays _ _ _)
    · exact ⟨rfl, fun _ _ _ _ => rfl, fun _ h => h⟩

theorem State.accessed_storageStays (a : Agent) (l : List Piece) : StorageStays s (s.accessed a l) := by
  refine (StorageStays.foldl _ l (fun x p _ => ?_) s).trans (State.modMem_storageStays _)
  exact StorageStays.foldl _ _ (fun y r _ => State.touchRun_storageStays _ _ _) x

theorem State.writes_storageStays (a : Agent) (ws : List (Nat × List Byte)) : StorageStays s (ws.foldl (fun s w => s.writeOne a w) s) :=
  (State.writes_within a ws s).storageStays

theorem State.unresolved_storageStays (c : Cursor) : StorageStays s (s.unresolved c) := by
  unfold State.unresolved State.dropCursors State.faultRecord
  exact ((State.log_storageStays _ _ _ _ _).trans (State.raise_storageStays 41)).trans (State.modMem_storageStays _)

theorem State.noteFault_storageStays (dir : Access) (v index kind : Nat) : StorageStays s (s.noteFault a dir v index kind).1 := by
  have shown (c : Cursor) : StorageStays s (if kind = 5 then
      (((s.showFault c).bump nPLOTMAP 12 16 16).log 0x21 nPLOTMAP 0 0 (leBytes 4 (((s.showFault c).translate (holdingOf a) dir (elementAt a v)).getD 0) ++ [1])).raise 43
      else s.showFault c) := by
    have told : StorageStays s (s.showFault c) := State.modMem_storageStays _
    split
    · exact told.trans ((State.bump_storageStays _ _ _ _).trans ((State.log_storageStays _ _ _ _ _).trans (State.raise_storageStays 43)))
    · exact told
  unfold State.noteFault
  dsimp only
  split
  · exact (shown _).trans ((State.bump_storageStays _ _ _ _).trans (State.unresolved_storageStays _))
  · split
    · exact (shown _).trans ((State.bump_storageStays _ _ _ _).trans (State.unresolved_storageStays _))
    · dsimp only
      exact StorageStays.trans (shown _) (State.modMem_storageStays _)

theorem State.reach_storageStays (l : List Piece) : StorageStays s (s.reach a l).1 := by
  unfold State.reach
  split
  · exact State.noteFault_storageStays _ _ _ _
  · split
    · exact StorageStays.refl s
    · exact State.accessed_storageStays a l

theorem State.access_storageStays (l : List Piece) : StorageStays s (s.access a l).1 := by
  unfold State.access
  split
  · exact StorageStays.refl s
  · exact State.reach_storageStays l

theorem State.put_storageStays (ws : List (Nat × List Byte)) : StorageStays s (s.put a ws).1 := by
  have reached := State.reach_storageStays (s := s) (a := a) (writeParts ws)
  unfold State.put
  split
  · next same =>
    rw [same] at reached
    exact reached.trans (State.writes_storageStays a ws)
  · next same =>
    rw [same] at reached
    split
    · exact reached.trans (State.writes_storageStays a _)
    · exact reached

/-! ### Jobs -/

theorem State.freeEngine_storageStays (n : Nat) : StorageStays s (s.freeEngine n) :=
  have frame : Within [.thresher] s (s.freeEngine n) := State.freeEngine_frame n (Within.refl s)
  frame.storageStays

theorem State.dropCursors_storageStays (b : Agent) : StorageStays s (s.dropCursors b) := State.modMem_storageStays _

theorem State.closeJob_storageStays (n reason : Nat) : StorageStays s (s.closeJob n reason) := by
  have told (x : State) (j : Job) (c : Ctx) : StorageStays x (if reason = 0 then (x.bump nTHRESHER 2 0 32).raise 35
      else if reason = 1 || reason = 2 then x
      else ((x.ite (reason == 4) (·.bump nTHRESHER 4 16 16)).log 0x30 (nTHRCTX n) 0 reason (leBytes 4 j.number ++ leBytes 2 c.instr)).raise 36) := by
    split
    · exact (State.bump_storageStays _ _ _ _).trans (State.raise_storageStays 35)
    · split
      · exact StorageStays.refl x
      · refine StorageStays.trans ?_ ((State.log_storageStays _ _ _ _ _).trans (State.raise_storageStays 36))
        unfold State.ite
        split
        · exact State.bump_storageStays _ _ _ _
        · exact StorageStays.refl x
  unfold State.closeJob
  dsimp only
  split
  · exact StorageStays.refl s
  · refine StorageStays.trans ?_ (State.completeOpt_storageStays _ _ _)
    refine StorageStays.trans ?_ (told _ _ _)
    exact ((State.modCtx_storageStays _ _).trans (State.freeEngine_storageStays n)).trans (State.dropCursors_storageStays _)

theorem State.restoreCtx_storageStays (n : Nat) : StorageStays s (s.restoreCtx n).1 := by
  have read := State.access_storageStays (s := s) (a := thrAgent n) [⟨.read, s.saveAddr n, 2048⟩]
  unfold State.restoreCtx
  split
  · exact StorageStays.refl s
  · split
    · next same =>
      rw [same] at read
      dsimp only
      split
      · exact read
      · exact read.trans (State.modCtx_storageStays _ _)
    · exact read

theorem State.runCtx_storageStays (n : Nat) : StorageStays s (s.runCtx n) := (State.modThr_storageStays _).trans (State.modCtx_storageStays _ _)

theorem State.dispatchN_storageStays (k : Nat) : StorageStays s (State.dispatchN k s) := by
  induction k generalizing s with
  | zero => exact StorageStays.refl s
  | succ k ih =>
    unfold State.dispatchN
    split
    · split
      · exact StorageStays.refl s
      · next n _ =>
        have restored := State.restoreCtx_storageStays (s := s) n
        split
        · next same =>
          rw [same] at restored
          exact restored.trans (State.runCtx_storageStays n)
        · next same =>
          rw [same] at restored
          split
          · exact restored.trans ((State.modCtx_storageStays _ _).trans ih)
          · exact restored
        · next same =>
          rw [same] at restored
          exact restored.trans ((State.closeJob_storageStays n 4).trans ih)
    · exact StorageStays.refl s

theorem State.dispatch_storageStays : StorageStays s s.dispatch := State.dispatchN_storageStays 5

theorem State.endJob_storageStays (n reason : Nat) : StorageStays s (s.endJob n reason) :=
  (State.closeJob_storageStays n reason).trans State.dispatch_storageStays

theorem State.saveCtx_storageStays (n : Nat) : StorageStays s (s.saveCtx n).1 := by
  let drawn : State := { s with freeCount := s.freeCount + 2048 }
  have counted : StorageStays s drawn := StorageStays.of_same rfl rfl rfl
  have stored := counted.trans (State.put_storageStays (s := drawn) (a := thrAgent n) [(s.saveAddr n, savedBytes s.freeCount)])
  unfold State.saveCtx
  split
  · next same =>
    rw [show drawn.put _ _ = _ from same] at stored
    exact stored.trans (State.modCtx_storageStays _ _)
  · exact stored

theorem State.parkCtx_storageStays (n st : Nat) : StorageStays s (s.parkCtx n st) := by
  have saved := State.saveCtx_storageStays (s := s) n
  unfold State.parkCtx
  split
  · exact State.modCtx_storageStays _ _
  · split
    · exact State.endJob_storageStays n _
    · split
      · next same =>
        rw [same] at saved
        exact saved.trans (((State.modCtx_storageStays _ _).trans (State.freeEngine_storageStays n)).trans State.dispatch_storageStays)
      · next same =>
        rw [same] at saved
        exact saved.trans (State.modCtx_storageStays _ _)
      · next same =>
        rw [same] at saved
        exact saved.trans (State.endJob_storageStays n 4)

theorem State.suspend_storageStays (b : Agent) : StorageStays s (s.suspend b) := by
  unfold State.suspend
  split
  · split
    · unfold State.suspendCtx
      split
      · exact State.parkCtx_storageStays _ 4
      · exact StorageStays.refl s
    · exact StorageStays.refl s
  · exact StorageStays.refl s

/-! ### The ends of operations (07 Table PM-8) -/

theorem State.leaveL3_storageStays : StorageStays s s.leaveL3 := by
  have dropped : Within [.usb] s s.dropUsb := State.dropUsb_frame (Within.refl s)
  exact dropped.storageStays.trans (StorageStays.foldl _ _ (fun x m _ => State.endJob_storageStays m 6) _)

theorem State.relevel_storageStays (row : Nat) : StorageStays s (s.relevel row) := by
  unfold State.relevel
  dsimp only
  split
  · exact StorageStays.refl s
  · have levelled (f : Lev → Lev) (n i c : Nat) (d : List Byte) : StorageStays s (((s.modLev f).newTable).log 0x01 n i c d) :=
      ((State.modLev_storageStays _).trans (State.modLev_storageStays _)).trans (State.log_storageStays _ _ _ _ _)
    unfold State.ite
    split
    · exact (levelled _ _ _ _ _).trans State.leaveL3_storageStays
    · exact levelled _ _ _ _ _

theorem State.fail_storageStays (row : Nat) (f : Fail → Fail) : StorageStays s (s.fail row f) :=
  (State.modLev_storageStays _).trans (State.relevel_storageStays row)

theorem State.hardFault_storageStays : StorageStays s s.hardFault := by
  unfold State.hardFault
  dsimp only
  split
  · exact (State.modDrill_storageStays _).trans ((State.modDrill_storageStays _).trans
      ((State.log_storageStays _ _ _ _ _).trans (State.fail_storageStays 10 _)))
  · exact (State.modDrill_storageStays _).trans ((State.modDrill_storageStays _).trans (State.log_storageStays _ _ _ _ _))

theorem State.abandonCopy_storageStays (e : Nat) (half : e < 2) : StorageStays s (s.abandonCopy e) := by
  unfold State.abandonCopy
  split
  · exact ((State.bump_storageStays nUSB 13 (16 * e) 16 (by decide) (by decide) (by omega)).trans (State.modStream_storageStays _ _)).trans
      (State.modStream_storageStays _ _)
  · exact StorageStays.refl s

theorem State.abandonBulk_storageStays (ep : BulkEp) : StorageStays s (s.abandonBulk ep) := by
  have told (x : State) : StorageStays x ((x.bump nUSB 15 0 16).log 0x40 nUSB 0 4) :=
    (State.bump_storageStays _ _ _ _).trans (State.log_storageStays _ _ _ _ _)
  cases ep with
  | ep1 => exact told s
  | ep2 => exact (State.modUsb_storageStays _).trans (told _)
  | ep6 => exact (State.modAlm_storageStays _).trans (told _)

theorem State.endTransfer_storageStays (v : Nat) : StorageStays s (s.endTransfer v) := by
  have copies (x : State) (f : State → Nat → Bool) : StorageStays x (x.each [0, 1] fun s e => if f s e then s.abandonCopy e else s) := by
    refine StorageStays.foldl _ _ (fun y e he => ?_) x
    split
    · exact State.abandonCopy_storageStays e (by simp only [List.mem_cons, List.not_mem_nil, or_false] at he; omega)
    · exact StorageStays.refl y
  unfold State.endTransfer
  refine (copies s fun s e => s.inPool (4 + e) v || (nth {} s.usb.streams e).copying.any fun d => d.src ≤ v && v < d.src + d.len).trans ?_
  dsimp only
  split
  · exact State.abandonBulk_storageStays _
  · split
    · exact State.abandonBulk_storageStays _
    · split
      · exact State.abandonBulk_storageStays _
      · exact StorageStays.refl _

theorem State.failServed_storageStays : StorageStays s s.failServed := by
  unfold State.failServed
  split
  · exact State.complete_storageStays _ _ _
  · exact StorageStays.refl s

theorem State.endOperation_storageStays (b : Agent) (v : Nat) : StorageStays s (s.endOperation b v) := by
  cases b with
  | drill =>
    simp only [State.endOperation, State.drillFault]
    split
    · exact StorageStays.refl s
    · exact State.hardFault_storageStays
  | assembler =>
    simp only [State.endOperation, State.assemblerFault]
    split
    · exact StorageStays.refl s
    · exact (State.modSheaf_storageStays _).trans State.hardFault_storageStays
  | slaveReader =>
    have frame : Within [.ports] s (s.starveSlave v) := State.starveSlave_frame v (Within.refl s)
    exact frame.storageStays
  | mirrorCopy => exact StorageStays.refl s
  | yoke =>
    simp only [State.endOperation]
    (repeat' split)
    · exact State.modPos_storageStays _ _
    · exact StorageStays.refl s
    · exact StorageStays.refl s
  | usb => exact State.endTransfer_storageStays v
  | storage => exact State.failServed_storageStays
  | steward => exact State.failServed_storageStays
  | thr n => exact State.endJob_storageStays n.val 4

/-- A soft fault of the storage port's time-out: whatever becomes of its agent, the port's programs and counters stay (07 R242). -/
theorem State.storageFault_storageStays (b : Agent) (dir : Access) (v index : Nat) : StorageStays s (s.storageFault b dir v index) := by
  have noted := State.noteFault_storageStays (s := s) (a := b) dir v index 4
  have calm (x : State) : x.stewardB00 b (s.faultBank b v) 4 = x := by
    simp [State.stewardB00]
  unfold State.storageFault
  split
  · exact StorageStays.refl s
  · unfold State.takeFault
    dsimp only
    split
    · next same =>
      rw [same] at noted
      rw [calm]
      exact noted.trans (State.endOperation_storageStays b v)
    · next same =>
      rw [same] at noted
      exact noted.trans (State.suspend_storageStays b)

end Sys2Proof.Machine
end

section
/-! SUPPORT. The storage port: gathered writes, programs, time-outs and the idle gate (05 R177 to R182; 11 R399). -/

namespace Sys2Proof.Machine

set_option Elab.async false

variable {s t u : State} {a : Agent} {k off : Nat} {g : Gather} {p : Program}

/-! ### Gathering (05 R177) -/

/-- A byte that follows the gathered ones in their page joins them. -/
theorem State.gatherByte_joins (gathered : nth none s.csp8.gather k = some g) (own : g.agent = a) (page : pageOf g.cfg (g.first + g.data.length) = pageOf g.cfg g.first)
    (b : Byte) : s.gatherByte a k (g.first + g.data.length) b = s.modCsp8 fun c => { c with
      gather := updAt c.gather k fun g => g.map fun g => { g with data := g.data ++ [b], last := s.tm.now } } := by
  simp [State.gatherByte, gathered, own, page]

theorem State.gatherBytes_join (rest : List Byte) (here : k < s.csp8.gather.length) (gathered : nth none s.csp8.gather k = some g) (own : g.agent = a)
    (now : g.last = s.tm.now) (pages : ∀ i, g.data.length ≤ i → i < g.data.length + rest.length → pageOf g.cfg (g.first + i) = pageOf g.cfg g.first) :
    let t := (rest.zipIdx g.data.length).foldl (fun s (b, i) => s.gatherByte a k (g.first + i) b) s
    t.mem = s.mem ∧ nth none t.csp8.gather k = some { g with data := g.data ++ rest } := by
  induction rest generalizing s g with
  | nil => simpa using gathered
  | cons b rest ih =>
    simp only [List.zipIdx_cons, List.foldl_cons]
    rw [State.gatherByte_joins gathered own (pages _ le_rfl (by simp)) b]
    let g' : Gather := { g with data := g.data ++ [b], last := s.tm.now }
    have next : nth none (s.modCsp8 fun c => { c with gather := updAt c.gather k fun g => g.map fun g => { g with data := g.data ++ [b], last := s.tm.now } }).csp8.gather k
        = some g' := by
      simp [nth_updAt_self, here, gathered, g']
    obtain ⟨mem, whole⟩ := ih (g := g') (s := s.modCsp8 fun c => { c with
      gather := updAt c.gather k fun g => g.map fun g => { g with data := g.data ++ [b], last := s.tm.now } })
      (by simpa using here) next own rfl (fun i low high => pages i (by simp [g'] at low; omega) (by simp [g'] at high ⊢; omega))
    simp only [g', List.length_append, List.length_singleton, List.append_assoc, List.singleton_append] at mem whole
    exact ⟨mem, by rw [whole, now]⟩

/-- A write into one page with nothing gathered is gathered whole, and moves no byte yet (05 R177). -/
theorem State.gatherBytes_begin {data : List Byte} (some' : data ≠ []) (here : k < s.csp8.gather.length) (empty : nth none s.csp8.gather k = none)
    (pages : ∀ i, i < data.length → pageOf (s.storeCfg k) (off + i) = pageOf (s.storeCfg k) off) :
    let t := data.zipIdx.foldl (fun s (b, i) => s.gatherByte a k (off + i) b) s
    t.mem = s.mem ∧ nth none t.csp8.gather k = some ⟨a, off, data, s.tm.now, s.storeCfg k⟩ := by
  obtain ⟨b, rest, rfl⟩ := List.exists_cons_of_ne_nil some'
  let g : Gather := ⟨a, off, [b], s.tm.now, s.storeCfg k⟩
  have begun : s.gatherByte a k (off + 0) b = s.modCsp8 fun c => { c with gather := updAt c.gather k fun _ => some g } := by
    simp [State.gatherByte, State.closeGather, empty, g]
  simp only [List.zipIdx_cons, List.foldl_cons, begun]
  exact State.gatherBytes_join (g := g) rest (by simpa using here) (by simp [nth_updAt_self, here]) rfl rfl
    fun i _ high => pages i (by simp [g] at high ⊢; omega)

/-! ### Programs sent (05 R177, R178) -/

/-- A program sent on a select that is ready goes on the wire, and counts as a transfer (05 R177). -/
theorem State.sendProgram_ready (ready : s.selectWaits k = false) : s.sendProgram k p
    = ((s.modPw fun x => { x with csp8Gated := false }).modCsp8 fun c => { c with
        busy := updAt c.busy k fun _ => some { p with since := s.tm.now, polled := s.tm.now }
        sent := updAt c.sent k fun _ => programBytes p.cfg p.addr p.data
        lastAccess := s.tm.now }).bump (nCSP 8) 2 0 32 := by
  have ready' : (s.modPw fun x => { x with csp8Gated := false }).selectWaits k = false := ready
  simp [State.sendProgram, ready']

theorem State.closeGather_ready (gathered : nth none s.csp8.gather k = some g) (ready : s.selectWaits k = false) (here : k < s.csp8.gather.length)
    (port : k < s.csp8.busy.length) : nth none (s.closeGather k).csp8.gather k = none ∧ (s.closeGather k).mem = s.mem
      ∧ nth none (s.closeGather k).csp8.busy k = some ⟨g.agent, g.first, g.data, s.tm.now, s.tm.now, g.cfg⟩ ∧ (s.closeGather k).tm = s.tm
      ∧ (s.closeGather k).count (nCSP 8) 2 0 = satAdd 32 (s.count (nCSP 8) 2 0) 1 := by
  have ready' : (s.modCsp8 fun c => { c with gather := updAt c.gather k fun _ => none }).selectWaits k = false := ready
  simp only [State.closeGather, gathered]
  rw [State.sendProgram_ready ready']
  refine ⟨?_, rfl, ?_, rfl, ?_⟩
  · simp [nth_updAt_self, here]
  · simp [nth_updAt_self, port]
  · rw [State.bump_count_same (by decide)]
    rfl

/-! ### A queued fault stays (07 R243) -/

variable {c : Cursor} {n : Nat}

theorem mem_insertFault (c : Cursor) (l : List Cursor) : ∀ d, d ∈ insertFault c l ↔ d = c ∨ d ∈ l := by
  intro d
  induction l with
  | nil => simp [insertFault]
  | cons e l ih =>
    unfold insertFault
    split
    · simp
    · simp only [List.mem_cons, ih]
      tauto

theorem State.unresolved_faults (queued : c ∈ s.mem.faults) (d : Cursor) (other : c.agent ≠ d.agent) : c ∈ (s.unresolved d).mem.faults := by
  simp [State.unresolved, State.dropCursors, State.faultRecord, queued, other]

/-- A fault of one agent leaves the queued faults of another. -/
theorem State.noteFault_faults (queued : c ∈ s.mem.faults) (other : c.agent ≠ a) (dir : Access) (v index kind : Nat) :
    c ∈ (s.noteFault a dir v index kind).1.mem.faults := by
  unfold State.noteFault
  dsimp only
  split
  · refine State.unresolved_faults ?_ _ other
    split <;> simpa [State.showFault] using queued
  · split
    · refine State.unresolved_faults ?_ _ other
      split <;> simpa [State.showFault] using queued
    · simp only [State.modMem_mem, mem_insertFault]
      right
      split <;> simpa [State.showFault] using queued

theorem State.touchRun_faults (dir : Access) (v m : Nat) : (s.touchRun a dir v m).mem.faults = s.mem.faults := by
  have cached : (s.enterCache (holdingOf a) (v / 4096)).mem.faults = s.mem.faults := by
    unfold State.enterCache
    split <;> rfl
  have corrected (x : State) (p : Nat) : (x.correct dir p m).mem.faults = x.mem.faults := by
    unfold State.correct
    dsimp only
    split
    · rfl
    · rw [State.raise_mem]
      rfl
  unfold State.touchRun
  dsimp only
  split
  · rfl
  · split
    · rw [corrected]
      exact cached
    · exact cached

theorem State.accessed_faults (b : Agent) (l : List Piece) : (s.accessed b l).mem.faults = s.mem.faults :=
  foldl_keeps (fun y : State => y.mem.faults) _ l (fun y _ _ => foldl_keeps (fun z : State => z.mem.faults) _ _ (fun _ _ _ => State.touchRun_faults _ _ _) y) s

theorem State.access_faults (queued : c ∈ s.mem.faults) (other : c.agent ≠ a) (l : List Piece) : c ∈ (s.access a l).1.mem.faults := by
  unfold State.access State.reach
  split
  · exact queued
  · split
    · exact State.noteFault_faults queued other _ _ _ _
    · split
      · exact queued
      · rw [State.accessed_faults]
        exact queued

theorem thrAgent_ne {m : Nat} (few : n < 4) (few' : m < 4) (other : n ≠ m) : thrAgent n ≠ thrAgent m := by
  simp [thrAgent, Nat.mod_eq_of_lt few, Nat.mod_eq_of_lt few', other]

theorem State.restoreCtx_faults (queued : c ∈ s.mem.faults) (m : Nat) (other : c.agent ≠ thrAgent m) : c ∈ (s.restoreCtx m).1.mem.faults := by
  have read := State.access_faults queued other [⟨.read, s.saveAddr m, 2048⟩]
  unfold State.restoreCtx
  split
  · exact queued
  · split
    · next same =>
      rw [same] at read
      dsimp only
      split
      · exact read
      · exact read
    · exact read

theorem State.closeJob_faults (queued : c ∈ s.mem.faults) (m reason : Nat) (other : c.agent ≠ thrAgent m) : c ∈ (s.closeJob m reason).mem.faults := by
  have completed (x : State) (k : Option Ticket) (st : Nat) (p : List Byte) : (x.completeOpt k st p).mem = x.mem :=
    have frame : Within [.requests, .counters, .events, .almanac, .harrow] x (x.completeOpt k st p) := State.completeOpt_frame _ _ _ (Within.refl x)
    frame.mem
  have freed (x : State) : (x.freeEngine m).mem = x.mem :=
    have frame : Within [.thresher] x (x.freeEngine m) := State.freeEngine_frame m (Within.refl x)
    frame.mem
  have dropped (f : Ctx → Ctx) : c ∈ (((s.modCtx m f).freeEngine m).dropCursors (thrAgent m)).mem.faults := by
    simp [State.dropCursors, freed, queued, other]
  unfold State.closeJob
  dsimp only
  split
  · exact queued
  · rw [completed]
    split
    · rw [State.raise_mem]
      exact dropped _
    · split
      · exact dropped _
      · rw [State.raise_mem, State.log_mem]
        unfold State.ite
        split
        · exact dropped _
        · exact dropped _

/-- A dispatch leaves the queued fault of a context that may not run (07 R243; 08 R286). -/
theorem State.dispatchN_faults (j : Nat) (few : n < 4) (queued : c ∈ s.mem.faults) (own : c.agent = thrAgent n) (idle : (s.ctx n).eligible = false) :
    c ∈ (State.dispatchN j s).mem.faults := by
  induction j generalizing s with
  | zero => exact queued
  | succ j ih =>
    unfold State.dispatchN
    split
    · split
      · exact queued
      · next m next =>
        have other := State.nextCtx_busy next idle
        have apart : c.agent ≠ thrAgent m := by
          rw [own]
          exact thrAgent_ne few (State.nextCtx_eligible next).1 other
        have ctx := State.restoreCtx_ctx_ne (s := s) other
        have restored := State.restoreCtx_faults queued m apart
        split
        · next u same =>
          rw [same] at restored
          exact restored
        · next u same =>
          rw [same] at restored ctx
          split
          · exact ih restored (by rw [State.modCtx_ctx_ne _ other, ctx]; exact idle)
          · exact restored
        · next u same =>
          rw [same] at restored ctx
          exact ih (State.closeJob_faults restored m 4 apart) (by rw [State.closeJob_ctx_ne _ other, ctx]; exact idle)
    · exact queued

theorem State.put_reaches {ws : List (Nat × List Byte)} (clear : s.firstFault a 0 0 (writeParts ws) = none) (flows : s.stalls a (writeParts ws) = false) :
    s.put a ws = (ws.foldl (fun s w => s.writeOne a w) (s.accessed a (writeParts ws)), .done) := by
  simp [State.put, State.reach, clear, flows]

theorem State.physWrite_faults (x : State) (q : Nat) (bs : List Byte) : (x.physWrite q bs).mem.faults = x.mem.faults := by
  unfold State.physWrite State.storeWrite
  dsimp only
  (repeat' split) <;> rfl

theorem State.writeOne_faults (x : State) (b : Agent) (w : Nat × List Byte) : (x.writeOne b w).mem.faults = x.mem.faults := by
  unfold State.writeOne State.virtWrite
  refine foldl_keeps (fun y : State => y.mem.faults) _ _ (fun y r _ => ?_) x
  obtain ⟨at', off, len⟩ := r
  dsimp only
  split
  · exact State.physWrite_faults _ _ _
  · rfl

/-- A save that passes every check but that of its agent's suspension (08 R287; 07 R248). -/
theorem State.saveCtx_reaches (clear : s.firstFault (thrAgent n) 0 0 [⟨.write, s.saveAddr n, 2048⟩] = none)
    (flows : s.stalls (thrAgent n) [⟨.write, s.saveAddr n, 2048⟩] = false) :
    ∃ x : State, s.saveCtx n = (x.modCtx n fun c => { c with saved := some s.freeCount }, .done) ∧ x.thr = s.thr ∧ x.mem.faults = s.mem.faults := by
  let w := (s.saveAddr n, savedBytes s.freeCount)
  let drawn : State := { s with freeCount := s.freeCount + 2048 }
  have writes : writeParts [w] = [⟨.write, s.saveAddr n, 2048⟩] := by simp [writeParts, w, savedBytes]
  have clear' : drawn.firstFault (thrAgent n) 0 0 (writeParts [w]) = none := by
    rw [writes, State.firstFault_congr (s := s) (t := drawn) rfl rfl]
    exact clear
  have flows' : drawn.stalls (thrAgent n) (writeParts [w]) = false := by
    rw [writes, State.stalls_congr (s := s) (t := drawn) rfl rfl]
    exact flows
  refine ⟨(drawn.accessed (thrAgent n) (writeParts [w])).writeOne (thrAgent n) w, ?_, by simp [drawn], ?_⟩
  · unfold State.saveCtx
    rw [State.put_reaches clear' flows']
    simp only [List.foldl_cons, List.foldl_nil]
  · rw [State.writeOne_faults, State.accessed_faults]

/-- A context that leaves the engine, its state saved, leaves its queued fault (07 R248; 08 R287). -/
theorem State.parkCtx_faults (few : n < 4) (here : n < s.thr.ctxs.length) (queued : c ∈ s.mem.faults) (own : c.agent = thrAgent n)
    (running : s.thr.running = some n) (going : (s.ctx n).job.bind (·.ending) = none)
    (clear : s.firstFault (thrAgent n) 0 0 [⟨.write, s.saveAddr n, 2048⟩] = none) (flows : s.stalls (thrAgent n) [⟨.write, s.saveAddr n, 2048⟩] = false) :
    c ∈ (s.parkCtx n 4).mem.faults := by
  obtain ⟨x, saved, thr, faults⟩ := State.saveCtx_reaches clear flows
  let y := (x.modCtx n fun c => { c with saved := some s.freeCount }).modCtx n fun c => { c with state := 4, parking := none }
  have parked : s.parkCtx n 4 = (y.freeEngine n).dispatch := by
    simp only [State.parkCtx, running, bne_self_eq_false, Bool.false_eq_true, if_false, going, saved]
    rfl
  have free : (y.freeEngine n).ctx = y.ctx ∧ (y.freeEngine n).mem = y.mem := by
    unfold State.freeEngine
    split <;> exact ⟨rfl, rfl⟩
  have idle : ((y.freeEngine n).ctx n).eligible = false := by
    have here' : n < (x.modCtx n fun c => { c with saved := some s.freeCount }).thr.ctxs.length := by
      simpa [State.modCtx, State.modThr, thr] using here
    rw [free.1, State.modCtx_ctx _ here']
    rfl
  rw [parked]
  refine State.dispatchN_faults 5 few ?_ own idle
  rw [free.2]
  have kept : y.mem.faults = s.mem.faults := faults
  rw [kept]
  exact queued

/-! ### Time-outs (05 R180) -/

/-- The checks of an access do not look at the faults that are queued. -/
theorem State.firstFault_same (config : t.cfg = s.cfg) (banks : t.mem.banks = s.mem.banks) (words : t.mem.eccBad = s.mem.eccBad)
    (caches : t.mem.caches = s.mem.caches) (a : Agent) (j ix : Nat) (l : List Piece) : t.firstFault a j ix l = s.firstFault a j ix l := by
  have run : t.runFault a = s.runFault a := by
    have only (x : State) : x.runFault a = State.runFault { cfg := x.cfg, mem := { banks := x.mem.banks, eccBad := x.mem.eccBad, caches := x.mem.caches } } a := rfl
    rw [only t, config, banks, words, caches, ← only]
  induction l generalizing j ix with
  | nil => rfl
  | cons x l ih => simp only [State.firstFault, State.pieceFault, run, ih]

/-- A first fault of kind 4 is queued, its agent suspended (07 R242, R243). -/
theorem State.noteFault_timeout (fresh' : s.mem.cursors = []) (dir : Access) (v index : Nat) :
    ∃ c : Cursor, c.agent = a ∧ c.kind = 4 ∧ c.count = 1 ∧ c.dir = dir ∧ s.noteFault a dir v index 4
      = ((s.showFault c).modMem fun m => { m with
          faults := insertFault c m.faults
          cursors := m.cursors.filter fun x => !(x.agent == a && x.vaddr == elementAt a v && x.index == index && x.dir == dir) }, false) := by
  refine ⟨{ agent := a, dir, vaddr := elementAt a v, index, kind := 4, count := 1, bank := s.faultBank a v, contentLost := false, resolved := false, time := s.tm.now },
    rfl, rfl, rfl, rfl, ?_⟩
  simp [State.noteFault, fresh']

theorem any_updAt_filter {α : Type} (l : List (List α)) (i : Nat) (keep f : α → Bool) (none' : (l.any fun q => q.any f) = false) :
    ((updAt l i fun q => q.filter keep).any fun q => q.any f) = false := by
  simp only [List.any_eq_false, Bool.not_eq_true] at none' ⊢
  intro q mem
  obtain ⟨j, inside, rfl⟩ := List.mem_iff_getElem.mp mem
  simp only [updAt, List.length_modify] at inside
  have old := none' _ (List.getElem_mem inside)
  simp only [updAt, List.getElem_modify]
  split
  · intro x kept
    exact old x (List.mem_of_mem_filter kept)
  · exact old

/-- Writes given up make no other access wait. -/
theorem State.stalls_dropWrites {b : Agent} {l : List Piece} (flows : s.stalls b l = false) (k : Nat) : (s.dropWrites a k).stalls b l = false := by
  simp only [State.stalls, State.writing, Bool.or_eq_false_iff] at flows ⊢
  obtain ⟨⟨busy, queue⟩, open'⟩ := flows
  exact ⟨⟨busy, any_updAt_filter _ _ _ _ queue⟩, open'⟩

/-- The first time-out of an agent at the storage port stands in the queue, also where its context leaves the engine (07 R241, R248). -/
theorem State.takeFault_timeout {dir : Access} {v index : Nat} (ctxs : s.thr.ctxs.length = 4) (fresh' : s.mem.cursors = [])
    (leaves : ∀ m, a = .thr m → (s.ctx m.val).job.bind (·.ending) = none ∧ (s.thr.running = some m.val →
      s.firstFault a 0 0 [⟨.write, s.saveAddr m.val, 2048⟩] = none ∧ s.stalls a [⟨.write, s.saveAddr m.val, 2048⟩] = false)) :
    ∃ c ∈ (s.takeFault a dir v index 4).mem.faults, c.agent = a ∧ c.kind = 4 ∧ c.count = 1 ∧ c.dir = dir := by
  obtain ⟨c, agent, kind, count, dir', noted⟩ := State.noteFault_timeout (a := a) fresh' dir v index
  refine ⟨c, ?_, agent, kind, count, dir'⟩
  simp only [State.takeFault, noted]
  let u := (s.showFault c).modMem fun m => { m with
    faults := insertFault c m.faults
    cursors := m.cursors.filter fun x => !(x.agent == a && x.vaddr == elementAt a v && x.index == index && x.dir == dir) }
  have queued : c ∈ u.mem.faults := (mem_insertFault c _ c).mpr (Or.inl rfl)
  change c ∈ (u.suspend a).mem.faults
  cases a with
  | thr m =>
    simp only [State.suspend]
    split
    · unfold State.suspendCtx
      split
      · next holds =>
        simp only [Bool.and_eq_true, beq_iff_eq] at holds
        obtain ⟨going, saves⟩ := leaves m rfl
        obtain ⟨clear, flows⟩ := saves holds.2
        have own : thrAgent m.val = .thr m := by simp [thrAgent, Nat.mod_eq_of_lt m.isLt]
        refine State.parkCtx_faults m.isLt (by simp [u, State.showFault, ctxs]) queued (agent.trans own.symm) holds.2 going ?_ ?_
        · rw [own, State.firstFault_same (s := s) (t := u) rfl rfl rfl rfl]
          exact clear
        · rw [own, State.stalls_congr (s := s) (t := u) rfl rfl]
          exact flows
      · exact queued
    · exact queued
  | _ => exact queued

/-- Settles O39: bytes gathered and sent as one program, a time-out queued as a soft fault, and the port gated. -/
theorem storageAccessed : Obligations.StorageAccessed := by
  unfold Obligations.StorageAccessed
  refine ⟨fun k s inv => ⟨fun a off data kind window writes awake long mapped some' empty pages => ?_,
    fun g i gathered ready long port at' => ?_⟩, fun s inv => ⟨fun a k v n d p here window idle awake fresh' leaves => ?_, fun doze wire page => ?_⟩⟩
  · have ok : (s.kindOf k.val == 1 && s.flag (nCSP 8) (4 + 4 * k.val) 5 && !s.writing a && !s.suspended a
        && s.mapped (holdingOf a) .write (windowAddr k.val off.toNat) data.length) = true := by simp [kind, window, writes, awake, mapped]
    obtain ⟨mem, whole⟩ := State.gatherBytes_begin (a := a) some' (by rw [long]; exact k.isLt) empty pages
    exact ⟨_, congrArg Host.Outcome.next (if_pos ok), mem, whole⟩
  · subst at'
    have port' : k.val < (s.at (g.last + ticksUs 1)).csp8.busy.length := by
      rw [State.at_csp8, port]
      exact k.isLt
    obtain ⟨closed, mem, busy, time, transfers⟩ := State.closeGather_ready (s := s.at (g.last + ticksUs 1)) gathered ready
      (by rw [State.at_csp8, long]; exact k.isLt) port'
    refine ⟨_, by simp only [exec, execNorGatherEnd, gathered], closed, mem, busy, ?_, transfers⟩
    rw [time]
    rfl
  · let w := ((s.bump (nCSP 8) 3 0 16).log 0x12 (nCSP 8) k.val 5).dropWrites a k.val
    have wmem : w.mem = s.mem := State.log_mem _ _ _ _ _ _
    have wthr : w.thr = s.thr := State.log_thr _ _ _ _ _ _
    have wcfg : w.cfg = s.cfg := State.log_cfg _ _ _ _ _ _
    have awake' : w.suspended a = false := by rw [State.suspended, wmem]; exact awake
    have executes : exec (.externalAccessTimeout a k v n d) s = .next (w.storageFault a d v.toNat n) := by
      simp [exec, execExternalAccessTimeout, here, window, idle, awake, w]
    have faulted : w.storageFault a d v.toNat n = w.takeFault a d v.toNat n 4 := by simp [State.storageFault, awake']
    refine ⟨_, executes, ?_, ?_⟩
    · rw [(State.storageFault_storageStays a d v.toNat n).counts 3 0 (by decide) (by decide)]
      have told : w.count (nCSP 8) 3 0 = (s.bump (nCSP 8) 3 0 16).count (nCSP 8) 3 0 :=
        State.log_count _ _ _ _ _ (elsewhere_csp (by decide) (by decide) (by decide)).dropped
      rw [told, State.bump_count_same (by decide)]
    · obtain ⟨c, mem, agent, kind, count, dir⟩ := State.takeFault_timeout (s := w) (a := a) (dir := d) (v := v.toNat) (index := n)
        (by rw [wthr, inv.ctxs]) (by rw [wmem, fresh']) fun m own => by
          obtain ⟨going, saves⟩ := leaves m own
          rw [State.ctx_congr wthr, wthr]
          refine ⟨going, fun running => ?_⟩
          obtain ⟨-, clear, flows⟩ := saves running
          have same : thrAgent m.val = a := by simp [own, thrAgent, Nat.mod_eq_of_lt m.isLt]
          have area : w.saveAddr = s.saveAddr := by
            funext j
            rw [State.saveAddr, State.reg_congr wcfg]
            rfl
          rw [same] at clear flows
          rw [area, State.firstFault_congr wcfg wmem]
          exact ⟨clear, State.stalls_dropWrites (by rw [State.stalls_congr (State.log_cfg _ _ _ _ _ _) (State.log_csp8 _ _ _ _ _ _)]; exact flows) k.val⟩
      rw [faulted]
      exact List.any_eq_true.mpr ⟨c, mem, by simp [agent, kind, count, dir]⟩
  · have gated : (s.dozing && s.csp8.busy.all (·.isNone) && s.csp8.gather.all (·.isNone)) = true := by rw [doze, wire, page]; rfl
    exact ⟨_, congrArg Host.Outcome.next (if_pos gated), rfl, rfl⟩

end Sys2Proof.Machine
end

section
/-! SUPPORT. The ends of programs in the NOR (05 R177, R178, R180). -/

namespace Sys2Proof.Machine

set_option Elab.async false

variable {s t : State} {k a : Nat} {p : Program}

/-! ### A select that stands ready again (05 R178) -/

theorem State.resumeLoads_none (loads : s.storeLoads = []) : s.resumeLoads = s := by
  have none' : (s.mb.chans.flatMap fun c => c.held.filter fun h => h.verb == 0x20 && pf h.req 1 1 == 1) = [] := by
    simpa [State.storeLoads] using loads
  unfold State.resumeLoads
  split
  · rfl
  · rw [none', List.foldl_nil]

theorem State.pulseRst_storage (c : List Nat) : s.pulseRst c
    = s.modCsp8 fun x => { x with rstAt := if cfgField c 0 7 1 = 1 then some s.tm.now else x.rstAt } := by
  unfold State.pulseRst
  split <;> rfl

theorem State.resetStorage_storage : ∃ f : Option Nat → Option Nat, s.resetStorage = s.modCsp8 fun c => { c with rstAt := f c.rstAt } := by
  unfold State.resetStorage
  split
  · exact ⟨fun r => if cfgField [s.reg (nCSP 8) 0] 0 7 1 = 1 then some s.tm.now else r, State.pulseRst_storage _⟩
  · exact ⟨id, rfl⟩

/-- With nothing that waits, a select that stands ready again changes the port alone. -/
theorem State.freeSelect_ready (queue : nth [] s.csp8.queue k = []) (loads : s.storeLoads = []) :
    ∃ f : Option Nat → Option Nat, s.freeSelect k = s.modCsp8 fun c => { c with
      busy := updAt c.busy k fun _ => none, lastAccess := s.tm.now, rstAt := f c.rstAt } := by
  let u := s.modCsp8 fun c => { c with busy := updAt c.busy k fun _ => none, lastAccess := s.tm.now }
  obtain ⟨f, reset⟩ := State.resetStorage_storage (s := u)
  refine ⟨f, ?_⟩
  have next : u.nextProgram k = u := by simp [State.nextProgram, u, queue]
  have loads' : (u.modCsp8 fun c => { c with rstAt := f c.rstAt }).storeLoads = [] := loads
  rw [State.freeSelect]
  change (u.nextProgram k).resetStorage.resumeLoads = _
  rw [next, reset, State.resumeLoads_none loads']
  rfl

/-! ### The bytes of a program (05 R177) -/

theorem State.programByte_erased (erased : Memory.read flashEmpty s.mem.nor a = 0xFF) (b : Byte) :
    s.programByte 0 a b = s.modMem fun m => { m with nor := Memory.writeList flashEmpty m.nor a [b] } := by
  have erased' : Memory.read flashEmpty s.mem.nor a = flashEmpty := erased
  unfold State.programByte
  dsimp only
  rw [if_pos rfl, if_pos erased']
  rfl

/-- A program of erased bytes is a plain write of its data. -/
theorem State.programBytes_erased (data : List Byte) (j : Nat) (canonical : Memory.wf flashEmpty s.mem.nor = true)
    (erased : ∀ i, i < data.length → Memory.read flashEmpty s.mem.nor (a + j + i) = 0xFF) :
    (data.zipIdx j).foldl (fun s (b, i) => s.programByte 0 (a + i) b) s
      = s.modMem fun m => { m with nor := Memory.writeList flashEmpty m.nor (a + j) data } := by
  induction data generalizing s j with
  | nil => rfl
  | cons b data ih =>
    simp only [List.zipIdx_cons, List.foldl_cons]
    have first : Memory.read flashEmpty s.mem.nor (a + j) = 0xFF := erased 0 (by simp)
    rw [State.programByte_erased first b, ih]
    · rfl
    · exact Memory.wf_writeList _ _ _ _ canonical
    · intro i inside
      rw [State.modMem_mem, Memory.read_writeList_outside _ _ _ _ _ canonical (by simp; omega),
        show a + (j + 1) + i = a + j + (i + 1) by omega]
      exact erased (i + 1) (by simpa using inside)

theorem State.Inv.canonical_nor (inv : s.Inv) : Memory.wf flashEmpty s.mem.nor = true := by
  have canonical := inv.2
  simp only [State.canonical, Bool.and_eq_true] at canonical
  tauto

/-- A finished program of erased bytes: its data stand in the NOR, every other byte as it was, and its select is free. -/
theorem State.finishProgram_erased (canonical : Memory.wf flashEmpty s.mem.nor = true) (queue : nth [] s.csp8.queue 0 = []) (loads : s.storeLoads = [])
    (erased : ∀ i, i < p.data.length → Memory.read flashEmpty s.mem.nor (p.addr + i) = 0xFF) (port : 0 < s.csp8.busy.length) :
    nth none (s.finishProgram 0 p).csp8.busy 0 = none ∧ (s.finishProgram 0 p).csp8.status = s.csp8.status
      ∧ (s.finishProgram 0 p).mem = { s.mem with nor := Memory.writeList flashEmpty s.mem.nor p.addr p.data } := by
  obtain ⟨f, freed⟩ := State.freeSelect_ready (k := 0)
    (s := s.modMem fun m => { m with nor := Memory.writeList flashEmpty m.nor (p.addr + 0) p.data }) queue loads
  rw [State.finishProgram, State.programBytes_erased p.data 0 canonical (by simpa using erased), freed]
  refine ⟨?_, rfl, rfl⟩
  simp [nth_updAt_self, port]

theorem nth_of_lt {α : Type} (d : α) (l : List α) (i : Nat) (inside : i < l.length) : nth d l i = l[i] := by
  simp [nth, List.getD_eq_getElem?_getD, inside]

/-! ### Time-outs (05 R180) -/

/-- After a pulse its end is 10 µs on; without one it is not later than before. -/
theorem State.at_rstEnd_pulseRst (c : List Nat) (past : s.rstEnd ≤ s.tm.now) :
    max s.tm.now (s.pulseRst c).rstEnd = s.tm.now + 1200 * cfgField c 0 7 1 := by
  have bit : cfgField c 0 7 1 < 2 := Nat.mod_lt _ (by decide)
  unfold State.pulseRst
  split
  · next one => simp [State.rstEnd, one, ticksUs]
  · next other =>
    have zero : cfgField c 0 7 1 = 0 := by omega
    simpa [zero] using past

/-- Settles O40: the data of a program stand in the NOR once its select is free, and a time-out is counted and told. -/
theorem norPrograms : Obligations.NorPrograms := by
  unfold Obligations.NorPrograms
  intro k s p inv busy ports statuses
  have port : k.val < s.csp8.busy.length := by rw [ports]; exact k.isLt
  have place : k.val < s.csp8.status.length := by rw [statuses]; exact k.isLt
  have canonical := inv.canonical_nor
  refine ⟨fun b i shows at' => ?_, fun queue loads zero erased => ?_, fun b ready queue loads zero erased => ?_, fun queue loads i at' past => ?_⟩
  · refine ⟨s.poll k.val p b.toNat, by simp [exec, execNorStatusPoll, busy, shows], ?_, rfl, at'.symm, ?_⟩
    · simp [State.poll, nth_updAt_self, place]
    · subst at'
      rfl
  · subst zero
    obtain ⟨free, -, mem⟩ := State.finishProgram_erased (p := p) (s := s.poll 0 p (readyStatus p.cfg (nth 0 s.csp8.status 0))) canonical queue loads erased
      (by simpa [State.poll] using port)
    have executes : exec (.norProgramDone 0) s = .next ((s.poll 0 p (readyStatus p.cfg (nth 0 s.csp8.status 0))).finishProgram 0 p) := by
      simp only [Fin.val_zero] at busy
      simp [exec, execNorProgramDone, busy]
    refine ⟨_, executes, free, by rw [mem]; rfl, by rw [mem]; rfl, fun i inside => ?_, fun a outside => ?_⟩
    · rw [mem, nth_of_lt _ _ _ inside]
      exact Memory.read_writeList_inside _ _ _ _ _ canonical inside
    · rw [mem]
      exact Memory.read_writeList_outside _ _ _ _ _ canonical outside
  · subst zero
    obtain ⟨free, status, mem⟩ := State.finishProgram_erased (p := p) (s := s.poll 0 p b.toNat) canonical queue loads erased
      (by simpa [State.poll] using port)
    have executes : exec (.norStatusPoll 0 b) s = .next ((s.poll 0 p b.toNat).finishProgram 0 p) := by
      simp only [Fin.val_zero] at busy
      simp [exec, execNorStatusPoll, busy, ready]
    refine ⟨_, executes, free, ?_, fun i inside => ?_⟩
    · simp only [Fin.val_zero] at place ⊢
      rw [status]
      simp [State.poll, nth_updAt_self, place]
    · rw [mem, nth_of_lt _ _ _ inside]
      exact Memory.read_writeList_inside _ _ _ _ _ canonical inside
  · let m := (s.at (p.since + ticksMs (cfgField p.cfg 3 12 8))).pulseRst p.cfg
    let u := m.spoil k.val p.addr p.data.length
    let v := ((u.bump (nCSP 8) 3 16 16).log 0x12 (nCSP 8) k.val 6).raise 12
    have executes : exec (.programTimeout k) s = .next (((v.at v.rstEnd).freeSelect k.val).storageFault p.agent .write (windowAddr k.val p.addr) 0) := by
      simp only [exec, execProgramTimeout, busy]
      rfl
    have moment : m.tm.now = i := by
      simp only [m, State.pulseRst_storage, at']
      rfl
    have pulsed : max m.tm.now m.rstEnd = m.tm.now + 1200 * cfgField p.cfg 0 7 1 := by
      have earlier : (s.at (p.since + ticksMs (cfgField p.cfg 3 12 8))).rstEnd ≤ (s.at (p.since + ticksMs (cfgField p.cfg 3 12 8))).tm.now :=
        le_trans past (le_max_left _ _)
      have after := State.at_rstEnd_pulseRst p.cfg earlier
      have same : m.tm = (s.at (p.since + ticksMs (cfgField p.cfg 3 12 8))).tm := by simp only [m, State.pulseRst_storage, State.modCsp8_tm]
      rw [same]
      exact after
    have spoiled : Within [.nor, .psram, .free] m u := State.spoil_frame _ _ _ (Within.refl _)
    have told : Within [.nor, .psram, .free, .counters, .almanac, .events] m v :=
      State.raise_frame _ (State.log_frame _ _ _ _ _ (State.bump_frame _ _ _ _ (spoiled.mono (by decide))))
    have storage : v.csp8 = m.csp8 := told .storage (by decide)
    have time : v.tm = m.tm := told .time (by decide)
    have chans : v.mb.chans = s.mb.chans := by
      rw [(told .requests (by decide)).1]
      simp only [m, State.pulseRst_storage]
      rfl
    have waiting : nth [] (v.at v.rstEnd).csp8.queue k.val = [] := by
      simp only [State.at_csp8, storage, m, State.pulseRst_storage]
      exact queue
    have busies : v.csp8.busy = s.csp8.busy := by
      simp only [storage, m, State.pulseRst_storage]
      rfl
    have loads' : (v.at v.rstEnd).storeLoads = [] := by
      simp only [State.storeLoads, State.at_mb, chans]
      exact loads
    obtain ⟨f, freed⟩ := State.freeSelect_ready waiting loads'
    have later := State.storageFault_storageStays (s := (v.at v.rstEnd).freeSelect k.val) p.agent .write (windowAddr k.val p.addr) 0
    have frame : Within [.requests, .shadow, .counters, .events, .almanac, .drill, .sheaf, .ports, .storage, .sram, .nor, .psram, .fabric, .boot, .level,
        .power, .usb, .yoke, .harrow, .update, .thresher, .free] ((v.at v.rstEnd).freeSelect k.val)
        (((v.at v.rstEnd).freeSelect k.val).storageFault p.agent .write (windowAddr k.val p.addr) 0) := State.storageFault_frame _ _ _ _ (Within.refl _)
    refine ⟨_, executes, ?_, later.events 12 ?_, ?_, ?_⟩
    · rw [later.busy, freed]
      simp [nth_updAt_self, busies, port]
    · rw [freed]
      change v.has 12 = true
      simp [v]
    · rw [later.counts 3 16 (by decide) (by decide), freed]
      have kept : v.count (nCSP 8) 3 16 = (u.bump (nCSP 8) 3 16 16).count (nCSP 8) 3 16 :=
        (State.raise_count _ (elsewhere_csp (by decide) (by decide) (by decide)).lost).trans
          (State.log_count _ _ _ _ _ (elsewhere_csp (by decide) (by decide) (by decide)).dropped)
      have begun : u.count (nCSP 8) 3 16 = s.count (nCSP 8) 3 16 := by
        rw [State.count_congr (spoiled .counters (by decide))]
        simp only [m, State.pulseRst_storage]
        rfl
      change v.count (nCSP 8) 3 16 = _
      rw [kept, State.bump_count_same (by decide), begun]
    · have ends : v.rstEnd = m.rstEnd := by simp only [State.rstEnd, storage]
      rw [show _ = ((v.at v.rstEnd).freeSelect k.val).tm from frame .time (by decide), freed]
      change max v.tm.now v.rstEnd = _
      rw [time, ends, pulsed, moment]

end Sys2Proof.Machine
end

section
/-! SUPPORT. Frames on the SENT channels and edges on the inputs (06 R190 to R207; 01 R24, R25). -/

namespace Sys2Proof.Machine

set_option Elab.async false

variable {s t u : State} {c n w lo i : Nat}

/-! ### A frame that no window touches (06 R191) -/

/-- With no window open nothing is drawn for (14 R493). -/
theorem State.drawUnit_idle (closed : s.harrowActive = false) (target k : Nat) (j : Option Nat) (width : Nat) : s.drawUnit target k j width = (s, []) := by
  have shut (e : Nat) (few : e < 4) : s.candidate e target k j = false := by
    have open' : s.windowOpen e = false := by
      simp only [State.harrowActive, List.any_eq_false, List.mem_range, Bool.not_eq_true] at closed
      exact closed e few
    simp [State.candidate, open']
  simp [State.drawUnit, List.range_succ, shut]

/-- The words of a frame rest on the set in force and on the one before it. -/
theorem State.sentWords_congr (config : t.cfg = s.cfg) (old : (nth {} t.sent c).old = (nth {} s.sent c).old) : t.sentWords c = s.sentWords c := by
  funext e
  simp only [State.sentWords, old, State.reg_congr config]

theorem State.calBefore_congr (old : (nth {} t.sent c).old = (nth {} s.sent c).old) (cal : (nth {} t.sent c).prevCal = (nth {} s.sent c).prevCal) :
    t.calBefore c = s.calBefore c := by
  funext e
  simp only [State.calBefore, old, cal]

theorem elsewhere_sent (few : c < 32) (inside : w < 1024) (low : lo < 32) : Elsewhere (nSENT c) w lo := by
  refine ⟨inside, low, ?_, ?_, ?_, ?_⟩ <;> simp only [nSENT, nSYS, nEVENTS, nALMANAC, nHARROW] <;> omega

theorem State.sentFault_sent : (s.sentFault c).sent = s.sent := State.raiseOnce_sent _ _

theorem State.sentFault_tm : (s.sentFault c).tm = s.tm := State.raiseOnce_tm _ _

theorem State.sentFault_hw : (s.sentFault c).hw = s.hw := State.raiseOnce_hw _ _

/-- From s to t channel c keeps its end, its lock and its frame, the timebase and the fault injector stay, and of its counters only word 7 may change. -/
structure ChannelStays (c : Nat) (s t : State) : Prop where
  chan : ∀ x y : SentChan, x = nth {} s.sent c → y = nth {} t.sent c → y.lastEnd = x.lastEnd ∧ y.locked = x.locked
  chans : t.sent.length = s.sent.length
  time : t.tm = s.tm
  hw : t.hw = s.hw
  counts : ∀ w lo, c < 32 → w < 7 → lo < 32 → t.count (nSENT c) w lo = s.count (nSENT c) w lo

theorem ChannelStays.refl (s : State) : ChannelStays c s s := ⟨fun _ _ a b => by subst a b; exact ⟨rfl, rfl⟩, rfl, rfl, rfl, fun _ _ _ _ _ => rfl⟩

theorem ChannelStays.trans (a : ChannelStays c s t) (b : ChannelStays c t u) : ChannelStays c s u where
  chan x y hx hy := ⟨(b.chan _ y rfl hy).1.trans (a.chan x _ hx rfl).1, (b.chan _ y rfl hy).2.trans (a.chan x _ hx rfl).2⟩
  chans := b.chans.trans a.chans
  time := b.time.trans a.time
  hw := b.hw.trans a.hw
  counts w lo few word low := (b.counts w lo few word low).trans (a.counts w lo few word low)

theorem State.modSent_channelStays (f : SentChan → SentChan) (ends : ∀ x, (f x).lastEnd = x.lastEnd := by intro _; rfl) (locks : ∀ x, (f x).locked = x.locked := by intro _; rfl) :
    ChannelStays c s (s.modSent c f) where
  chan x y hx hy := by
    subst hx hy
    exact ⟨nth_updAt_field SentChan.lastEnd {} _ _ _ f ends, nth_updAt_field SentChan.locked {} _ _ _ f locks⟩
  chans := by simp
  time := rfl
  hw := rfl
  counts _ _ _ _ _ := rfl

/-- A record, an event or a counter of word 7. -/
theorem ChannelStays.of_told (sent : t.sent = s.sent) (time : t.tm = s.tm) (hw : t.hw = s.hw)
    (counts : ∀ w lo, c < 32 → w < 7 → lo < 32 → t.count (nSENT c) w lo = s.count (nSENT c) w lo) : ChannelStays c s t where
  chan x y hx hy := by
    subst hx hy
    rw [sent]
    exact ⟨rfl, rfl⟩
  chans := by rw [sent]
  time := time
  hw := hw
  counts := counts

theorem State.serialBad_channelStays : ChannelStays c s ((s.bump (nSENT c) 7 0 16).log 0x12 (nSENT c) c 7 |>.sentFault c) := by
  refine ChannelStays.of_told ?_ ?_ ?_ fun w lo few word low => ?_
  · rw [State.sentFault_sent, State.log_sent]
    rfl
  · rw [State.sentFault_tm, State.log_tm]
    rfl
  · rw [State.sentFault_hw, State.log_hw]
    rfl
  · have apart : Elsewhere (nSENT c) w lo := elsewhere_sent few (by omega) low
    rw [State.sentFault, State.raiseOnce_count _ apart.lost, State.log_count _ _ _ _ _ apart.dropped, State.bump_count_other (by decide)]
    rw [Ne, cntKey_eq_iff (by omega) (by decide) low (by decide)]
    omega

theorem State.serialDone_channelStays (m : Nat × Nat × Bool) : ChannelStays c s (s.serialDone c m) := by
  unfold State.serialDone
  dsimp only
  split
  · exact (State.modSent_channelStays _).trans (State.modSent_channelStays _)
  · exact ((State.modSent_channelStays _).trans (State.modSent_channelStays _)).trans State.serialBad_channelStays

theorem State.serialNibble_channelStays (v : Nat) : ChannelStays c s (s.serialNibble c v) := by
  have taken (ns : List Nat) (whole : Prop) [Decidable whole] (m : State → Nat × Nat × Bool) : ChannelStays c s
      (if whole then (s.modSent c fun x => { x with serial := { nibbles := ns } }).serialDone c (m (s.modSent c fun x => { x with serial := { nibbles := ns } }))
        else s.modSent c fun x => { x with serial := { nibbles := ns } }) := by
    split
    · exact (State.modSent_channelStays _).trans (State.serialDone_channelStays _)
    · exact State.modSent_channelStays _
  unfold State.serialNibble
  dsimp only
  split
  · exact ChannelStays.refl s
  · exact taken _ _ fun y => shortMessage (y.flag (nSENT c) 0 2) _
  · exact taken _ _ fun _ => enhancedMessage _

/-- An errored frame ends as counted, by its timing or by its CRC (06 R191, R200). -/
theorem State.errorSent_counts {d : Decoded} (few : c < 32) (here : c < s.sent.length) : (nth {} (s.errorSent c d).sent c).errored = true
    ∧ (nth {} (s.errorSent c d).sent c).lastEnd = (nth {} s.sent c).lastEnd ∧ (nth {} (s.errorSent c d).sent c).locked = (nth {} s.sent c).locked
    ∧ (s.errorSent c d).tm = s.tm
    ∧ (if d.timing then (s.errorSent c d).count (nSENT c) 6 16 = satAdd 16 (s.count (nSENT c) 6 16) 1
        else (s.errorSent c d).count (nSENT c) 6 0 = satAdd 16 (s.count (nSENT c) 6 0) 1) := by
  have told (lo' : Nat) (y : State) (low : lo' < 32) : ((y.log 0x12 (nSENT c) c 7).sentFault c).count (nSENT c) 6 lo' = y.count (nSENT c) 6 lo' := by
    have apart : Elsewhere (nSENT c) 6 lo' := elsewhere_sent few (by decide) low
    rw [State.sentFault, State.raiseOnce_count _ apart.lost, State.log_count _ _ _ _ _ apart.dropped]
  unfold State.errorSent
  dsimp only
  by_cases timing : d.timing = true
  · simp only [timing, if_true]
    refine ⟨?_, ?_, ?_, ?_, ?_⟩
    · simp [State.sentFault_sent, nth_updAt_self, here]
    · simp [State.sentFault_sent, nth_updAt_self, here]
    · simp [State.sentFault_sent, nth_updAt_self, here]
    · simp [State.sentFault_tm]
    · rw [told 16 _ (by decide), State.bump_count_same (by decide)]
      rfl
  · simp only [Bool.not_eq_true] at timing
    simp only [timing, Bool.false_eq_true, if_false]
    refine ⟨?_, ?_, ?_, ?_, ?_⟩
    · simp [State.sentFault_sent, nth_updAt_self, here]
    · simp [State.sentFault_sent, nth_updAt_self, here]
    · simp [State.sentFault_sent, nth_updAt_self, here]
    · simp [State.sentFault_tm]
    · rw [told 0 _ (by decide), State.bump_count_same (by decide)]
      rfl

/-- An error-free frame is counted and delivered (06 R193, R200). -/
theorem State.goodSent_delivers (few : c < 32) (here : c < s.sent.length) (held : s.hw.heldFrames = []) (f : SentFrame) :
    (nth {} (s.goodSent c f []).sent c).good = some f ∧ (nth {} (s.goodSent c f []).sent c).absent = false
    ∧ (nth {} (s.goodSent c f []).sent c).lastEnd = (nth {} s.sent c).lastEnd ∧ (nth {} (s.goodSent c f []).sent c).locked = (nth {} s.sent c).locked
    ∧ (s.goodSent c f []).tm = s.tm ∧ (s.goodSent c f []).count (nSENT c) 5 0 = satAdd 32 (s.count (nSENT c) 5 0) 1 := by
  let x := (s.bump (nSENT c) 5 0 32).serialNibble c f.status
  have stays : ChannelStays c (s.bump (nSENT c) 5 0 32) x := State.serialNibble_channelStays f.status
  have whole : s.goodSent c f [] = x.modSent c fun x => { x with good := some f, absent := false } := by
    have none' : x.hw.heldFrames = [] := by rw [stays.hw]; exact held
    simp [State.goodSent, State.deliverSent, x, none']
  have here' : c < x.sent.length := by rw [stays.chans]; exact here
  obtain ⟨ends, locks⟩ := stays.chan _ _ rfl rfl
  rw [whole]
  refine ⟨?_, ?_, ?_, ?_, stays.time, ?_⟩
  · simp [nth_updAt_self, here']
  · simp [nth_updAt_self, here']
  · simpa [nth_updAt_self, here'] using ends
  · simpa [nth_updAt_self, here'] using locks
  · rw [State.modSent_count, stays.counts 5 0 few (by decide) (by decide), State.bump_count_same (by decide)]

/-- The receiver's own record of a frame: when it ended, and whether its calibration pulse was accepted (06 R190, R197). -/
def State.sentSeen (s : State) (c : Nat) (d : Decoded) (cal syncEnd : Nat) : State :=
  let late := (nth {} s.sent c).old.any fun o => syncEnd < o.1
  let u := s.modSent c fun x => { x with lastEnd := s.tm.now, locked := d.accepted, old := x.old.filter fun o => syncEnd < o.1 }
  if d.accepted && !late then u.modSent c fun x => { x with prevCal := some cal, cal := cal % 65536 } else u

theorem State.sentSeen_parts (here : c < s.sent.length) (d : Decoded) (cal e : Nat) : (nth {} (s.sentSeen c d cal e).sent c).lastEnd = s.tm.now
    ∧ (nth {} (s.sentSeen c d cal e).sent c).locked = d.accepted ∧ (s.sentSeen c d cal e).sent.length = s.sent.length
    ∧ (s.sentSeen c d cal e).tm = s.tm ∧ (s.sentSeen c d cal e).hw = s.hw ∧ (s.sentSeen c d cal e).count = s.count := by
  unfold State.sentSeen
  dsimp only
  split
  · simp [nth_updAt_self, here]
  · simp [nth_updAt_self, here]

/-- With no window open a frame is decoded and recorded as it is (06 R191, R193). -/
theorem State.takeSent_idle (closed : s.harrowActive = false) (ps : List Nat) (np e : Nat) : s.takeSent c ps np e
    = (let d := decodeSent (s.sentWords c e) (s.calBefore c e) c ps np []
      let u := s.sentSeen c d (nth 0 ps 0) e
      let stamp := match (nth {} s.sent c).trigger with | some (_, o) => o | none => e
      if d.timing || !d.crc then u.errorSent c d else u.goodSent c (frameOf (s.sentWords c e) c d stamp) []) := by
  unfold State.takeSent
  rw [State.drawUnit_idle closed]
  rfl

/-- Settles O41: a frame is recorded with its end and its lock, then counted as errored or delivered. -/
theorem sentReceives : Obligations.SentReceives := by
  unfold Obligations.SentReceives
  intro c s inv runs unfenced
  have few : c.val < 32 := by omega
  have here : c.val < s.sent.length := by rw [inv.sent]; exact c.isLt
  refine ⟨fun ps np e i d plain closed held decoded => ?_, fun limit present => ?_⟩
  · let u := (s.at i.toNat).modSent c.val fun x => { x with lastEnd := i.toNat }
    have executes : exec (.sentFrameEnd c ps np e i) s = .next (u.takeSent c.val ps np e.toNat) := by
      have plain' : u.flag (nSENT c.val) 0 1 = false := plain
      simp [exec, execSentFrameEnd, runs, unfenced, fencedOut, u, plain']
    have old : (nth {} u.sent c.val).old = (nth {} s.sent c.val).old := nth_updAt_field SentChan.old {} _ _ _ _ fun _ => rfl
    have cal : (nth {} u.sent c.val).prevCal = (nth {} s.sent c.val).prevCal := nth_updAt_field SentChan.prevCal {} _ _ _ _ fun _ => rfl
    have trigger : (nth {} u.sent c.val).trigger = (nth {} s.sent c.val).trigger := nth_updAt_field SentChan.trigger {} _ _ _ _ fun _ => rfl
    have closed' : u.harrowActive = false := closed
    have here' : c.val < u.sent.length := by simpa [u] using here
    obtain ⟨ends, locks, chans, time, hw, count⟩ := State.sentSeen_parts here' d (nth 0 ps 0) e.toNat
    refine ⟨_, executes, ?_⟩
    rw [State.takeSent_idle closed', State.sentWords_congr (s := s) (t := u) rfl old, State.calBefore_congr old cal, trigger, ← decoded]
    dsimp only
    have now : u.tm.now = max s.tm.now i.toNat := rfl
    by_cases timing : d.timing = true
    · obtain ⟨errored, ends', locks', time', counts⟩ := State.errorSent_counts (d := d) few (by rw [chans]; exact here')
      simp only [timing, Bool.true_or, if_true] at counts ⊢
      exact ⟨by rw [time', time, now], by rw [ends', ends, now], by rw [locks', locks], errored, by rw [counts, count]; rfl⟩
    · by_cases good : d.crc = true
      · obtain ⟨frame, absent, ends', locks', time', counts⟩ := State.goodSent_delivers few (by rw [chans]; exact here') (by rw [hw]; exact held)
          (frameOf (s.sentWords c.val e.toNat) c.val d (match (nth {} s.sent c.val).trigger with | some (_, o) => o | none => e.toNat))
        simp only [timing, good, Bool.not_true, Bool.or_false, Bool.false_eq_true, if_true, if_false]
        exact ⟨by rw [time', time, now], by rw [ends', ends, now], by rw [locks', locks], frame, absent, by rw [counts, count]; rfl⟩
      · obtain ⟨errored, ends', locks', time', counts⟩ := State.errorSent_counts (d := d) few (by rw [chans]; exact here')
        simp only [timing, good, Bool.not_false, Bool.or_true, Bool.false_eq_true, if_true, if_false] at counts ⊢
        exact ⟨by rw [time', time, now], by rw [ends', ends, now], by rw [locks', locks], errored, by rw [counts, count]; rfl⟩
  · let u := (s.at ((nth {} s.sent c.val).lastEnd + ticksMs (s.fld (nSENT c.val) 1 21 8))).modSent c.val fun x => { x with absent := true, locked := false }
    have silent : (s.sentOn c.val && s.fld (nSENT c.val) 1 21 8 != 0 && !(nth {} s.sent c.val).absent) = true := by simp [runs, limit, present]
    refine ⟨(u.log 0x12 (nSENT c.val) c.val 2).sentFault c.val, if_pos silent, ?_, ?_, ?_, fun first => ?_⟩
    · simp [State.sentFault_sent, u, nth_updAt_self, here]
    · simp [State.sentFault_sent, u, nth_updAt_self, here]
    · rw [State.sentFault_tm, State.log_tm]
      rfl
    · refine State.raiseOnce_has_self ?_
      rw [State.log_ev]
      exact first

/-! ### Edges on the inputs (06 R201 to R207) -/

/-- An event that may be raised once in the period leaves the inputs and the timebase. -/
theorem State.raisedIf_parts (told : Bool) (k : Nat) : (if told then s.raiseOnce k else s).tm = s.tm ∧ (if told then s.raiseOnce k else s).edge = s.edge := by
  cases told with
  | true => exact ⟨State.raiseOnce_tm _ k, State.raiseOnce_edge _ k⟩
  | false => exact ⟨rfl, rfl⟩

/-- An accepted edge moves the level to the one seen, with its stamp (06 R202, R207). -/
theorem State.acceptEdge_parts (here : i < s.edge.length) (stamp : Nat) : (s.acceptEdge i stamp).tm = s.tm
    ∧ (nth {} (s.acceptEdge i stamp).edge i).seen = (nth {} s.edge i).seen ∧ (nth {} (s.acceptEdge i stamp).edge i).level = (nth {} s.edge i).seen
    ∧ (nth {} (s.acceptEdge i stamp).edge i).since = none ∧ (nth {} (s.acceptEdge i stamp).edge i).count = (nth {} s.edge i).count + 1
    ∧ (if (nth {} s.edge i).seen then (nth {} (s.acceptEdge i stamp).edge i).rise = some stamp
        else (nth {} (s.acceptEdge i stamp).edge i).fall = some stamp) := by
  obtain ⟨y, whole, time, edges⟩ : ∃ y : State, s.acceptEdge i stamp = y ∧ y.tm = s.tm
      ∧ y.edge = updAt s.edge i fun x => { x with
        level := (nth {} s.edge i).seen, since := none, count := x.count + 1
        rise := if (nth {} s.edge i).seen then some stamp else x.rise, fall := if (nth {} s.edge i).seen then x.fall else some stamp
        riseNow := x.riseNow || (nth {} s.edge i).seen, fallNow := x.fallNow || !(nth {} s.edge i).seen } := by
    refine ⟨_, rfl, ?_, ?_⟩
    · exact (State.raisedIf_parts _ _).1.trans rfl
    · exact (State.raisedIf_parts _ _).2.trans rfl
  rw [whole, edges, nth_updAt_self _ _ _ _ here]
  refine ⟨time, rfl, rfl, rfl, rfl, ?_⟩
  split
  · rfl
  · rfl

/-- Settles O42: an edge only shown, accepted at once, timed, or a glitch; a level accepted; and the edge considered on SYNC_IN. -/
theorem edgesTaken : Obligations.EdgesTaken := by
  unfold Obligations.EdgesTaken
  refine ⟨fun i s inv => ⟨fun pin lv e off level => ?_, fun pin lv e on level => ?_, fun t0 on since => ?_⟩, fun s e inv mode counts => ?_⟩
  · subst level
    simp [exec, execEdgeSeen, off]
  · have here : i.val < s.edge.length := by rw [inv.edges]; exact i.isLt
    have bank : i.val / 8 < s.banks.length := by rw [inv.edgeBanks]; omega
    let u := (s.at e.toNat).modEdge i.val fun x => { x with seen := lv }
    have here' : i.val < u.edge.length := by simpa [u] using here
    have seen : (nth {} u.edge i.val).seen = lv := by simp [u, nth_updAt_self, here]
    have counted : (nth {} u.edge i.val).count = (nth {} s.edge i.val).count := nth_updAt_field EdgeIn.count {} _ _ _ _ fun _ => rfl
    have begun : (nth {} u.edge i.val).since = (nth {} s.edge i.val).since := nth_updAt_field EdgeIn.since {} _ _ _ _ fun _ => rfl
    have stood : (nth {} u.edge i.val).level = (nth {} s.edge i.val).level := nth_updAt_field EdgeIn.level {} _ _ _ _ fun _ => rfl
    have executes : exec (.edgeSeen i pin e) s = .next (if lv == (nth {} s.edge i.val).level then
          (if (nth {} s.edge i.val).since.isSome then
            ((u.modEdge i.val fun x => { x with since := none }).bump (nEDGE (i.val / 8)) 2 0 32).modBank (i.val / 8) fun y => { y with glitches := y.glitches + 1 }
          else u)
        else if s.debounce i.val = 0 then u.acceptEdge i.val e.toNat
        else u.modEdge i.val fun x => { x with since := some (x.since.getD e.toNat) }) := by
      simp only [exec, execEdgeSeen, on, Bool.not_true, Bool.false_eq_true, if_false, ← level, apply_ite Host.Outcome.next]
      rfl
    refine ⟨_, executes, ?_⟩
    by_cases same : lv = (nth {} s.edge i.val).level
    · rw [if_pos (by simpa using same)]
      by_cases timed : (nth {} s.edge i.val).since.isSome = true
      · rw [if_pos timed]
        refine ⟨?_, rfl, fun other => absurd same other, fun other => absurd same other, fun _ _ => ⟨?_, ?_⟩⟩
        · simp [nth_updAt_self, here', seen]
        · simp [nth_updAt_self, here']
        · simp [nth_updAt_self, u, bank]
      · rw [if_neg timed]
        exact ⟨seen, rfl, fun other => absurd same other, fun other => absurd same other, fun _ yes => absurd yes timed⟩
    · rw [if_neg (by simpa using same)]
      by_cases instant : s.debounce i.val = 0
      · rw [if_pos instant]
        obtain ⟨time, seen', level', -, count', stamp⟩ := State.acceptEdge_parts here' e.toNat
        rw [seen] at seen' level' stamp
        exact ⟨seen', by rw [time]; rfl, fun _ _ => ⟨level', by rw [count', counted], stamp⟩, fun _ slow => absurd instant slow, fun eq => absurd eq same⟩
      · rw [if_neg instant]
        refine ⟨?_, rfl, fun _ fast => absurd fast instant, fun _ _ => ⟨?_, ?_⟩, fun eq => absurd eq same⟩
        · simp [nth_updAt_self, here', seen]
        · simp [nth_updAt_self, here', stood]
        · simp [nth_updAt_self, here', begun]
  · have here : i.val < (s.at (t0 + ticksUs (s.debounce i.val))).edge.length := by rw [State.at_edge, inv.edges]; exact i.isLt
    obtain ⟨time, -, level', since', count', stamp⟩ := State.acceptEdge_parts here t0
    refine ⟨_, by simp only [exec, execEdgeAccept, since, on, if_true], level', since', count', ?_, stamp⟩
    rw [time]
    rfl
  · have taken : (s.fld nPERIOD 0 16 2 != 2 || !s.clocked) = false := by simp [mode, counts]
    have kept : (s.at e.toNat).tm.edge = s.tm.edge := rfl
    simp only [exec, execSyncInEdge, taken, Bool.false_eq_true, if_false, kept]
    cases considered : s.tm.edge with
    | some e0 =>
      refine ⟨(s.at e.toNat).bump nPERIOD 6 0 16, rfl, rfl, ?_, ?_⟩
      · simpa using considered
      · rw [State.bump_count_same (by decide)]
        rfl
    | none =>
      let u := (s.at e.toNat).modTm fun m => { m with edge := some e.toNat }
      have early : (u.bump nPERIOD 5 0 16).count nPERIOD 6 0 = s.count nPERIOD 6 0 := State.bump_count_other (by decide) (by decide)
      by_cases soon : (u.tm.lineSeen && u.nextLine.early) = true
      · exact ⟨_, congrArg Host.Outcome.next (if_pos soon), rfl, rfl, early⟩
      · exact ⟨_, congrArg Host.Outcome.next (if_neg soon), rfl, rfl, rfl⟩

end Sys2Proof.Machine
end

section
/-! SUPPORT. A drill's second hard fault that takes the device out of L3: the jobs end one by one, and the engine takes up a saved
context before its own end, whose save area no mapping reaches (07 R246, R247; 08 R286, R287). -/

namespace Sys2Proof.Machine

set_option Elab.async false

/-- A job whose samples are past. -/
def anyJob : Job :=
  { ticket := none, number := 1, program := 1, every := 1, count := 1, first := none, pc := 0, iteration := 0, sheaf := none
    skipping := false, waitSince := 0, ending := none, returned := [], layout := {} }

/-- A running drill that faulted in the period before, while context 0 holds the engine and context 1 waits for it with its state saved. -/
def secondFault : State :=
  { cfg := Tab.set resetWord [] (regKey nTHRESHER 0) 1
    tm := { now := 30000000, lineSeen := true, period := 10, capture := 29970000, lines := 11 }
    boot := { phase := .ready, runningFrom := 1 }
    lev := { level := 3, firmware := true }
    drill := { mode := 1, hardAt := some 11 }
    thr := { ctxs := [{ state := 2, job := some anyJob }, { state := 1, job := some anyJob, saved := some 0 }, {}, {}], running := some 0, last := 0 } }

/-- The drill's fault is one hard fault, and the restore of context 1 is another. -/
theorem secondFault_counts {t : State} (ran : exec (.plotFault .drill .read 0 0 .none) secondFault = .next t) :
    t.count nPLOTMAP 11 0 = 2 := by
  cases ran
  decide +kernel

/-- Refutes O43: the second hard fault of the drill in a row ends every job (04 R137; 01 R41). As the first job ends, the engine takes up the
next context, whose saved state lies at an address that is not mapped: a second hard fault is counted by the one element that the statement
names. -/
theorem not_plotFaultsServed : ¬ Obligations.PlotFaultsServed := by
  unfold Obligations.PlotFaultsServed
  intro claim
  obtain ⟨-, hard⟩ := claim.1 .drill .read 0 0 secondFault ⟨by decide +kernel, by decide +kernel⟩ (by decide +kernel) (by decide +kernel)
    (fun n own => nomatch own)
  obtain ⟨t, ran, -, -, -, count⟩ := hard 1 (Or.inl rfl) (by decide +kernel)
  rw [secondFault_counts ran] at count
  exact absurd count (by decide +kernel)

end Sys2Proof.Machine
end

section
/-! SUPPORT. Banks that wake, fail and are gated, and the scrub (07 R227 to R232, R243, R244, R249, R250). -/

namespace Sys2Proof.Machine

set_option Elab.async false

variable {s t u : State} {k : Nat}

/-! ### Bytes returned to the empty one -/

/-- What a memory reads once cells are taken away by their addresses. -/
theorem Memory.read_filter (d : Byte) (keep : Nat → Bool) (m : Memory) (lo a : Nat) (canonical : Memory.wfFrom d lo m = true) :
    Memory.read d (m.filter fun c => keep c.1) a = if keep a then Memory.read d m a else d := by
  induction m generalizing lo with
  | nil => simp [Memory.read]
  | cons c m ih =>
    obtain ⟨b, v⟩ := c
    simp only [Memory.wfFrom, Bool.and_eq_true, decide_eq_true_eq] at canonical
    obtain ⟨-, tail⟩ := canonical
    have below (h : a ≤ b) : Memory.read d m a = d := Memory.read_below d m (b + 1) a (by omega) tail
    by_cases kept : keep b = true
    · rw [List.filter_cons_of_pos (by exact kept)]
      simp only [Memory.read, ih _ tail]
      by_cases same : a = b
      · simp [same, kept]
      · simp only [same, if_false]
        (repeat' split) <;> rfl
    · rw [List.filter_cons_of_neg (by exact kept), ih _ tail]
      by_cases same : a = b
      · simp [same, kept]
      · simp only [Memory.read, same, if_false]
        by_cases low : a < b
        · simp [low, below (Nat.le_of_lt low)]
        · simp [low]

theorem Memory.read_clearRange (d : Byte) (m : Memory) (a n i : Nat) (canonical : Memory.wf d m = true) :
    Memory.read d (Memory.clearRange m a n) i = if i < a ∨ a + n ≤ i then Memory.read d m i else d := by
  rw [Memory.clearRange, Memory.read_filter d (fun x => x < a || a + n ≤ x) m 0 i canonical]
  simp

/-! ### A bank without faults or requests that wait for it -/

theorem State.settlePower_none (quiet : s.pw.powers = []) : s.settlePower = s := by simp [State.settlePower, quiet]

theorem State.waitingFor_none (calm : s.mem.faults = []) (k : Nat) : s.waitingFor k = [] := by simp [State.waitingFor, calm]

theorem State.carryPower_none (none' : (s.bank k).gateTo = none) : s.carryPower k = s := by simp [State.carryPower, none']

theorem State.bank_modSram (here : k < s.mem.banks.length) (f : Bank → Bank) : (s.modSram k f).bank k = f (s.bank k) := by
  simp [State.bank, nth_updAt_self, here]

theorem State.Inv.canonical_sram (inv : s.Inv) : Memory.wf sramEmpty s.mem.sram = true := by
  have canonical := inv.2
  simp only [State.canonical, Bool.and_eq_true] at canonical
  tauto

/-- A bank that has reached ON, and what its bytes read (07 R230). -/
theorem State.bankOn_parts (inv : s.Inv) (k : Fin 64) : ((s.bankOn k.val).bank k.val).state = .on ∧ ((s.bankOn k.val).bank k.val).waking = false
    ∧ ((s.bankOn k.val).bank k.val).gateTo = (s.bank k.val).gateTo ∧ (s.bankOn k.val).mem.faults = s.mem.faults ∧ (s.bankOn k.val).pw = s.pw
    ∧ ∀ a, Memory.read sramEmpty (s.bankOn k.val).mem.sram a
        = if (s.bank k.val).state = .off ∧ a / 0x10000 = k.val then 0 else Memory.read sramEmpty s.mem.sram a := by
  have here : k.val < s.mem.banks.length := by rw [inv.banks]; exact k.isLt
  by_cases off : (s.bank k.val).state = .off
  · have wiped : s.bankOn k.val = (s.wipeBank k.val).modSram k.val fun b => { b with state := .on, waking := false, lastAccess := s.tm.now } := by
      simp [State.bankOn, State.ite, off]
    have here' : k.val < (s.wipeBank k.val).mem.banks.length := here
    rw [wiped, State.bank_modSram here']
    refine ⟨rfl, rfl, rfl, rfl, rfl, fun a => ?_⟩
    simp only [State.modSram_mem, State.wipeBank, State.modMem_mem, off, true_and]
    rw [Memory.read_clearRange _ _ _ _ _ inv.canonical_sram]
    by_cases inside : a / 0x10000 = k.val
    · rw [if_pos inside, if_neg (by omega)]
      rfl
    · rw [if_neg inside, if_pos (by omega)]
  · have kept : s.bankOn k.val = s.modSram k.val fun b => { b with state := .on, waking := false, lastAccess := s.tm.now } := by
      simp [State.bankOn, State.ite, off]
    rw [kept, State.bank_modSram here]
    exact ⟨rfl, rfl, rfl, rfl, rfl, fun a => by simp [off]⟩

/-! ### The scrub (07 R227 to R229) -/

/-- From s to t the banks and the bytes of SRAM stay, and no event and no remembered word is lost. -/
structure ScrubStays (s t : State) : Prop where
  banks : t.mem.banks = s.mem.banks
  bytes : t.mem.sram = s.mem.sram
  events : ∀ k, s.has k = true → t.has k = true
  words : ∀ w, w ∈ s.mem.eccBad → w ∈ t.mem.eccBad

theorem ScrubStays.refl (s : State) : ScrubStays s s := ⟨rfl, rfl, fun _ h => h, fun _ h => h⟩

theorem ScrubStays.trans (x : ScrubStays s t) (y : ScrubStays t u) : ScrubStays s u where
  banks := y.banks.trans x.banks
  bytes := y.bytes.trans x.bytes
  events k h := y.events k (x.events k h)
  words w h := y.words w (x.words w h)

theorem ScrubStays.of_mem (memory : t.mem = s.mem) (events : ∀ k, s.has k = true → t.has k = true) : ScrubStays s t where
  banks := by rw [memory]
  bytes := by rw [memory]
  events := events
  words w h := by rw [memory]; exact h

theorem State.raise_scrubStays (k : Nat) : ScrubStays s (s.raise k) :=
  ScrubStays.of_mem (State.raise_mem _ _) fun j h => by rw [State.raise_has, h, Bool.true_or]

theorem State.foundBad_parts (w : Nat) : w ∈ (s.foundBad w).mem.eccBad ∧ ScrubStays s (s.foundBad w) := by
  let x := s.modMem fun m => { m with eccBad := if m.eccBad.contains w then m.eccBad else m.eccBad ++ [w] }
  have noted : w ∈ x.mem.eccBad := by
    by_cases known : w ∈ s.mem.eccBad <;> simp [x, known]
  have stays : ScrubStays s x := by
    refine ⟨rfl, rfl, fun _ h => h, fun v h => ?_⟩
    by_cases known : w ∈ s.mem.eccBad <;> simp [x, known, h]
  change w ∈ (if Config.tableWord w && w < 0x40000 then x.newTable else x).mem.eccBad ∧ ScrubStays s (if Config.tableWord w && w < 0x40000 then x.newTable else x)
  split
  · exact ⟨noted, stays.trans (ScrubStays.of_mem rfl fun _ h => h)⟩
  · exact ⟨noted, stays⟩

theorem State.badWord_scrubStays (w : Nat) (detail : List Byte) :
    ScrubStays (s.foundBad w) ((((s.foundBad w).bump nPLOTMAP 12 16 16).log 0x21 nPLOTMAP 0 0 detail).raise 43) := by
  refine ScrubStays.trans (ScrubStays.of_mem ?_ fun k h => ?_) (State.raise_scrubStays 43)
  · rw [State.log_mem]
    rfl
  · rw [State.has_congr _ (State.log_ev ..)]
    exact h

theorem State.scrubWord_scrubStays (a : Nat) (bad : Bool) : ScrubStays s (s.scrubWord a bad) := by
  unfold State.scrubWord
  split
  · exact ScrubStays.refl s
  · split
    · exact (State.foundBad_parts a).2.trans (State.badWord_scrubStays a _)
    · have corrected : ScrubStays s ((s.modMem fun m => { m with eccOne := m.eccOne.filter (· != a) }).bump nPLOTMAP 12 0 16) :=
        ⟨rfl, rfl, fun _ h => h, fun _ h => h⟩
      exact corrected.trans (State.raise_scrubStays 42)

theorem State.scrubWords_scrubStays (l : List (Nat × Bool)) (s : State) : ScrubStays s (l.foldl (fun s (a, b) => s.scrubWord a b) s) := by
  induction l generalizing s with
  | nil => exact ScrubStays.refl s
  | cons x l ih => exact (State.scrubWord_scrubStays x.1 x.2).trans (ih _)

/-- A scrub that finds a word of a bank in ON tells of it, and remembers an uncorrectable one. -/
theorem State.scrubWords_finds (l : List (Nat × Bool)) {w : Nat} {bad : Bool} (found : (w, bad) ∈ l) (on : (s.bank (w / 0x10000)).state = .on) :
    let t := l.foldl (fun s (a, b) => s.scrubWord a b) s
    t.mem.sram = s.mem.sram ∧ (bad = true → t.has 43 = true ∧ w ∈ t.mem.eccBad) ∧ (bad = false → t.has 42 = true) := by
  obtain ⟨before, after, rfl⟩ := List.append_of_mem found
  intro t
  let x := before.foldl (fun s (a, b) => s.scrubWord a b) s
  have whole : t = after.foldl (fun s (a, b) => s.scrubWord a b) (x.scrubWord w bad) := by simp [t, x]
  have earlier : ScrubStays s x := State.scrubWords_scrubStays before s
  have later : ScrubStays (x.scrubWord w bad) t := by rw [whole]; exact State.scrubWords_scrubStays after _
  have on' : ((x.bank (w / 0x10000)).state != .on) = false := by
    rw [State.bank, earlier.banks]
    simpa [State.bank] using on
  refine ⟨(later.bytes.trans (State.scrubWord_scrubStays w bad).bytes).trans earlier.bytes, fun yes => ⟨later.events 43 ?_, later.words w ?_⟩, fun no => later.events 42 ?_⟩
  · simp [State.scrubWord, on', yes]
  · have noted : w ∈ (x.scrubWord w true).mem.eccBad := by
      simp only [State.scrubWord, on', Bool.false_eq_true, if_false, if_true]
      exact (State.badWord_scrubStays w _).words w (State.foundBad_parts w).1
    rw [yes]
    exact noted
  · simp [State.scrubWord, on', no]

/-- Settles O44: a bank that wakes, fails or is gated, and the words that a scrub finds. -/
theorem banksServed : Obligations.BanksServed := by
  unfold Obligations.BanksServed
  refine ⟨fun b s inv => ⟨fun waking gate quiet calm => ?_, fun waking quiet calm => ?_, fun doze on free steady clocked => ?_⟩,
    fun found s a interval clocked on => ?_⟩
  · obtain ⟨state, awake, kept, faults, powers, bytes⟩ := State.bankOn_parts inv b
    have none' : s.ite ((s.bank b.val).state == .off) (·.loseContent b.val) = s := by
      have nothing : s.loseContent b.val = s := by simp [State.loseContent, State.waitingFor_none calm]
      unfold State.ite
      split
      · exact nothing
      · rfl
    have executes : exec (.bankWakeComplete b) s = .next (s.bankOn b.val) := by
      simp only [exec, execBankWakeComplete, waking, Bool.not_true, Bool.false_eq_true, if_false, none',
        State.waitingFor_none (faults.trans calm), List.foldl_nil, State.carryPower_none (kept.trans gate),
        State.settlePower_none (s := s.bankOn b.val) (by rw [powers]; exact quiet), ite_self]
    exact ⟨_, executes, state, awake, bytes⟩
  · have here : b.val < s.mem.banks.length := by rw [inv.banks]; exact b.isLt
    let x := s.modSram b.val fun b => { b with waking := false, failed := true, gateTo := none }
    have lost : x.waitingFor b.val = [] := State.waitingFor_none calm _
    let y := x.faultRecord (x.bankCursor b.val)
    have memory : y.mem = x.mem := State.log_mem _ _ _ _ _ _
    have executes : exec (.bankWakeTimeout b) s = .next y := by
      have lost' : y.waitingFor b.val = [] := by rw [State.waitingFor, memory]; exact lost
      have quiet' : y.pw.powers = [] := by
        rw [show y.pw = s.pw from State.log_pw _ _ _ _ _ _]
        exact quiet
      have recorded : x.ite (x.waitingFor b.val).isEmpty (fun s => s.faultRecord (s.bankCursor b.val)) = y := by
        rw [lost]
        rfl
      change (if !(s.bank b.val).waking then .next s
        else (fun z : State => if z.restarting then Host.Outcome.next z else .next (((z.waitingFor b.val).foldl State.giveUp z).settlePower))
          (x.ite (x.waitingFor b.val).isEmpty fun s => s.faultRecord (s.bankCursor b.val))) = _
      rw [waking, recorded]
      simp only [Bool.not_true, Bool.false_eq_true, if_false, lost', List.foldl_nil, State.settlePower_none quiet', ite_self]
    refine ⟨y, executes, ?_, ?_, ?_⟩
    · rw [State.bank, memory]
      exact congrArg Bank.failed (State.bank_modSram here _)
    · rw [State.bank, memory]
      exact congrArg Bank.waking (State.bank_modSram here _)
    · rw [memory]
      rfl
  · have here : b.val < (s.at ((s.bank b.val).lastAccess + ticksMs (s.fld nPLOTMAP 0 8 8))).mem.banks.length := by
      rw [State.at_mem, inv.banks]
      exact b.isLt
    have gates : (s.flag nPLOTMAP 0 1 && (s.bank b.val).state == .on && !s.pinned b.val && !s.restarting && s.clocked) = true := by
      simp [doze, on, free, steady, clocked]
    have on' : ((s.at ((s.bank b.val).lastAccess + ticksMs (s.fld nPLOTMAP 0 8 8))).bank b.val).state = .on := on
    have gated : (s.at ((s.bank b.val).lastAccess + ticksMs (s.fld nPLOTMAP 0 8 8))).gateBank b.val .retained
        = (s.at ((s.bank b.val).lastAccess + ticksMs (s.fld nPLOTMAP 0 8 8))).modSram b.val fun b => { b with state := .retained } := by
      simp [State.gateBank, State.ite, on']
    refine ⟨_, congrArg Host.Outcome.next (if_pos gates), ?_, ?_, ?_⟩
    · rw [gated, State.bank_modSram here]
    · rw [gated]
      rfl
    · rw [gated]
      rfl
  · have runs : ¬(s.fld nPLOTMAP 0 16 8 = 0 || !s.clocked) = true := by simp [interval, clocked]
    have named {bad : Bool} (listed : (a, bad) ∈ found) : (a.toNat - a.toNat % 8, bad) ∈ found.map fun (a, b) => (a.toNat - a.toNat % 8, b) :=
      List.mem_map.mpr ⟨_, listed, rfl⟩
    refine ⟨fun listed => ?_, fun listed => ?_⟩
    · obtain ⟨bytes, bad, -⟩ := State.scrubWords_finds _ (List.mem_append_left _ (named listed)) on
      exact ⟨_, if_neg runs, (bad rfl).1, by simpa using (bad rfl).2, bytes⟩
    · obtain ⟨bytes, -, one⟩ := State.scrubWords_finds _ (List.mem_append_left _ (named listed)) on
      exact ⟨_, if_neg runs, one rfl, bytes⟩

end Sys2Proof.Machine
end

section
/-! SUPPORT. Join requests at the lead, and command frames in a member (10 R335, R339, R352 to R362). -/

namespace Sys2Proof.Machine

set_option Elab.async false

variable {s t : State} {f : Frame}

/-! ### Join requests (10 R361, R362) -/

theorem State.modYoke_fixed (f : Yoke → Yoke) (fixed : f s.yoke = s.yoke) : s.modYoke f = s := by rw [State.modYoke, fixed]

theorem State.dropForwards_none (none' : s.yoke.forwards = []) (k status : Nat) : s.dropForwards k status
    = s.modPos k fun p => { p with reply := [], sectionRead := none } := by
  have same : s.yoke.forwards.filter (·.position != k) = s.yoke.forwards := by rw [none']; rfl
  have fixed : (s.modYoke fun y => { y with forwards := y.forwards.filter (·.position != k) }) = s := by
    refine State.modYoke_fixed _ ?_
    rw [same]
  have gone : s.yoke.forwards.filter (·.position == k) = [] := by rw [none']; rfl
  simp only [State.dropForwards, fixed, gone, List.foldl_nil]

theorem State.settleCommands_none (none' : s.yoke.commands = []) : s.settleCommands = s := by
  have same : s.yoke.commands.filter (fun c => !c.open'.isEmpty) = s.yoke.commands := by rw [none']; rfl
  have fixed : (s.modYoke fun y => { y with commands := y.commands.filter fun c => !c.open'.isEmpty }) = s := by
    refine State.modYoke_fixed _ ?_
    rw [same]
  have gone : (s.yoke.commands.filter fun c => c.open'.isEmpty) = [] := by rw [none']; rfl
  simp only [State.settleCommands, fixed, gone, List.foldl_nil]

/-- A position that nothing is on its way to is unjoined without a reply. -/
theorem State.unjoin_quiet (commands : s.yoke.commands = []) (forwards : s.yoke.forwards = []) (k state : Nat) : s.unjoin k state
    = (s.modPos k fun p => { p with state, edgeRun := 0, rejects := [], offsets := [], rangeLeft := 0, rerange := false, segment := none }).modPos k
        fun p => { p with reply := [], sectionRead := none } := by
  let u := s.modPos k fun p => { p with state, edgeRun := 0, rejects := [], offsets := [], rangeLeft := 0, rerange := false, segment := none }
  have gone : (s.yoke.commands.filter fun c => c.dest == k) = [] := by rw [commands]; rfl
  have fixed : (u.modYoke fun y => { y with
      commands := (y.commands.filter (·.dest != k)).map fun c => { c with open' := c.open'.filter (· != k) } }) = u := by
    have same : (u.yoke.commands.filter (·.dest != k)).map (fun c => { c with open' := c.open'.filter (· != k) }) = u.yoke.commands := by
      rw [show u.yoke.commands = [] from commands]
      rfl
    refine State.modYoke_fixed _ ?_
    rw [same]
  have forwards' : u.yoke.forwards = [] := forwards
  have commands' : (u.modPos k fun p => { p with reply := [], sectionRead := none }).yoke.commands = [] := commands
  unfold State.unjoin
  rw [gone]
  change ((u.modYoke _).dropForwards k stTimeout).settleCommands = _
  rw [fixed, State.dropForwards_none forwards', State.settleCommands_none commands']

theorem State.pos_modPos {k : Nat} (here : k - 1 < s.yoke.positions.length) (f : Position → Position) : (s.modPos k f).pos k = f (s.pos k) := by
  simp [State.pos, State.modPos, nth_updAt_self, here]

/-- Settles O46: a join request from a planned position, and one from a position that is not planned. -/
theorem joinsAccepted : Obligations.JoinsAccepted := by
  unfold Obligations.JoinsAccepted
  intro p n s inv lead runs beacon
  have here : p.val + 1 - 1 < s.yoke.positions.length := by rw [inv.positions]; omega
  have heard : (!s.isLead || !s.yokeRuns || !s.yoke.beacon) = false := by simp [lead, runs, beacon]
  let u := s.modPw fun p => { p with dnRxIdle := false }
  refine ⟨fun planned free commands forwards => ?_, fun unplanned => ?_⟩
  · let v := ((u.modPos (p.val + 1) fun q => { q with state := 2, edgeRun := 0, rejects := [], offsets := [], rangeLeft := 0, rerange := false, segment := none }).modPos
      (p.val + 1) fun q => { q with reply := [], sectionRead := none }).modPos (p.val + 1) fun q => { q with serial := n.toNat, delayQ := 0 }
    have executes : exec (.joinRequestReceived p n true) s = .next (v.command .joinAccept (p.val + 1) (leBytes 8 n.toNat ++ (grantOf s.reg s.nextPeriod).bytes)) := by
      have unjoined : u.unjoin (p.val + 1) 2 = _ := State.unjoin_quiet (s := u) commands forwards (p.val + 1) 2
      have planned' : (!u.planned (p.val + 1)) = false := by simp only [Bool.not_eq_false']; exact planned
      have free' : u.joining = false := free
      change (if (!s.isLead || !s.yokeRuns || !s.yoke.beacon) then Host.Outcome.next s
        else if !true then .next (u.bump nYOKE 7 0 16)
        else if !u.planned (p.val + 1) then .next (u.modPos (p.val + 1) fun q => { q with state := 8, serial := n.toNat })
        else if u.joining then .next u
        else .next (((u.unjoin (p.val + 1) 2).modPos (p.val + 1) fun q => { q with serial := n.toNat, delayQ := 0 }).command .joinAccept (p.val + 1) _)) = _
      rw [heard, planned', free', unjoined]
      rfl
    have position : v.pos (p.val + 1) = { s.pos (p.val + 1) with
        state := 2
        edgeRun := 0
        rejects := []
        offsets := []
        rangeLeft := 0
        rerange := false
        segment := none
        reply := []
        sectionRead := none
        serial := n.toNat
        delayQ := 0 } := by
      have here1 : p.val + 1 - 1 < u.yoke.positions.length := here
      simp only [v]
      rw [State.pos_modPos, State.pos_modPos, State.pos_modPos here1]
      · rfl
      · simpa [State.modPos] using here1
      · simpa [State.modPos] using here1
    have sent : (v.command .joinAccept (p.val + 1) (leBytes 8 n.toNat ++ (grantOf s.reg s.nextPeriod).bytes)).yoke.commands
        = s.yoke.commands ++ [{ kind := .joinAccept, dest := p.val + 1, seq := s.yoke.seq, sent := 0, open' := [p.val + 1], notBefore := 0, ticket := none, payload := leBytes 8 n.toNat ++ (grantOf s.reg s.nextPeriod).bytes }] := rfl
    have same : (v.command .joinAccept (p.val + 1) (leBytes 8 n.toNat ++ (grantOf s.reg s.nextPeriod).bytes)).pos (p.val + 1) = v.pos (p.val + 1) := rfl
    rw [commands] at sent
    refine ⟨_, executes, ?_, ?_, ?_, sent⟩
    · rw [same, position]
    · rw [same, position]
    · rw [same, position]
  · have unplanned' : (!u.planned (p.val + 1)) = true := by simp only [Bool.not_eq_true']; exact unplanned
    have executes : exec (.joinRequestReceived p n true) s = .next (u.modPos (p.val + 1) fun q => { q with state := 8, serial := n.toNat }) := by
      simp only [exec, execJoinRequestReceived, heard, Bool.false_eq_true, if_false, Bool.not_true]
      exact if_pos unplanned'
    refine ⟨_, executes, ?_, ?_, rfl⟩
    · rw [State.pos_modPos (s := u) here]
    · rw [State.pos_modPos (s := u) here]

/-! ### Command frames (10 R335, R339, R355) -/

/-- The state in which a frame is executed: it has gone out of DN TX again where the member repeats (10 R335). -/
def State.afterRepeat (s : State) (kind : CmdKind) (f : Frame) (payload : List Byte) : State :=
  let b := frameBody kind f.dest.toNat f.seq.toNat payload
  s.modYoke fun y => { y with cmdOut := if s.repeats then framed (b ++ leBytes 4 (crc32 b)) else y.cmdOut }

/-- A frame heard for the first time is executed, its seq remembered and acknowledged (10 R339, R355). -/
theorem State.frame_hears (hears : Hears s f) (kind : CmdKind) (payload : List Byte) (run : State → State × Nat) :
    s.frame kind f payload run = (run (s.afterRepeat kind f payload)).1.executedFrame f (run (s.afterRepeat kind f payload)).2 := by
  obtain ⟨member, runs, mine, fresh'⟩ := hears
  have crc : f.crcOk = true := by
    simp only [State.frameForMe, Bool.and_eq_true] at mine
    exact mine.1.1
  have repeated : s.repeatFrame kind f payload = s.afterRepeat kind f payload := by
    unfold State.repeatFrame State.afterRepeat
    by_cases on : s.repeats = true
    · simp [on, crc]
    · simp only [on, Bool.not_false, if_true, Bool.false_eq_true, if_false]
      exact (State.modYoke_fixed _ rfl).symm
  have member' : (s.afterRepeat kind f payload).isMember = true := member
  have runs' : (s.afterRepeat kind f payload).yokeRuns = true := runs
  have mine' : (s.afterRepeat kind f payload).frameForMe f = true := mine
  have fresh'' : (s.afterRepeat kind f payload).yoke.executed.find? (·.1 == f.seq.toNat) = none := fresh'
  unfold State.frame
  rw [repeated]
  simp only [member', runs', mine', fresh'', Bool.not_true, Bool.or_false, Bool.false_eq_true, if_false]

/-- What is said of each executed frame, from what its execution leaves alone. -/
theorem State.frame_acknowledges (hears : Hears s f) (kind : CmdKind) (payload : List Byte) (run : State → State × Nat)
    (executed : (run (s.afterRepeat kind f payload)).1.yoke.executed = s.yoke.executed)
    (out : (run (s.afterRepeat kind f payload)).1.yoke.cmdOut = (s.afterRepeat kind f payload).yoke.cmdOut) :
    Acknowledged s (s.frame kind f payload run) f (run (s.afterRepeat kind f payload)).2 ∧ Repeated s (s.frame kind f payload run) kind f payload := by
  rw [State.frame_hears hears]
  refine ⟨⟨rfl, rfl, rfl, ?_⟩, out⟩
  simp only [State.executedFrame, State.modYoke_yoke, executed]

theorem State.moveTo_yoke (position : Nat) : (s.moveTo position).yoke = { s.yoke with position } := by
  unfold State.moveTo
  dsimp only
  split <;> rfl

theorem State.moveTo_seeks (position : Nat) : (s.moveTo position).seeks = s.seeks := by
  unfold State.moveTo
  dsimp only
  split <;> rfl

/-- What a member's link stands at when it is no longer joined (10 R363, R365). -/
theorem State.dropOut_yoke : s.dropOut.yoke.linkState = (if s.seeks then 3 else 0) ∧ s.dropOut.yoke.delayQ = 0
    ∧ s.dropOut.yoke.executed = s.yoke.executed ∧ s.dropOut.yoke.cmdOut = s.yoke.cmdOut := by
  obtain ⟨u, dropped, link, delay, executed, out⟩ : ∃ u : State, s.dropOut = (u.completeOpt s.yoke.leaveTicket stOk [4, 0, 0, 0]).fixAlone
      ∧ u.yoke.linkState = (if (s.moveTo 0xFF).seeks then 3 else 0) ∧ u.yoke.delayQ = 0
      ∧ u.yoke.executed = (s.moveTo 0xFF).yoke.executed ∧ u.yoke.cmdOut = (s.moveTo 0xFF).yoke.cmdOut := ⟨_, rfl, rfl, rfl, rfl, rfl⟩
  have frame : Within [.requests, .counters, .events, .almanac, .power, .harrow] u ((u.completeOpt s.yoke.leaveTicket stOk [4, 0, 0, 0]).fixAlone) :=
    State.fixAlone_frame (State.completeOpt_frame _ _ _ (Within.refl u))
  have same : s.dropOut.yoke = u.yoke := by
    rw [dropped]
    exact frame .yoke (by decide)
  rw [same, link, delay, executed, out, State.moveTo_seeks, State.moveTo_yoke]
  exact ⟨rfl, rfl, rfl, rfl⟩

/-- The reply at the head of a channel is taken; without a change of framing that waits nothing else is (03 R91). -/
theorem State.collect_plain (none' : s.mb.compatNext = none) (ch : Nat) : s.collect ch
    = s.modChan ch fun c => { c with replies := c.replies.tail, flow := c.flow && decide (16 < c.replies.length) } := by
  simp [State.collect, none']

/-- The bytes of a fragment joined to those before it, and a request that is whole put on MBX3 (10 R357, R358). -/
def State.joinFragment (fragment : List Byte) (s : State) : State × Nat :=
  let b := s.yoke.rxBuf ++ fragment
  match messageLength b with
  | some n =>
    if n ≤ b.length then ((s.modYoke fun y => { y with rxBuf := [] }).modChan 3 fun c => { c with rx := c.rx ++ [b.take n] }, 0)
    else (s.modYoke fun y => { y with rxBuf := b }, 0)
  | none => (s.modYoke fun y => { y with rxBuf := b }, 0)

theorem State.joinFragment_parts (inv : s.Inv) (b : List Byte) : (s.joinFragment b).2 = 0 ∧ (s.joinFragment b).1.yoke.executed = s.yoke.executed
    ∧ (s.joinFragment b).1.yoke.cmdOut = s.yoke.cmdOut ∧ (match messageLength (s.yoke.rxBuf ++ b) with
      | some n => if n ≤ (s.yoke.rxBuf ++ b).length then (s.joinFragment b).1.yoke.rxBuf = []
            ∧ (nth {} (s.joinFragment b).1.mb.chans 3).rx = (nth {} s.mb.chans 3).rx ++ [(s.yoke.rxBuf ++ b).take n]
          else (s.joinFragment b).1.yoke.rxBuf = s.yoke.rxBuf ++ b ∧ (s.joinFragment b).1.mb = s.mb
      | none => (s.joinFragment b).1.yoke.rxBuf = s.yoke.rxBuf ++ b ∧ (s.joinFragment b).1.mb = s.mb) := by
  have here : 3 < s.mb.chans.length := by rw [inv.chans]; decide
  cases long : messageLength (s.yoke.rxBuf ++ b) with
  | none => simp [State.joinFragment, long]
  | some n =>
    by_cases whole : n ≤ (s.yoke.rxBuf ++ b).length
    · simp only [State.joinFragment, long, whole, if_true]
      exact ⟨trivial, rfl, rfl, rfl, by simp [nth_updAt_self, here]⟩
    · simp only [State.joinFragment, long, whole, if_false]
      exact ⟨trivial, rfl, rfl, rfl, rfl⟩

/-- The delay of a member that is joining joins it (10 R344). -/
theorem State.setDelay_yoke (joining : s.yoke.linkState = 4) (d : Nat) :
    let u := (s.modYoke fun y => { y with delayQ := d, linkState := if y.linkState == 4 then 5 else y.linkState }).moveTo s.ownNumber
    let t := if u.lev.fail.orphan then u.fail 8 fun x => { x with orphan := false } else u
    t.yoke = { s.yoke with delayQ := d, linkState := 5, position := s.ownNumber } := by
  intro u t
  have moved : u.yoke = { s.yoke with delayQ := d, linkState := 5, position := s.ownNumber } := by
    rw [State.moveTo_yoke]
    simp [joining]
  have same : t.yoke = u.yoke := by
    simp only [t]
    split
    · have frame : Within [.requests, .counters, .events, .almanac, .storage, .fabric, .level, .power, .usb, .harrow, .thresher] u
          (u.fail 8 fun x => { x with orphan := false }) := State.fail_frame _ _ (Within.refl u)
      exact frame .yoke (by decide)
    · rfl
  rw [same, moved]

/-- Settles O48: each frame is repeated, executed once and acknowledged, with what its kind does. -/
theorem framesExecuted : Obligations.FramesExecuted := by
  unfold Obligations.FramesExecuted
  intro f s inv hears
  refine ⟨fun b room => ?_, fun n g mine seeking => ?_, fun n => ?_, fun d joining => ?_, fun n => ?_, fun g => ?_, ?_, ?_, fun n => ?_, fun framing => ?_⟩
  · have executes : exec (.mbx f b) s = .next (s.frame .mbx f b (State.joinFragment b)) := by
      have full : ¬(s.isMember && s.yokeRuns && s.frameForMe f && !(s.yoke.executed.any (·.1 == f.seq.toNat)) && !s.accepts 3) = true := by simp [room]
      exact if_neg full
    have heardInv : (s.afterRepeat .mbx f b).Inv := inv
    obtain ⟨zero, executed, out, bytes⟩ := State.joinFragment_parts heardInv b
    obtain ⟨ack, again⟩ := State.frame_acknowledges hears .mbx b (State.joinFragment b) executed out
    rw [zero] at ack
    refine ⟨_, executes, ack, again, ?_⟩
    rw [State.frame_hears hears]
    exact bytes
  · let run (s : State) : State × Nat := ((s.modYoke fun y => { y with linkState := if y.linkState == 3 then 4 else y.linkState, grant := some (Grant.ofPlan g) }).modTm
      fun x => { x with linePeriod := if x.lineAt.isSome then some s.yoke.markerPeriod else x.linePeriod }, 0)
    have executes : exec (.joinAccept f n g) s = .next (s.frame .joinAccept f (leBytes 8 n.toNat ++ (Grant.ofPlan g).bytes) run) := if_neg (by simp [mine])
    obtain ⟨ack, again⟩ := State.frame_acknowledges hears .joinAccept (leBytes 8 n.toNat ++ (Grant.ofPlan g).bytes) run rfl rfl
    refine ⟨_, executes, ack, again, ?_, ?_⟩
    · rw [State.frame_hears hears]
      simp [run, State.executedFrame, State.afterRepeat, seeking]
    · rw [State.frame_hears hears]
      rfl
  · obtain ⟨ack, again⟩ := State.frame_acknowledges hears .range (leBytes 4 n.toNat) (fun s => (s.modYoke fun y => { y with echo := some n.toNat }, 0)) rfl rfl
    exact ⟨_, rfl, ack, again, by rw [State.frame_hears hears]; rfl⟩
  · let run (s : State) : State × Nat :=
      let u := s.modYoke fun y => { y with delayQ := d.toNat, linkState := if y.linkState == 4 then 5 else y.linkState }
      let u := if u.yoke.linkState == 5 then u.moveTo u.ownNumber else u
      (if u.lev.fail.orphan then u.fail 8 fun x => { x with orphan := false } else u, 0)
    let r := s.afterRepeat .setDelay f (leBytes 4 d.toNat)
    have joining' : r.yoke.linkState = 4 := joining
    have moved : (run r).1.yoke = { r.yoke with delayQ := d.toNat, linkState := 5, position := r.ownNumber } := by
      have joins : ((r.modYoke fun y => { y with delayQ := d.toNat, linkState := if y.linkState == 4 then 5 else y.linkState }).yoke.linkState == 5) = true := by
        simp [joining']
      simp only [run, joins, if_true]
      exact State.setDelay_yoke joining' d.toNat
    obtain ⟨ack, again⟩ := State.frame_acknowledges hears .setDelay (leBytes 4 d.toNat) run (by rw [moved]; rfl) (by rw [moved])
    refine ⟨_, rfl, ack, again, ?_, ?_, ?_⟩
    · rw [State.frame_hears hears]
      exact congrArg Yoke.delayQ moved
    · rw [State.frame_hears hears]
      exact congrArg Yoke.linkState moved
    · rw [State.frame_hears hears]
      exact congrArg Yoke.position moved
  · obtain ⟨ack, again⟩ := State.frame_acknowledges hears .trim (leBytes 2 n.toNat) (fun s => (s.modYoke fun y => { y with trim := y.trim + n.toInt }, 0)) rfl rfl
    exact ⟨_, rfl, ack, again, by rw [State.frame_hears hears]; rfl, by rw [State.frame_hears hears]; rfl⟩
  · obtain ⟨ack, again⟩ := State.frame_acknowledges hears .grant (Grant.ofPlan g).bytes (fun s => (s.modYoke fun y => { y with grant := some (Grant.ofPlan g) }, 0)) rfl rfl
    exact ⟨_, rfl, ack, again, by rw [State.frame_hears hears]; rfl, by rw [State.frame_hears hears]; rfl⟩
  · obtain ⟨link, delay, executed, out⟩ := State.dropOut_yoke (s := s.afterRepeat .quarantine f [])
    obtain ⟨ack, again⟩ := State.frame_acknowledges hears .quarantine [] (fun s => (s.dropOut, 0)) executed out
    refine ⟨_, rfl, ack, again, ?_, ?_⟩
    · rw [State.frame_hears hears]
      exact link
    · rw [State.frame_hears hears]
      exact delay
  · obtain ⟨link, delay, executed, out⟩ := State.dropOut_yoke (s := s.afterRepeat .release f [])
    obtain ⟨ack, again⟩ := State.frame_acknowledges hears .release [] (fun s => (s.dropOut, 0)) executed out
    refine ⟨_, rfl, ack, again, ?_, ?_⟩
    · rw [State.frame_hears hears]
      exact link
    · rw [State.frame_hears hears]
      exact delay
  · obtain ⟨ack, again⟩ := State.frame_acknowledges hears .replyResend (leBytes 2 n.toNat) (fun s => (s.modYoke fun y => { y with txOff := n.toNat }, 0)) rfl rfl
    exact ⟨_, rfl, ack, again, by rw [State.frame_hears hears]; rfl, by rw [State.frame_hears hears]; rfl⟩
  · let run (s : State) : State × Nat := ((s.collect 3).modYoke fun y => { y with txOff := 0 }, 0)
    have taken : (s.afterRepeat .replyDone f []).collect 3 = (s.afterRepeat .replyDone f []).modChan 3 fun c => { c with replies := c.replies.tail, flow := c.flow && decide (16 < c.replies.length) } :=
      State.collect_plain (s := s.afterRepeat .replyDone f []) framing 3
    have yoke : ((s.afterRepeat .replyDone f []).collect 3).yoke = (s.afterRepeat .replyDone f []).yoke := by rw [taken]; rfl
    obtain ⟨ack, again⟩ := State.frame_acknowledges hears .replyDone [] run
      (by change ((s.afterRepeat .replyDone f []).collect 3).yoke.executed = _; rw [yoke]; rfl)
      (by change ((s.afterRepeat .replyDone f []).collect 3).yoke.cmdOut = _; rw [yoke])
    refine ⟨_, rfl, ack, again, ?_, ?_⟩
    · rw [State.frame_hears hears]
      rfl
    · rw [State.frame_hears hears]
      have chans : (nth {} ((s.afterRepeat .replyDone f []).collect 3).mb.chans 3).replies = (nth {} s.mb.chans 3).replies.tail := by
        have here : 3 < (s.afterRepeat .replyDone f []).mb.chans.length := by
          rw [show (s.afterRepeat .replyDone f []).mb = s.mb from rfl, inv.chans]
          decide
        rw [taken]
        simp only [State.modChan_mb, nth_updAt_self _ _ _ _ here]
        rfl
      exact chans

/-! ### Agreements (10 R378 to R380) -/

/-- Settles O49: a proposal answered, its agreement named, dropped or lapsed, and the line entered without a marker. -/
theorem fallowAgreed : Obligations.FallowAgreed := by
  unfold Obligations.FallowAgreed
  intro f id s
  refine ⟨fun hears deep ms => ?_, fun hears pc d ms p o agreed => ?_, fun hears d ms p o agreed => ?_, fun i d ms p agreed old => ?_,
    fun i d ms p pc agreed none' seen next => ?_⟩
  · let payload := leBytes 1 id.toNat ++ leBytes 1 (b2n deep) ++ leBytes 4 ms.toNat
    let run (s : State) : State × Nat := if s.fallowBusy then (s, 2)
      else (s.modYoke fun y => { y with agreed := some (id.toNat, deep, ms.toNat, s.tm.period, none), cutoffPassed := false, claim := false, latched := none }, 1)
    have whole : exec (.fallowPropose f id deep ms) s = .next (s.frame .fallowPropose f payload run) := rfl
    by_cases busy : s.fallowBusy = true
    · have ran : run (s.afterRepeat .fallowPropose f payload) = (s.afterRepeat .fallowPropose f payload, 2) := if_pos busy
      obtain ⟨ack, again⟩ := State.frame_acknowledges hears .fallowPropose payload run (by rw [ran]; rfl) (by rw [ran])
      rw [ran] at ack
      refine ⟨_, whole, again, ?_⟩
      rw [if_pos busy]
      refine ⟨ack, ?_⟩
      rw [State.frame_hears hears, ran]
      rfl
    · have ran : run (s.afterRepeat .fallowPropose f payload) = ((s.afterRepeat .fallowPropose f payload).modYoke fun y => { y with
          agreed := some (id.toNat, deep, ms.toNat, s.tm.period, none), cutoffPassed := false, claim := false, latched := none }, 1) := if_neg busy
      obtain ⟨ack, again⟩ := State.frame_acknowledges hears .fallowPropose payload run (by rw [ran]; rfl) (by rw [ran]; rfl)
      rw [ran] at ack
      refine ⟨_, whole, again, ?_⟩
      rw [if_neg busy]
      refine ⟨ack, ?_⟩
      rw [State.frame_hears hears, ran]
      rfl
  · let run (s : State) : State × Nat := (s.modYoke fun y => { y with
      agreed := match y.agreed with
        | some (i, d, ms, p, o) => if i == id.toNat then some (i, d, ms, p, some pc.toNat) else some (i, d, ms, p, o)
        | none => none }, 0)
    obtain ⟨ack, again⟩ := State.frame_acknowledges hears .fallowCommit (leBytes 1 id.toNat ++ leBytes 6 pc.toNat) run rfl rfl
    refine ⟨_, rfl, ack, again, ?_⟩
    rw [State.frame_hears hears]
    simp [State.executedFrame, State.afterRepeat, agreed]
  · let run (s : State) : State × Nat := (s.modYoke fun y => { y with
      agreed := y.agreed.filter (·.1 != id.toNat), claim := false, cutoffPassed := false }, 0)
    obtain ⟨ack, again⟩ := State.frame_acknowledges hears .fallowAbort (leBytes 1 id.toNat) run rfl rfl
    refine ⟨_, rfl, ack, again, ?_, ?_⟩
    · rw [State.frame_hears hears]
      simp [State.executedFrame, State.afterRepeat, agreed]
    · rw [State.frame_hears hears]
      rfl
  · refine ⟨s.modYoke fun y => { y with agreed := none, claim := false }, ?_, rfl⟩
    simp [exec, execAcceptLapse, agreed, old]
  · subst next
    refine ⟨s.modTm fun x => { x with lineAt := some (x.capture + s.periodTicks), linePeriod := some (addPeriod s.tm.period 1) }, ?_, rfl, rfl⟩
    simp [exec, execCommitMarkerMissing, agreed, none', seen]

end Sys2Proof.Machine
end

section
/-! SUPPORT. Pending events that nothing takes away, and a member that follows markers (10 R335, R341 to R346, R361, R365 to R368, R387;
11 R399). -/

namespace Sys2Proof.Machine

set_option Elab.async false

variable {s t u : State} {k : Nat}

/-! ### No pending event is lost (13 R483) -/

/-- Every event pending in s is pending in t. -/
def EventsKept (s t : State) : Prop := ∀ k, s.has k = true → t.has k = true

theorem EventsKept.refl (s : State) : EventsKept s s := fun _ h => h

theorem EventsKept.trans (a : EventsKept s t) (b : EventsKept t u) : EventsKept s u := fun k h => b k (a k h)

theorem EventsKept.of_ev (same : t.ev = s.ev) : EventsKept s t := fun k h => (State.has_congr s same k).trans h

theorem Within.eventsKept {parts : List Part} (w : Within parts s t) (apart : Part.events ∉ parts := by decide) : EventsKept s t :=
  EventsKept.of_ev (w .events apart)

theorem EventsKept.foldl {α : Type} (f : State → α → State) (l : List α) (each : ∀ x a, EventsKept x (f x a)) (s : State) : EventsKept s (l.foldl f s) := by
  induction l generalizing s with
  | nil => exact EventsKept.refl s
  | cons a l ih => exact (each s a).trans (ih _)

theorem State.raise_eventsKept (k : Nat) : EventsKept s (s.raise k) := fun j h => by rw [State.raise_has, h, Bool.true_or]

theorem State.log_eventsKept (type source index code : Nat) (detail : List Byte) : EventsKept s (s.log type source index code detail) :=
  EventsKept.of_ev (State.log_ev ..)

theorem State.fail_eventsKept (row : Nat) (f : Fail → Fail) : EventsKept s (s.fail row f) := (State.fail_lineStays row f (LineStays.refl s)).events

theorem State.injected_eventsKept (e : Nat) : EventsKept s (s.injected e) := (State.injected_lineStays e (LineStays.refl s)).events

theorem State.abortSelections_eventsKept (f e clocked : Nat) : EventsKept s (s.abortSelections f e clocked) := by
  have undrawn (p : Profile) (ix : Nat) : Within [.harrow] s (s.undraw f ix clocked p) := State.undraw_frame _ _ _ _ (Within.refl s)
  have cleared (x : State) (ix : Nat) : Within [.harrow] x (x.clearSelections ix) := State.clearSelections_frame _ (Within.refl x)
  unfold State.abortSelections
  refine ((undrawn _ _).eventsKept.trans (EventsKept.foldl _ _ (fun x a => ?_) _)).trans (cleared _ _).eventsKept
  split
  · exact State.injected_eventsKept _
  · exact EventsKept.refl x

theorem State.missDeadline_eventsKept (f e : Nat) : EventsKept s (s.missDeadline f e) :=
  EventsKept.trans (EventsKept.of_ev (by rw [State.log_ev]; rfl)) (State.raise_eventsKept 2)

theorem State.modEntry_eventsKept (ix : Nat) (g : EntryRt → EntryRt) : EventsKept s (s.modEntry ix g) := EventsKept.of_ev (State.modEntry_ev ..)

theorem State.cutEntry_eventsKept (f e : Nat) : EventsKept s (s.cutEntry f e) := by
  let ph := (s.entry f e).phase
  let g (r : EntryRt) : EntryRt := { r with
    phase := if ph == .waiting then .skipped else .aborted
    lastEnd := if ph == .waiting then r.lastEnd else 0
    lastOutcome := if ph == .waiting then 4 else 3
    waitStart := false }
  let x := if entType s.reg f e == 1 && ph == .running then
      (s.abortPort f e (s.bitsClocked f e)).abortSelections f e (s.bitsClocked f e) else s
  have port : Within [.ports] s (s.abortPort f e (s.bitsClocked f e)) := State.abortPort_frame _ _ _ (Within.refl s)
  have aborted : EventsKept s x := by
    simp only [x]
    split
    · exact port.eventsKept.trans (State.abortSelections_eventsKept f e _)
    · exact EventsKept.refl s
  have marked : EventsKept s (x.modEntry (entIx f e) g) := aborted.trans (State.modEntry_eventsKept _ _)
  have missed : EventsKept s ((x.modEntry (entIx f e) g).missDeadline f e) := marked.trans (State.missDeadline_eventsKept f e)
  have whole : s.cutEntry f e = if ph == .running || ph == .wireDone || ph == .waiting then
      (if ph == .waiting then x.modEntry (entIx f e) g else (x.modEntry (entIx f e) g).missDeadline f e) else s := rfl
  rw [whole]
  split
  · split
    · exact marked
    · exact missed
  · exact EventsKept.refl s

theorem State.cutEntries_eventsKept : EventsKept s s.cutEntries :=
  EventsKept.trans (EventsKept.foldl _ _ (fun _ _ => State.cutEntry_eventsKept _ _) s) (EventsKept.of_ev rfl)

/-- The fall to the RC takes no event away, and leaves the link but for its markers (12 R442). -/
theorem State.enterRc_parts : EventsKept s s.enterRc ∧ s.enterRc.yoke = { s.yoke with markersOn := false } := by
  let x := s.cutEntries.dropPeriod
  let y := x.ite (x.drill.mode == 1) (·.modDrill fun d => { d with mode := 2 })
  obtain ⟨c, fell⟩ : ∃ c : Clk → Clk, s.enterRc = (((y.stopReceivers.modClk c).modYoke fun l => { l with markersOn := false }).clockLog 4 s.clk.active 3).fail 6
      fun f => { f with rc := true } := ⟨_, rfl⟩
  let z := (y.stopReceivers.modClk c).modYoke fun l => { l with markersOn := false }
  have cut : Within [.counters, .events, .almanac, .drill, .ports, .harrow, .sheaf] s x := State.dropPeriod_frame (State.cutEntries_frame (Within.refl s))
  have halted : Within [.drill] x y := by
    simp only [y, State.ite]
    split
    · exact State.modDrill_frame _ (Within.refl x)
    · exact Within.refl x
  have stopped : Within [.ports, .sent] y y.stopReceivers := State.stopReceivers_frame (Within.refl y)
  have cleared : Within [.clock] y.stopReceivers (y.stopReceivers.modClk c) := State.modClk_frame _ (Within.refl _)
  have unmarked : Within [.yoke] (y.stopReceivers.modClk c) z := State.modYoke_frame _ (Within.refl _)
  have link : Within [.requests, .counters, .events, .almanac, .storage, .fabric, .level, .power, .usb, .harrow, .thresher] z
      ((z.clockLog 4 s.clk.active 3).fail 6 fun f => { f with rc := true }) := State.fail_frame _ _ (State.clockLog_frame _ _ _ (Within.refl z))
  have dropped : Within [.drill, .sheaf] s.cutEntries x := State.dropPeriod_frame (Within.refl _)
  refine ⟨?_, ?_⟩
  · rw [fell]
    have told : EventsKept s z := (((State.cutEntries_eventsKept.trans dropped.eventsKept).trans halted.eventsKept).trans stopped.eventsKept).trans
      (cleared.eventsKept.trans unmarked.eventsKept)
    exact (told.trans (State.log_eventsKept _ _ _ _ _)).trans (State.fail_eventsKept _ _)
  · rw [fell, show (State.fail _ _ _).yoke = z.yoke from link .yoke (by decide), State.modYoke_yoke,
      show (y.stopReceivers.modClk c).yoke = y.stopReceivers.yoke from cleared .yoke (by decide),
      show y.stopReceivers.yoke = y.yoke from stopped .yoke (by decide), show y.yoke = x.yoke from halted .yoke (by decide),
      show x.yoke = s.yoke from cut .yoke (by decide)]

/-! ### A member that is no longer joined (10 R363, R365) -/

/-- Everything of the link that changes as a member leaves it. -/
def Yoke.parted (y : Yoke) (seeks : Bool) : Yoke :=
  { y with
    position := 0xFF
    linkState := if seeks then 3 else 0
    partingQ := y.delayQ
    delayQ := 0
    trim := 0
    grant := none
    echo := none
    leaving := false
    claim := false
    agreed := none
    cutoffPassed := false
    leaveTicket := none
    beacons := 0
    attempts := 0
    txOff := 0
    rxBuf := [] }

theorem State.fixAlone_detach : s.fixAlone.pw.detach = s.pw.detach := by
  unfold State.fixAlone
  split
  · dsimp only
    split
    · rfl
    · have frame (x : State) (k : Option Ticket) (p : List Byte) : Within [.requests, .counters, .events, .almanac, .harrow] x (x.completeOpt k stOk p) :=
        State.completeOpt_frame _ _ _ (Within.refl x)
      rw [show (State.completeOpt _ _ _ _).pw = _ from frame _ _ _ .power (by decide)]
      rfl
  · rfl

theorem State.dropOut_parts : s.dropOut.yoke = s.yoke.parted s.seeks ∧ s.dropOut.seeks = s.seeks := by
  obtain ⟨u, dropped, yoke, power, config, boot⟩ : ∃ u : State, s.dropOut = (u.completeOpt s.yoke.leaveTicket stOk [4, 0, 0, 0]).fixAlone
      ∧ u.yoke = (s.moveTo 0xFF).yoke.parted (s.moveTo 0xFF).seeks ∧ u.pw = (s.moveTo 0xFF).pw ∧ u.cfg = (s.moveTo 0xFF).cfg ∧ u.boot = (s.moveTo 0xFF).boot := by
    refine ⟨_, rfl, ?_, rfl, rfl, rfl⟩
    rw [State.moveTo_yoke]
    simp [Yoke.parted, State.moveTo_yoke, State.moveTo_seeks]
  have moved : Within [.level, .yoke] s (s.moveTo 0xFF) := State.moveTo_frame _ (Within.refl s)
  have replied : Within [.requests, .counters, .events, .almanac, .harrow] u (u.completeOpt s.yoke.leaveTicket stOk [4, 0, 0, 0]) :=
    State.completeOpt_frame _ _ _ (Within.refl u)
  have fixed : Within [.requests, .counters, .events, .almanac, .power, .harrow] (u.completeOpt s.yoke.leaveTicket stOk [4, 0, 0, 0])
      s.dropOut := by
    rw [dropped]
    exact State.fixAlone_frame (Within.refl _)
  have detach : s.dropOut.pw.detach = s.pw.detach := by
    rw [dropped, State.fixAlone_detach, show (u.completeOpt s.yoke.leaveTicket stOk [4, 0, 0, 0]).pw = u.pw from replied .power (by decide), power,
      show (s.moveTo 0xFF).pw = s.pw from moved .power (by decide)]
  refine ⟨?_, ?_⟩
  · rw [show s.dropOut.yoke = _ from fixed .yoke (by decide), show (u.completeOpt s.yoke.leaveTicket stOk [4, 0, 0, 0]).yoke = u.yoke from
      replied .yoke (by decide), yoke, State.moveTo_yoke, State.moveTo_seeks]
    rfl
  · have config' : s.dropOut.cfg = s.cfg := by
      rw [show s.dropOut.cfg = _ from fixed .config (by decide), show (u.completeOpt s.yoke.leaveTicket stOk [4, 0, 0, 0]).cfg = u.cfg from
        replied .config (by decide), config, show (s.moveTo 0xFF).cfg = s.cfg from moved .config (by decide)]
    have boot' : s.dropOut.boot = s.boot := by
      rw [show s.dropOut.boot = _ from fixed .boot (by decide), show (u.completeOpt s.yoke.leaveTicket stOk [4, 0, 0, 0]).boot = u.boot from
        replied .boot (by decide), boot, show (s.moveTo 0xFF).boot = s.boot from moved .boot (by decide)]
    have only (x : State) : x.seeks = State.seeks { cfg := x.cfg, pw := { detach := x.pw.detach }, boot := x.boot } := rfl
    rw [only s.dropOut, config', detach, boot', ← only]

/-! ### Markers (10 R335, R344, R366, R368) -/

/-- What a marker with a correct CRC places: the hop, the line, and in a joined member the line's period. -/
def State.markerPlaced (s : State) (m : Marker) (t : Nat) : State :=
  let s := s.modYoke fun y => { y with
    hop := some m.hop.toNat
    markerSeen := t
    markerPeriod := m.period.toNat
    beacon := bitAt m.flags.toNat 0
    beacons := y.beacons + b2n (bitAt m.flags.toNat 0)
    orphan := false
    scanning := false
    linkState := if y.linkState == 6 || (y.linkState == 0 && s.seeks) then 3 else y.linkState
    agreed := if m.commitPoint then y.agreed.map fun (id, d, ms, p, _) => (id, d, ms, p, some m.period.toNat) else y.agreed }
  s.modTm fun x => { x with
    lineAt := some (t + lineTicks s.yoke.delayQ)
    linePeriod := if s.yoke.linkState == 4 || s.yoke.linkState == 5 then some m.period.toNat else none }

/-- A marker as it goes out again of a member that repeats (10 R335). -/
def State.remarked (s : State) (m : Marker) : State :=
  if s.yoke.repeating then s.modYoke fun y => { y with
    out := markerSymbol m.commitPoint :: markerBytes ((m.hop.toNat + 1) % 256) m.flags.toNat m.period.toNat
    cmdOut := [] } else s

theorem execMarkerReceived_placed {m : Marker} {i : Stamp} (member : s.isMember = true) (up : s.yokeUp = true)
    (link : s.yoke.fence = none ∨ s.yoke.repeating = true) (crc : m.crcOk = true) :
    exec (.markerReceived m i) s = .next ((if (s.yoke.hop.any (· != m.hop.toNat)) && (s.yoke.linkState == 4 || s.yoke.linkState == 5)
      then ((s.at i.toNat).remarked m).dropOut else (s.at i.toNat).remarked m).markerPlaced m i.toNat) := by
  have heard : (!s.isMember || !s.yokeUp || (s.yoke.fence.isSome && !s.yoke.repeating)) = false := by
    rcases link with none' | on
    · simp [member, up, none']
    · simp [member, up, on]
  have hop : ((s.at i.toNat).remarked m).yoke.hop = s.yoke.hop := by
    unfold State.remarked
    split <;> rfl
  have state : ((s.at i.toNat).remarked m).yoke.linkState = s.yoke.linkState := by
    unfold State.remarked
    split <;> rfl
  have whole : execMarkerReceived m i s = if !s.isMember || !s.yokeUp || (s.yoke.fence.isSome && !s.yoke.repeating) then .next s
      else if !m.crcOk then .next ((s.at i.toNat).remarked m)
      else .next ((if (((s.at i.toNat).remarked m).yoke.hop.any (· != m.hop.toNat)) && (((s.at i.toNat).remarked m).yoke.linkState == 4
          || ((s.at i.toNat).remarked m).yoke.linkState == 5)
        then ((s.at i.toNat).remarked m).dropOut else (s.at i.toNat).remarked m).markerPlaced m i.toNat) := rfl
  change execMarkerReceived m i s = _
  rw [whole, heard, crc, hop, state]
  rfl

/-! ### Segments (10 R341 to R343, R346, R365, R387) -/

theorem State.accessed_detach (a : Agent) (l : List Piece) : (s.accessed a l).pw.detach = s.pw.detach := by
  have run (x : State) (dir : Access) (v n : Nat) : (x.touchRun a dir v n).pw.detach = x.pw.detach := by
    have cached : (x.enterCache (holdingOf a) (v / 4096)).pw = x.pw := by
      unfold State.enterCache
      split <;> rfl
    have corrected (y : State) (p : Nat) : (y.correct dir p n).pw = y.pw := by
      unfold State.correct
      dsimp only
      split
      · rfl
      · rw [State.raise_pw]
        rfl
    unfold State.touchRun
    dsimp only
    split
    · rfl
    · split
      · rw [corrected]
        exact congrArg Pw.detach cached
      · rw [State.modPw_pw, State.modCsp8_pw, cached]
  exact foldl_keeps (fun y : State => y.pw.detach) _ l (fun y _ _ => foldl_keeps (fun z : State => z.pw.detach) _ _ (fun z _ _ => run z _ _ _) y) s

theorem State.access_detach (a : Agent) (l : List Piece) : (s.access a l).1.pw.detach = s.pw.detach := by
  have noted (dir : Access) (v ix kind : Nat) : Within [.counters, .events, .almanac, .fabric] s (s.noteFault a dir v ix kind).1 :=
    State.noteFault_frame _ _ _ _ _ (Within.refl s)
  unfold State.access State.reach
  split
  · rfl
  · split
    · exact congrArg Pw.detach (noted _ _ _ _ .power (by decide))
    · split
      · rfl
      · exact State.accessed_detach a l

theorem State.segmentBytes_detach (echo : Bool) : (s.segmentBytes echo).1.pw.detach = s.pw.detach := by
  have read := State.access_detach (s := s) .yoke [s.bodyPiece]
  have body : (s.readBody).1.pw.detach = s.pw.detach := by
    unfold State.readBody
    dsimp only
    split
    · next same =>
      rw [same] at read
      exact read
    · next same =>
      rw [same] at read
      exact read
  unfold State.segmentBytes
  dsimp only
  split
  · split
    · exact body
    · exact body
  · rfl

theorem State.harrowActive_congr (episodes : t.hw.episodes = s.hw.episodes) (config : t.cfg = s.cfg) (time : t.tm = s.tm) :
    t.harrowActive = s.harrowActive := by
  have only (x : State) : x.harrowActive = State.harrowActive { cfg := x.cfg, tm := x.tm, hw := { episodes := x.hw.episodes } } := rfl
  rw [only t, episodes, config, time, ← only]

theorem State.ownWindow_congr (link : t.yoke = s.yoke) (sheaf : t.sheaf = s.sheaf) (config : t.cfg = s.cfg) : t.ownWindow = s.ownWindow := by
  have only (x : State) : x.ownWindow = State.ownWindow { cfg := x.cfg, yoke := x.yoke, sheaf := x.sheaf } := rfl
  rw [only t, link, sheaf, config, ← only]

/-- A segment that no window touches goes out as its bytes were put together (10 R341, R342). -/
theorem execSegmentSend_sends {b : List Byte} {w : Bool} (member : s.isMember = true) (may : s.mayTransmit = true)
    (link : s.yoke.fence = none ∨ s.yoke.leaving = true) (turn : s.yoke.linkState = 4 ∨ s.yoke.linkState = 5 ∨ s.yoke.ack.isSome = true)
    (closed : s.harrowActive = false) (bytes : (s.at s.segmentAt).segmentBytes s.yoke.echo.isSome = (u, b, w)) :
    ∃ z : State, exec .segmentSend s = .next (if s.yoke.leaving && !s.yoke.echo.isSome then z.dropOut else z)
      ∧ z.yoke.ack = none ∧ z.yoke.echo = none ∧ z.ev.up = 0 ∧ z.tm.now = max s.tm.now s.segmentAt ∧ z.seeks = s.seeks
      ∧ z.yoke.segment = (let out := if w then framed b else 0xFB :: b; if s.yoke.echo.isSome then out else s.ownWindow 0 out) := by
  have turns : (!s.isMember || (s.yoke.fence.isSome && !s.yoke.leaving) || !s.mayTransmit
      || !(s.yoke.linkState == 4 || s.yoke.linkState == 5 || s.yoke.ack.isSome)) = false := by
    have sends : (s.yoke.linkState == 4 || s.yoke.linkState == 5 || s.yoke.ack.isSome) = true := by
      rcases turn with four | five | owed
      · simp [four]
      · simp [five]
      · simp [owed]
    rcases link with none' | leaving
    · simp [member, may, none', sends]
    · simp [member, may, leaving, sends]
  have frame : Within [.counters, .events, .almanac, .storage, .fabric, .power] (s.at s.segmentAt) u := by
    have whole : Within [.counters, .events, .almanac, .storage, .fabric, .power] (s.at s.segmentAt) ((s.at s.segmentAt).segmentBytes s.yoke.echo.isSome).1 :=
      State.segmentBytes_frame _ (Within.refl _)
    rw [bytes] at whole
    exact whole
  have yoke : u.yoke = s.yoke := frame .yoke (by decide)
  have time : u.tm = (s.at s.segmentAt).tm := frame .time (by decide)
  have config : u.cfg = s.cfg := frame .config (by decide)
  have sheaf : u.sheaf = s.sheaf := frame .sheaf (by decide)
  have boot : u.boot = s.boot := frame .boot (by decide)
  have episodes : u.hw.episodes = s.hw.episodes := (frame .harrow (by decide)).1
  have detach : u.pw.detach = s.pw.detach := by
    have whole := State.segmentBytes_detach (s := s.at s.segmentAt) s.yoke.echo.isSome
    rw [bytes] at whole
    exact whole
  have closed' : u.harrowActive = false := by
    rw [State.harrowActive_congr (s := s.at s.segmentAt) episodes config time]
    exact closed
  have seeks : u.seeks = s.seeks := by
    have only (x : State) : x.seeks = State.seeks { cfg := x.cfg, pw := { detach := x.pw.detach }, boot := x.boot } := rfl
    rw [only u, config, detach, boot, ← only]
  have window : u.ownWindow = s.ownWindow := State.ownWindow_congr yoke sheaf config
  have leaves : (s.at s.segmentAt).yoke.echo.isSome = s.yoke.echo.isSome := rfl
  simp only [exec, execSegmentSend, turns, Bool.false_eq_true, if_false, leaves, bytes, State.drawUnit_idle closed', List.any_nil, List.foldl_nil,
    window, yoke]
  exact ⟨_, rfl, rfl, rfl, rfl, congrArg Tm.now time, seeks, rfl⟩

/-- The fall of an orphan takes its link to state 6 with event 33, on the RC where there is no crystal (10 R368; 12 R436). -/
theorem execOrphanTimeout_parts (member : s.isMember = true) (enabled : s.flag nYOKE 0 0 = true) (settled : s.yoke.orphan = false)
    (ready : s.ready = true) (run : s.pw.state = .run) : ∃ t, exec .orphanTimeout s = .next t ∧ t.yoke.orphan = true ∧ t.yoke.linkState = 6
      ∧ t.has 33 = true ∧ t.yoke.delayQ = 0 := by
  let d := (s.at (max s.yoke.markerSeen (s.boot.readyFrom.getD 0) + ticksMs 250)).dropOut
  let l := d.modYoke fun y => { y with orphan := true, linkState := 6 }
  let x := ((l.yokeLog l.ownNumber 5).raise 33).modTm fun m => { m with linePeriod := none }
  have parts : d.yoke = (s.at (max s.yoke.markerSeen (s.boot.readyFrom.getD 0) + ticksMs 250)).yoke.parted _ := State.dropOut_parts.1
  have told : x.has 33 = true := by
    change ((l.yokeLog l.ownNumber 5).raise 33).has 33 = true
    simp
  have yoke : x.yoke = l.yoke := by
    have frame : Within [.counters, .almanac, .events] l ((l.yokeLog l.ownNumber 5).raise 33) :=
      State.raise_frame _ (State.yokeLog_frame _ _ (Within.refl l))
    exact frame .yoke (by decide)
  have delay : l.yoke.delayQ = 0 := by
    change d.yoke.delayQ = 0
    rw [parts]
    rfl
  have awake : (!s.isMember || !s.flag nYOKE 0 0 || s.yoke.orphan || !s.ready || s.pw.state != .run) = false := by
    simp [member, enabled, settled, ready, run]
  have executes : exec .orphanTimeout s = (if x.clk.xtalOk then .next x
      else .next (if (x.fail 8 fun f => { f with orphan := true }).clk.active < 3 then (x.fail 8 fun f => { f with orphan := true }).enterRc
        else x.fail 8 fun f => { f with orphan := true })) := if_neg (by rw [awake]; decide)
  have fell : Within [.requests, .counters, .events, .almanac, .storage, .fabric, .level, .power, .usb, .harrow, .thresher] x (x.fail 8 fun f => { f with orphan := true }) :=
    State.fail_frame _ _ (Within.refl x)
  have fellYoke : (x.fail 8 fun f => { f with orphan := true }).yoke = x.yoke := fell .yoke (by decide)
  have fellTold : (x.fail 8 fun f => { f with orphan := true }).has 33 = true := State.fail_eventsKept _ _ 33 told
  rw [executes]
  by_cases crystal : x.clk.xtalOk = true
  · rw [if_pos crystal]
    exact ⟨x, rfl, by rw [yoke]; rfl, by rw [yoke]; rfl, told, by rw [yoke, delay]⟩
  · rw [if_neg crystal]
    by_cases locked : (x.fail 8 fun f => { f with orphan := true }).clk.active < 3
    · rw [if_pos locked]
      obtain ⟨kept, link⟩ := State.enterRc_parts (s := x.fail 8 fun f => { f with orphan := true })
      exact ⟨_, rfl, by rw [link, fellYoke, yoke]; rfl, by rw [link, fellYoke, yoke]; rfl, kept 33 fellTold, by rw [link, fellYoke, yoke]; exact delay⟩
    · rw [if_neg locked]
      exact ⟨_, rfl, by rw [fellYoke, yoke]; rfl, by rw [fellYoke, yoke]; rfl, fellTold, by rw [fellYoke, yoke, delay]⟩

/-- The bytes between what stands before and behind them. -/
theorem slice_between {p x q : List Byte} {a n : Nat} (before : p.length = a) (long : x.length = n) : slice (p ++ (x ++ q)) a n = x := by
  subst before long
  simp [slice]

/-- The bytes of a member's join request (10 R361). -/
theorem joinRequest_bytes (n layout need serial : Nat) (tail : List Byte) (four : tail.length = 4) :
    let b := leBytes 1 n ++ List.replicate 7 0 ++ leBytes 4 layout ++ leBytes 4 need ++ leBytes 8 0 ++ leBytes 8 serial
    (framed (b ++ tail)).length = 38 ∧ slice (framed (b ++ tail)) 1 1 = leBytes 1 n ∧ slice (framed (b ++ tail)) 25 8 = leBytes 8 serial := by
  intro b
  have first : framed (b ++ tail) = [0xFB] ++ (leBytes 1 n
      ++ (List.replicate 7 0 ++ leBytes 4 layout ++ leBytes 4 need ++ leBytes 8 0 ++ leBytes 8 serial ++ tail ++ [0xFD])) := by
    simp [framed, b]
  have last : framed (b ++ tail) = ([0xFB] ++ leBytes 1 n ++ List.replicate 7 0 ++ leBytes 4 layout ++ leBytes 4 need ++ leBytes 8 0)
      ++ (leBytes 8 serial ++ (tail ++ [0xFD])) := by
    simp [framed, b]
  refine ⟨?_, ?_, ?_⟩
  · simp [framed, b, leBytes_length, four]
  · rw [first]
    exact slice_between rfl (leBytes_length _)
  · rw [last]
    exact slice_between (by simp [leBytes_length]) (leBytes_length _)

/-- Settles O50: markers, segments, join requests and what passes on DN RX. -/
theorem memberFollowsMarkers : Obligations.MemberFollowsMarkers := by
  unfold Obligations.MemberFollowsMarkers
  refine ⟨fun s member => ⟨fun m i up link crc => ⟨fun stays => ?_, fun h hop moved joined => ?_⟩, fun enabled settled ready run =>
    execOrphanTimeout_parts member enabled settled ready run⟩, fun s member clocked => ⟨fun link may turn closed u b w bytes => ?_,
      fun runs ready seeking beacon near first => ?_, fun p a bs g repeats applied => ?_, ?_, fun native => ?_⟩⟩
  · let r := (s.at i.toNat).remarked m
    have same : (s.yoke.hop.any (· != m.hop.toNat)) = false := by
      cases hop : s.yoke.hop with
      | none => rfl
      | some h => simp [stays h hop]
    have executes := execMarkerReceived_placed (m := m) (i := i) member up link crc
    rw [same, Bool.false_and, if_neg Bool.false_ne_true] at executes
    have yoke : r.yoke.linkState = s.yoke.linkState ∧ r.yoke.delayQ = s.yoke.delayQ := by
      simp only [r, State.remarked]
      split <;> exact ⟨rfl, rfl⟩
    refine ⟨_, executes, rfl, rfl, rfl, ?_, ?_, fun repeats => ?_⟩
    · change some (i.toNat + lineTicks r.yoke.delayQ) = _
      rw [yoke.2]
    · change (if (if r.yoke.linkState == 6 || (r.yoke.linkState == 0 && r.seeks) then 3 else r.yoke.linkState) == 4
          || (if r.yoke.linkState == 6 || (r.yoke.linkState == 0 && r.seeks) then 3 else r.yoke.linkState) == 5 then some m.period.toNat else none) = _
      rw [yoke.1]
      by_cases four : s.yoke.linkState = 4
      · simp [four]
      · by_cases five : s.yoke.linkState = 5
        · simp [five]
        · have apart : ∀ b : Bool, ((if (s.yoke.linkState == 6 || b) = true then 3 else s.yoke.linkState) == 4
              || (if (s.yoke.linkState == 6 || b) = true then 3 else s.yoke.linkState) == 5) = false := by
            intro b
            split
            · rfl
            · simp [four, five]
          rw [apart, if_neg Bool.false_ne_true, if_neg (by simp [four, five])]
    · change r.yoke.out = _
      simp [r, State.remarked, repeats]
  · let r := (s.at i.toNat).remarked m
    have other : (s.yoke.hop.any (· != m.hop.toNat)) = true := by simp [hop, moved]
    have was : (s.yoke.linkState == 4 || s.yoke.linkState == 5) = true := by
      rcases joined with four | five
      · simp [four]
      · simp [five]
    have executes := execMarkerReceived_placed (m := m) (i := i) member up link crc
    rw [other, was, Bool.true_and, if_pos rfl] at executes
    obtain ⟨parted, seeks⟩ := State.dropOut_parts (s := r)
    have seeks' : r.seeks = s.seeks := by
      simp only [r, State.remarked]
      split <;> rfl
    refine ⟨_, executes, rfl, ?_, ?_, ?_, ?_, ?_⟩
    · change (if r.dropOut.yoke.linkState == 6 || (r.dropOut.yoke.linkState == 0 && r.dropOut.seeks) then 3 else r.dropOut.yoke.linkState) = _
      rw [parted, seeks, seeks']
      cases s.seeks <;> rfl
    · change r.dropOut.yoke.delayQ = 0
      rw [parted]
      rfl
    · change r.dropOut.yoke.position = 0xFF
      rw [parted]
      rfl
    · change some (i.toNat + lineTicks r.dropOut.yoke.delayQ) = _
      rw [parted]
      exact congrArg (fun n => some (i.toNat + n)) (show lineTicks 0 = 1200 by decide)
    · change (if (if r.dropOut.yoke.linkState == 6 || (r.dropOut.yoke.linkState == 0 && r.dropOut.seeks) then 3 else r.dropOut.yoke.linkState) == 4
          || (if r.dropOut.yoke.linkState == 6 || (r.dropOut.yoke.linkState == 0 && r.dropOut.seeks) then 3 else r.dropOut.yoke.linkState) == 5
          then some m.period.toNat else none) = none
      rw [parted, seeks, seeks']
      cases s.seeks <;> rfl
  · obtain ⟨z, executes, ack, echo, up, now, seeks, segment⟩ := execSegmentSend_sends member may link turn closed bytes
    have frame : Within [.requests, .counters, .events, .almanac, .level, .power, .yoke, .harrow] z z.dropOut := State.dropOut_frame (Within.refl z)
    obtain ⟨parted, -⟩ := State.dropOut_parts (s := z)
    by_cases leaves : (s.yoke.leaving && !s.yoke.echo.isSome) = true
    · rw [if_pos leaves] at executes
      simp only [Bool.and_eq_true, Bool.not_eq_true'] at leaves
      refine ⟨_, executes, ?_, fun no => absurd leaves.1 (by simp [no]), ?_, ?_, ?_, fun _ _ => ?_⟩
      · rw [show z.dropOut.tm = z.tm from frame .time (by decide), now]
      · rw [parted]
        exact ack
      · rw [parted]
        rfl
      · rw [parted]
        exact segment
      · rw [parted, seeks]
        rfl
    · rw [if_neg leaves] at executes
      exact ⟨_, executes, now, fun _ => up, ack, echo, segment, fun yes none' => absurd (by simp [yes, none']) leaves⟩
  · have turn : (!s.isMember || !s.yokeRuns || !s.ready || s.yoke.linkState != 3 || !s.yoke.beacon || decide (7 < s.ownNumber)
        || (s.yoke.attempts != 0 && s.yoke.beacons != s.joinBeacon)) = false := by
      simp [member, runs, ready, seeking, beacon, first, near]
    have executes : exec .joinRequestSend s = .next _ := if_neg (by rw [turn]; decide)
    obtain ⟨long, number, serial⟩ := joinRequest_bytes s.ownNumber s.sheaf.layout.id (needOf s.reg s.sheaf.layout) s.boot.serial
      (leBytes 4 (crc32 (leBytes 1 s.ownNumber ++ List.replicate 7 0 ++ leBytes 4 s.sheaf.layout.id ++ leBytes 4 (needOf s.reg s.sheaf.layout) ++ leBytes 8 0
        ++ leBytes 8 s.boot.serial))) (leBytes_length _)
    exact ⟨_, executes, by rw [State.modYoke_yoke]; exact congrArg (· + 1) first, rfl, long, number, serial⟩
  · let x := s.modPw fun p => { p with dnRxIdle := false }
    have repeats' : (!x.repeats) = false := by simp only [Bool.not_eq_false']; exact repeats
    have applied' : x.yoke.applied = some g := applied
    have executes : exec (.dnRxForward p a bs) s = .next (x.modYoke fun y => { y with
        upOut := (bs.zipIdx.filter fun (_, i) => insideWindow (ticksNs x.limit) g x.yoke.delayQ (p.val + 1) (4 * (a + 100 * i))).map (·.1) }) := by
      change (if !x.repeats then Host.Outcome.next x else match x.yoke.applied with
        | none => .next (x.modYoke fun y => { y with upOut := [] })
        | some g => .next (x.modYoke fun y => { y with
          upOut := (bs.zipIdx.filter fun (_, i) => insideWindow (ticksNs x.limit) g x.yoke.delayQ (p.val + 1) (4 * (a + 100 * i))).map (·.1) })) = _
      rw [repeats', applied']
      rfl
    exact ⟨_, executes, rfl, rfl⟩
  · exact ⟨_, congrArg Host.Outcome.next (if_pos clocked), rfl⟩
  · refine ⟨_, congrArg Host.Outcome.next (if_neg (by simp [native, clocked])), ?_⟩
    rw [State.fail_failures]

end Sys2Proof.Machine
end

section
/-! SUPPORT. A device without power whose last start was no reset, with VDDIO_D not valid as VIN rises (11 R389, R396). -/

namespace Sys2Proof.Machine

set_option Elab.async false

/-- No power and no VDDIO_D, after a start by the watchdog. -/
def unpoweredAfterWatchdog : State :=
  { boot := { phase := .off, kind := .watchdog }
    pw := { state := .off, vddioOk := [true, true, true, false] } }

/-- Every strap low. -/
def strapsLow : Straps := { legacy := false, ykLead := false, twa := 0, gang := false, service := false, testEn := false }

/-- Without VDDIO_D the device is held, and the kind of the last start stands until its release. -/
theorem unpoweredAfterWatchdog_held {t : State} (ran : exec (.vinUvloRise 600 0 strapsLow) unpoweredAfterWatchdog = .next t) :
    t.boot.kind = .watchdog := by
  cases ran
  decide +kernel

/-- Refutes O51: its states may show any kind of start while there is no power. Where VDDIO_D is not valid as VIN rises, the device is only
held (11 R396); the kind of its start is set at the release, so it is not yet that of a reset. -/
theorem not_supplyChanges : ¬ Obligations.SupplyChanges := by
  unfold Obligations.SupplyChanges
  intro claim
  obtain ⟨-, -, -, -, unpowered⟩ := claim unpoweredAfterWatchdog
  obtain ⟨rises, -⟩ := unpowered (by decide +kernel)
  obtain ⟨t, ran, -, kind, -⟩ := rises 600 0 strapsLow (by decide +kernel) (by decide +kernel)
  rw [unpoweredAfterWatchdog_held ran] at kind
  exact absurd kind (by decide)

end Sys2Proof.Machine
end

section
/-! SUPPORT. Wake sources, and the backup domain with its alarms and records (11 R403, R405, R411, R414 to R419). -/

namespace Sys2Proof.Machine

set_option Elab.async false

variable {s t : State}

/-! ### Wake sources (11 R403, R405) -/

/-- An entry abandoned leaves the power block but for the entry. -/
theorem State.abandonFallow_pw : s.abandonFallow.pw = { s.pw with fallow := none } := by
  unfold State.abandonFallow
  split
  · next none' => rw [← none']
  · next f _ =>
    have told (x : State) : Within [.requests, .counters, .events, .almanac, .harrow, .free] x (((x.completeOpt f.ticket stAborted).powerLog 7).raise 34) :=
      State.raise_frame _ (State.powerLog_frame _ (State.completeOpt_frame _ _ _ (Within.refl x)))
    dsimp only
    rw [show (State.raise _ _).pw = _ from told _ .power (by decide)]
    split
    · next id _ =>
      have sent : Within [.yoke] (s.modPw fun p => { p with fallow := none }) ((s.modPw fun p => { p with fallow := none }).command .fallowAbort 0 (leBytes 1 id)) :=
        State.command_frame _ _ _ _ _ (Within.refl _)
      exact sent .power (by decide)
    · rfl

theorem State.powerLog_eventsKept (code : Nat) : EventsKept s (s.powerLog code) := EventsKept.of_ev (by rw [State.powerLog, State.log_ev])

theorem State.complete_eventsKept (k : Ticket) (st : Nat) (p : List Byte) : EventsKept s (s.complete k st p) :=
  (State.complete_lineStays k st p (LineStays.refl s)).events

theorem State.completeOpt_eventsKept (k : Option Ticket) (st : Nat) (p : List Byte) : EventsKept s (s.completeOpt k st p) := by
  cases k with
  | none => exact EventsKept.refl s
  | some k => exact State.complete_eventsKept k st p

theorem State.abandonFallow_eventsKept : EventsKept s s.abandonFallow := by
  unfold State.abandonFallow
  split
  · exact EventsKept.refl s
  · next f _ =>
    have told (x : State) : EventsKept x (((x.completeOpt f.ticket stAborted).powerLog 7).raise 34) :=
      (State.completeOpt_eventsKept _ _ _).trans ((State.powerLog_eventsKept 7).trans (State.raise_eventsKept 34))
    refine EventsKept.trans ?_ (told _)
    split
    · next id _ =>
      have sent : Within [.yoke] (s.modPw fun p => { p with fallow := none }) ((s.modPw fun p => { p with fallow := none }).command .fallowAbort 0 (leBytes 1 id)) :=
        State.command_frame _ _ _ _ _ (Within.refl _)
      exact (EventsKept.of_ev rfl).trans sent.eventsKept
    · exact EventsKept.of_ev rfl

/-- A source that asserts leaves the backup domain and PRSNT_N, whether the device sleeps or runs. -/
structure SupplyKept (s t : State) : Prop where
  backup : t.pw.backup = s.pw.backup
  prsnt : t.pw.prsntHigh = s.pw.prsntHigh

theorem SupplyKept.trans {u : State} (a : SupplyKept s t) (b : SupplyKept t u) : SupplyKept s u := ⟨b.backup.trans a.backup, b.prsnt.trans a.prsnt⟩

theorem State.deepStart_supplyKept : SupplyKept s s.deepStart := by
  have stopped : Within [.storage, .nor, .psram, .free] s s.stopStorage := State.stopStorage_frame (Within.refl s)
  have power : s.stopStorage.pw = s.pw := stopped .power (by decide)
  have kept : s.deepStart.pw.backup = s.stopStorage.pw.backup ∧ s.deepStart.pw.prsntHigh = s.stopStorage.pw.prsntHigh := ⟨rfl, rfl⟩
  exact ⟨by rw [kept.1, power], by rw [kept.2, power]⟩

theorem State.wakeUp_supplyKept (src : Nat) : SupplyKept s (s.wakeUp src) := by
  unfold State.wakeUp
  split
  · exact ⟨rfl, rfl⟩
  · dsimp only
    split
    · obtain ⟨backup, prsnt⟩ := State.deepStart_supplyKept (s := _)
      exact ⟨backup, prsnt⟩
    · exact ⟨rfl, rfl⟩

theorem State.wakeSignal_pw : s.wakeSignal.pw = s.pw := by
  unfold State.wakeSignal
  split <;> rfl

theorem State.wakeBy_supplyKept (src : Nat) : SupplyKept s (s.wakeBy src) := by
  obtain ⟨backup, prsnt⟩ := State.wakeUp_supplyKept (s := if s.pw.state == .deep then s else s.wakeSignal) src
  have signal : (if s.pw.state == .deep then s else s.wakeSignal).pw = s.pw := by
    split
    · rfl
    · exact State.wakeSignal_pw
  rw [signal] at backup prsnt
  exact ⟨backup, prsnt⟩

theorem State.wakePending_parts (b : Nat) : SupplyKept s (s.wakePending b) ∧ EventsKept s (s.wakePending b) := by
  unfold State.wakePending
  split
  · split
    · exact ⟨⟨rfl, rfl⟩, EventsKept.of_ev rfl⟩
    · exact ⟨⟨by rw [State.abandonFallow_pw], by rw [State.abandonFallow_pw]⟩, State.abandonFallow_eventsKept⟩
  · exact ⟨⟨rfl, rfl⟩, EventsKept.refl s⟩

theorem State.wakeAgreed_parts (b : Nat) : SupplyKept s (s.wakeAgreed b) ∧ EventsKept s (s.wakeAgreed b) := by
  unfold State.wakeAgreed
  split
  · split
    · exact ⟨⟨rfl, rfl⟩, EventsKept.of_ev rfl⟩
    · split <;> exact ⟨⟨rfl, rfl⟩, EventsKept.of_ev rfl⟩
  · exact ⟨⟨rfl, rfl⟩, EventsKept.refl s⟩

/-- In RUN a source takes no pending event away. -/
theorem State.wakeSource_parts (b : Nat) : SupplyKept s (s.wakeSource b) ∧ (s.pw.state = .run → EventsKept s (s.wakeSource b)) := by
  have asserted (x : State) (c : Bool) : SupplyKept x (if c then x.wakeBy b else x) := by
    split
    · exact State.wakeBy_supplyKept b
    · exact ⟨rfl, rfl⟩
  have waits (x : State) (c : Bool) : SupplyKept x (if c then x.wakePending b else x) ∧ EventsKept x (if c then x.wakePending b else x) := by
    split
    · exact State.wakePending_parts b
    · exact ⟨⟨rfl, rfl⟩, EventsKept.refl x⟩
  have agrees (x : State) (c : Bool) : SupplyKept x (if c then x.wakeAgreed b else x) ∧ EventsKept x (if c then x.wakeAgreed b else x) := by
    split
    · exact State.wakeAgreed_parts b
    · exact ⟨⟨rfl, rfl⟩, EventsKept.refl x⟩
  cases state : s.pw.state with
  | fallow =>
    simp only [State.wakeSource, state]
    exact ⟨asserted s _, nofun⟩
  | deep =>
    simp only [State.wakeSource, state]
    exact ⟨asserted s _, nofun⟩
  | run =>
    have then' (x : State) (kept : SupplyKept s x ∧ EventsKept s x) : SupplyKept s (match x.yoke.agreed with
          | some (_, deep, _) => if x.wakeArmed deep b then x.wakeAgreed b else x
          | none => x)
        ∧ EventsKept s (match x.yoke.agreed with
          | some (_, deep, _) => if x.wakeArmed deep b then x.wakeAgreed b else x
          | none => x) := by
      split
      · next deep _ _ => exact ⟨kept.1.trans (agrees x _).1, kept.2.trans (agrees x _).2⟩
      · exact kept
    have first : SupplyKept s (match s.pw.fallow with
          | some f => if s.wakeArmed f.deep b then s.wakePending b else s
          | none => s)
        ∧ EventsKept s (match s.pw.fallow with
          | some f => if s.wakeArmed f.deep b then s.wakePending b else s
          | none => s) := by
      split
      · exact waits s _
      · exact ⟨⟨rfl, rfl⟩, EventsKept.refl s⟩
    obtain ⟨supply, events⟩ := then' _ first
    simp only [State.wakeSource, state]
    exact ⟨supply, fun _ => events⟩
  | backup =>
    simp only [State.wakeSource, state]
    exact ⟨⟨rfl, rfl⟩, nofun⟩
  | off =>
    simp only [State.wakeSource, state]
    exact ⟨⟨rfl, rfl⟩, nofun⟩

/-! ### The backup domain (11 R411, R414 to R416) -/

theorem Memory.readList_writeList (d : Byte) (m : Memory) (a : Nat) (bs : List Byte) (canonical : Memory.wf d m = true) :
    Memory.readList d (Memory.writeList d m a bs) a bs.length = bs := by
  apply List.ext_getElem
  · simp [Memory.readList]
  · intro i inside inside'
    simp only [Memory.readList, List.getElem_map, List.getElem_range]
    exact Memory.read_writeList_inside d bs m a i canonical inside'

theorem State.Inv.canonical_alm (inv : s.Inv) : Memory.wf almEmpty s.alm.bytes = true := by
  have canonical := inv.2
  simp only [State.canonical, Bool.and_eq_true] at canonical
  tauto

theorem State.startBackup_total (trigger : Nat) : (s.startBackup trigger).pw.backup.total = s.pw.backup.total := by
  unfold State.startBackup
  split <;> rfl

/-- Settles O52: the backup domain lost, its alarms counted, and its records written, abandoned and started. -/
theorem backupAndAlarms : Obligations.BackupAndAlarms := by
  unfold Obligations.BackupAndAlarms
  intro s inv
  refine ⟨?_, fun powered valid armed => ?_, fun k rtc enabled alive => ?_, fun n writing => ⟨?_, ?_⟩, fun holdoff => ?_⟩
  · let x := (s.modPw fun p => { p with vbakMv := min p.vbakMv 1899 }).loseBackup
    by_cases backup : (x.pw.state == .backup) = true
    · exact ⟨_, congrArg Host.Outcome.next (if_pos backup), rfl, rfl, rfl, rfl⟩
    · exact ⟨_, congrArg Host.Outcome.next (if_neg backup), rfl, rfl, rfl, rfl⟩
  · have told (x : State) : (x.raise 51).has 51 = true := by simp
    have due : (s.pw.aonRtcAlarm = 0 || !s.pw.rtcValid || !s.powered) = false := by simp [powered, valid, armed]
    by_cases run : (s.pw.state == .run) = true
    · refine ⟨_, ?_, told ((s.modPw fun p => { p with rtc := p.aonRtcAlarm, rtcAt := s.tm.now }).wakeSource 1)⟩
      simp only [exec, execRtcAlarm, due, run, Bool.false_eq_true, if_false, if_true]
    · refine ⟨_, ?_, told (s.wakeSource 1)⟩
      simp only [exec, execRtcAlarm, due, run, Bool.false_eq_true, if_false]
  · have on : (!bitAt s.pw.aonAlmEnable k.val || s.pw.state == .off) = false := by simp [enabled, alive]
    by_cases path : s.backupPath = true
    · let x := s.modBackup fun b => b.count k.val rtc.toNat
      have executes : exec (.alarmInput k rtc) s = .next ((if x.pw.backup.holdoff then x else x.startBackup (2 ^ k.val)).wakeSource (2 + k.val)) := by
        simp only [exec, execAlarmInput, on, path, Bool.false_eq_true, if_false, if_true]
        rfl
      refine ⟨_, executes, fun _ => ?_, fun no => absurd path (by simp [no])⟩
      rw [(State.wakeSource_parts _).1.backup]
      split
      · rfl
      · rw [State.startBackup_total]
        rfl
    · let x := s.record { type := 0x80, cls := clAlarm, source := nPOWER, index := k.val, code := 0, period := s.tm.period, stamp := s.tm.now, detail := leBytes 8 rtc.toNat }
      have executes : exec (.alarmInput k rtc) s = .next ((x.raise 50).wakeSource (2 + k.val)) := by
        simp only [exec, execAlarmInput, on, path, Bool.false_eq_true, if_false]
        rfl
      have power : (x.raise 50).pw = s.pw := by rw [State.raise_pw, State.record_pw]
      have run : (x.raise 50).pw.state = .run := by
        rw [power]
        unfold State.backupPath at path
        revert path alive
        cases s.pw.state <;> simp
      obtain ⟨kept, events⟩ := State.wakeSource_parts (s := x.raise 50) (2 + k.val)
      exact ⟨_, executes, fun yes => absurd yes path, fun _ => ⟨events run 50 (by simp), by rw [kept.backup, power]⟩⟩
  · let l := Config.alarmLevels s.freeCount
    let bs := backupRecord s.pw.backup.nextSeq s.rtcNow (s.backupPayload n l)
    change ∃ t, execBackupRecordWrite s = .next t ∧ _
    unfold execBackupRecordWrite
    rw [writing]
    have bytes := Memory.readList_writeList almEmpty s.alm.bytes (slotAddr 3 (goodSlot s.alm.bad 3 s.pw.backup.slot 128)) bs inv.canonical_alm
    refine ⟨_, rfl, rfl, rfl, rfl, rfl, l, ?_⟩
    simp only [State.modBackup, State.modPw_alm, State.almWrite, State.modAlm_alm]
    exact bytes
  · change ∃ t, execBackupWriteAbort s = .next t ∧ _
    unfold execBackupWriteAbort
    rw [writing]
    exact ⟨_, rfl, rfl, rfl, rfl, rfl⟩
  · let x := s.modBackup fun k => { k with holdoff := false }
    have executes : exec .alarmHoldoffEnd s = .next (if s.pw.backup.sinceRec.any (· != 0) && s.backupPath then x.startBackup 0 else x) := by
      simp only [exec, execAlarmHoldoffEnd, holdoff, Bool.not_true, Bool.false_eq_true, if_false]
      rfl
    refine ⟨_, executes, ?_⟩
    by_cases due : (s.pw.backup.sinceRec.any (· != 0) && s.backupPath) = true
    · rw [if_pos due]
      simp only [Bool.and_eq_true] at due
      by_cases supplied : 1950 ≤ s.pw.vresMv
      · have started : x.startBackup 0 = x.modBackup fun k => { k with writing := some 0, holdoff := true } := if_pos supplied
        rw [if_pos ⟨due.1, due.2, supplied⟩, started]
        exact ⟨rfl, rfl⟩
      · have idle : x.startBackup 0 = x := if_neg supplied
        rw [if_neg (fun all => supplied all.2.2), idle]
        exact ⟨rfl, rfl⟩
    · rw [if_neg due, if_neg (fun all => due (by simp [all.1, all.2.1]))]
      exact ⟨rfl, rfl⟩

end Sys2Proof.Machine
end

section
/-! SUPPORT. A fall in level, and hot plug: PRSNT_N, DETACH and the resets (01 R44; 11 R420 to R425; 12 R450 to R452). -/

namespace Sys2Proof.Machine

set_option Elab.async false

variable {s t u : State} {a : Agent} {n : Nat}

/-! ### What a fall in level leaves alone (01 R41, R44) -/

/-- From s to t the state of a detach, a released pull-up and every counter stay, but those of the fabric, of the Thresher and of replies,
events and records. -/
structure FallStays (s t : State) : Prop where
  detach : t.pw.detach = s.pw.detach
  pullup : s.usb.pullup = false → t.usb.pullup = false
  counts : ∀ n w lo, Elsewhere n w lo → n ≠ nPLOTMAP → n ≠ nTHRESHER → t.count n w lo = s.count n w lo

theorem FallStays.refl (s : State) : FallStays s s := ⟨rfl, id, fun _ _ _ _ _ _ => rfl⟩

theorem FallStays.trans (x : FallStays s t) (y : FallStays t u) : FallStays s u where
  detach := y.detach.trans x.detach
  pullup h := y.pullup (x.pullup h)
  counts n w lo e p q := (y.counts n w lo e p q).trans (x.counts n w lo e p q)

theorem FallStays.of_same (power : t.pw = s.pw) (usb : t.usb = s.usb) (count : t.cnt = s.cnt) : FallStays s t where
  detach := by rw [power]
  pullup h := by rw [usb]; exact h
  counts _ _ _ _ _ _ := by rw [State.count_congr count]

/-- An operation whose counters are elsewhere. -/
theorem Within.fallStays {parts : List Part} (w : Within parts s t) (counts : ∀ n v lo, Elsewhere n v lo → n ≠ nPLOTMAP → n ≠ nTHRESHER → t.count n v lo = s.count n v lo)
    (power : Part.power ∉ parts := by decide) (usb : Part.usb ∉ parts := by decide) : FallStays s t where
  detach := by rw [show t.pw = s.pw from w .power power]
  pullup h := by rw [show t.usb = s.usb from w .usb usb]; exact h
  counts := counts

theorem Within.fallStays_plain {parts : List Part} (w : Within parts s t) (power : Part.power ∉ parts := by decide) (usb : Part.usb ∉ parts := by decide)
    (count : Part.counters ∉ parts := by decide) : FallStays s t :=
  FallStays.of_same (w .power power) (w .usb usb) (w .counters count)

theorem State.bump_fallStays (n w lo wd : Nat) (of' : n = nPLOTMAP ∨ n = nTHRESHER) (width : 0 < wd) (inside : w < 1024) (low : lo < 32) :
    FallStays s (s.bump n w lo wd) := by
  refine ⟨rfl, id, fun n' w' lo' e p q => State.bump_count_other width ?_⟩
  rw [Ne, cntKey_eq_iff e.inside inside e.low low]
  rintro ⟨same, -⟩
  rcases of' with rfl | rfl
  · exact p same
  · exact q same

theorem State.raise_fallStays (k : Nat) : FallStays s (s.raise k) :=
  ⟨by rw [State.raise_pw], fun h => by rw [State.raise_usb]; exact h, fun _ _ _ e _ _ => State.raise_count k e.lost⟩

theorem State.log_fallStays (type source index code : Nat) (detail : List Byte) : FallStays s (s.log type source index code detail) :=
  ⟨by rw [State.log_pw], fun h => by rw [State.log_usb]; exact h, fun _ _ _ e _ _ => State.log_count _ _ _ _ _ e.dropped⟩

theorem State.completeOpt_fallStays (k : Option Ticket) (st : Nat) (p : List Byte) : FallStays s (s.completeOpt k st p) := by
  have frame : Within [.requests, .counters, .events, .almanac, .harrow] s (s.completeOpt k st p) := State.completeOpt_frame _ _ _ (Within.refl s)
  exact frame.fallStays fun _ _ _ e _ _ => State.completeOpt_count e k st p

theorem State.accessed_fallStays (l : List Piece) : FallStays s (s.accessed a l) := by
  have frame : Within [.counters, .events, .storage, .fabric, .power] s (s.accessed a l) := State.accessed_frame _ _ (Within.refl s)
  exact ⟨State.accessed_detach a l, fun h => by rw [show (s.accessed a l).usb = s.usb from frame .usb (by decide)]; exact h,
    fun _ _ _ e p _ => State.accessed_count e p l⟩

theorem State.noteFault_fallStays (dir : Access) (v index kind : Nat) : FallStays s (s.noteFault a dir v index kind).1 := by
  have shown (c : Cursor) : FallStays s (if kind = 5 then
      (((s.showFault c).bump nPLOTMAP 12 16 16).log 0x21 nPLOTMAP 0 0 (leBytes 4 (((s.showFault c).translate (holdingOf a) dir (elementAt a v)).getD 0) ++ [1])).raise 43
      else s.showFault c) := by
    have told : FallStays s (s.showFault c) := FallStays.of_same rfl rfl rfl
    split
    · exact told.trans ((State.bump_fallStays _ _ _ _ (Or.inl rfl) (by decide) (by decide) (by decide)).trans
        ((State.log_fallStays _ _ _ _ _).trans (State.raise_fallStays 43)))
    · exact told
  have ended (x : State) (c : Cursor) : FallStays x (x.unresolved c) := by
    unfold State.unresolved State.dropCursors State.faultRecord
    exact ((State.log_fallStays _ _ _ _ _).trans (State.raise_fallStays 41)).trans (FallStays.of_same rfl rfl rfl)
  unfold State.noteFault
  dsimp only
  split
  · exact (shown _).trans ((State.bump_fallStays _ _ _ _ (Or.inl rfl) (by decide) (by decide) (by decide)).trans (ended _ _))
  · split
    · exact (shown _).trans ((State.bump_fallStays _ _ _ _ (Or.inl rfl) (by decide) (by decide) (by decide)).trans (ended _ _))
    · exact FallStays.trans (shown _) (FallStays.of_same rfl rfl rfl)

theorem State.access_fallStays (l : List Piece) : FallStays s (s.access a l).1 := by
  unfold State.access State.reach
  split
  · exact FallStays.refl s
  · split
    · exact State.noteFault_fallStays _ _ _ _
    · split
      · exact FallStays.refl s
      · exact State.accessed_fallStays l

theorem State.modCtx_fallStays (k : Nat) (f : Ctx → Ctx) : FallStays s (s.modCtx k f) := FallStays.of_same rfl rfl rfl

theorem State.closeJob_fallStays (n reason : Nat) : FallStays s (s.closeJob n reason) := by
  have freed (x : State) : Within [.thresher] x (x.freeEngine n) := State.freeEngine_frame n (Within.refl x)
  have told (x : State) (j : Job) (c : Ctx) : FallStays x (if reason = 0 then (x.bump nTHRESHER 2 0 32).raise 35
      else if reason = 1 || reason = 2 then x
      else ((x.ite (reason == 4) (·.bump nTHRESHER 4 16 16)).log 0x30 (nTHRCTX n) 0 reason (leBytes 4 j.number ++ leBytes 2 c.instr)).raise 36) := by
    split
    · exact (State.bump_fallStays _ _ _ _ (Or.inr rfl) (by decide) (by decide) (by decide)).trans (State.raise_fallStays 35)
    · split
      · exact FallStays.refl x
      · refine FallStays.trans ?_ ((State.log_fallStays _ _ _ _ _).trans (State.raise_fallStays 36))
        unfold State.ite
        split
        · exact State.bump_fallStays _ _ _ _ (Or.inr rfl) (by decide) (by decide) (by decide)
        · exact FallStays.refl x
  unfold State.closeJob
  dsimp only
  split
  · exact FallStays.refl s
  · refine FallStays.trans ?_ (State.completeOpt_fallStays _ _ _)
    refine FallStays.trans ?_ (told _ _ _)
    exact ((State.modCtx_fallStays _ _).trans (freed _).fallStays_plain).trans (FallStays.of_same rfl rfl rfl)

theorem State.restoreCtx_fallStays (n : Nat) : FallStays s (s.restoreCtx n).1 := by
  have read := State.access_fallStays (s := s) (a := thrAgent n) [⟨.read, s.saveAddr n, 2048⟩]
  unfold State.restoreCtx
  split
  · exact FallStays.refl s
  · split
    · next same =>
      rw [same] at read
      dsimp only
      split
      · exact read
      · exact read.trans (State.modCtx_fallStays _ _)
    · exact read

theorem State.dispatchN_fallStays (k : Nat) : FallStays s (State.dispatchN k s) := by
  induction k generalizing s with
  | zero => exact FallStays.refl s
  | succ k ih =>
    unfold State.dispatchN
    split
    · split
      · exact FallStays.refl s
      · next n _ =>
        have restored := State.restoreCtx_fallStays (s := s) n
        split
        · next same =>
          rw [same] at restored
          exact restored.trans (FallStays.of_same rfl rfl rfl)
        · next same =>
          rw [same] at restored
          split
          · exact restored.trans ((State.modCtx_fallStays _ _).trans ih)
          · exact restored
        · next same =>
          rw [same] at restored
          exact restored.trans ((State.closeJob_fallStays n 4).trans ih)
    · exact FallStays.refl s

theorem State.endJob_fallStays (n reason : Nat) : FallStays s (s.endJob n reason) :=
  (State.closeJob_fallStays n reason).trans (State.dispatchN_fallStays 5)

theorem State.leaveL3_fallStays : FallStays s s.leaveL3 := by
  have dropped : FallStays s s.dropUsb := ⟨rfl, fun _ => rfl, fun _ _ _ _ _ _ => rfl⟩
  have ended (l : List Nat) (x : State) : FallStays x (l.foldl (fun s n => s.endJob n 6) x) := by
    induction l generalizing x with
    | nil => exact FallStays.refl x
    | cons n l ih => exact (State.endJob_fallStays n 6).trans (ih _)
  exact dropped.trans (ended (List.range 4) _)

theorem State.fail_fallStays (row : Nat) (f : Fail → Fail) : FallStays s (s.fail row f) := by
  have failed : FallStays s (s.modLev fun l => { l with fail := f l.fail }) := FallStays.of_same rfl rfl rfl
  refine failed.trans ?_
  unfold State.fail State.relevel
  dsimp only
  split
  · exact FallStays.refl _
  · have levelled (x : State) (g : Lev → Lev) (d : List Byte) : FallStays x (((x.modLev g).newTable).log 0x01 nSYS 0 row d) :=
      FallStays.trans (t := (x.modLev g).newTable) (FallStays.of_same rfl rfl rfl) (State.log_fallStays _ _ _ _ _)
    unfold State.ite
    split
    · exact (levelled _ _ _).trans State.leaveL3_fallStays
    · exact levelled _ _ _

/-! ### Hot plug and the resets (11 R420 to R425; 12 R450 to R452) -/

/-- What a reset of the device keeps and sets (12 Table CK-4). -/
theorem State.resetDevice_parts (power : Bool) (cause : Nat) : (s.resetDevice power cause).boot.phase = .held ∧ (s.resetDevice power cause).boot.cause = cause
    ∧ (s.resetDevice power cause).cfg = [] ∧ (s.resetDevice power cause).alm.bytes = s.alm.bytes ∧ (s.resetDevice power cause).hw.sealed = s.hw.sealed := by
  have stopped : Within [.storage, .nor, .psram, .free] s s.stopStorage := State.stopStorage_frame (Within.refl s)
  have almanac : s.stopStorage.alm = s.alm := stopped .almanac (by decide)
  have sealed' : s.stopStorage.hw.sealed = s.hw.sealed := stopped .seal (by decide)
  have bytes : (s.resetDevice power cause).alm.bytes = s.stopStorage.alm.bytes := by
    cases power <;> rfl
  have keeps : (s.resetDevice power cause).hw.sealed = s.stopStorage.hw.sealed := rfl
  exact ⟨rfl, rfl, rfl, by rw [bytes, almanac], by rw [keeps, sealed']⟩

theorem elsewhere_power {w lo : Nat} (inside : w < 1024) (low : lo < 32) : Elsewhere nPOWER w lo :=
  ⟨inside, low, by decide, by decide, by decide, by decide⟩

/-- The drill stopped, the ports parked and the markers ended by an emergency detach (11 R422). -/
def State.emergencyParked (s : State) : State :=
  let s := s.modDrill fun d => { d with mode := 0 }
  let s : State := { s with csp := s.csp.map CspPort.finish, sent := s.sent.map SentChan.untriggered }
  let s := s.modYoke fun y => { y with markersOn := false }
  s.modPw fun p => { p with detach := .emergency, detachAt := s.tm.now, detachHigh := true }

theorem State.emergencyParked_parts : s.emergencyParked.pw.detach = .emergency ∧ s.emergencyParked.drill.mode = 0 ∧ s.emergencyParked.usb = s.usb :=
  ⟨rfl, rfl, rfl⟩

/-- What an emergency detach cuts off before it parks the ports: its polling, and the period's sheaf. -/
def State.emergencyCut (s : State) : State := (s.endEpisodes 7).dropUsb.cutUnguarded.dropPeriod

theorem State.emergencyCut_pullup : s.emergencyCut.usb.pullup = false := by
  have released (x : State) : x.dropUsb.usb.pullup = false := rfl
  have cut (x : State) : Within [.counters, .events, .almanac, .drill, .ports, .harrow, .sheaf] x x.cutUnguarded.dropPeriod :=
    State.dropPeriod_frame (State.cutUnguarded_frame (Within.refl x))
  rw [State.emergencyCut, show (s.endEpisodes 7).dropUsb.cutUnguarded.dropPeriod.usb = _ from cut _ .usb (by decide)]
  exact released _

/-- An emergency detach of a running device (11 R422). -/
theorem execEmergencyDetach_stops (action : s.flag nPOWER 0 3 = true) (high : s.pw.prsntHigh = true) (clocked : s.clocked = true)
    (first : s.pw.detach ≠ .emergency) :
    exec .emergencyDetach s = .next ((s.abandonFallow.emergencyCut.emergencyParked.log 0x07 nPOWER 0 2).fail 14 fun f => { f with detach := true }) := by
  simp only [State.clocked, Bool.and_eq_true, beq_iff_eq, bne_iff_ne] at clocked
  obtain ⟨⟨run, on⟩, free⟩ := clocked
  have acts : (!s.flag nPOWER 0 3 || !s.pw.prsntHigh || s.boot.phase == .off || s.boot.phase == .held
      || s.pw.state == .backup || s.pw.state == .off || s.pw.detach == .emergency) = false := by
    simp [action, high, run, on, free, first]
  have whole : execEmergencyDetach s = if !s.flag nPOWER 0 3 || !s.pw.prsntHigh || s.boot.phase == .off || s.boot.phase == .held
      || s.pw.state == .backup || s.pw.state == .off || s.pw.detach == .emergency then .next s
    else .next (((if s.pw.state == .run then s.abandonFallow else s.wakeBy 6).emergencyCut.emergencyParked.log 0x07 nPOWER 0 2).fail 14 fun f => { f with detach := true }) := rfl
  change execEmergencyDetach s = _
  rw [whole, acts, if_neg Bool.false_ne_true, if_pos (show (s.pw.state == .run) = true by simp [run])]

/-- Settles O54: PRSNT_N, the two detaches, the resets and the release. -/
theorem resetsAndDetach : Obligations.ResetsAndDetach := by
  unfold Obligations.ResetsAndDetach
  intro s
  refine ⟨fun low clocked => ?_, fun h changed => ?_, fun action high clocked first => ?_, fun replied => ?_, fun held due => ?_, fun powered alive on => ?_,
    fun p held run bank => ?_⟩
  · exact ⟨_, congrArg Host.Outcome.next (if_neg (by simp [low, clocked])), rfl⟩
  · let x := s.modPw fun p => { p with prsntHigh := h, detachHigh := p.detachHigh || (h && p.detach != .none) }
    have moves : (s.pw.prsntHigh == h) = false := beq_false_of_ne changed
    have executes : exec (.prsntChange h) s = if s.pw.state == .backup || s.pw.state == .off then .next x else .next ((x.wakeSource 6).raise 52) := by
      simp only [exec, execPrsntChange, moves, Bool.false_eq_true, if_false]
      rfl
    rw [executes]
    by_cases dead : (s.pw.state == .backup || s.pw.state == .off) = true
    · rw [if_pos dead]
      refine ⟨x, rfl, rfl, fun run => absurd dead (by simp [run])⟩
    · rw [if_neg dead]
      refine ⟨_, rfl, ?_, fun _ => by simp⟩
      rw [State.raise_pw, (State.wakeSource_parts 6).1.prsnt]
      rfl
  · have executes := execEmergencyDetach_stops action high clocked first
    obtain ⟨detach, mode, usb⟩ := State.emergencyParked_parts (s := s.abandonFallow.emergencyCut)
    have pullup : s.abandonFallow.emergencyCut.emergencyParked.usb.pullup = false := by rw [usb, State.emergencyCut_pullup]
    have fell := (State.log_fallStays (s := s.abandonFallow.emergencyCut.emergencyParked) 0x07 nPOWER 0 2 []).trans (State.fail_fallStays 14 fun f => { f with detach := true })
    refine ⟨_, executes, by rw [fell.detach, detach], ?_, fell.pullup pullup, by rw [State.fail_failures]⟩
    rw [State.fail_drill, State.log_drill, mode]
  · let x := (s.modPw fun p => { p with detach := .held, detachAt := s.tm.now }).dropUsb.bump nPOWER 20 16 16
    have executes : exec .detachRelease s = .next (x.fail 14 fun f => { f with detach := true }) := if_neg (by simp [replied])
    have fell := State.fail_fallStays (s := x) 14 fun f => { f with detach := true }
    refine ⟨_, executes, ?_, fell.pullup rfl, ?_, ?_⟩
    · rw [fell.detach]
      rfl
    · rw [State.fail_failures]
    · rw [fell.counts nPOWER 20 16 (elsewhere_power (by decide) (by decide)) (by decide) (by decide), State.bump_count_same (by decide)]
      rfl
  · have held' : (s.pw.detach != .held && s.pw.detach != .emergency) = false := by
      rcases held with a | b
      · simp [a]
      · simp [b]
    by_cases returned : (s.pw.detachHigh && !s.pw.prsntHigh) = true
    · have executes : exec .detachCycle s = .next (State.keepFailed s (s.resetDevice false 5)) := by
        simp only [exec, execDetachCycle, held', returned, Bool.false_eq_true, if_false, if_true]
      exact ⟨_, executes, rfl, rfl⟩
    · have hold : s.fld nPOWER 0 8 8 ≠ 0 := due.resolve_right fun back => returned (by simp [back.1, back.2])
      have executes : exec .detachCycle s = .next (State.keepFailed s ((s.at (s.pw.detachAt + ticksS (s.fld nPOWER 0 8 8))).resetDevice false 5)) := by
        simp only [exec, execDetachCycle, held', returned, hold, Bool.false_eq_true, if_false]
      exact ⟨_, executes, rfl, rfl⟩
  · refine ⟨s.resetDevice false 2, congrArg Host.Outcome.next (if_neg (by simp [powered, alive, on])), ?_⟩
    obtain ⟨phase, cause, config, bytes, sealed'⟩ := State.resetDevice_parts (s := s) false 2
    refine ⟨phase, cause, fun n w => ?_, bytes, sealed'⟩
    rw [State.reg, config]
    rfl
  · exact ⟨s.release p, congrArg Host.Outcome.next (if_pos (by simp [held, run, bank])), rfl, rfl, rfl, rfl, rfl, rfl⟩

end Sys2Proof.Machine
end

section
/-! SUPPORT. Reference sources: loss, unlock, qualification, switches and the fall to the RC (12 R432 to R447). -/

namespace Sys2Proof.Machine

set_option Elab.async false

variable {s t : State}

/-! ### Failover (12 R441) -/

theorem State.tryFailover_parts : s.tryFailover.clk.holdover = s.clk.holdover ∧ s.tryFailover.ev = s.ev ∧ s.tryFailover.cnt = s.cnt
    ∧ s.tryFailover.clk.xtalOk = s.clk.xtalOk ∧ s.tryFailover.clk.refinOk = s.clk.refinOk ∧ s.tryFailover.clk.yokeOk = s.clk.yokeOk := by
  unfold State.tryFailover
  split <;> exact ⟨rfl, rfl, rfl, rfl, rfl, rfl⟩

theorem State.sourceOk_congr (crystal : t.clk.xtalOk = s.clk.xtalOk) (refin : t.clk.refinOk = s.clk.refinOk) (yoke : t.clk.yokeOk = s.clk.yokeOk) (src : Nat) :
    t.sourceOk src = s.sourceOk src := by
  unfold State.sourceOk
  split
  · exact crystal
  · exact refin
  · exact yoke
  · rfl

/-- A source's qualification set or cleared is what is asked of it. -/
theorem Clk.qualify_sourceOk (c : Clk) {src : Nat} (known : src < 3) (ok : Bool) (clk : t.clk = c.qualify src ok) : t.sourceOk src = ok := by
  have three : src = 0 ∨ src = 1 ∨ src = 2 := by omega
  rcases three with rfl | rfl | rfl <;> simp [State.sourceOk, clk, Clk.qualify]

theorem srcCode_lt (src : Source) : srcCode src < 3 := by cases src <;> decide

theorem elsewhere_clock {w lo : Nat} (inside : w < 1024) (low : lo < 32) : Elsewhere nCLOCK w lo :=
  ⟨inside, low, by decide, by decide, by decide, by decide⟩

/-- A clock event is told: its counter, its record and the event itself. -/
theorem State.clockTold (w lo wd code k a b : Nat) (width : 0 < wd) (inside : w < 1024) (low : lo < 32) :
    (((s.bump nCLOCK w lo wd).clockLog code a b).raise k).has k = true
    ∧ (((s.bump nCLOCK w lo wd).clockLog code a b).raise k).count nCLOCK w lo = satAdd wd (s.count nCLOCK w lo) 1
    ∧ (((s.bump nCLOCK w lo wd).clockLog code a b).raise k).tm = s.tm ∧ (((s.bump nCLOCK w lo wd).clockLog code a b).raise k).clk = s.clk := by
  have apart : Elsewhere nCLOCK w lo := elsewhere_clock inside low
  refine ⟨by simp, ?_, ?_, ?_⟩
  · rw [State.raise_count k apart.lost, State.clockLog, State.log_count _ _ _ _ _ apart.dropped, State.bump_count_same width]
  · rw [State.raise_tm, State.clockLog, State.log_tm]
    rfl
  · rw [State.raise_clk, State.clockLog, State.log_clk]
    rfl

/-! ### The RC fallback (12 R442) -/

theorem State.cutEntry_mode (f e : Nat) : (s.cutEntry f e).drill.mode = s.drill.mode := by
  let ph := (s.entry f e).phase
  let g (r : EntryRt) : EntryRt := { r with
    phase := if ph == .waiting then .skipped else .aborted
    lastEnd := if ph == .waiting then r.lastEnd else 0
    lastOutcome := if ph == .waiting then 4 else 3
    waitStart := false }
  let x := if entType s.reg f e == 1 && ph == .running then
      (s.abortPort f e (s.bitsClocked f e)).abortSelections f e (s.bitsClocked f e) else s
  have aborted : x.drill = s.drill := by
    simp only [x]
    split
    · have port : Within [.counters, .events, .almanac, .ports, .harrow] s ((s.abortPort f e (s.bitsClocked f e)).abortSelections f e (s.bitsClocked f e)) :=
        State.abortSelections_frame _ _ _ (State.abortPort_frame _ _ _ (Within.refl s))
      exact port .drill (by decide)
    · rfl
  have whole : s.cutEntry f e = if ph == .running || ph == .wireDone || ph == .waiting then
      (if ph == .waiting then x.modEntry (entIx f e) g else (x.modEntry (entIx f e) g).missDeadline f e) else s := rfl
  have marked : (x.modEntry (entIx f e) g).drill.mode = s.drill.mode := by
    rw [State.modEntry_drill, ← aborted]
  rw [whole]
  split
  · split
    · exact marked
    · rw [State.missDeadline_drill]
      exact marked
  · rfl

theorem State.cutEntries_mode : s.cutEntries.drill.mode = s.drill.mode :=
  foldl_keeps (fun y : State => y.drill.mode) _ (usedEntries s.reg) (fun _ _ _ => State.cutEntry_mode _ _) s

theorem State.stopReceivers_drill : s.stopReceivers.drill = s.drill := rfl

/-- The end of the fall to the RC: the clock's part set, and the failure that it stands for. -/
def State.fellToRc (s : State) (before : Nat) (c : Clk → Clk) : State :=
  (((s.stopReceivers.modClk c).modYoke fun l => { l with markersOn := false }).clockLog 4 before 3).fail 6 fun f => { f with rc := true }

theorem State.fellToRc_parts (s : State) (before : Nat) (c : Clk → Clk) : (s.fellToRc before c).clk = c s.clk
    ∧ (s.fellToRc before c).lev.fail.rc = true ∧ (s.fellToRc before c).drill.mode = s.drill.mode ∧ (s.fellToRc before c).tm = s.tm := by
  let z := (s.stopReceivers.modClk c).modYoke fun l => { l with markersOn := false }
  have link : Within [.requests, .counters, .events, .almanac, .storage, .fabric, .level, .power, .usb, .harrow, .thresher] z (s.fellToRc before c) :=
    State.fail_frame _ _ (State.clockLog_frame _ _ _ (Within.refl z))
  refine ⟨link .clock (by decide), by rw [State.fellToRc, State.fail_failures], ?_, link .time (by decide)⟩
  rw [State.fellToRc, State.fail_drill, State.clockLog, State.log_drill, State.modYoke_drill, State.modClk_drill, State.stopReceivers_drill]

/-- A running drill is halted, and any other stays as it is (12 R442). -/
def State.haltDrill (s : State) : State := s.ite (s.drill.mode == 1) (·.modDrill fun d => { d with mode := 2 })

theorem State.haltDrill_mode : s.haltDrill.drill.mode = if s.drill.mode = 1 then 2 else s.drill.mode := by
  unfold State.haltDrill State.ite
  simp only [beq_iff_eq]
  split <;> rfl

theorem State.haltDrill_tm : s.haltDrill.tm = s.tm := by
  unfold State.haltDrill State.ite
  split <;> rfl

/-- The fall to the RC ends holdover and halts a running drill (12 R442). -/
theorem State.enterRc_falls : s.enterRc.clk.active = 3 ∧ s.enterRc.clk.holdover = none ∧ s.enterRc.lev.fail.rc = true
    ∧ s.enterRc.drill.mode = (if s.drill.mode = 1 then 2 else s.drill.mode) ∧ s.enterRc.tm = s.tm := by
  have cut : Within [.counters, .events, .almanac, .drill, .ports, .harrow, .sheaf] s s.cutEntries.dropPeriod :=
    State.dropPeriod_frame (State.cutEntries_frame (Within.refl s))
  have mode : s.cutEntries.dropPeriod.drill.mode = s.drill.mode := State.cutEntries_mode
  obtain ⟨c, fell, active, holdover⟩ : ∃ c : Clk → Clk, s.enterRc = s.cutEntries.dropPeriod.haltDrill.fellToRc s.clk.active c
      ∧ (∀ k, (c k).active = 3) ∧ ∀ k, (c k).holdover = none := ⟨_, rfl, fun _ => rfl, fun _ => rfl⟩
  obtain ⟨clk, rc, halted, time⟩ := State.fellToRc_parts s.cutEntries.dropPeriod.haltDrill s.clk.active c
  refine ⟨by rw [fell, clk, active], by rw [fell, clk, holdover], by rw [fell, rc], ?_, ?_⟩
  · rw [fell, halted, State.haltDrill_mode, mode]
  · rw [fell, time, State.haltDrill_tm]
    exact cut .time (by decide)

/-- Before the first lock, and on the RC, a source that qualifies leaves a relock under way (12 R433, R443). -/
def State.beginRelock (s : State) : State :=
  if s.clk.relocking.isSome then s else s.modClk fun c => { c with relocking := s.sourceOrder.find? fun x => s.sourceOk x }

theorem State.beginRelock_relocking {src : Nat} (listed : src ∈ s.sourceOrder) (ok : s.sourceOk src = true) :
    s.beginRelock.clk.relocking.isSome = true ∧ ∀ n, s.beginRelock.sourceOk n = s.sourceOk n := by
  unfold State.beginRelock
  split
  next under => exact ⟨under, fun _ => rfl⟩
  next => exact ⟨List.find?_isSome.mpr ⟨src, listed, ok⟩, fun n => State.sourceOk_congr rfl rfl rfl n⟩

/-- A source that the device may use stands in its order (12 Table CK-3). -/
theorem State.srcCode_mem_sourceOrder {src : Source} (member : src = .yoke → s.isMember = true) : srcCode src ∈ s.sourceOrder := by
  unfold State.sourceOrder
  cases src with
  | crystal => split <;> decide
  | refin => split <;> decide
  | yoke => rw [if_pos (member rfl)]; decide

/-- Settles O57: references lost, unlocked, qualified and switched to, the fall to the RC, and a run of CK_AON. -/
theorem referencesSwitch : Obligations.ReferencesSwitch := by
  unfold Obligations.ReferencesSwitch
  intro s
  refine ⟨fun clocked locked known steady settled => ⟨?_, ?_, fun auto other ok => ?_⟩, fun t0 since settled locked => ?_, fun src clocked member => ?_,
    fun n switching => ?_, fun n relocking => ?_, fun n some' clocked awake => ?_⟩
  · obtain ⟨told, count, time, clk⟩ := State.clockTold (s := s) 2 0 16 1 59 s.clk.active s.clk.active (by decide) (by decide) (by decide)
    let x := ((s.bump nCLOCK 2 0 16).clockLog 1 s.clk.active s.clk.active).raise 59
    let y := x.modClk fun c => { c.qualify s.clk.active false with
      holdover := some (c.holdover.getD x.tm.now)
      lost := some (c.lost.getD s.clk.active)
      switching := none }
    obtain ⟨holdover, ev, cnt, crystal, refin, yoke⟩ := State.tryFailover_parts (s := y)
    have lost : (!s.clocked || !s.clk.locked || decide (3 ≤ s.clk.active) || (s.clk.holdover.isSome && s.clk.switching.isNone)) = false := by
      simp [clocked, locked, known, steady]
    have here : s.clk.switching.getD s.clk.active = s.clk.active := by rw [settled]; rfl
    have executes : exec .referenceLost s = .next y.tryFailover := by
      refine (if_neg (by rw [lost]; decide) : execReferenceLost s = _).trans ?_
      rw [here]
    refine ⟨_, executes, ?_, ?_, ?_, ?_⟩
    · rw [State.has_congr y ev]
      exact told
    · rw [holdover]
      change some (x.clk.holdover.getD x.tm.now) = _
      rw [show x.clk = s.clk from clk, show x.tm = s.tm from time, steady]
      rfl
    · rw [State.sourceOk_congr crystal refin yoke]
      have three : s.clk.active = 0 ∨ s.clk.active = 1 ∨ s.clk.active = 2 := by omega
      rcases three with zero | one | two
      · simp [State.sourceOk, y, zero, Clk.qualify]
      · simp [State.sourceOk, y, one, Clk.qualify]
      · simp [State.sourceOk, y, two, Clk.qualify]
    · rw [State.count_congr cnt]
      exact count
  · obtain ⟨told, count, time, clk⟩ := State.clockTold (s := s) 2 16 16 2 60 s.clk.active s.clk.active (by decide) (by decide) (by decide)
    let x := ((s.bump nCLOCK 2 16 16).clockLog 2 s.clk.active s.clk.active).raise 60
    have lost : (!s.clocked || !s.clk.locked || decide (3 ≤ s.clk.active) || s.clk.holdover.isSome || s.clk.switching.isSome) = false := by
      simp [clocked, locked, known, steady, settled]
    have executes : exec .pllUnlock s = .next (x.modClk fun c => { c with holdover := some x.tm.now, unlocked := true, relocking := some c.active }) := by
      simp only [exec, execPllUnlock, lost, Bool.false_eq_true, if_false]
      rfl
    refine ⟨_, executes, told, ?_, ?_, count⟩
    · change some x.tm.now = _
      rw [show x.tm = s.tm from time]
    · change some x.clk.active = _
      rw [show x.clk = s.clk from clk]
  · have may : (s.clk.locked && s.clk.active < 3 && s.clk.active != s.fld nCLOCK 0 0 2 && s.clk.holdover.isNone && s.clk.switching.isNone
        && s.sourceOk (s.fld nCLOCK 0 0 2)) = true := by
      simp [locked, known, steady, settled, ok, Ne.symm other]
    have back : s.rereference (s.fld nCLOCK 0 0 2) = s.modClk fun c => { c with switching := some (s.fld nCLOCK 0 0 2) } := if_pos may
    exact ⟨_, (congrArg Host.Outcome.next (if_pos auto)).trans (congrArg Host.Outcome.next back), rfl⟩
  · obtain ⟨active, holdover, rc, mode, time⟩ := State.enterRc_falls (s := s.at (t0 + ticksMs 10))
    have executes : exec .holdoverExpiry s = .next (s.at (t0 + ticksMs 10)).enterRc := by
      have locked' : (s.at (t0 + ticksMs 10)).clk.unlocked = false := locked
      simp only [exec, execHoldoverExpiry, since, settled, locked', Option.isSome_none, Bool.false_eq_true, if_false]
    exact ⟨_, executes, active, holdover, rc, mode, by rw [time]; rfl⟩
  · have runs : (!s.clocked || (srcCode src == 2 && !s.isMember)) = false := by
      rcases src with _ | _ | _ <;> simp [srcCode, clocked]
      exact member rfl
    let x := s.modClk fun c => c.qualify (srcCode src) true
    have ok : x.sourceOk (srcCode src) = true := Clk.qualify_sourceOk s.clk (srcCode_lt src) true rfl
    have listed : srcCode src ∈ x.sourceOrder := State.srcCode_mem_sourceOrder (s := s) member
    have stay : x.clk.bootLocked = s.clk.bootLocked ∧ x.clk.active = s.clk.active := by cases src <;> exact ⟨rfl, rfl⟩
    have whole : exec (.sourceQualified src) s = if (!s.clocked || (srcCode src == 2 && !s.isMember)) = true then .next s
        else if (!x.clk.bootLocked || x.clk.active == 3) = true then .next x.beginRelock else .next x.tryFailover := rfl
    rw [whole, runs, if_neg Bool.false_ne_true]
    split
    next relock =>
      obtain ⟨under, kept⟩ := State.beginRelock_relocking listed ok
      exact ⟨_, rfl, (kept _).trans ok, fun _ => under⟩
    next stays =>
      obtain ⟨-, -, -, crystal, refin, yoke⟩ := State.tryFailover_parts (s := x)
      refine ⟨_, rfl, (State.sourceOk_congr crystal refin yoke _).trans ok, fun relock => absurd ?_ stays⟩
      rw [stay.1, stay.2]
      rcases relock with boot | rc
      · simp [boot]
      · simp [rc]
  · refine ⟨(s.modClk fun c => { c with active := n, switching := none, holdover := none, lost := none, unlocked := false }).clockLog 3 s.clk.active n,
      by simp only [exec, execSourceSwitchComplete, switching], ?_, ?_, ?_⟩
    all_goals rw [State.clockLog, State.log_clk]; rfl
  · let x := s.modClk fun c => { c with active := n, locked := true, bootLocked := true, relocking := none, holdover := none, lost := none, unlocked := false }
    let y := if (!s.clk.bootLocked) = true then x else x.clockLog 5 s.clk.active n
    have executes : exec .relockComplete s = .next (if y.lev.fail.rc then y.fail 6 fun f => { f with rc := false } else y) := by
      simp only [exec, execRelockComplete, relocking]
      rfl
    have clk : y.clk = x.clk := by
      simp only [y]
      split
      · rfl
      · rw [State.clockLog, State.log_clk]
    refine ⟨_, executes, ?_⟩
    split
    next rc =>
      have link : Within [.requests, .counters, .events, .almanac, .storage, .fabric, .level, .power, .usb, .harrow, .thresher] y
          (y.fail 6 fun f => { f with rc := false }) := State.fail_frame _ _ (Within.refl y)
      have clock : (y.fail 6 fun f => { f with rc := false }).clk = x.clk := (link .clock (by decide)).trans clk
      rw [clock, State.fail_failures]
      exact ⟨rfl, rfl, rfl, rfl, rfl⟩
    next rc =>
      rw [clk]
      exact ⟨rfl, rfl, rfl, rfl, eq_false_of_ne_true rc⟩
  · have runs : (n = 0 || !s.clocked || s.pw.waking) = false := by simp [some', clocked, awake]
    let x := s.ite s.pw.rtcValid fun s => s.modPw fun p => { p with rtc := (p.rtc + (s.tm.now - p.rtcAt) * 32768 / n) % 2 ^ 64, rtcAt := s.tm.now }
    have clk : x.clk = s.clk := by
      simp only [x, State.ite]
      split <;> rfl
    have executes : exec (.aonCalibrationRun n) s = .next (x.modClk fun c => { c with aonRuns := lastN 8 (c.aonRuns ++ [aonError n]) }) :=
      if_neg (by rw [runs]; decide)
    refine ⟨_, executes, ?_⟩
    rw [State.modClk_clk, clk]

end Sys2Proof.Machine
end

section
/-! SUPPORT. The Almanac's controller: scans, commits, merging windows and dropped records; EP6 and INT_N (13 R470 to R476, R482, R487). -/

namespace Sys2Proof.Machine

set_option Elab.async false

variable {parts : List Part} {s t u : State} {a : Nat}

/-! ### What is written elsewhere (13 Table AL-1) -/

theorem Memory.readList_writeList_apart (d : Byte) {m : Memory} {a b n : Nat} (bs : List Byte) (canonical : Memory.wf d m = true)
    (apart : a + n ≤ b ∨ b + bs.length ≤ a) : Memory.readList d (Memory.writeList d m b bs) a n = Memory.readList d m a n := by
  apply List.map_congr_left
  intro i inside
  have below : i < n := List.mem_range.mp inside
  exact Memory.read_writeList_outside d bs m b (a + i) canonical (by omega)

theorem goodSlot_lt {bad : List Nat} {region start n : Nat} (inside : start < n) : goodSlot bad region start n < n := by
  unfold goodSlot
  split
  · exact Nat.mod_lt _ (by omega)
  · exact inside

theorem AlmRec.bytes_length (r : AlmRec) (seq : Nat) (copied : Bool) : (r.bytes seq copied).length = 64 := by
  simp [AlmRec.bytes, leBytes_length]

theorem freeFirst_lt {m : Alm} {i : Nat} (free : freeFirst m = some i) : i < 256 := by
  unfold freeFirst findBelow at free
  exact List.mem_range.mp (List.mem_of_find?_eq_some free)

/-! ### What a commit leaves of the queue, the sequence and a slot of the ring -/

/-- The queue, the next sequence, the dropped count and the slot at an address as they were, in a device that Harrow leaves alone as before. -/
structure RecordsKept (a : Nat) (s t : State) : Prop where
  canonical : Memory.wf almEmpty s.alm.bytes = true → Memory.wf almEmpty t.alm.bytes = true
  slot : Memory.wf almEmpty s.alm.bytes = true → almSlot t.alm.bytes a = almSlot s.alm.bytes a
  queue : t.alm.queue = s.alm.queue
  nextSeq : t.alm.nextSeq = s.alm.nextSeq
  dropped : t.alm.dropped = s.alm.dropped
  quiet : t.quiet = s.quiet

theorem RecordsKept.refl (a : Nat) (s : State) : RecordsKept a s s := ⟨id, fun _ => rfl, rfl, rfl, rfl, rfl⟩

theorem RecordsKept.trans (h : RecordsKept a s t) (h' : RecordsKept a t u) : RecordsKept a s u where
  canonical w := h'.canonical (h.canonical w)
  slot w := (h'.slot (h.canonical w)).trans (h.slot w)
  queue := h'.queue.trans h.queue
  nextSeq := h'.nextSeq.trans h.nextSeq
  dropped := h'.dropped.trans h.dropped
  quiet := h'.quiet.trans h.quiet

/-- Harrow is as quiet as before where its block, the clock and the applied words are. -/
theorem Within.quiet_same (w : Within parts s t) (apart : ∀ q ∈ [Part.time, .config, .harrow], q ∉ parts := by decide) : t.quiet = s.quiet := by
  obtain ⟨episodes, -, -, -, -, -, -, reorder, -⟩ : Part.harrow.same s t := w .harrow (apart _ (by simp))
  exact State.quiet_congr (w .time (apart _ (by simp))) (w .config (apart _ (by simp))) episodes reorder

theorem RecordsKept.of_alm (alm : t.alm = s.alm) (quiet : t.quiet = s.quiet) : RecordsKept a s t := by
  constructor <;> simp [alm, quiet]

theorem State.modAlm_recordsKept {f : Alm → Alm} (bytes : (f s.alm).bytes = s.alm.bytes) (queue : (f s.alm).queue = s.alm.queue)
    (nextSeq : (f s.alm).nextSeq = s.alm.nextSeq) (dropped : (f s.alm).dropped = s.alm.dropped) : RecordsKept a s (s.modAlm f) where
  canonical w := by rw [State.modAlm_alm, bytes]; exact w
  slot _ := by rw [State.modAlm_alm, bytes]
  queue := queue
  nextSeq := nextSeq
  dropped := dropped
  quiet := rfl

theorem State.bump_recordsKept (n w lo wd : Nat) : RecordsKept a s (s.bump n w lo wd) := RecordsKept.of_alm rfl rfl

theorem State.raise_recordsKept (k : Nat) : RecordsKept a s (s.raise k) :=
  RecordsKept.of_alm (State.raise_alm _ _)
    (Within.quiet_same (State.raise_frame (parts := [.counters, .events]) k (Within.refl s)))

theorem State.modPw_recordsKept (f : Pw → Pw) : RecordsKept a s (s.modPw f) := RecordsKept.of_alm rfl rfl

theorem State.modChan_recordsKept (ch : Nat) (f : Chan → Chan) : RecordsKept a s (s.modChan ch f) := RecordsKept.of_alm rfl rfl

theorem State.stream6_recordsKept (b : List Byte) : RecordsKept a s (s.stream6 b) := by
  unfold State.stream6
  split
  · exact State.bump_recordsKept _ _ _ _
  · exact ⟨id, fun _ => rfl, rfl, rfl, rfl, rfl⟩

theorem State.queueReply_recordsKept (ch : Nat) (y : Reply) : RecordsKept a s (s.queueReply ch y) := by
  let x := s.modChan ch fun c => { c with replies := c.replies ++ [y] }
  let z := x.ite (x.fld nALMANAC 0 0 2 == 2) fun s => s.stream6 (traceEntry s ch y)
  have traced : RecordsKept a s z := by
    refine (State.modChan_recordsKept ch _).trans (?_ : RecordsKept a x z)
    simp only [z, State.ite]
    split
    · exact State.stream6_recordsKept _
    · exact RecordsKept.refl a x
  have told : RecordsKept a s (z.raise 22) := traced.trans (State.raise_recordsKept 22)
  have whole : s.queueReply ch y = if (16 ≤ (nth {} (z.raise 22).mb.chans ch).replies.length && !(nth {} (z.raise 22).mb.chans ch).flow) = true
      then (((z.raise 22).modChan ch fun c => { c with flow := true }).bump nSYS 12 16 16).raise 23 else z.raise 22 := rfl
  rw [whole]
  split
  · exact ((told.trans (State.modChan_recordsKept ch _)).trans (State.bump_recordsKept _ _ _ _)).trans (State.raise_recordsKept 23)
  · exact told

theorem State.answer_recordsKept (quiet : s.quiet = true) (ch id : Nat) (y : Reply) (st : HistState) : RecordsKept a s (s.answer ch id y st) := by
  simp only [State.answer, State.ite]
  split
  · rw [State.sendReply_quiet (by exact quiet)]
    exact (State.modChan_recordsKept ch _).trans (State.queueReply_recordsKept _ _)
  · rw [State.sendReply_quiet quiet]
    exact State.queueReply_recordsKept _ _

theorem State.complete_recordsKept (quiet : s.quiet = true) (k : Ticket) (st : Nat) (p : List Byte) : RecordsKept a s (s.complete k st p) := by
  unfold State.complete
  split
  · exact RecordsKept.refl a s
  next h found =>
    exact RecordsKept.trans (State.modChan_recordsKept k.ch.val fun c => { c with held := c.held.filter (·.id != k.id) })
      (State.answer_recordsKept (by exact quiet) _ _ _ _)

theorem State.completeOpt_recordsKept (quiet : s.quiet = true) (k : Option Ticket) (st : Nat) (p : List Byte) :
    RecordsKept a s (s.completeOpt k st p) := by
  cases k with
  | none => exact RecordsKept.refl a s
  | some k => exact State.complete_recordsKept quiet k st p

/-- Bytes written elsewhere leave a slot as it was. -/
theorem State.almWrite_recordsKept {b : Nat} (bs : List Byte) (apart : a + 64 ≤ b ∨ b + bs.length ≤ a) : RecordsKept a s (s.almWrite b bs) where
  canonical w := Memory.wf_writeList _ _ _ _ w
  slot w := Memory.readList_writeList_apart _ bs w apart
  queue := rfl
  nextSeq := rfl
  dropped := rfl
  quiet := rfl

/-- A counters copy of some bytes, with the number and the copy that the controller keeps of it (13 R555). -/
def State.savedAs (s : State) (c n : Nat) (bs : List Byte) : State :=
  (s.almWrite (copyAddr c) bs).modAlm fun m => { m with saveCount := n, copy := c }

theorem State.saveCounters_eq : s.saveCounters
    = s.savedAs (1 - s.alm.copy) ((s.alm.saveCount + 1) % 2 ^ 32) (countersCopy s.alm ((s.alm.saveCount + 1) % 2 ^ 32)) := by
  unfold State.saveCounters State.savedAs
  rfl

theorem State.savedAs_recordsKept (c n : Nat) (bs : List Byte) (below : a + 64 ≤ 0x3F000) : RecordsKept a s (s.savedAs c n bs) :=
  RecordsKept.trans (State.almWrite_recordsKept (b := copyAddr c) bs (by simp only [copyAddr]; omega)) (State.modAlm_recordsKept rfl rfl rfl rfl)

theorem State.saveCounters_recordsKept (below : a + 64 ≤ 0x3F000) : RecordsKept a s s.saveCounters := by
  rw [State.saveCounters_eq]
  exact State.savedAs_recordsKept _ _ _ below

theorem State.savedAs_seq (c n : Nat) (bs : List Byte) :
    (s.savedAs c n bs).alm.nextSeq = s.alm.nextSeq ∧ (s.savedAs c n bs).alm.scanDone = s.alm.scanDone := ⟨rfl, rfl⟩

/-- A counters copy saved leaves the sequence and the scan as they were. -/
theorem State.saveCounters_seq : s.saveCounters.alm.nextSeq = s.alm.nextSeq ∧ s.saveCounters.alm.scanDone = s.alm.scanDone := by
  rw [State.saveCounters_eq]
  exact State.savedAs_seq _ _ _

/-- The first-fault zone lies below the ring: a copy in it leaves every slot of the ring as it was. -/
theorem State.copyFirst_recordsKept (r : AlmRec) (seq : Nat) (above : 0x5000 ≤ a) : RecordsKept a s (s.copyFirst r seq true) := by
  let y : State := match freeFirst s.alm with
    | some i => s.almWrite (slotAddr 1 i) (r.bytes seq true)
    | none => (s.bump nALMANAC 8 0 16).modAlm fun m => { m with firstFull := true }
  have filled : RecordsKept a s y := by
    simp only [y]
    split
    next i free =>
      have := freeFirst_lt free
      exact State.almWrite_recordsKept _ (by rw [AlmRec.bytes_length]; simp only [slotAddr]; omega)
    next => exact (State.bump_recordsKept nALMANAC 8 0 16).trans ⟨id, fun _ => rfl, rfl, rfl, rfl, rfl⟩
  have whole : s.copyFirst r seq true = y.modAlm fun m => { m with firstFull := m.firstFull || (freeFirst m).isNone } := by
    unfold State.copyFirst
    cases freeFirst s.alm <;> rfl
  rw [whole]
  exact filled.trans ⟨id, fun _ => rfl, rfl, rfl, rfl, rfl⟩

/-! ### One record written -/

/-- The record in its slot of the ring, and the sequence taken (13 R470, R475). -/
def State.ringWritten (s : State) (r : AlmRec) : State :=
  let i := goodSlot s.alm.bad 2 s.alm.ringNext 3584
  (s.almWrite (slotAddr 2 i) (r.bytes s.alm.nextSeq (r.first && (freeFirst s.alm).isSome))).modAlm fun m => { m with
    ringNext := (i + 1) % 3584
    nextSeq := nextSequence s.alm.nextSeq
    written := satAdd 32 m.written 1 }

/-- What follows the slot of the ring: the wrap told, the record counted, copied to the zone and streamed, and the counters saved. -/
def State.afterRing (s : State) (wrapped : Bool) (r : AlmRec) (seq : Nat) (bs : List Byte) : State :=
  let s := if wrapped then (s.bump nALMANAC 8 16 16).raise 53 else s
  let s := s.bump nALMANAC 5 0 32
  let s := if r.first then s.copyFirst r seq true else s
  let s := if s.fld nALMANAC 0 0 2 != 0 then s.stream6 bs else s
  s.saveCounters

theorem State.afterRing_recordsKept (wrapped : Bool) (r : AlmRec) (seq : Nat) (bs : List Byte) (above : 0x5000 ≤ a) (below : a + 64 ≤ 0x3F000) :
    RecordsKept a s (s.afterRing wrapped r seq bs) := by
  let x := if wrapped then (s.bump nALMANAC 8 16 16).raise 53 else s
  let y := x.bump nALMANAC 5 0 32
  let z := if r.first then y.copyFirst r seq true else y
  let v := if z.fld nALMANAC 0 0 2 != 0 then z.stream6 bs else z
  have told : RecordsKept a s x := by
    simp only [x]
    split
    · exact (State.bump_recordsKept _ _ _ _).trans (State.raise_recordsKept 53)
    · exact RecordsKept.refl a s
  have copied : RecordsKept a y z := by
    simp only [z]
    split
    · exact State.copyFirst_recordsKept r seq above
    · exact RecordsKept.refl a y
  have streamed : RecordsKept a z v := by
    simp only [v]
    split
    · exact State.stream6_recordsKept bs
    · exact RecordsKept.refl a z
  have counted : RecordsKept a x y := State.bump_recordsKept nALMANAC 5 0 32
  have whole : s.afterRing wrapped r seq bs = v.saveCounters := rfl
  rw [whole]
  exact (((told.trans counted).trans copied).trans streamed).trans (State.saveCounters_recordsKept below)

theorem State.ringWritten_parts (canonical : Memory.wf almEmpty s.alm.bytes = true) (r : AlmRec) :
    Memory.wf almEmpty (s.ringWritten r).alm.bytes = true
    ∧ almSlot (s.ringWritten r).alm.bytes (slotAddr 2 (goodSlot s.alm.bad 2 s.alm.ringNext 3584))
      = r.bytes s.alm.nextSeq (r.first && (freeFirst s.alm).isSome)
    ∧ (s.ringWritten r).alm.queue = s.alm.queue ∧ (s.ringWritten r).alm.nextSeq = nextSequence s.alm.nextSeq
    ∧ (s.ringWritten r).alm.dropped = s.alm.dropped ∧ (s.ringWritten r).quiet = s.quiet := by
  have long := AlmRec.bytes_length r s.alm.nextSeq (r.first && (freeFirst s.alm).isSome)
  simp only [State.ringWritten]
  generalize r.bytes s.alm.nextSeq (r.first && (freeFirst s.alm).isSome) = bs at long ⊢
  generalize goodSlot s.alm.bad 2 s.alm.ringNext 3584 = i
  have reads := Memory.readList_writeList almEmpty s.alm.bytes (slotAddr 2 i) bs canonical
  rw [long] at reads
  exact ⟨Memory.wf_writeList _ _ _ _ canonical, reads, rfl, rfl, rfl, rfl⟩

theorem State.writeRecord_eq (r : AlmRec) : s.writeRecord r true = (s.ringWritten r).afterRing (goodSlot s.alm.bad 2 s.alm.ringNext 3584 = 0) r
    s.alm.nextSeq (r.bytes s.alm.nextSeq (r.first && (freeFirst s.alm).isSome)) := by
  unfold State.writeRecord State.afterRing State.ringWritten
  simp only [decide_eq_true_eq]

/-- What a record's commit asks for besides the write: replies alone, where it clears no zone and stops no switching (13 R480, R481, R484). -/
theorem State.afterCommit_recordsKept (quiet : s.quiet = true) {r : AlmRec} (seq : Nat) (clears : r.type ≠ 0x91) (stops : r.type ≠ 0x06) :
    RecordsKept a s (s.afterCommit r seq) := by
  let x := s.completeOpt r.ticket stOk (leBytes 4 seq)
  have replied : RecordsKept a s x := State.completeOpt_recordsKept quiet _ _ _
  have still : x.quiet = true := replied.quiet.trans quiet
  have whole : s.afterCommit r seq = if (r.type = 0x07 && r.code = 1 && x.pw.detach == .recording) = true then
      (x.modPw fun p => { p with detach := .replied, detachAt := x.tm.now }).completeOpt x.pw.detachTicket stOk (leBytes 6 x.pw.detachPeriod ++ [0, 0])
      else x := by
    simp only [State.afterCommit, clears, stops, decide_false, Bool.false_and, Bool.false_eq_true, if_false]
    rfl
  rw [whole]
  split
  · exact (replied.trans (State.modPw_recordsKept fun p => { p with detach := .replied, detachAt := x.tm.now })).trans
      (State.completeOpt_recordsKept (by exact still) _ _ _)
  · exact replied

/-! ### Records told keep the sequence -/

theorem State.tellDrops_seq : s.tellDrops.alm.nextSeq = s.alm.nextSeq ∧ s.tellDrops.alm.scanDone = s.alm.scanDone := by
  unfold State.tellDrops
  (repeat' split) <;> exact ⟨rfl, rfl⟩

theorem State.enqueue_seq (r : AlmRec) : (s.enqueue r).alm.nextSeq = s.alm.nextSeq ∧ (s.enqueue r).alm.scanDone = s.alm.scanDone := by
  unfold State.enqueue
  dsimp only
  split
  · exact State.tellDrops_seq
  · exact ⟨rfl, rfl⟩

theorem State.closeWindow_seq (v : MergeWin) (k : Nat) :
    (s.closeWindow v k).alm.nextSeq = s.alm.nextSeq ∧ (s.closeWindow v k).alm.scanDone = s.alm.scanDone := by
  unfold State.closeWindow
  dsimp only
  split
  · exact ⟨rfl, rfl⟩
  · exact State.enqueue_seq _

/-- A record queued, merged or left out is no commit: the sequence and the scan stand. -/
theorem State.record_seq (r : AlmRec) : (s.record r).alm.nextSeq = s.alm.nextSeq ∧ (s.record r).alm.scanDone = s.alm.scanDone := by
  unfold State.record
  dsimp only
  split
  · exact ⟨rfl, rfl⟩
  split
  · exact State.enqueue_seq r
  · let x := match s.alm.windows.find? (·.key == mergeKey r) with
      | some w => if w.opened + ticksS 1 ≤ s.tm.now then s.closeWindow w (w.opened + ticksS 1) else s
      | none => s
    have closed : x.alm.nextSeq = s.alm.nextSeq ∧ x.alm.scanDone = s.alm.scanDone := by
      simp only [x]
      (repeat' split)
      · exact State.closeWindow_seq _ _
      · exact ⟨rfl, rfl⟩
      · exact ⟨rfl, rfl⟩
    split
    · exact closed
    · exact ⟨(State.enqueue_seq r).1.trans closed.1, (State.enqueue_seq r).2.trans closed.2⟩

/-- What a scan adds to the registers that it sets: the torn slots told, and the counters saved (13 R471). -/
def State.scanTold (s : State) : State :=
  let ring := tornSlots s.alm 2
  let zone := tornSlots s.alm 1
  let s := if ring + zone = 0 then s else s.log 0xA0 nALMANAC 0 2 (leBytes 4 ring ++ leBytes 4 zone)
  s.saveCounters

theorem State.scanTold_seq : s.scanTold.alm.nextSeq = s.alm.nextSeq ∧ s.scanTold.alm.scanDone = s.alm.scanDone := by
  unfold State.scanTold
  dsimp only
  rw [State.saveCounters_seq.1, State.saveCounters_seq.2]
  split
  · exact ⟨rfl, rfl⟩
  · exact State.record_seq _

/-- A slot marked bad, whatever it holds then. -/
def State.markedAs (s : State) (a j : Nat) (bs : List Byte) : State :=
  ((s.almWrite a bs).modAlm fun m => { m with bad := if m.bad.contains j then m.bad else m.bad ++ [j] }).bump nALMANAC 6 16 16

theorem State.markedAs_parts (a j : Nat) (bs : List Byte) :
    (s.markedAs a j bs).alm.nextSeq = s.alm.nextSeq ∧ (s.markedAs a j bs).alm.bad.contains j = true := by
  refine ⟨rfl, ?_⟩
  have bad : (s.markedAs a j bs).alm.bad = if s.alm.bad.contains j then s.alm.bad else s.alm.bad ++ [j] := rfl
  rw [bad]
  split
  next old => exact old
  next => simp

/-- A slot whose write failed twice is marked, with event 54, and takes no sequence (13 R476). -/
theorem State.markBad_parts (region i : Nat) : (s.markBad region i).has 54 = true ∧ (s.markBad region i).alm.nextSeq = s.alm.nextSeq
    ∧ (s.markBad region i).alm.bad.contains (badIndex region i) = true := by
  have whole : s.markBad region i = (({ s with freeCount := s.freeCount + 64 } : State).markedAs (slotAddr region i) (badIndex region i)
      ((List.range 64).map fun k => Config.slotByte (s.freeCount + k))).raise 54 := rfl
  rw [whole, State.raise_alm]
  obtain ⟨next, bad⟩ := State.markedAs_parts (s := ({ s with freeCount := s.freeCount + 64 } : State)) (slotAddr region i) (badIndex region i)
    ((List.range 64).map fun k => Config.slotByte (s.freeCount + k))
  exact ⟨by simp, next, bad⟩

/-! ### INT_N (13 R487) -/

/-- coalesce_us after its release INT_N is asserted where an enabled event is pending. -/
theorem State.settleInt_expired {t0 : Nat} (release : s.ev.intRelease = some t0) (past : t0 + s.coalesce ≤ s.tm.now)
    (wanted : (s.ev.pending &&& s.intEnable) ≠ 0) : s.settleInt.ev.intN = true := by
  have free : (s.coalesce != 0 && decide (s.tm.now < t0 + s.coalesce)) = false := by simp [past]
  unfold State.settleInt
  simp only [bne_iff_ne.mpr wanted, release, free, Bool.not_true, Bool.and_false, Bool.false_eq_true, if_false, Bool.and_true, Bool.not_false]
  split
  · rfl
  next on => simpa using on

/-- Settles O56: scans, commits, merging windows and drops; EP6, and INT_N after its coalescing. -/
theorem recordsCommitted : Obligations.RecordsCommitted := by
  unfold Obligations.RecordsCommitted
  intro s inv
  refine ⟨fun undone before clocked => ?_, fun ring zone r rest queue run on done => ⟨fun written copied drops quiet inside thermal clears => ?_,
    fun first second => ?_⟩, fun key w found => ?_, fun drops untold room => ?_, fun open' => ?_, fun up => ?_, fun t0 release => ?_⟩
  · let x := s.modAlm fun m => m.scanned (s.boot.kind == .reset && s.boot.cause == 1)
    have executes : exec .almanacScanDone s = .next (x.modBackup fun k => k.scanned x.alm.bytes).scanTold :=
      if_neg (by simp [undone, before, clocked])
    refine ⟨_, executes, ?_, ?_⟩
    · rw [State.scanTold_seq.2]
      rfl
    · rw [State.scanTold_seq.1]
      rfl
  · let i := goodSlot s.alm.bad 2 s.alm.ringNext 3584
    let x := s.modAlm fun m => { m with queue := rest, before := m.before - 1 }
    have may : (s.pw.state != .run || s.boot.phase == .off || (!s.alm.scanDone && s.alm.before = 0)) = false := by simp [run, on, done]
    have passes : (!ring.first && !ring.second) = false := by rcases written with h | h <;> simp [h]
    have zoneOk : (zone.first || zone.second) = true := by rcases copied with h | h <;> simp [h]
    have executes : exec (.almanacRecordCommit ring zone) s = .next (((x.writeRecord r true).tellDrops).afterCommit r s.alm.nextSeq) := by
      simp only [exec, execAlmanacRecordCommit, queue, may, passes, zoneOk, Bool.false_eq_true, if_false]
      rfl
    have slot : i < 3584 := goodSlot_lt inside
    have above : 0x5000 ≤ slotAddr 2 i := by simp only [slotAddr]; omega
    have below : slotAddr 2 i + 64 ≤ 0x3F000 := by simp only [slotAddr]; omega
    have after : RecordsKept (slotAddr 2 i) (x.ringWritten r) (x.writeRecord r true) := by
      rw [State.writeRecord_eq]
      exact State.afterRing_recordsKept _ _ _ _ above below
    obtain ⟨canonical, reads, queued, next, fewer, still⟩ := State.ringWritten_parts (s := x) inv.canonical_alm r
    have none' : (x.writeRecord r true).tellDrops = x.writeRecord r true := if_pos ((after.dropped.trans fewer).trans drops)
    have kept : RecordsKept (slotAddr 2 i) (x.ringWritten r) (((x.writeRecord r true).tellDrops).afterCommit r s.alm.nextSeq) := by
      rw [none']
      exact after.trans (State.afterCommit_recordsKept ((after.quiet.trans still).trans quiet) _ clears thermal)
    exact ⟨_, executes, kept.queue.trans queued, kept.nextSeq.trans next, (kept.slot canonical).trans reads⟩
  · let i := goodSlot s.alm.bad 2 s.alm.ringNext 3584
    have may : (s.pw.state != .run || s.boot.phase == .off || (!s.alm.scanDone && s.alm.before = 0)) = false := by simp [run, on, done]
    have fails : (!ring.first && !ring.second) = true := by simp [first, second]
    have executes : exec (.almanacRecordCommit ring zone) s = .next ((s.markBad 2 i).modAlm fun m => { m with
        queue := r :: badRecord s 2 i :: rest
        ringNext := (i + 1) % 3584
        before := if m.before = 0 then 0 else m.before + 1 }) := by
      simp only [exec, execAlmanacRecordCommit, queue, may, fails, Bool.false_eq_true, if_false, if_true]
      rfl
    obtain ⟨told, next, bad⟩ := State.markBad_parts (s := s) 2 i
    exact ⟨_, executes, told, rfl, next, bad⟩
  · have same : w.key = key := by simpa using List.find?_some found
    have executes : exec (.mergeWindowClose key) s = .next ((s.at (w.opened + ticksS 1)).closeWindow w (w.opened + ticksS 1)) := by
      simp only [exec, execMergeWindowClose, found]
    refine ⟨_, executes, by rw [State.closeWindow_tm]; rfl, fun none' => ?_, fun some' room => ?_⟩
    · rw [State.closeWindow, if_pos none']
      refine ⟨?_, rfl⟩
      simp [same]
    · rw [State.closeWindow, if_neg some', State.enqueue_room _ (by exact room)]
      simp [summaryOf]
  · have told : s.tellDrops = s.modAlm fun m => { m with dropped := 0, queue := m.queue ++ [dropRecord s m.dropped] } := by
      unfold State.tellDrops
      rw [if_neg drops, untold, if_neg Bool.false_ne_true, if_pos room]
    exact ⟨_, congrArg Host.Outcome.next told, rfl, rfl⟩
  · exact ⟨_, if_pos open', rfl, rfl⟩
  · exact ⟨_, if_neg (by simp [up]), rfl, rfl⟩
  · have executes : exec .intNCoalesceExpiry s = .next (s.at (t0 + s.coalesce)).settleInt := by simp only [exec, execIntNCoalesceExpiry, release]
    refine ⟨_, executes, by rw [State.settleInt_tm]; rfl, fun wanted => ?_⟩
    exact State.settleInt_expired release (Nat.le_max_right _ _) wanted

end Sys2Proof.Machine
end

section
/-! SUPPORT. A hub port in a state that the hub never gives it, which a disconnection leaves as it is (09 R322). -/

namespace Sys2Proof.Machine

set_option Elab.async false

/-- The reset state with the pull-up enabled, and with port 1 powered in a state past those of a hub port. -/
def portPastStates : State := State.reset.modUsb fun u => { u with pullup := true, ports := [{ ppe := true, state := 6 }, {}, {}, {}] }

theorem portPastStates_inv : portPastStates.Inv := ⟨by decide +kernel, invariantAtReset.2⟩

/-- The device of such a port is not gone: only the states from 2 to 4 have one. -/
theorem portPastStates_stays {t : State} (ran : exec (.hubConnectChange 0 false 0) portPastStates = .next t) :
    (nth {} t.usb.ports 0).state = 6 := by
  cases ran
  decide +kernel

/-- Refutes O59: its states bound no port's state. A disconnection at a powered port in a state past those of the hub class (0 to 5) leaves
that state, where the statement has 1. -/
theorem not_streamsAndHubServe : ¬ Obligations.StreamsAndHubServe := by
  unfold Obligations.StreamsAndHubServe
  intro claim
  obtain ⟨-, -, hub, -⟩ := claim portPastStates portPastStates_inv
  obtain ⟨-, -, -, -, -, changes, -⟩ := hub (by decide +kernel)
  obtain ⟨t, ran, gone, -⟩ := changes 0 false 0 (by decide +kernel) (by decide +kernel) (by decide +kernel) (by decide +kernel)
  exact absurd ((portPastStates_stays ran).symm.trans gone) (by decide)

end Sys2Proof.Machine
end

section
/-! SUPPORT. The USB function: attachment, resets, suspension and resume, its control requests, reports and replies (09 R299 to R303, R316 to
R318, R325 to R327; 13 R486). -/

namespace Sys2Proof.Machine

set_option Elab.async false

variable {parts : List Part} {s t : State} {n w lo : Nat}

/-! ### A pending START or STOP replaced (04 R147) -/

theorem elsewhere_usb (inside : w < 1024) (low : lo < 32) : Elsewhere nUSB w lo := ⟨inside, low, by decide, by decide, by decide, by decide⟩

theorem State.setRun_usb (p : Option PendingRun) : (s.setRun p).usb = s.usb :=
  (State.setRun_frame (parts := [.requests, .shadow, .counters, .events, .almanac, .harrow]) p (Within.refl s)) .usb (by decide)

theorem State.setRun_eventsKept (p : Option PendingRun) : EventsKept s (s.setRun p) := by
  unfold State.setRun
  dsimp only
  split
  · have kept : EventsKept s (s.modMb fun m => { m with run := p }) := EventsKept.of_ev rfl
    exact kept.trans (State.completeOpt_eventsKept _ _ _)
  · exact EventsKept.of_ev rfl

theorem State.setRun_count (h : Elsewhere n w lo) (p : Option PendingRun) : (s.setRun p).count n w lo = s.count n w lo := by
  unfold State.setRun
  dsimp only
  split
  · rw [State.completeOpt_count h, State.modMb_count]
  · rfl

/-! ### Leaving the suspended state (09 R317) -/

theorem State.leaveSuspend_awake (awake : s.usb.suspended = false) : s.leaveSuspend = s := if_neg (by simp [awake])

/-- The function as it leaves the suspended state. -/
def Usb.resumed (u : Usb) : Usb :=
  { u with
    suspended := false
    state := u.before
    resuming := false
    stoppedDrill := false
    streams := u.streams.map fun x => { x with fresh := true } }

theorem State.leaveSuspend_eq (asleep : s.usb.suspended = true) : s.leaveSuspend = if s.usb.stoppedDrill then
    ((s.modUsb Usb.resumed).raise 25).setRun (some { ticket := none, start := true, named := none }) else (s.modUsb Usb.resumed).raise 25 :=
  if_pos asleep

theorem State.leaveSuspend_resumes (asleep : s.usb.suspended = true) :
    s.leaveSuspend.usb = s.usb.resumed ∧ s.leaveSuspend.has 25 = true ∧ ∀ {n w lo}, Elsewhere n w lo → s.leaveSuspend.count n w lo = s.count n w lo := by
  have told : ((s.modUsb Usb.resumed).raise 25).has 25 = true := by simp
  have counts {n w lo : Nat} (h : Elsewhere n w lo) : ((s.modUsb Usb.resumed).raise 25).count n w lo = s.count n w lo := by
    rw [State.raise_count _ h.lost, State.modUsb_count]
  rw [State.leaveSuspend_eq asleep]
  split
  · exact ⟨by rw [State.setRun_usb, State.raise_usb]; rfl, State.setRun_eventsKept _ _ told, fun h => (State.setRun_count h _).trans (counts h)⟩
  · exact ⟨by rw [State.raise_usb]; rfl, told, counts⟩

/-- Address, VBUS and counters stand as the function leaves the suspended state, if it was in it. -/
theorem State.leaveSuspend_stays : s.leaveSuspend.usb.address = s.usb.address ∧ s.leaveSuspend.usb.vbus = s.usb.vbus
    ∧ ∀ {n w lo}, Elsewhere n w lo → s.leaveSuspend.count n w lo = s.count n w lo := by
  by_cases asleep : s.usb.suspended = true
  · obtain ⟨usb, -, counts⟩ := State.leaveSuspend_resumes asleep
    exact ⟨by rw [usb]; rfl, by rw [usb]; rfl, counts⟩
  · rw [State.leaveSuspend_awake (by simpa using asleep)]
    exact ⟨rfl, rfl, fun _ => rfl⟩

/-! ### Suspension (09 R316) -/

theorem State.Inv.canonical_cnt (inv : s.Inv) : Tab.wf (fun _ => 0) s.cnt = true := by
  have canonical := inv.2
  simp only [State.canonical, Bool.and_eq_true] at canonical
  tauto

theorem State.suspendStream_parts (canonical : Tab.wf (fun _ => 0) s.cnt = true) (e : Nat) :
    Tab.wf (fun _ => 0) (s.suspendStream e).cnt = true
    ∧ (∀ {n w lo}, cntKey n w lo ≠ cntKey nUSB 13 (16 * e) → (s.suspendStream e).count n w lo = s.count n w lo)
    ∧ (s.suspendStream e).usb.state = s.usb.state ∧ (s.suspendStream e).tm = s.tm := by
  refine ⟨Tab.wf_set _ _ _ _ canonical, fun other => ?_, rfl, rfl⟩
  exact (Tab.get_set _ _ _ _ _ canonical).trans (if_neg other)

/-- Both streams stopped, each with its skipped sheaves counted; the function's own state and counters stand. -/
theorem State.suspendStreams_parts (inv : s.Inv) : (s.each [0, 1] State.suspendStream).usb.state = s.usb.state
    ∧ (s.each [0, 1] State.suspendStream).count nUSB 14 16 = s.count nUSB 14 16 := by
  obtain ⟨canonical, first, state, -⟩ := State.suspendStream_parts inv.canonical_cnt 0
  obtain ⟨-, second, state', -⟩ := State.suspendStream_parts canonical 1
  exact ⟨state'.trans state, (second (by decide)).trans (first (by decide))⟩

/-! ### Suspended, and reported (13 R486) -/

/-- The function and the hub suspended: the state left is kept, and the event is told (09 R316). -/
def State.suspendFunction (s : State) (stop : Bool) : State :=
  (((s.modUsb fun u => { u with
    suspended := true
    before := u.state
    state := 5
    suspendedAt := s.tm.now
    stoppedDrill := stop }).modEv fun e => { e with wake := false }).bump nUSB 14 16 16).raise 24

theorem State.suspendFunction_parts (stop : Bool) : (s.suspendFunction stop).usb.suspended = true ∧ (s.suspendFunction stop).usb.state = 5
    ∧ (s.suspendFunction stop).usb.before = s.usb.state ∧ (s.suspendFunction stop).has 24 = true
    ∧ (s.suspendFunction stop).count nUSB 14 16 = satAdd 16 (s.count nUSB 14 16) 1 := by
  refine ⟨?_, ?_, ?_, by simp [State.suspendFunction], ?_⟩
  · rw [State.suspendFunction, State.raise_usb]; rfl
  · rw [State.suspendFunction, State.raise_usb]; rfl
  · rw [State.suspendFunction, State.raise_usb]; rfl
  · rw [State.suspendFunction, State.raise_count _ (elsewhere_usb (by decide) (by decide)).lost, State.bump_count_same (by decide)]
    rfl

/-- What the host acknowledges leaves the accumulator, and nothing else does. -/
theorem bitAt_cleared (a m : Nat) {k : Nat} (low : k < 64) : bitAt (a &&& ((2 ^ 64 - 1) ^^^ m)) k = (bitAt a k && !bitAt m k) := by
  rw [bitAt, Nat.testBit_and, Nat.testBit_xor, Nat.testBit_two_pow_sub_one, decide_eq_true low, Bool.true_xor]
  rfl

/-- A reply collected: the next one stands first, whatever the framing becomes. -/
theorem State.collect_parts (ch : Nat) : (s.collect ch).usb = s.usb ∧ (s.collect ch).mb.chans
    = (s.modChan ch fun c => { c with replies := c.replies.tail, flow := c.flow && decide (16 < c.replies.length) }).mb.chans := by
  unfold State.collect
  dsimp only
  (repeat' split) <;> exact ⟨rfl, rfl⟩

/-- Settles O58: attachment and loss, resets, suspension and resume, control requests, reports, replies and failures. -/
theorem functionServes : Obligations.FunctionServes := by
  unfold Obligations.FunctionServes
  intro s inv
  refine ⟨fun may low => ?_, fun low => ?_, fun high => ?_, fun up free some' => ⟨?_, fun awake => ?_⟩, fun asleep => ⟨?_, fun remote wake still => ?_⟩,
    fun free => ⟨fun a st => ?_, fun n st most => ?_, fun least most => ⟨?_, ?_, ?_, fun n => ?_, fun b => ?_, fun m some' => ?_⟩⟩,
    fun up => ⟨fun e a high => ?_, fun q bs offered => ?_, fun none' events due => ?_, fun y rest replies => ?_, fun e => ?_⟩, fun offered => ?_, ?_⟩
  · exact ⟨_, if_pos (by simp [may, low]), rfl, (Nat.le_max_left _ _).trans (Nat.le_max_right _ _)⟩
  · exact ⟨_, if_neg (by simp [low]), rfl, rfl⟩
  · let x := (s.modUsb fun u => { u with vbus := false }).resetFunction.leaveSuspend
    have executes : exec .vbusLost s = .next ((x.dropUsb.log 0x40 nUSB 0 2).raise 26) := if_neg (by simp [high])
    have usb : ((x.dropUsb.log 0x40 nUSB 0 2).raise 26).usb = x.dropUsb.usb := by rw [State.raise_usb, State.log_usb]
    have vbus : x.usb.vbus = false := by rw [State.leaveSuspend_stays.2.1]; rfl
    exact ⟨_, executes, by rw [usb]; exact vbus, by rw [usb]; rfl, by rw [usb]; rfl, by simp⟩
  · let x := ({ s with freeCount := s.freeCount + 1 } : State).resetFunction.leaveSuspend
    let y := x.modUsb fun u => { u with state := 2, speed := 1 + b2n (Config.highSpeedHost s.freeCount) }
    have executes : exec .usbBusReset s = .next (((y.bump nUSB 14 0 16).log 0x40 nUSB 0 1).raise 26) := if_neg (by simp [up, free, some'])
    obtain ⟨address, -, counts⟩ := State.leaveSuspend_stays (s := ({ s with freeCount := s.freeCount + 1 } : State).resetFunction)
    have apart : Elsewhere nUSB 14 0 := elsewhere_usb (by decide) (by decide)
    have usb : (((y.bump nUSB 14 0 16).log 0x40 nUSB 0 1).raise 26).usb = y.usb := by
      rw [State.raise_usb, State.log_usb]
      rfl
    have speed : y.usb.speed = 1 ∨ y.usb.speed = 2 := by
      change 1 + b2n (Config.highSpeedHost s.freeCount) = 1 ∨ 1 + b2n (Config.highSpeedHost s.freeCount) = 2
      cases Config.highSpeedHost s.freeCount <;> decide
    refine ⟨_, executes, by rw [usb]; rfl, by rw [usb]; exact address, by rw [usb]; exact speed, by simp, ?_⟩
    rw [State.raise_count _ apart.lost, State.log_count _ _ _ _ _ apart.dropped, State.bump_count_same (by decide), State.modUsb_count, counts apart]
    rfl
  · let x := s.each [0, 1] State.suspendStream
    let stop := !s.flag nUSB 0 1 && s.drill.mode == 1
    let run : PendingRun := { ticket := none, start := false, named := none }
    obtain ⟨state, counts⟩ := State.suspendStreams_parts inv
    obtain ⟨suspended, five, before, told, counted⟩ := State.suspendFunction_parts (s := x) stop
    have executes : exec .usbSuspend s = .next (if stop then (x.suspendFunction stop).setRun (some run) else x.suspendFunction stop) :=
      if_neg (by simp [up, free, some', awake])
    refine ⟨_, executes, ?_⟩
    split
    · rw [State.setRun_usb, State.setRun_count (elsewhere_usb (by decide) (by decide)), counted, counts]
      exact ⟨suspended, five, before.trans state, State.setRun_eventsKept _ _ told, rfl⟩
    · exact ⟨suspended, five, before.trans state, told, by rw [counted, counts]⟩
  · obtain ⟨usb, told, -⟩ := State.leaveSuspend_resumes asleep
    exact ⟨_, rfl, by rw [usb]; rfl, by rw [usb]; rfl, told⟩
  · exact ⟨_, if_pos (by simp [asleep, remote, wake, still]), rfl, rfl⟩
  · have serves : (decide (s.usb.state < 2) || decide (4 < s.usb.state) || s.usb.fence.isSome) = false := by
      rcases st with h | h <;> simp [h, free]
    have other : s.usb.state ≠ 4 := by omega
    refine ⟨_, (if_neg (by rw [serves]; decide)).trans (congrArg Host.Outcome.next (if_neg other)), rfl, ?_, rfl⟩
    by_cases zero : a = 0
    · rw [if_pos zero]
      exact if_pos (by simpa using zero)
    · rw [if_neg zero]
      exact if_neg (by simpa using zero)
  · have serves : (decide (s.usb.state < 2) || decide (4 < s.usb.state) || s.usb.fence.isSome) = false := by
      rcases st with h | h <;> simp [h, free]
    have known : ¬(decide (s.usb.state = 2) || decide (1 < n.toNat)) = true := by
      rcases st with h | h <;> simp [h, most]
    exact ⟨_, (if_neg (by rw [serves]; decide)).trans (congrArg Host.Outcome.next (if_neg known)), rfl, rfl⟩
  · exact ⟨_, if_neg (by simp [free]; omega), rfl⟩
  · exact ⟨_, if_neg (by simp [free]; omega), rfl, rfl⟩
  · exact ⟨_, if_neg (by simp [free]; omega), rfl, rfl⟩
  · refine ⟨_, if_neg (by simp [free]; omega), ?_⟩
    dsimp only
    cases s.functionDescriptor n.toNat with
    | none => exact ⟨rfl, rfl⟩
    | some bs => exact ⟨rfl, rfl⟩
  · exact ⟨_, if_neg (by simp [free]; omega), rfl, rfl⟩
  · exact ⟨_, (if_neg (by simp [free]; omega)).trans (congrArg Host.Outcome.next (if_neg some')), rfl, rfl⟩
  · have serves : (!s.usbUp) = false := by simp [up]
    by_cases refused : e = 1 ∧ a = 3
    · have stalls : ((e.val == 1 && a.val == 3) || (s.usb.speed != 2 && a.val != 0)) = true := by
        obtain ⟨rfl, rfl⟩ := refused
        rfl
      refine ⟨_, (if_neg (by rw [serves]; decide)).trans (if_pos stalls), ?_⟩
      rw [if_pos refused]
      exact ⟨rfl, rfl⟩
    · have takes : ((e.val == 1 && a.val == 3) || (s.usb.speed != 2 && a.val != 0)) = false := by
        simp [high]
        omega
      refine ⟨_, (if_neg (by rw [serves]; decide)).trans (if_neg (by rw [takes]; decide)), ?_⟩
      rw [if_neg refused]
      refine ⟨rfl, ?_⟩
      refine (congrArg Stream.alt (nth_updAt_self {} s.usb.streams e.val _ (by rw [inv.streams]; exact e.isLt))).trans ?_
      by_cases zero : a.val = 0
      · rw [if_pos zero, zero]
        rfl
      · rw [if_neg zero]
  · have executes : exec .ep3Report s = .next (s.modUsb fun u => { u with out := bs }) := by
      refine (if_neg (by simp [up]) : execEp3Report s = _).trans ?_
      simp only [offered]
    exact ⟨_, executes, rfl, rfl⟩
  · have forms : (decide (s.ev.ep3Acc = 0) || !(match s.ev.ep3Last with | some t => decide (t + s.coalesce ≤ s.tm.now) | none => true)) = false := by
      cases last : s.ev.ep3Last <;> simp_all
    have executes : exec .ep3Report s = .next ((s.modEv fun e => { e with
        ep3Report := some (e.ep3Seq, s.reportBytes)
        ep3Mask := e.ep3Acc
        ep3Seq := (e.ep3Seq + 1) % 65536
        ep3Last := some s.tm.now }).modUsb fun u => { u with out := s.reportBytes }) := by
      refine (if_neg (by simp [up]) : execEp3Report s = _).trans ?_
      rw [none']
      exact if_neg fun idle => Bool.false_ne_true (forms.symm.trans idle)
    exact ⟨_, executes, rfl, rfl, rfl⟩
  · let x := s.modUsb fun u => { u with out := y.bytes }
    have executes : exec .ep2ReplyRead s = .next (x.collect 0) := by
      simp only [exec, execEp2ReplyRead, replies, up, if_true]
      rfl
    obtain ⟨usb, chans⟩ := State.collect_parts (s := x) 0
    refine ⟨_, executes, by rw [usb]; rfl, ?_⟩
    rw [chans]
    refine (congrArg Chan.replies (nth_updAt_self {} s.mb.chans 0 _ (by rw [inv.chans]; decide))).trans ?_
    rw [replies]
    rfl
  · obtain ⟨x, abandoned, count, chans⟩ : ∃ x : State, s.abandonBulk e = (x.bump nUSB 15 0 16).log 0x40 nUSB 0 4 ∧ x.count = s.count
        ∧ x.mb.chans = s.mb.chans := by
      cases e <;> exact ⟨_, rfl, rfl, rfl⟩
    refine ⟨_, congrArg Host.Outcome.next (if_pos up), ?_, ?_⟩
    · rw [abandoned, State.log_count _ _ _ _ _ (elsewhere_usb (by decide) (by decide)).dropped, State.bump_count_same (by decide), count]
    · rw [abandoned, State.log_mb]
      exact chans
  · exact ⟨_, if_neg (by simpa using Option.isSome_iff_ne_none.mp offered), rfl, fun k low => bitAt_cleared _ _ low⟩
  · exact ⟨_, rfl, by rw [State.fail_failures]⟩

end Sys2Proof.Machine
end
